-- ==== Sys2Proof/Word.lean ====
section
/-! DEFINITION. Word.lean: the 32-bit register and payload word, sparse tables, and the plainest arithmetic of the
spec: convergent rounding, saturation and the value formats of R11. -/

namespace Sys2Proof

/-- A register or payload word (spec/12 R355, spec/21 R601). -/
abbrev Word := BitVec 32

/-- A sparse table: entries in strictly rising key order. -/
abbrev KMap (α : Type) := List (Nat × α)

/-- A value in LogQ form: units of 1/256 dB, −32,768 to 32,767 (spec/00 R11). -/
abbrev LogQ := Int

/-- The highest LogQ value, +127.996 dB: a supervisor that sets no limit (spec/01 R24). -/
abbrev logMax : LogQ := 32767

/-- The lowest LogQ value, −128.0 dB. -/
abbrev logMin : LogQ := -32768

/-- Saturation of an integer into a signed range (spec/00 R12). -/
def clampInt (lo hi x : Int) : Int := if x < lo then lo else if hi < x then hi else x

/-- Saturation into LogQ (spec/00 R11, R12). -/
def satLog (x : Int) : LogQ := clampInt logMin logMax x

/-- Saturation of a count into a field of `w` bits (spec/12, Registers). -/
def satCount (w n : Nat) : Nat := min n (2 ^ w - 1)

/-- A saturating counter of `w` bits steps by one. -/
def incSat (w n : Nat) : Nat := satCount w (n + 1)

/-- A wrapping counter of `w` bits steps by one. -/
def incWrap (w n : Nat) : Nat := (n + 1) % 2 ^ w

/-- Convergent rounding of `n / d` (spec/00 R12): to nearest, ties to even. -/
def roundDiv (n : Int) (d : Nat) : Int :=
  let q := n / (d : Int)
  let r := n % (d : Int)
  if 2 * r < d then q
  else if (d : Int) < 2 * r then q + 1
  else if q % 2 = 0 then q else q + 1

/-- Ceiling of `n / d` on naturals. -/
def ceilDiv (n d : Nat) : Nat := (n + d - 1) / d

end Sys2Proof
end

