-- ==== Sys2Proof/Packet.lean ====
section
/-! DEFINITION. Packet.lean: the records that commands and events carry as operands. What the analog world, a peer
or a memory gives at an event (a level, a duration, a frame) is an operand of its row (log entry 5, DESIGN CHOICE). -/

namespace Sys2Proof

/-- A command packet as its source presents it (spec/12 R355). OPCODE is the row's own. `payload` is the LENGTH words;
`whole` is false when the packet runs past the flue frame or the script record that carries it (R370), or past the
slots that SQ_TAIL has submitted; `rsv` is true when a header bit that R355 marks 0 is not 0; `roundEnd` is the digest that
an END frame of the group leader carries (spec/15 R457), and `port` and `frame` are the flue port 2h + p that received the leader's frame
and that frame's SEQ (spec/15 R444, R446). `code` is the
OPCODE of a packet whose opcode the command index does not list: such a packet comes as the row PAD (R369, R376). -/
structure Packet where
  src : Nat := 0
  flags : Nat := 0
  hearth : Nat := 0
  sect : Nat := 0
  tag : Nat := 0
  seq : Nat := 0
  payload : List Word := []
  whole : Bool := true
  rsv : Bool := false
  roundEnd : Option Nat := none
  port : Nat := 0
  frame : Nat := 0
  code : Option Nat := none
  deriving DecidableEq, Repr

/-- A REPLY frame of a member: the port that receives it, SEQUENCE of the leader packet that it answers, and its STATUS (spec/15 R446,
R457; log entry 149, DESIGN CHOICE). -/
structure ReplyIn where
  port : Nat := 0
  cmd : Nat := 0
  status : Nat := 0
  deriving DecidableEq, Repr

/-- A doorbell write of SQ_TAIL: its value, and the DSP clock at which it completes (spec/02 R45; spec/12 R361, R370). -/
structure TailWrite where
  tail : Nat := 0
  clk : Nat := 0
  deriving DecidableEq, Repr

/-- What a Kindling stage meets in the outside world (spec/20 R572): hearths whose DRAM training fails, and whether
the image held in DRAM fails its re-hash (R573). -/
structure BootIn where
  trainFail : List Nat := []
  hashBad : Bool := false
  deriving DecidableEq, Repr

/-- A log entry that finds its queue full (spec/16 R491). -/
structure LogIn where
  code : Nat := 0
  data : List Nat := []
  deriving DecidableEq, Repr

/-- The sums of one tick of a canceller path (spec/04 R111, R116): |S|, the sums P of |x|² at lag DECOR and of |e|², the
correlations G[k], the squared magnitude of ρ's numerator and its denominator, all in units of 2^-30 (the square of 2^-60), and
whether the section's RX channel filter or e_B saturated. -/
structure PathIn where
  n : Nat := 0
  power : Nat := 0
  error : Nat := 0
  g : List (Int × Int) := []
  rho : Nat := 0
  base : Nat := 0
  sat : Bool := false
  deriving DecidableEq, Repr

/-- The samples of a chain's ADC in a tick, two for each of its DSP clocks: I and Q of the 14-bit words of an RX chain (0 to 3 in the
order of R94) or of an ORX (4, 5) (spec/08 R230). -/
structure SampleIn where
  h : Nat := 0
  c : Nat := 0
  v : List (Int × Int) := []
  deriving DecidableEq, Repr

/-- A level of a section's direction and branch, in LogQ dBFS. -/
structure LevelIn where
  h : Nat := 0
  i : Nat := 0
  k : Nat := 0
  level : Int := 0
  deriving DecidableEq, Repr

/-- A tick of a TX sum (spec/08 R251, spec/03 R93): its mean power, whether a sample of non-zero value entered it through
an open gate, and whether it saturated. -/
structure SumIn where
  h : Nat := 0
  c : Nat := 0
  level : Int := 0
  counted : Bool := false
  sat : Bool := false
  deriving DecidableEq, Repr

/-- What SETPT_P shows: its level, and in DSP clocks the time since its last edge and the length and high part of its latest complete
period (spec/07 R204). -/
structure SetptIn where
  level : Bool := false
  age : Nat := 0
  period : Nat := 0
  high : Nat := 0
  deriving DecidableEq, Repr

/-- What the set-point pins read when the validity of one of them changes: the code of SETPT_A, and what SETPT_P shows
(spec/07 R204, R205). -/
structure SetptChange where
  code : Nat := 0
  shows : SetptIn := {}
  deriving DecidableEq, Repr

/-- The level that a GPIO pin has had for 64 DSP clocks up to a clock (spec/06 R172). -/
structure PinChange where
  pin : Nat := 0
  clk : Nat := 0
  level : Bool := false
  deriving DecidableEq, Repr

/-- A loss of lock: the synthesiser, and the DSP clock of the loss (spec/06 R171, R177). -/
structure LockLoss where
  n : Nat := 0
  clk : Nat := 0
  deriving DecidableEq, Repr

/-- What the analog world gives in the tick that a CONTROL_TICK ends (log entry 5, DESIGN CHOICE): the samples of RX chains and ORX;
RX chains with ADC overload (hearth, chain); synthesisers that entered SETTLE; the VDDA_RF monitor of hearths, in mV; GPIO levels of
hearths; the latest code of SETPT_A, and what SETPT_P shows. -/
structure TickIn where
  samples : List SampleIn := []
  adc : List (Nat × Nat × List Nat) := []
  settled : List (Nat × Nat) := []
  vdda : List (Nat × Nat) := []
  gpio : List (Nat × Nat) := []
  setA : Option Nat := none
  setP : Option SetptIn := none
  deriving DecidableEq, Repr

/-- The result of a completed estimate (spec/09 R282, R296): whether its consistency check passed, the changes of the
chain's response in the units of a delta, the chain's correction hardware values with the new correction, and
the quality values of an IQ, DC or leakage item. -/
structure LcalResult where
  good : Bool := true
  gain : Int := 0
  phase : Int := 0
  delay : Int := 0
  corr : List Word := []
  image : Int := 0
  leak : Int := 0
  deriving DecidableEq, Repr

/-- A detection of a cell (spec/10 R303 to R305, R311): RAT, PCI, the mean power per resource element of its SSS at d_B in LogQ
dBFS, SS-SINR, the DSP clocks from the boundary of the running device frame to the start of the PSS symbol or the SSB at the DRX
pin, for LTE whether the SSS is that of subframe 5 and whether the frame structure is TDD, SSB index, half-frame bit, carrier
offset, the observed sync period, and, when a MIB was decoded with a correct CRC, its 24 bits with the SFN bits that come beside
it. -/
structure CellIn where
  rat : Nat := 0
  pci : Nat := 0
  power : Int := 0
  sinr : Int := 0
  start : Int := 0
  sub5 : Bool := false
  tdd : Bool := false
  ssbIdx : Nat := 0
  half : Bool := false
  fofs : Int := 0
  period : Nat := 0
  mib : Option (Nat × Nat) := none
  deriving DecidableEq, Repr

/-- A component of AIR's own spectrum of a tracked section's DL passband (spec/10 R318): section, branch, frequency, the width of
a spectral bin in Freq units, its power and the powers of the 8 components on each side, in units of 2^-30 of full scale. -/
structure LineIn where
  sect : Nat := 0
  branch : Nat := 0
  freq : Nat := 0
  bin : Nat := 0
  power : Nat := 0
  sides : List Nat := []
  deriving DecidableEq, Repr

/-- A visit of the tracked cells on one frequency and DL chain, or a scan dwell at a raster point that began in the tick `first`
(spec/10 R301, R302, R310). -/
structure VisitIn where
  chain : Nat := 0
  freq : Nat := 0
  first : Nat := 0
  found : List CellIn := []
  lines : List LineIn := []
  deriving DecidableEq, Repr

/-- A dwell of a scan (spec/10 R302): the same as a visit. -/
abbrev DwellIn := VisitIn

/-- The requester of a failed DMA read (spec/14 R417): the capture of a hearth, or a stream of a section, and whether the read timed
out or completed with UR or CA. -/
structure DmaErr where
  timeout : Bool := false
  capture : Bool := false
  hearth : Nat := 0
  sect : Nat := 0
  kind : Nat := 0
  deriving DecidableEq, Repr

/-- A stream block (spec/14 R419 to R422): whether its staging memory failed; on import, whether the host ring gives a block, and the
words of the block. -/
structure BlockIn where
  memErr : Bool := false
  ready : Bool := true
  words : List Word := []
  deriving DecidableEq, Repr

/-- A received BEACON whose header passes R445 (spec/15 R444, R446, R451): the port 2h + p that received it, the DSP clock of
its last byte, its SRC and SEQ, its source MAC address, whether the receiver also hears another sender of that
index, and the fields of its payload that a receiver uses. -/
structure Beacon where
  port : Nat := 0
  src : Nat := 0
  seq : Nat := 0
  clk : Nat := 0
  mac : Nat := 0
  twin : Bool := false
  major : Nat := 1
  minor : Nat := 0
  acting : Nat := 1
  mismatch : Bool := false
  digestAgree : Bool := false
  term : Nat := 0
  groupMinor : Nat := 0
  digest : Nat := 0
  offset : Nat := 0
  gmId : Nat := 0
  deriving DecidableEq, Repr

/-- A Sync message with its Follow_Up, if any (spec/15 R464, R465): the port and the domain, the time at which the master sent it, the
device time of its reception at the PCS, and its correction, in units of 2^-16 ns. -/
structure PtpSync where
  port : Nat := 0
  domain : Nat := 0
  origin : Int := 0
  ingress : Int := 0
  corr : Int := 0
  deriving DecidableEq, Repr

/-- A completed delay measurement (spec/15 R464): whether it is the peer-to-peer mechanism's, the four timestamps of its two messages
in the order of IEEE 1588, and the sum of their corrections, in units of 2^-16 ns. -/
structure DelayIn where
  peer : Bool := false
  t1 : Int := 0
  t2 : Int := 0
  t3 : Int := 0
  t4 : Int := 0
  corr : Int := 0
  deriving DecidableEq, Repr

/-- An Announce or delay message (spec/15 R464): the port and the domain, whether it is an Announce, and then the grandmaster's
clockIdentity and the port's SLAVE state that the best master clock algorithm gives (log entry 124, PRESUMED), and a delay measurement that it
completes. -/
structure PtpMsg where
  port : Nat := 0
  domain : Nat := 0
  announce : Bool := false
  gmId : Nat := 0
  slave : Bool := false
  delay : Option DelayIn := none
  deriving DecidableEq, Repr

/-- A TRANSPORT frame that passes R445 (spec/15 R469, R470): the port that received it, the DSP clock of its last byte, and its
payload. -/
structure TransportIn where
  port : Nat := 0
  clk : Nat := 0
  words : List Word := []
  deriving DecidableEq, Repr

/-- An entry of a PROBE_REPORT (spec/15 R476): section, KIND, transmitter index, level and correlation figure. -/
structure ProbeItem where
  sect : Nat := 0
  sent : Bool := false
  index : Nat := 0
  level : Int := 0
  figure : Int := 0
  deriving DecidableEq, Repr

/-- The 10 symbols of each of the 16 beats of a DRAM line (spec/16 R499). -/
abbrev DramLine := List (List Nat)

/-- A read of a DRAM line: subchannel, rank, address and beats (spec/16 R499, R500). -/
structure LineRead where
  sub : Nat := 0
  rank : Nat := 0
  address : Nat := 0
  line : DramLine := []
  deriving DecidableEq, Repr

/-- A received PROBE_REPORT whose header passes R445 (spec/15 R476). -/
structure ProbeReport where
  port : Nat := 0
  src : Nat := 0
  seq : Nat := 0
  start : Nat := 0
  items : List ProbeItem := []
  deriving DecidableEq, Repr

/-- The bytes of a received Ethernet frame, from its destination address to the byte before its FCS (spec/15 R444). -/
abbrev FrameBytes := List (BitVec 8)

/-- A register write that takes effect at a boundary: a master's write of a value to an offset of PF0 BAR0, and a write of
CPXQ_CFG.ENABLE of queue 0 (spec/21 R603; spec/12 R373). -/
inductive LateWrite where
  | register (m a : Nat) (v : Word)
  | queue (on : Bool)
  deriving DecidableEq, Repr

/-- What has happened at a clock of a tick and is captured in phase 0 of the next (spec/02 R43): a log entry; a Grate phase
reset of a hearth with its source, clock, count and blanked sections (spec/03 R96); a frame tick, with what pattern watch
measured, whether a frame closed and whether one opened, and the clock and the time of its boundary (spec/02 R47, R64); a boundary of
the frame source's timing at a DSP clock (spec/02 R55); a frame source that has stopped being valid (spec/02 R54); a TDD switch line
that disagrees with its pattern (spec/06 R172); a duty closure (spec/06 R176); a quench trigger (spec/06 R178); the end of a squelch
window (spec/06 R164); the end of a detector window (spec/05 R146); a synthesiser that has locked, failed or lost lock (spec/08 R237,
R238); a beacon and a reply of the group (spec/15 R452, R457); a Sync and another message of PTP (spec/15 R464, R465); an alignment from
the PTP or AIR source (spec/02 R53); a register write (spec/21 R603). -/
inductive Arrival where
  | note (h code : Nat) (data : List Nat)
  | reset (h src clk count blanked : Nat)
  | frameTick (closed opened : Bool) (clk time : Nat)
  | align (clk : Int)
  | sourceLost
  | mismatch (h c : Nat)
  | dutyGate (h i d count : Nat)
  | quench (reason detail h i : Nat)
  | squelch (h i b : Nat)
  | spectrum (h i k : Nat)
  | synLocked (h n ns : Nat)
  | synFailed (h n : Nat)
  | synLost (h n : Nat)
  | beacon (b : Beacon)
  | groupReply (member seq : Nat) (a : ReplyIn)
  | ptpSync (x : PtpSync)
  | ptpMessage (m : PtpMsg)
  | alignment (clk : Int) (sfn : Option Nat)
  | write (w : LateWrite)
  deriving DecidableEq, Repr

end Sys2Proof
end

