-- ==== Sys2Proof/Syntax.lean ====
section
/-! DEFINITION. Syntax.lean: the commands and events of the block, one constructor for each row of the opcode table.
A command of the index (spec/13) takes its packet; an event takes where it happens and what the outside world gives. Rows
without operands stand last. -/

namespace Sys2Proof

/-- A command or event of the block. -/
inductive Instr where
  /-- RESET_N_RISE (R569). -/
  | resetNRise (bootSrc : Nat) (refsel : Bool)
  /-- BOOT_STAGE_COMPLETE (R572). -/
  | bootStageComplete (b : BootIn)
  /-- KINDLING_COMPLETE (R32). -/
  | kindlingComplete (ms : Nat)
  /-- CONTROL_TICK (R42). -/
  | controlTick (x : TickIn)
  /-- SECTION_UNDAMP (R37). -/
  | sectionUndamp (h : Nat) (i : Nat)
  /-- SECTION_RAMP_DONE (R203). -/
  | sectionRampDone (h : Nat) (i : Nat)
  /-- DOWN_RAMP_END (R34). -/
  | downRampEnd (h : Nat) (i : Nat)
  /-- SECTION_RESUME (R37). -/
  | sectionResume (h : Nat) (i : Nat)
  /-- FRAME_BOUNDARY (R47). -/
  | frameBoundary (clk : Nat)
  /-- FRAME_ALIGNMENT (R55). -/
  | frameAlignment (clk : Int) (sfn : Option Nat)
  /-- PPS_IN_EDGE (R53). -/
  | ppsInEdge (clk : Nat)
  /-- SYNC_N_EDGE (R61). -/
  | syncNEdge (clk : Nat)
  /-- GRT_BLANK_END (R85). -/
  | grtBlankEnd (h : Nat) (i : Nat)
  /-- SCHEDULED_ACTION (R62). -/
  | scheduledAction (handle : Nat) (clk : Nat)
  /-- SECTION_DEFINE (R72). -/
  | sectionDefine (p : Packet)
  /-- SECTION_DELETE (R87). -/
  | sectionDelete (p : Packet)
  /-- SECTION_QUERY (R88). -/
  | sectionQuery (p : Packet)
  /-- SECTION_START (R37). -/
  | sectionStart (p : Packet)
  /-- SECTION_STOP (R37). -/
  | sectionStop (p : Packet)
  /-- GRATE_SYNC (R90). -/
  | grateSync (p : Packet)
  /-- BDC_PATH_CONFIG (R129). -/
  | bdcPathConfig (p : Packet)
  /-- BDC_PATH_QUERY (R130). -/
  | bdcPathQuery (p : Packet)
  /-- BDC_PATH_MODE (R131). -/
  | bdcPathMode (p : Packet)
  /-- BDC_TAP_RESET (R132). -/
  | bdcTapReset (p : Packet)
  /-- BDC_SNAPSHOT (R133). -/
  | bdcSnapshot (p : Packet)
  /-- SNAPSHOT_DRAM_DONE (R133). -/
  | snapshotDramDone (h : Nat) (i : Nat)
  /-- BDC_RESTORE (R133). -/
  | bdcRestore (p : Packet)
  /-- RESTORE_APPLY (R127). -/
  | restoreApply (h : Nat) (i : Nat)
  /-- BDC_MEAS_PUBLISH (R119). -/
  | bdcMeasPublish (h : Nat) (n : Nat)
  /-- ACQUISITION_END (R114). -/
  | acquisitionEnd (h : Nat) (n : Nat)
  /-- PATH_FREEZE (R118). -/
  | pathFreeze (h : Nat) (n : Nat)
  /-- BDC_COMPACTION_STEP (R107). -/
  | bdcCompactionStep (h : Nat)
  /-- LINE_DETECT (R147). -/
  | lineDetect (h : Nat) (i : Nat) (d : Nat) (b : Nat) (first : Nat) (last : Nat)
  /-- TONE_TEST_HALF_PERIOD (R149). -/
  | toneTestHalfPeriod (h : Nat) (i : Nat) (d : Nat)
  /-- STRANGER_MASK_EXPIRY (R151). -/
  | strangerMaskExpiry (h : Nat) (i : Nat) (d : Nat) (b : Nat) (bin : Nat)
  /-- INPUT_STALE (R159). -/
  | inputStale (h : Nat) (n : Nat)
  /-- SQUELCH_WINDOW (R164). -/
  | squelchWindow (h : Nat) (i : Nat) (b : Nat) (first : Nat)
  /-- UPLINK_IDLE (R166). -/
  | uplinkIdle (h : Nat) (i : Nat)
  /-- NOISE_FLOOR_SUBPERIOD (R165). -/
  | noiseFloorSubperiod (h : Nat) (i : Nat)
  /-- DUTY_LIMIT_REACHED (R176). -/
  | dutyLimitReached (h : Nat) (i : Nat) (d : Nat)
  /-- SWITCH_MISMATCH (R172). -/
  | switchMismatch (h : Nat) (x : PinChange)
  /-- QUENCH_RETRY (R179). -/
  | quenchRetry (h : Nat) (i : Nat)
  /-- QUENCH_HISTORY_RESET (R179). -/
  | quenchHistoryReset (h : Nat) (i : Nat)
  /-- LIMIT_COPY_RELOAD (R187). -/
  | limitCopyReload (h : Nat)
  /-- DMP_CONFIG (R153). -/
  | dmpConfig (p : Packet)
  /-- DMP_QUERY (R154). -/
  | dmpQuery (p : Packet)
  /-- DMP_STRANGER_CLEAR (R155). -/
  | dmpStrangerClear (p : Packet)
  /-- DMP_GROUP_CEIL (R156). -/
  | dmpGroupCeil (p : Packet)
  /-- SPA_CONFIG (R182). -/
  | spaConfig (p : Packet)
  /-- SPA_QUERY (R183). -/
  | spaQuery (p : Packet)
  /-- SPA_HISTORY_CLEAR (R184). -/
  | spaHistoryClear (p : Packet)
  /-- HANDOVER_END (R209). -/
  | handoverEnd (h : Nat) (n : Nat)
  /-- LOST_HOLD_EXPIRY (R212). -/
  | lostHoldExpiry (h : Nat) (n : Nat)
  /-- TUNE_TIMEOUT (R215). -/
  | tuneTimeout (h : Nat) (n : Nat)
  /-- EXTERNAL_RAMP_TIMEOUT (R203). -/
  | externalRampTimeout (h : Nat) (n : Nat)
  /-- SETPT_VALIDITY_CHANGE (R205). -/
  | setptValidityChange (pin : Nat) (x : SetptChange)
  /-- LOOP_CONFIG (R218). -/
  | loopConfig (p : Packet)
  /-- LOOP_QUERY (R219). -/
  | loopQuery (p : Packet)
  /-- LOOP_CLOSE (R220). -/
  | loopClose (p : Packet)
  /-- LOOP_OPEN (R206). -/
  | loopOpen (p : Packet)
  /-- LOOP_MODE (R221). -/
  | loopMode (p : Packet)
  /-- LOOP_SETPOINT (R222). -/
  | loopSetpoint (p : Packet)
  /-- LOOP_TUNE (R223). -/
  | loopTune (p : Packet)
  /-- LOOP_TABLE (R224). -/
  | loopTable (p : Packet)
  /-- SETPT_CONFIG (R225). -/
  | setptConfig (p : Packet)
  /-- SYN_LOCKED (R237). -/
  | synLocked (h : Nat) (n : Nat) (ns : Nat)
  /-- SYN_ATTEMPT_FAIL (R238). -/
  | synAttemptFail (h : Nat) (n : Nat)
  /-- SYN_LOCK_LOST (R238). -/
  | synLockLost (h : Nat) (x : LockLoss)
  /-- SYNTH_WAIT_EXPIRY (R240). -/
  | synthWaitExpiry (h : Nat) (i : Nat)
  /-- PMBUS_SUPPLY_READ (R248). -/
  | pmbusSupplyRead (h : Nat) (n : Nat) (value : Option Nat)
  /-- PORT_EVALUATION (R251). -/
  | portEvaluation (h : Nat) (n : Nat)
  /-- TRIM_DELAY_EXPIRY (R249). -/
  | trimDelayExpiry (h : Nat) (n : Nat)
  /-- ACT_SEQUENCE_END (R260). -/
  | actSequenceEnd (h : Nat) (n : Nat)
  /-- STEP_TABLE_RELOAD (R274). -/
  | stepTableReload (h : Nat) (n : Nat)
  /-- RADIO_CONFIG (R262). -/
  | radioConfig (p : Packet)
  /-- PWR_TABLE_WRITE (R263). -/
  | pwrTableWrite (p : Packet)
  /-- PWR_PORT_CONFIG (R264). -/
  | pwrPortConfig (p : Packet)
  /-- FES_CONFIG (R265). -/
  | fesConfig (p : Packet)
  /-- FES_GPIO_CONFIG (R266). -/
  | fesGpioConfig (p : Packet)
  /-- FES_SEQ_WRITE (R267). -/
  | fesSeqWrite (p : Packet)
  /-- FES_BUS_ACCESS (R268). -/
  | fesBusAccess (p : Packet)
  /-- BUS_OPERATION_DONE (R268). -/
  | busOperationDone (h : Nat) (data : Option Nat) (clk : Nat)
  /-- RFFE_READ_TIMEOUT (R261). -/
  | rffeReadTimeout (h : Nat)
  /-- LCAL_ESTIMATE_START (R276). -/
  | lcalEstimateStart (h : Nat) (c : Nat) (item : Nat)
  /-- LCAL_ESTIMATE_COMPLETE (R282). -/
  | lcalEstimateComplete (h : Nat) (c : Nat) (item : Nat) (r : LcalResult)
  /-- LCAL_ESTIMATE_ABANDON (R279). -/
  | lcalEstimateAbandon (h : Nat) (c : Nat) (item : Nat)
  /-- DELTA_WITHDRAW (R288). -/
  | deltaWithdraw (h : Nat) (c : Nat)
  /-- ORX_ALTERNATE (R280). -/
  | orxAlternate (h : Nat) (n : Nat)
  /-- LCAL_CONFIG (R291). -/
  | lcalConfig (p : Packet)
  /-- LCAL_RUN (R292). -/
  | lcalRun (p : Packet)
  /-- LCAL_QUERY (R293). -/
  | lcalQuery (p : Packet)
  /-- LCAL_HOLD (R294). -/
  | lcalHold (p : Packet)
  /-- AIR_VISIT (R310). -/
  | airVisit (h : Nat) (v : VisitIn)
  /-- AIR_SCAN_DWELL (R302). -/
  | airScanDwell (h : Nat) (v : DwellIn)
  /-- AIR_CONFIG (R319). -/
  | airConfig (p : Packet)
  /-- AIR_SCAN_RANGE (R320). -/
  | airScanRange (p : Packet)
  /-- AIR_SECTION_CONFIG (R321). -/
  | airSectionConfig (p : Packet)
  /-- AIR_CELL_READ (R322). -/
  | airCellRead (p : Packet)
  /-- AIR_STRANGER_READ (R323). -/
  | airStrangerRead (p : Packet)
  /-- FIREBRICK_WRITE (R344). -/
  | firebrickWrite (p : Packet)
  /-- FIREBRICK_REVOKE (R344). -/
  | firebrickRevoke (p : Packet)
  /-- FIREBRICK_PROGRAM_DONE (R334). -/
  | firebrickProgramDone (ok : Bool) (left : List Word)
  /-- FIREBRICK_ROW_IN_FORCE (R335). -/
  | firebrickRowInForce (row : Nat)
  /-- FIREBRICK_READ (R345). -/
  | firebrickRead (p : Packet)
  /-- CALSET_QUERY (R346). -/
  | calsetQuery (p : Packet)
  /-- CALSET_EXPORT (R347). -/
  | calsetExport (p : Packet)
  /-- CALSET_IMPORT (R348). -/
  | calsetImport (p : Packet)
  /-- CALSET_STORE (R349). -/
  | calsetStore (p : Packet)
  /-- CALSET_WRITE_DONE (R343). -/
  | calsetWriteDone (ok : Bool)
  /-- SQ_TAIL_WRITE (R361). -/
  | sqTailWrite (q : Nat) (x : TailWrite)
  /-- CQ_HEAD_WRITE (R361). -/
  | cqHeadWrite (q : Nat) (head : Nat)
  /-- SQ_EXTENSION_TIMEOUT (R370). -/
  | sqExtensionTimeout (q : Nat) (p : Packet)
  /-- PAD (R360). -/
  | pad (p : Packet)
  /-- IDENTIFY (R392). -/
  | identify (p : Packet)
  /-- NOP (R394). -/
  | nop (p : Packet)
  /-- HOST_UNLOCK (R399). -/
  | hostUnlock (p : Packet)
  /-- UNLOCK_CHALLENGE (R397). -/
  | unlockChallenge (p : Packet)
  /-- QUEUE_CREATE (R400). -/
  | queueCreate (p : Packet)
  /-- QUEUE_DELETE (R401). -/
  | queueDelete (p : Packet)
  /-- COUNTER_SNAPSHOT (R396). -/
  | counterSnapshot (p : Packet)
  /-- WIDE_READ (R395). -/
  | wideRead (p : Packet)
  /-- PACKAGE_HOLD (R402). -/
  | packageHold (p : Packet)
  /-- SYS_RESET (R403). -/
  | sysReset (p : Packet)
  /-- SCRIPT_CONTROL (R404). -/
  | scriptControl (p : Packet)
  /-- PACKAGE_STATUS (R393). -/
  | packageStatus (p : Packet)
  /-- LINK_RESET (R433). -/
  | linkReset (cause : Nat)
  /-- FLR_VF (R433). -/
  | flrVf (n : Nat)
  /-- D3HOT_CHANGE (R433). -/
  | d3hotChange (pf : Nat) (enter : Bool)
  /-- LINK_RETRAIN (R423). -/
  | linkRetrain (gen : Nat) (width : Nat)
  /-- DMA_READ_ERR (R417). -/
  | dmaReadErr (d : DmaErr)
  /-- STREAM_EXPORT_BLOCK (R420). -/
  | streamExportBlock (h : Nat) (i : Nat) (b : BlockIn)
  /-- STREAM_IMPORT_BLOCK (R422). -/
  | streamImportBlock (h : Nat) (i : Nat) (b : BlockIn)
  /-- STREAM_START_TIME (R425). -/
  | streamStartTime (h : Nat) (i : Nat) (kind : Nat)
  /-- STR_HOST_PTR_WRITE (R436). -/
  | strHostPtrWrite (h : Nat) (i : Nat) (kind : Nat) (ptr : Nat)
  /-- STREAM_CONFIG (R424). -/
  | streamConfig (p : Packet)
  /-- STREAM_CONTROL (R425). -/
  | streamControl (p : Packet)
  /-- CAPTURE_CONFIG (R430). -/
  | captureConfig (p : Packet)
  /-- CAPTURE_ARM (R431). -/
  | captureArm (p : Packet)
  /-- CAPTURE_QUERY (R432). -/
  | captureQuery (p : Packet)
  /-- CAPTURE_TRIGGER (R428). -/
  | captureTrigger (h : Nat) (clk : Nat)
  /-- CAPTURE_RECORD_DONE (R429). -/
  | captureRecordDone (h : Nat)
  /-- CAPTURE_READOUT_DONE (R431). -/
  | captureReadoutDone (h : Nat)
  /-- CAPTURE_TIMEOUT (R431). -/
  | captureTimeout (h : Nat)
  /-- BEACON_RECEIVE (R448). -/
  | beaconReceive (b : Beacon)
  /-- PLAN_ROUND_RETRY (R457). -/
  | planRoundRetry (member : Nat)
  /-- FTF_DISCARD (R445). -/
  | ftfDiscard (port : Nat) (frame : FrameBytes)
  /-- REPLY_FRAME_RECEIVE (R446). -/
  | replyFrameReceive (member : Nat) (seq : Nat) (a : ReplyIn)
  /-- PTP_SYNC_RECEIVE (R465). -/
  | ptpSyncReceive (x : PtpSync)
  /-- PTP_MESSAGE_RECEIVE (R464). -/
  | ptpMessageReceive (m : PtpMsg)
  /-- TRANSPORT_SEND (R469). -/
  | transportSend (h : Nat) (i : Nat)
  /-- TRANSPORT_RECEIVE (R470). -/
  | transportReceive (h : Nat) (i : Nat) (f : TransportIn)
  /-- TRANSPORT_LOST (R471). -/
  | transportLost (h : Nat) (i : Nat)
  /-- TRANSPORT_RESTORED (R471). -/
  | transportRestored (h : Nat) (i : Nat)
  /-- PROBE_WINDOW_START (R473). -/
  | probeWindowStart (n : Nat)
  /-- PROBE_WINDOW_END (R476). -/
  | probeWindowEnd (n : Nat) (start : Nat)
  /-- PROBE_REPORT_RECEIVE (R476). -/
  | probeReportReceive (r : ProbeReport)
  /-- COUPLING_EXPIRY (R476). -/
  | couplingExpiry (n : Nat)
  /-- FLUE_LINK_CHANGE (R486). -/
  | flueLinkChange (h : Nat) (port : Nat) (up : Bool)
  /-- FLUE_PORT_CONFIG (R479). -/
  | fluePortConfig (p : Packet)
  /-- GROUP_CONFIG (R480). -/
  | groupConfig (p : Packet)
  /-- GROUP_QUERY (R481). -/
  | groupQuery (p : Packet)
  /-- PTP_CONFIG (R482). -/
  | ptpConfig (p : Packet)
  /-- SPLIT_CONFIG (R483). -/
  | splitConfig (p : Packet)
  /-- PROBE_SCHEDULE (R484). -/
  | probeSchedule (p : Packet)
  /-- PROBE_READ (R485). -/
  | probeRead (p : Packet)
  /-- DRAM_CORRECTED_READ (R500). -/
  | dramCorrectedRead (h : Nat) (sub : Nat) (rank : Nat) (line : DramLine)
  /-- DRAM_UCE (R504). -/
  | dramUce (h : Nat) (region : Nat) (r : LineRead)
  /-- SCRUB_LINE (R502). -/
  | scrubLine (h : Nat) (sub : Nat) (rank : Nat) (line : DramLine) (overwritten : Bool)
  /-- PAGE_CRC_MISMATCH (R503). -/
  | pageCrcMismatch (h : Nat) (region : Nat) (page : Nat)
  /-- LINK_FRAME_RETRY (R493). -/
  | linkFrameRetry (h : Nat) (link : Nat) (again : Bool)
  /-- LINK_FAIL (R507). -/
  | linkFail (h : Nat) (link : Nat)
  /-- ERROR_DETECTED (R30). -/
  | errorDetected (h : Nat) (source : Nat) (data : Nat)
  /-- FCOL_CAPTURE (R510). -/
  | fcolCapture (h : Nat) (clk : Nat)
  /-- RAIL_FAULT (R511). -/
  | railFault (h : Nat) (source : Nat) (clk : Nat) (data : Nat)
  /-- FCOL_SEQUENCE_END (R515). -/
  | fcolSequenceEnd (h : Nat)
  /-- BLOCK_RESET_RELEASE (R514). -/
  | blockResetRelease (h : Nat)
  /-- FCOL_INJECTION_APPLY (R521). -/
  | fcolInjectionApply (h : Nat) (clk : Nat) (data : Nat)
  /-- FCOL_SOURCE_CONFIG (R524). -/
  | fcolSourceConfig (p : Packet)
  /-- FCOL_INJECT (R521). -/
  | fcolInject (p : Packet)
  /-- FCOL_QUERY (R525). -/
  | fcolQuery (p : Packet)
  /-- LOG_ENTRY_ARRIVAL (R538). -/
  | logEntryArrival (h : Nat)
  /-- LOG_DROP (R491). -/
  | logDrop (h : Nat) (e : LogIn)
  /-- BUCKET_REFILL (R538). -/
  | bucketRefill (code : Nat)
  /-- EMBER_WRITE_DONE (R543). -/
  | emberWriteDone (ok : Bool)
  /-- EMBER_ERASE_DONE (R544). -/
  | emberEraseDone (ok : Bool)
  /-- ALOG_READ (R545). -/
  | alogRead (p : Packet)
  /-- EMBERS_READ (R546). -/
  | embersRead (p : Packet)
  /-- ALOG_RATE_CONFIG (R547). -/
  | alogRateConfig (p : Packet)
  /-- ALOG_MARK (R548). -/
  | alogMark (p : Packet)
  /-- THM_CONVERSION (R553). -/
  | thmConversion (h : Nat) (temps : List Int)
  /-- SHED_TIMER (R559). -/
  | shedTimer (h : Nat)
  /-- THERMAL_TRIP (R561). -/
  | thermalTrip (h : Nat) (zone : Nat)
  /-- THERMAL_CONFIG (R563). -/
  | thermalConfig (p : Packet)
  /-- THERMAL_RESUME (R562). -/
  | thermalResume (p : Packet)
  /-- THERMAL_QUERY (R564). -/
  | thermalQuery (p : Packet)
  /-- ATTEST (R592). -/
  | attest (p : Packet)
  /-- CERT_READ (R591). -/
  | certRead (p : Packet)
  /-- IMAGE_WRITE (R586). -/
  | imageWrite (p : Packet)
  /-- IMAGE_WRITE_DONE (R586). -/
  | imageWriteDone (ok : Bool)
  /-- IMAGE_ACTIVATE (R587). -/
  | imageActivate (p : Packet)
  /-- ROLLBACK_PROGRAM_DONE (R585). -/
  | rollbackProgramDone (ok : Bool)
  /-- OEM_KEY_WRITE (R589). -/
  | oemKeyWrite (p : Packet)
  /-- KEY_PROGRAM_DONE (R589). -/
  | keyProgramDone (ok : Bool)
  /-- TDD_PATTERN_WRITE (R63). -/
  | tddPatternWrite (p : Packet)
  /-- TDD_PATTERN_SELECT (R64). -/
  | tddPatternSelect (p : Packet)
  /-- FRAME_SOURCE (R65). -/
  | frameSource (p : Packet)
  /-- TIME_SET (R66). -/
  | timeSet (p : Packet)
  /-- TIME_SCHEDULE (R67). -/
  | timeSchedule (p : Packet)
  /-- TIME_SCHEDULE_CANCEL (R67). -/
  | timeScheduleCancel (p : Packet)
  /-- WIDE_REQ_WRITE (R607). -/
  | wideReqWrite (m : Nat) (id : Nat)
  /-- WIDE_DATA3_READ (R607). -/
  | wideData3Read (m : Nat)
  /-- SNAP_CMD_WRITE (R608). -/
  | snapCmdWrite (go : Bool)
  /-- SYS_HB_WRITE (R614). -/
  | sysHbWrite (m : Nat) (count : Nat)
  /-- SYS_INT_EN_WRITE (R613). -/
  | sysIntEnWrite (m : Nat) (en : Nat)
  /-- SYS_INT_PEND_CLEAR (R613). -/
  | sysIntPendClear (mask : Nat)
  /-- FCOL_PEND_CLEAR (R531). -/
  | fcolPendClear (h : Nat) (k : Nat) (mask : Word)
  /-- FCOL_ALERT_CLEAR (R526). -/
  | fcolAlertClear (h : Nat)
  /-- FCOL_LOST_CLEAR (R526). -/
  | fcolLostClear (h : Nat)
  /-- FCOL_FF_CLR (R526). -/
  | fcolFfClr (m : Nat) (h : Nat)
  /-- FCOL_CNT_CLR (R526). -/
  | fcolCntClr (h : Nat)
  /-- GRT_TXSAT_CLR (R92). -/
  | grtTxsatClr (h : Nat)
  /-- SEC_SAT_CLR (R94). -/
  | secSatClr (h : Nat) (i : Nat)
  /-- BDC_CNT_CLR (R135). -/
  | bdcCntClr (h : Nat)
  /-- DMP_CNT_CLR (R157). -/
  | dmpCntClr (h : Nat)
  /-- SPA_CNT_CLR (R185). -/
  | spaCntClr (h : Nat)
  /-- BLW_CNT_CLR (R226). -/
  | blwCntClr (h : Nat)
  /-- RFC_CNT_CLR (R269). -/
  | rfcCntClr (h : Nat)
  /-- LCAL_CNT_CLR (R295). -/
  | lcalCntClr (h : Nat)
  /-- AIR_CNT_CLR (R324). -/
  | airCntClr (h : Nat)
  /-- FLU_CNT_CLR (R486). -/
  | fluCntClr (h : Nat)
  /-- XMC_CNT_CLR (R506). -/
  | xmcCntClr (h : Nat)
  /-- XMC_MARK_CLR (R506). -/
  | xmcMarkClr (m : Nat) (h : Nat)
  /-- EMBER_NOW (R549). -/
  | emberNow (m : Nat)
  /-- THM_CNT_CLR (R565). -/
  | thmCntClr (h : Nat)
  /-- REGISTER_WRITE (R603). -/
  | registerWrite (m : Nat) (address : Nat) (value : Word)
  /-- TDD_PATTERN_EDGE (R171). -/
  | tddPatternEdge (h : Nat) (n : Nat) (clk : Nat)
  /-- PPS_OUT_EDGE (R59). -/
  | ppsOutEdge (rise : Bool)
  /-- STEP_SEQUENCE_END (R258). -/
  | stepSequenceEnd (h : Nat) (n : Nat)
  /-- RAIL_FAULT_END (R511). -/
  | railFaultEnd (h : Nat) (source : Nat) (error : Option Nat)
  /-- RESET_N_LOW (R571). -/
  | resetNLow
  /-- POWER_LOSS (R570). -/
  | powerLoss
  /-- WARM_RESET (R571). -/
  | warmReset
  /-- FRAME_SOURCE_INVALID (R54). -/
  | frameSourceInvalid
  /-- HOLDOVER_EXPIRY (R54). -/
  | holdoverExpiry
  /-- PPS_WINDOW_CLOSE (R53). -/
  | ppsWindowClose
  /-- SCRIPT_RECORD (R581). -/
  | scriptRecord
  /-- SCRIPT_WAIT_TIMEOUT (R581). -/
  | scriptWaitTimeout
  /-- SCRIPT_RETRY (R581). -/
  | scriptRetry
  /-- UNLOCK_VERIFY_DONE (R399). -/
  | unlockVerifyDone
  /-- CHALLENGE_EXPIRY (R397). -/
  | challengeExpiry
  /-- UNLOCK_LOCKOUT_END (R399). -/
  | unlockLockoutEnd
  /-- FLR_PF0 (R433). -/
  | flrPf0
  /-- FLR_PF1 (R433). -/
  | flrPf1
  /-- PLAN_ROUND_END (R457). -/
  | planRoundEnd
  /-- LEADER_TAKEOVER (R462). -/
  | leaderTakeover
  /-- DIGEST_TIMEOUT (R460). -/
  | digestTimeout
  /-- PTP_TIMEOUT (R465). -/
  | ptpTimeout
  /-- PTP_HOLDOVER_EXPIRY (R465). -/
  | ptpHoldoverExpiry
  /-- SURVEY_ROUND_START (R478). -/
  | surveyRoundStart
  /-- FAULT_PIN_PULSE_END (R512). -/
  | faultPinPulseEnd
  /-- POWER_FAIL_WARNING (R542). -/
  | powerFailWarning
  /-- RESUME_OK_SET (R562). -/
  | resumeOkSet
  /-- ATTEST_SIGN_DONE (R592). -/
  | attestSignDone
  /-- SNAP_COPY (R608). -/
  | snapCopy
  /-- HEARTBEAT_DECREMENT (R614). -/
  | heartbeatDecrement
  /-- QUEUE0_ENABLE (R373). -/
  | queue0Enable
  /-- QUEUE0_DISABLE (R373). -/
  | queue0Disable
  /-- CPX_CNT_CLR (R372). -/
  | cpxCntClr
  /-- HIF_CNT_CLR (R435). -/
  | hifCntClr
  /-- ALOG_CNT_CLR (R549). -/
  | alogCntClr
  /-- PERST_N_RISE (R434). -/
  | perstNRise
  deriving DecidableEq, Repr

end Sys2Proof
end

