-- ==== Sys2Proof/Decode.lean ====
section
/-! DEFINITION. Decode.lean: the word form of a command. The opcode table of this block gives no row any bits: commands
reach it as packets, register accesses and events, so no word spells one. -/

namespace Sys2Proof

/-- The command that a word of `nbits` bits spells by the opcode table: none, since the table gives no row bits. -/
def decodeTableWord (_nbits _w : Nat) : Option Instr := none

end Sys2Proof
end

