-- ==== Sys2Proof/Config.lean ====
section
/-! DEFINITION. Config.lean: what an implementation fixes and the values that the spec leaves open. Every opaque
constant below has no body: nothing can be proved of its value (log entries 6 to 8). -/

namespace Sys2Proof.Config

/-- A fresh value that the spec leaves free, indexed by the model's own counter (log entry 6, DESIGN CHOICE). -/
opaque freeWord : Nat → BitVec 256

/-- SHA-384 over bytes given as words (log entry 7, DESIGN CHOICE). -/
opaque sha384 : List (BitVec 32) → BitVec 384

/-- SHA-384 over a list of bytes (log entry 7, DESIGN CHOICE). -/
opaque sha384Bytes : List (BitVec 8) → BitVec 384

/-- The Nareri image key and provisioning key held in boot ROM (spec/20 R588). -/
opaque nareriImageKey : Nat
opaque nareriProvisioningKey : Nat

/-- ECDSA brainpoolP384r1 check: public key, message bytes, 96-byte signature (log entry 7, DESIGN CHOICE). -/
opaque ecdsaVerify : Nat → List (BitVec 8) → List (BitVec 32) → Bool

/-- ECDSA signature with the device identity key over message bytes (log entry 7, DESIGN CHOICE). -/
opaque ecdsaSign : List (BitVec 8) → List (BitVec 32)

/-- Whether a 97-byte uncompressed point lies on the curve (spec/20 R589). -/
opaque pointOnCurve : Nat → Bool

/-- The two certificates of spec/20 R591, as bytes of their DER encoding. -/
opaque deviceCert : List (BitVec 8)
opaque nareriCert : List (BitVec 8)

/-- Boot flash size in bytes, which the board fixes (spec/20 R578). -/
opaque flashBytes : Nat

/-- The correction hardware values that a CHAIN_CORR item gives at an LO and an attenuation; an empty item gives the
neutral corrections (spec/11 R340, R341; log entry 7, DESIGN CHOICE). -/
opaque chainCorrection : List (BitVec 32) → Nat → Nat → List (BitVec 32)

/-- The correction hardware values with which a part of a larger change stands: the values before it, those of the whole change, and the
gain, phase and delay of the part (spec/09 R282, R284; log entry 32, DESIGN CHOICE). -/
opaque partCorrection : List (BitVec 32) → List (BitVec 32) → Int → Int → Int → List (BitVec 32)

/-- What the digital front of an RX or ORX chain gives at a DSP clock: DC and IQ image correction by the chain's correction hardware
values, and decimation by 2, over its ADC samples, newest first (spec/08 R230; log entry 139, DESIGN CHOICE). -/
opaque digitalFront : List (BitVec 32) → List (Int × Int) → Int × Int

/-- The two converter samples of a DSP clock of a TX chain: IQ and LO-leakage correction by the chain's correction hardware values, and
interpolation by 2, over its DAC words, newest first (spec/08 R233; log entry 139, DESIGN CHOICE). -/
opaque digitalBack : List (BitVec 32) → List (Int × Int) → (Int × Int) × (Int × Int)

/-- Latency of a section in DSP clocks before its bound applies: RATE, PROFILE, BANDWIDTH, RATIO (spec/03 R82; log entry 8, DESIGN CHOICE). -/
opaque latencyOf : Nat → Nat → Nat → Nat → Nat

/-- TX-side part of a section's latency in DSP clocks: RATE, PROFILE, BANDWIDTH, RATIO (spec/15 R470; log entry 8, DESIGN CHOICE). -/
opaque txLatencyOf : Nat → Nat → Nat → Nat → Nat

/-- LAG_MIN of a path: RATE, PROFILE, BANDWIDTH, RATIO, REF (spec/04 R103; log entry 8, DESIGN CHOICE). -/
opaque lagMinOf : Nat → Nat → Nat → Nat → Bool → Nat

/-- FILT_SPAN of a path: RATE, PROFILE, BANDWIDTH, RATIO, REF (spec/04 R103; log entry 8, DESIGN CHOICE). -/
opaque filtSpanOf : Nat → Nat → Nat → Nat → Bool → Nat

/-- Coefficients of the half-band stages, newest sample first, in units of 2^-30 (spec/03 R74, R78; log entry 101,
DESIGN CHOICE). -/
opaque halfBandTaps : List Int

/-- Coefficients of a channel filter, newest sample first, in units of 2^-30: RATE, PROFILE, BANDWIDTH, RATIO (spec/03 R78;
log entry 101, DESIGN CHOICE). -/
opaque channelTaps : Nat → Nat → Nat → Nat → List Int

/-- The 8 coefficients of a phase, 0 to 1,024, of the resampler's polyphase filter, newest sample first, in units of 2^-30
(spec/03 R79; log entry 101, DESIGN CHOICE). -/
opaque polyphaseTaps : Nat → List Int

/-- Resource blocks that BW shows for a dl-Bandwidth code that no LTE bandwidth has (spec/10 R305; log entry 120, PRESUMED). -/
opaque spareBandwidth : Nat → Nat

/-- DSP clocks of the command frame of an RFFE read, from word 0 of its entry (spec/08 R261; log entry 112, DESIGN CHOICE). -/
opaque readCommand : BitVec 32 → Nat

/-- Line of a capture's data, 16 words in the order of readout, that an address of the capture region holds (spec/14 R429, spec/16 R496; log
entry 146, DESIGN CHOICE). -/
opaque captureLine : Nat → Nat

/-- NCO increment of the reference tone of ORX_GAIN (spec/09 R280; log entry 8, DESIGN CHOICE). -/
opaque toneInc : Nat

/-- Coefficient i of the 8-tap windowed-sinc fractional delay, i from −3 as 0 to +4 as 7, in units of 2^-30, for a delay in units
of 2^-30 sample (spec/04 R123; log entry 8, DESIGN CHOICE). -/
opaque delayTap : Int → Nat → Int

end Sys2Proof.Config
end

