-- ==== Sys2Proof/Machine/Operands.lean ====
section
/-! DEFINITION. Machine/Operands.lean: fields of words, words made of fields, bytes, CRC-32 and sparse tables: how
every command and register is taken apart and put together. -/

namespace Sys2Proof.Machine

/-- Bits `lo + n - 1 : lo` of a word (spec/00 R10). -/
def fld (w : Word) (lo n : Nat) : Nat := (w.toNat >>> lo) % 2 ^ n

/-- Bit `k` of a word. -/
def bitOf (w : Word) (k : Nat) : Bool := w.getLsbD k

/-- An `n`-bit value read as signed two's complement (spec/00 R11). -/
def signedOf (n v : Nat) : Int := if v < 2 ^ (n - 1) then (v : Int) else (v : Int) - 2 ^ n

/-- Bits `lo + n - 1 : lo` of a word as a signed value. -/
def sfld (w : Word) (lo n : Nat) : Int := signedOf n (fld w lo n)

/-- The unsigned `n`-bit pattern of an integer. -/
def patternOf (n : Nat) (v : Int) : Nat := (v % (2 : Int) ^ n).toNat

/-- A word made of fields, each a low bit, a width and a value (spec/00 R10). -/
def wordOf (fs : List (Nat × Nat × Int)) : Word :=
  BitVec.ofNat 32 ((fs.map fun f => patternOf f.2.1 f.2.2 <<< f.1).foldl (· + ·) 0)

/-- Whether bits `lo + n - 1 : lo` are 0. -/
def zeroAt (w : Word) (lo n : Nat) : Bool := fld w lo n == 0

/-- Payload word `k`; words that a payload does not hold read 0. -/
def wordAt (ws : List Word) (k : Nat) : Word := ws.getD k 0

/-- The 64-bit value of payload words `k` and `k + 1`, low word first. -/
def pairAt (ws : List Word) (k : Nat) : Nat := (wordAt ws k).toNat + (wordAt ws (k + 1)).toNat * 2 ^ 32

/-- A value as `n` words, low word first (spec/00 R10). -/
def wordsOf (n v : Nat) : List Word := (List.range n).map fun k => BitVec.ofNat 32 (v >>> (32 * k))

/-- The value of words read low word first. -/
def valueOf : List Word → Nat
  | [] => 0
  | w :: ws => w.toNat + 2 ^ 32 * valueOf ws

/-- A value as `n` bytes, low byte first. -/
def bytesOf (n : Nat) (v : Int) : List Nat := (List.range n).map fun k => patternOf (8 * n) v / 2 ^ (8 * k) % 256

/-- The bytes of words, each word low byte first (spec/00 R649). -/
def wordBytes (ws : List Word) : List (BitVec 8) :=
  ws.flatMap fun w => (List.range 4).map fun k => BitVec.ofNat 8 (w.toNat >>> (8 * k))

/-- Bytes as the bit vectors of a signed message. -/
def asBytes (bs : List Nat) : List (BitVec 8) := bs.map (BitVec.ofNat 8)

/-- One bit step of the reflected IEEE 802.3 division. -/
def crcBit (c : Nat) : Nat := if c % 2 = 1 then (c / 2) ^^^ 0xEDB88320 else c / 2

/-- One byte of the reflected IEEE 802.3 division. -/
def crcByte (c : Nat) (b : BitVec 8) : Nat := (List.range 8).foldl (fun x _ => crcBit x) (c ^^^ b.toNat)

/-- CRC-32 over bytes with the Ethernet frame check parameters (spec/00 R649). -/
def crc32 (bs : List (BitVec 8)) : Word := BitVec.ofNat 32 (bs.foldl crcByte 0xFFFFFFFF ^^^ 0xFFFFFFFF)

/-- CRC-32 over words in ascending order (spec/00 R649). -/
def crc32Words (ws : List Word) : Word := crc32 (wordBytes ws)

/-- Serial-number comparison modulo 2^32: `a` is greater than `b` (spec/12 R353). -/
def serialGt (a b : Nat) : Bool :=
  let d := (a + 2 ^ 32 - b % 2 ^ 32) % 2 ^ 32
  d != 0 && d < 2 ^ 31

/-- A Bool as a field value. -/
def bit (b : Bool) : Int := if b then 1 else 0

/-- A Bool as a number. -/
def bitNat (b : Bool) : Nat := if b then 1 else 0

/-- The entry of a sparse table under a key. -/
def kget {α : Type} (m : KMap α) (k : Nat) : Option α := (m.find? (fun e => e.1 == k)).map (·.2)

/-- The entry of a sparse table under a key, or a default. -/
def kgetD {α : Type} (m : KMap α) (k : Nat) (d : α) : α := (kget m k).getD d

/-- Sets the entry of a key, keeping the rising order of keys. -/
def kset {α : Type} : KMap α → Nat → α → KMap α
  | [], k, v => [(k, v)]
  | e :: m, k, v =>
    if k < e.1 then (k, v) :: e :: m
    else if k = e.1 then (k, v) :: m
    else e :: kset m k v

/-- Removes the entry of a key. -/
def kerase {α : Type} (m : KMap α) (k : Nat) : KMap α := m.filter fun e => e.1 != k

/-- Keys rise strictly. -/
def kwf {α : Type} (m : KMap α) : Bool := (m.map (·.1)).Pairwise (· < ·)

/-- Whether bit `k` of a mask is set. -/
def maskHas (m k : Nat) : Bool := m.testBit k

/-- The elements of a mask of `n` bits, rising. -/
def maskBits (n m : Nat) : List Nat := (List.range n).filter fun k => m.testBit k

/-- A mask with the given elements. -/
def maskOf (ks : List Nat) : Nat := ks.foldl (fun m k => m ||| 2 ^ k) 0

end Sys2Proof.Machine
end

