-- ==== Sys2Proof/Machine/Flags.lean ====
section
/-! DEFINITION. Machine/Flags.lean: decibel arithmetic: powers and ratios of LogQ values, computed exactly and rounded
once (spec/00 R11, R12; log entry 9, DEDUCED). -/

namespace Sys2Proof.Machine

/-- Largest `x < 2 ^ n` with `p x`, for a `p` that holds up to some point; 0 when it holds nowhere. -/
def bisect (p : Nat → Bool) : Nat → Nat
  | 0 => 0
  | n + 1 =>
    let rec go (k acc : Nat) : Nat :=
      match k with
      | 0 => acc
      | k + 1 => if p (acc + 2 ^ k) then go k (acc + 2 ^ k) else go k acc
    go (n + 1) 0

/-- 10 log10 (n / d) as a LogQ value, rounded to nearest and saturated; a zero power is the lowest value (log entry 9, DEDUCED).
The value `q` is the greatest with 10 ^ ((q - 1/2) / 2560) ≤ n / d. -/
def logRatio (n d : Nat) : LogQ :=
  if n = 0 then logMin
  else if d = 0 then logMax
  else
    let fits (x : Nat) : Bool :=
      let e : Int := 2 * ((x : Int) - 32768) - 1
      if e < 0 then decide (d ^ 5120 ≤ n ^ 5120 * 10 ^ e.natAbs)
      else decide (10 ^ e.natAbs * d ^ 5120 ≤ n ^ 5120)
    satLog ((bisect fits 16 : Nat) - 32768)

/-- 10 log10 (n / d) in units of a LogQ value, rounded to nearest, over ±512 dB: a difference of LogQ values before it saturates
(spec/00 R12; log entry 9, DEDUCED). -/
def logWide (n d : Nat) : Int :=
  if n = 0 then -131072
  else if d = 0 then 131071
  else
    let fits (x : Nat) : Bool :=
      let e : Int := 2 * ((x : Int) - 131072) - 1
      if e < 0 then decide (d ^ 5120 ≤ n ^ 5120 * 10 ^ e.natAbs)
      else decide (10 ^ e.natAbs * d ^ 5120 ≤ n ^ 5120)
    (bisect fits 18 : Nat) - 131072

/-- The power ratio of a LogQ value in units of 2^-96: ⌊10 ^ (q / 2560) · 2^96⌋ (log entry 9, DEDUCED). -/
def powOf (q : LogQ) : Nat :=
  let fits (x : Nat) : Bool :=
    if q < 0 then decide (x ^ 2560 * 10 ^ q.natAbs ≤ 2 ^ (96 * 2560))
    else decide (x ^ 2560 ≤ 10 ^ q.natAbs * 2 ^ (96 * 2560))
  bisect fits 140

/-- The amplitude ratio of a LogQ value in units of 2^-96: ⌊10 ^ (q / 5120) · 2^96⌋ (log entry 9, DEDUCED). -/
def ampOf (q : LogQ) : Nat :=
  let fits (x : Nat) : Bool :=
    if q < 0 then decide (x ^ 5120 * 10 ^ q.natAbs ≤ 2 ^ (96 * 5120))
    else decide (x ^ 5120 ≤ 10 ^ q.natAbs * 2 ^ (96 * 5120))
  bisect fits 120

/-- The power sum of LogQ levels. -/
def powerSum (qs : List LogQ) : LogQ := logRatio ((qs.map powOf).foldl (· + ·) 0) (2 ^ 96)

/-- Mean power of samples in LogQ dBFS of Frac16 full scale, from their energy in units of 2^-30 and their number. -/
def meanOf (a : Nat × Nat) : LogQ := logRatio a.1 (a.2 * 2 ^ 30)

/-- The lowest of a list of LogQ values; the highest value of none. -/
def minLog (qs : List LogQ) : LogQ := qs.foldl min logMax

/-- The highest of a list of LogQ values; the lowest value of none. -/
def maxLog (qs : List LogQ) : LogQ := qs.foldl max logMin

/-- A LogQ difference, saturated (spec/00 R12). -/
def subLog (a b : LogQ) : LogQ := satLog (a - b)

/-! ### Fixed-point functions of the loop law, in units of 2^-96, rounded once (spec/07 R195, R200, R210; log entry 9, DEDUCED) -/

/-- π in units of 2^-96. -/
abbrev piFix : Nat := 248902613312231085230521944622

/-- Sum of the terms of a series from its first term and the step from term `k`. -/
def seriesFix (step : Nat → Int → Int) : Nat → Nat → Int → Int
  | 0, _, _ => 0
  | fuel + 1, k, t => t + seriesFix step fuel (k + 1) (step k t)

/-- Cosine of an angle of 0 to π in units of 2^-96. -/
def cosFix (x : Int) : Int :=
  seriesFix (fun k t => -(t * x * x / ((2 * k + 1 : Nat) * (2 * k + 2 : Nat) * 2 ^ 192 : Int))) 40 0 (2 ^ 96)

/-- cos(π · n / d) in units of 2^-96. -/
def cosPi (n : Int) (d : Nat) : Int :=
  let r := n % (2 * d : Int)
  let m := if (d : Int) < r then 2 * d - r else r
  cosFix (piFix * m / d)

/-- exp(−1 / n) in units of 2^-96. -/
def expNegFix (n : Nat) : Int := seriesFix (fun k t => -(t / ((k + 1 : Nat) * n : Int))) 40 0 (2 ^ 96)

/-- A coefficient num / den as mantissa and exponent: the smallest exponent of −8 to +7 that holds it, none above
(spec/07 R195). -/
def encodeCoef (num : Int) (den : Nat) : Option (Int × Int) :=
  match (List.range 16).find? fun e => decide (num.natAbs * 2 ^ 8 < den * 2 ^ e) with
  | none => none
  | some e =>
    let m := roundDiv (num * 2 ^ 23) (den * 2 ^ e)
    if m = 32768 then (if e = 15 then none else some (0x4000, (e : Int) - 7)) else some (m, (e : Int) - 8)

end Sys2Proof.Machine
end

