-- ==== Sys2Proof/Parts.lean ====
section
/-! DEFINITION. Parts.lean: the records that the machine's state is made of, one for each group of registers or
internal state that the spec names, each field with its rule and the value it holds right after reset. -/

namespace Sys2Proof.Machine

/-- Part number (spec/00 R3). -/
inductive Part where
  | brd110
  | brd220
  | brd440
  | brd880
  deriving DecidableEq, Repr

/-- Package state (spec/01 R31). -/
inductive PkgState where
  | kindling
  | ember
  | alight
  | doused
  deriving DecidableEq, Repr

/-- Section state (spec/01 R35). -/
inductive SecState where
  | cold
  | ready
  | ramping
  | live
  | damped
  | quenched
  deriving DecidableEq, Repr

/-- Identity of the part, fixed for its life (spec/00 R3, R6; spec/13 R392). -/
structure Ident where
  /-- 00 R3: (log entry 1, DESIGN CHOICE). -/
  part : Part := .brd880
  /-- 00 R6: (log entry 1, DESIGN CHOICE). -/
  gradeH : Bool := false
  /-- 00 R6: (log entry 1, DESIGN CHOICE). -/
  optionP : Bool := false
  /-- 13 R392: (log entry 1, DESIGN CHOICE). -/
  uid : Nat := 0
  /-- 13 R392: (log entry 1, DESIGN CHOICE). -/
  romVersion : Nat := 0
  deriving DecidableEq, Repr

/-- Package holds (spec/01 R34, spec/13 R403). -/
structure Holds where
  /-- 01 R34. -/
  host : Bool := false
  /-- 01 R34. -/
  groupVersion : Bool := false
  /-- 01 R34. -/
  groupLost : Bool := false
  /-- 01 R34. -/
  thermal : Bool := false
  /-- 13 R403. -/
  reset : Bool := false
  deriving DecidableEq, Repr

/-- A down-ramp in progress (spec/01 R34, R36, R37). -/
structure DownRamp where
  /-- 01 R34 R36: first tick of the ramp. -/
  start : Nat := 0
  /-- 01 R34: tick at whose end the ramp ends. -/
  endTick : Nat := 0
  /-- 01 R34 R36: 256 ticks or 1 tick. -/
  len : Nat := 0
  /-- 01 R34 R36: RESUME as the ramp's end leaves it. -/
  resume : Bool := false
  /-- 01 R36: level at which the ramp starts, as a fraction of the output: its numerator. -/
  fromNum : Nat := 1
  /-- 01 R36: and its denominator. -/
  fromDen : Nat := 1
  deriving DecidableEq, Repr

/-- Wait causes of a section (spec/01 R36). -/
structure Waits where
  /-- 01 R36. -/
  digest : Bool := false
  /-- 01 R36: time offset to the leader (R460). -/
  timing : Bool := false
  /-- 02 R56: frame timing invalid. -/
  frame : Bool := false
  /-- 01 R36. -/
  shed : Bool := false
  deriving DecidableEq, Repr

/-- A section definition (spec/03 R69). -/
structure SecDef where
  /-- 03 R69. -/
  tdd : Bool := false
  /-- 03 R69. -/
  branchMask : Nat := 1
  /-- 03 R69. -/
  rate : Nat := 0
  /-- 03 R69: PROFILE. -/
  swift : Bool := false
  /-- 03 R69. -/
  priority : Nat := 0
  /-- 03 R69. -/
  tenant : Nat := 0
  /-- 03 R69. -/
  pattern : Nat := 0
  /-- 03 R69. -/
  group : Bool := false
  /-- 03 R69. -/
  dlCentre : Nat := 0
  /-- 03 R69. -/
  ulCentre : Nat := 0
  /-- 03 R69. -/
  bandwidth : Nat := 0
  /-- 03 R69. -/
  ratio : Nat := 0
  /-- 03 R69. -/
  dlLo : Nat := 0
  /-- 03 R69. -/
  ulLo : Nat := 0
  /-- 03 R69. -/
  slotDl0 : Nat := 0
  /-- 03 R69. -/
  slotDl1 : Nat := 0
  /-- 03 R69. -/
  slotUl0 : Nat := 0
  /-- 03 R69. -/
  slotUl1 : Nat := 0
  deriving DecidableEq, Repr

/-- Canceller registers of a section (spec/04 R138). -/
structure BdcSec where
  /-- 04 R138 R120: BDC_SEC_SUPP_DL, BDC_SEC_SUPP_UL in the order of R94. -/
  supp : List Int := [0,0,0,0]
  /-- 04 R138. -/
  esat : Nat := 0
  /-- 05 R150: e_B of the direction saturated in the last tick. -/
  satNow : List Bool := [false,false]
  /-- 04 R140: published SUPP_sec values with their ticks, newest first, for event 0x0311. -/
  suppOld : List (List (Nat × Int)) := [[],[],[],[]]
  /-- 04 R126: section definition counter, wraps. -/
  defCount : Nat := 0
  deriving DecidableEq, Repr

/-- A stranger mask (spec/05 R151). -/
structure Mask where
  /-- 05 R151. -/
  bin : Nat := 0
  /-- 05 R151. -/
  level : Int := 0
  /-- 05 R151: consecutive counted windows below -50 dBFS. -/
  quiet : Nat := 0
  deriving DecidableEq, Repr

/-- A running tone test (spec/05 R149). -/
structure ToneTest where
  /-- 05 R149. -/
  branch : Nat := 0
  /-- 05 R149. -/
  bin : Nat := 0
  /-- 05 R149. -/
  p0 : Int := 0
  /-- 05 R149. -/
  a0 : Int := 0
  /-- 05 R149: t0. -/
  start : Nat := 0
  /-- 05 R149: half periods ended. -/
  half : Nat := 0
  /-- 05 R149: M_0 .. M_7 recorded so far, in units of 2^-16 of LogQ. -/
  means : List Int := []
  /-- 05 R149: sum of P_k over the counted windows of the half period. -/
  acc : Int := 0
  /-- 05 R149. -/
  accN : Nat := 0
  /-- 05 R149: the repeat. -/
  second : Bool := false
  deriving DecidableEq, Repr

/-- Damper state of one direction (spec/05 R142 to R152). -/
structure DmpDir where
  /-- 05 R143 R158: 0x0F00. -/
  margin : Int := 3840
  /-- 05 R143. -/
  isoCfg : Int := 0
  /-- 05 R158. -/
  ceil : Int := 32767
  /-- 05 R152 R158. -/
  grp : Int := 32767
  /-- 05 R158. -/
  lg : Int := -32768
  /-- 05 R142. -/
  cTest : Int := 32767
  /-- 05 R160: what bounds C_dmp: 0 residual, 1 frozen, 2 no measurement, 3 group, 4 test. -/
  cause : Nat := 0
  /-- 05 R149. -/
  test : Option ToneTest := none
  /-- 05 R145: tick of the last VANISHED result. -/
  vanished : Option Nat := none
  /-- 05 R145: tick of the last onset. -/
  onsetTick : Option Nat := none
  deriving DecidableEq, Repr

/-- Damper state of one direction and RX branch (spec/05 R141). -/
structure DmpBr where
  /-- 05 R158. -/
  noMeas : Bool := false
  /-- 05 R158. -/
  frozenUsed : Bool := false
  /-- 05 R144. -/
  isoLow : Bool := false
  /-- 05 R141. -/
  iso : Int := 0
  /-- 05 R141: SUPP_LAST_B as a ratio. -/
  suppLast : Option (Nat × Nat) := none
  /-- 05 R151: oldest first. -/
  masks : List Mask := []
  /-- 05 R147: last counted windows, newest first. -/
  spectra : List (List Int) := []
  /-- 05 R146: last valid samples of e_B, newest first. -/
  buf : List (Int × Int) := []
  /-- 05 R146: valid samples since the running detector window began. -/
  fresh : Nat := 0
  /-- 05 R146: tick with which the running detector window began. -/
  winTick : Nat := 0
  /-- 05 R146: tick with which the last counted window began. -/
  winFrom : Nat := 0
  /-- 05 R147: a counted window has been captured in the running tick. -/
  due : Bool := false
  deriving DecidableEq, Repr

/-- Damper state of a section (spec/05 R158). -/
structure Dmp where
  /-- 05 R158: DL, UL. -/
  dir : List DmpDir := [{}, {}]
  /-- 05 R158: order of R94. -/
  br : List DmpBr := [{}, {}, {}, {}]
  /-- 05 R158. -/
  lastOnset : Nat := 0
  /-- 05 R153 R158. -/
  backoff : Nat := 3
  /-- 05 R158. -/
  onsets : Nat := 0
  /-- 05 R158. -/
  strangers : Nat := 0
  /-- 05 R158. -/
  tests : Nat := 0
  deriving DecidableEq, Repr

/-- SPA_CONFIG of a section (spec/06 R182). -/
structure SpaCfg where
  /-- 06 R182. -/
  ulNoiseMax : Int := -26368
  /-- 06 R182. -/
  noiseIn : Int := -23040
  /-- 06 R182. -/
  portOfsUl : Int := 0
  /-- 06 R182. -/
  actThresh : Nat := 6
  /-- 06 R182. -/
  sqEn : Bool := true
  /-- 06 R182. -/
  sqMute : Bool := true
  /-- 06 R182. -/
  proxEn : Bool := false
  /-- 06 R182. -/
  proxSrc : Bool := false
  /-- 06 R182. -/
  hang : Nat := 4800
  /-- 06 R182. -/
  ulRefGain : Int := 0
  /-- 06 R182. -/
  dlRefLevel : Int := -32768
  deriving DecidableEq, Repr

/-- Spark Arrestor state of a section (spec/06 R186). -/
structure Spa where
  /-- 06 R182 R186. -/
  cfg : SpaCfg := {}
  /-- 06 R186: SPA_CEIL_DL, SPA_CEIL_UL. -/
  ceil : List Int := [32767,32767,32767,32767]
  /-- 06 R175. -/
  cPwr : List Int := [32767,32767,32767,32767]
  /-- 06 R186. -/
  proxLevel : Int := -32768
  /-- 06 R169 R186. -/
  proxCeil : Int := 32767
  /-- 06 R169: ticks since the last paced rise. -/
  proxTick : Nat := 0
  /-- 06 R170. -/
  proxFallback : Bool := false
  /-- 10 R313: level captured from AIR. -/
  airLevel : Option Int := none
  /-- 06 R170: DL passband power, higher branch. -/
  dlPower : Option Int := none
  /-- 06 R170: energy and number of the valid samples of d_b in the running 480-tick window of each DL branch. -/
  dlSum : List (Nat × Nat) := [(0,0),(0,0)]
  /-- 06 R165 R186: N_floor per UL branch. -/
  noiseFloor : List Int := [-32768,-32768]
  /-- 06 R165 R186. -/
  noiseUse : List Int := [-32768,-32768]
  /-- 06 R165: sub-period minima, newest first. -/
  subMins : List (List Int) := [[],[]]
  /-- 06 R165. -/
  subTick : Nat := 0
  /-- 06 R165: transmitting ticks since RAMPING. -/
  txTicks : Nat := 0
  /-- 06 R165. -/
  noiseRise : Bool := false
  /-- 06 R186. -/
  ulIdle : Bool := true
  /-- 06 R166: last tick that captured an active window. -/
  activeTick : Nat := 0
  /-- 06 R164: energy and number of the valid samples of e_b in the running squelch window of each UL branch. -/
  sqSum : List (Nat × Nat) := [(0,0),(0,0)]
  /-- 06 R164: tick with which the running squelch window of each UL branch began. -/
  sqTick : List Nat := [0,0]
  /-- 06 R186. -/
  squelched : List Bool := [false,false]
  /-- 06 R186. -/
  sqAtt : List Int := [0,0]
  /-- 06 R171. -/
  gateOpen : List Bool := [false,false,false,false]
  /-- 06 R186: SPA_SEC_STATUS.GATE_OPEN: the gates at the last boundary. -/
  gateShown : List Bool := [false,false,false,false]
  /-- 06 R171: what of R171 does not follow a TDD pattern, as the last boundary left it. -/
  gateRun : List Bool := [false,false,false,false]
  /-- 06 R171: direction its pattern gives now: 0 D, 1 U, 2 none. -/
  tddDir : Nat := 2
  /-- 06 R176. -/
  dutyUsed : List Nat := [0,0]
  /-- 06 R176: DSP clock since which a gate of the direction is open. -/
  gateSince : List (Option Nat) := [none,none]
  /-- 06 R176. -/
  dutyClosed : List Bool := [false,false]
  /-- 06 R176: DSP clock of the latest duty closure of the direction. -/
  dutyAt : List Nat := [0,0]
  /-- 06 R176: duty closure that the latest frame boundary ended: the clocks at which it began and ended. -/
  dutySpan : List (Option (Nat × Nat)) := [none,none]
  /-- 06 R171 R177: a quench holds the gates closed. -/
  quenchGate : Bool := false
  /-- 06 R172: a TDD wait cause holds the gates closed until the section leaves READY. -/
  waitGate : Bool := false
  /-- 06 R169: C_prox has a previous value. -/
  proxRun : Bool := false
  /-- 06 R187: source 257 holds the gates closed. -/
  checkGate : Bool := false
  /-- 06 R172 R187: DSP clock from which the gate is held closed. -/
  checkFrom : Nat := 0
  /-- 06 R177: tick of the 1-tick mute ramp. -/
  muteTick : Nat := 0
  /-- 06 R178: tick at whose opening the latest quench applied. -/
  quenchTick : Nat := 0
  /-- 06 R177: 1-tick mute ramp runs in the tick that opens. -/
  muteRamp : Bool := false
  /-- 06 R186. -/
  reason : Nat := 0
  /-- 06 R186. -/
  detail : Nat := 0
  /-- 06 R186. -/
  reasons : Nat := 0
  /-- 06 R179. -/
  qSeq : Nat := 0
  /-- 06 R180: boundaries of the last quenches, newest first. -/
  history : List Nat := []
  /-- 06 R179 R186. -/
  retryAt : Option Nat := none
  /-- 06 R181. -/
  lockWait : Bool := false
  /-- 06 R180. -/
  latched : Bool := false
  /-- 06 R179: consecutive ticks in LIVE or DAMPED. -/
  okTicks : Nat := 0
  /-- 06 R178 R188: retry delay of a quench that applies at the next boundary, whose event is still to be written. -/
  quenchNote : Option Nat := none
  /-- 06 R186. -/
  quenches : Nat := 0
  /-- 06 R186. -/
  latches : Nat := 0
  /-- 06 R186. -/
  squelches : Nat := 0
  deriving DecidableEq, Repr

/-- Samples of d_B of a branch over an interval of one kind in a frame, for pattern watch (spec/10 R314). -/
structure WatchSum where
  /-- 10 R314: DSP clock at which the frame began. -/
  frame : Nat := 0
  /-- 10 R314: 0 D, 1 U, 2 G. -/
  kind : Nat := 0
  /-- 10 R314. -/
  branch : Nat := 0
  /-- 10 R314: DSP clock of the change that opened the interval. -/
  since : Option Nat := none
  /-- 10 R314: sum of; d; ² in units of 2^-30. -/
  energy : Nat := 0
  /-- 10 R314. -/
  n : Nat := 0
  /-- 10 R314: an UL sample that entered a TX sum in the interval was not 0. -/
  loud : Bool := false
  deriving DecidableEq, Repr

/-- Air Monitor state of a section (spec/10 R321, R325). -/
structure AirSec where
  /-- 10 R321. -/
  trackEn : Bool := false
  /-- 10 R321. -/
  rats : Nat := 7
  /-- 10 R321. -/
  caseC : Bool := true
  /-- 10 R321. -/
  ssbPeriod : Nat := 0
  /-- 10 R321. -/
  pwEn : Bool := false
  /-- 10 R321. -/
  pwUlRx : Bool := false
  /-- 10 R321. -/
  pwN : Nat := 4
  /-- 10 R321. -/
  pwMargin : Int := 2560
  /-- 10 R321. -/
  pwFloor : Int := -23040
  /-- 10 R325. -/
  tracked : Nat := 0
  /-- 10 R325. -/
  noCell : Bool := true
  /-- 10 R325. -/
  best : Nat := 0
  /-- 10 R325. -/
  level : Int := -32768
  /-- 10 R325. -/
  ed : Int := -32768
  /-- 10 R314: what pattern watch has measured since the last frame that it evaluated. -/
  sums : List WatchSum := []
  /-- 10 R326: the running frame is not evaluated. -/
  skip : Bool := false
  /-- 10 R315: last evaluated frames, newest first; CONTRA counts them. -/
  results : List Bool := []
  /-- 10 R325. -/
  lastDetail : Nat := 0
  /-- 10 R325. -/
  frames : Nat := 0
  /-- 10 R325. -/
  quenches : Nat := 0
  deriving DecidableEq, Repr

/-- A sample that a stream takes or feeds (spec/14 R418, R419, R422). -/
structure StreamSample where
  /-- 14 R419: device time of its DSP clock. -/
  time : Nat := 0
  /-- 14 R419: applied gains of its direction's branches. -/
  applied : List Int := [-32768,-32768]
  /-- 14 R419. -/
  v : List (Int × Int) := []
  deriving DecidableEq, Repr

/-- A sample of a split section that waits in its equalisation buffer (spec/15 R470). -/
structure EqSample where
  /-- 15 R470: T + EQ_DELAY, in units of 2^-64 s. -/
  due : Nat := 0
  /-- 15 R469. -/
  v : List (Int × Int) := []
  deriving DecidableEq, Repr

/-- Split-section state (spec/15 R483, R488). -/
structure Split where
  /-- 15 R488. -/
  role : Nat := 0
  /-- 15 R483. -/
  port : Nat := 0
  /-- 15 R483. -/
  samplesLog2 : Nat := 4
  /-- 15 R483. -/
  peerIndex : Nat := 0
  /-- 15 R483. -/
  peerSection : Nat := 0
  /-- 15 R483. -/
  eqDelay : Nat := 0
  /-- 15 R483. -/
  peerMac : Nat := 0
  /-- 15 R488. -/
  lost : Bool := false
  /-- 15 R488. -/
  late : Nat := 0
  /-- 15 R488. -/
  gaps : Nat := 0
  /-- 15 R469: RXG carried by the peer's frames. -/
  rxg : List Int := [0,0]
  /-- 15 R471: consecutive ticks without a fed sample. -/
  starved : Nat := 0
  /-- 15 R471: consecutive fully fed ticks. -/
  fed : Nat := 0
  /-- 15 R471. -/
  stoppedByLoss : Bool := false
  /-- 15 R470: equalisation buffer, in the order of arrival. -/
  eq : List EqSample := []
  /-- 15 R488: TIME of the newest block that has arrived. -/
  lastTime : Option Nat := none
  /-- 15 R469: samples of the received direction that wait to be sent, oldest first. -/
  out : List StreamSample := []
  deriving DecidableEq, Repr

/-- A stream of a section (spec/14 R424, R436). -/
structure Stream where
  /-- 14 R436. -/
  state : Nat := 0
  /-- 14 R436. -/
  underrun : Bool := false
  /-- 14 R436. -/
  devPtr : Nat := 0
  /-- 14 R436. -/
  hostPtr : Nat := 0
  /-- 14 R436. -/
  blocks : Nat := 0
  /-- 14 R436. -/
  lost : Nat := 0
  /-- 14 R436. -/
  bad : Nat := 0
  /-- 14 R424. -/
  dir : Nat := 0
  /-- 14 R424. -/
  branchMask : Nat := 0
  /-- 14 R424. -/
  point : Nat := 0
  /-- 14 R424. -/
  format : Nat := 0
  /-- 14 R424. -/
  replace : Bool := false
  /-- 14 R424. -/
  blockLog2 : Nat := 0
  /-- 14 R424. -/
  irqLog2 : Nat := 0
  /-- 14 R424. -/
  ringAddr : Nat := 0
  /-- 14 R424. -/
  ringLog2 : Nat := 0
  /-- 14 R424. -/
  wbAddr : Nat := 0
  /-- 14 R424. -/
  startTime : Nat := 0
  /-- 14 R419. -/
  seq : Nat := 0
  /-- 14 R421: the blocks that wait in staging, oldest first. -/
  staged : List (List (BitVec 32)) := []
  /-- 14 R425: the partial block of a stopped export is still to come. -/
  ending : Bool := false
  /-- 14 R421: blocks dropped since the last delivered. -/
  dropped : Nat := 0
  /-- 14 R425: DSP clock from which it runs. -/
  fromClk : Nat := 0
  /-- 14 R425: DSP clock up to which a stopped stream has run. -/
  stopClk : Nat := 0
  /-- 14 R418 R422: samples that have been taken for export, or wait to be fed, oldest first. -/
  entries : List StreamSample := []
  /-- 14 R419: the block that export delivered last. -/
  lastBlock : List (BitVec 32) := []
  /-- 14 R420: the FILL header that export wrote last. -/
  lastFill : List (BitVec 32) := []
  /-- 14 R415. -/
  sinceIrq : Nat := 0
  /-- 14 R420: the device pointer as last written to WB_ADDR. -/
  wbValue : Nat := 0
  /-- 14 R417: the block that export delivered last carried Relaxed Ordering. -/
  blockRo : Bool := false
  deriving DecidableEq, Repr

/-- What phase 3 of the running tick has computed for the boundary that opens the next (spec/01 R24, R25). -/
structure Staged where
  /-- 01 R25. -/
  applied : List Int := [-32768,-32768,-32768,-32768]
  /-- 01 R24. -/
  request : List Int := [-32768,-32768,-32768,-32768]
  /-- 01 R24 R25. -/
  held : List Bool := [false,false,false,false]
  /-- 01 R24 R25. -/
  fbClip : List Bool := [false,false,false,false]
  deriving DecidableEq, Repr

/-- Histories of one RX side, newest sample first (spec/03 R74). -/
structure RxLane where
  /-- 03 R74: half-band decimators. -/
  hb : List (List (Int × Int)) := []
  /-- 03 R79: resampler. -/
  rs : List (Int × Int) := []
  /-- 03 R78: channel filter. -/
  ch : List (Int × Int) := []
  deriving DecidableEq, Repr

/-- Histories of one TX side, newest sample first (spec/03 R74). -/
structure TxLane where
  /-- 04 R98 R100: digital reference: the gain-stage output. -/
  ref : List (Int × Int) := []
  /-- 04 R100: ORX reference of the TX branch. -/
  orx : List (Int × Int) := []
  /-- 03 R78: channel filter. -/
  ch : List (Int × Int) := []
  /-- 03 R79: resampler. -/
  rs : List (Int × Int) := []
  /-- 03 R74: half-band interpolators. -/
  hb : List (List (Int × Int)) := []
  /-- 03 R74: samples that wait for their DSP clock at the sum. -/
  out : List (Nat × (Int × Int)) := []
  deriving DecidableEq, Repr

/-- One section slot with what every block keeps for it (spec/01 R35, spec/03 R94). -/
structure Section where
  /-- 01 R35. -/
  state : SecState := .cold
  /-- 01 R34. -/
  resume : Bool := false
  /-- 03 R69. -/
  defn : Option SecDef := none
  /-- 03 R88: words as accepted. -/
  raw : List (BitVec 32) := []
  /-- 01 R36. -/
  waits : Waits := {}
  /-- 01 R34. -/
  downRamp : Option DownRamp := none
  /-- 01 R24 R25. -/
  held : List Bool := [false,false,false,false]
  /-- 01 R24. -/
  fbClip : List Bool := [false,false,false,false]
  /-- 01 R24. -/
  request : List Int := [-32768,-32768,-32768,-32768]
  /-- 03 R94. -/
  applied : List Int := [-32768,-32768,-32768,-32768]
  /-- 01 R25. -/
  next : Staged := {}
  /-- 01 R37: consecutive ticks with held false. -/
  heldFalse : Nat := 0
  /-- 07 R203: ticks since entry to RAMPING. -/
  rampTicks : Nat := 0
  /-- 03 R94. -/
  latDl : Nat := 0
  /-- 03 R94. -/
  latUl : Nat := 0
  /-- 03 R85. -/
  syncSettle : Bool := false
  /-- 03 R85: DSP clock of the reset from which the output is blanked. -/
  blankFrom : Nat := 0
  /-- 01 R38: tick in which SECTION_STOP was last captured. -/
  stopTick : Option Nat := none
  /-- 01 R38: a SECTION_START of the running tick enters RAMPING as the tick closes, after its holds and wait causes. -/
  startDue : Bool := false
  /-- 06 R167: squelch attenuation in force in the running tick, per UL branch. -/
  sqRun : List Int := [0,0]
  /-- 06 R166: the squelch engages over the running tick. -/
  sqFade : Bool := false
  /-- 03 R69: definition in force in the running tick. -/
  defRun : Option SecDef := none
  /-- 01 R37: its state as the boundary that opened the running tick left it. -/
  stateRun : SecState := .cold
  /-- 07 R198: a condition of R198 other than freshness and SYNC_SETTLE holds in the running tick, per direction and branch. -/
  execHeld : List Bool := [true,true,true,true]
  /-- 03 R75: NCO start in force in the running tick. -/
  ncoRun : Nat := 0
  /-- 03 R77: it transmits in the running tick, a mute ramp included. -/
  runs : Bool := false
  /-- 06 R177: its mute ramp runs in the running tick. -/
  fading : Bool := false
  /-- 06 R177: level at which its mute ramp starts, as a fraction of the output: below 1 where a down-ramp runs. -/
  fadeFrom : Nat × Nat := (1, 1)
  /-- 03 R77: digital gain in force in the running tick. -/
  dgRun : List Int := [-32768,-32768,-32768,-32768]
  /-- 03 R74; 04 R100: RX side of each direction and branch, then the ORX copies. -/
  rx : List RxLane := List.replicate 8 {}
  /-- 03 R74; 04 R100: TX side of each direction and branch. -/
  tx : List TxLane := List.replicate 4 {}
  /-- 03 R85: tick at whose opening the ramp that ends a blank has run. -/
  blankEnd : Nat := 0
  /-- 03 R94. -/
  satRx : Nat := 0
  /-- 03 R94. -/
  satTx : Nat := 0
  /-- 03 R75: the NCO accumulators started at 0 when it last entered RAMPING. -/
  ncoRunning : Bool := false
  /-- 03 R75: DSP clock at which the NCO accumulators were 0. -/
  ncoStart : Nat := 0
  /-- 08 R271. -/
  rxg : List Int := [0,0,0,0]
  /-- 08 R271. -/
  dg : List Int := [-32768,-32768,-32768,-32768]
  /-- 08 R244: occurrence already reported. -/
  dgLimitOn : List Bool := [false,false,false,false]
  /-- 19 R558. -/
  aRef : List Int := [32767,32767,32767,32767]
  /-- 17 R514: gates closed by BLOCK_RESET. -/
  blockMuted : Bool := false
  /-- 17 R514: DSP clock at which BLOCK_RESET, or a device action, closed them. -/
  muteFrom : Nat := 0
  /-- 17 R514: c + 63 of its sequence. -/
  muteEnd : Nat := 0
  /-- 17 R514: the boundary at which they reopened last, with a 1-tick ramp. -/
  muteTo : Nat := 0
  /-- 04 R138. -/
  bdc : BdcSec := {}
  /-- 05 R158. -/
  dmp : Dmp := {}
  /-- 06 R186. -/
  spa : Spa := {}
  /-- 10 R325. -/
  air : AirSec := {}
  /-- 15 R488. -/
  split : Split := {}
  /-- 14 R436. -/
  exportS : Stream := {}
  /-- 14 R436. -/
  importS : Stream := {}
  /-- 03 R94: its register group as the last boundary left it; none since reset: as it stands. -/
  grtShown : List (BitVec 32) := []
  /-- 05 R158: its register group as the last boundary left it. -/
  dmpShown : List (BitVec 32) := []
  /-- 06 R186: its register group as the last boundary left it. -/
  spaShown : List (BitVec 32) := []
  deriving DecidableEq, Repr

/-- One SLOT-form entry (spec/02 R50). -/
structure SlotEntry where
  /-- 02 R50. -/
  typ : Nat := 0
  /-- 02 R50. -/
  dlSym : Nat := 0
  /-- 02 R50. -/
  ulSym : Nat := 0
  deriving DecidableEq, Repr

/-- One EDGE-form entry (spec/02 R50). -/
structure EdgeEntry where
  /-- 02 R50. -/
  offset : Nat := 0
  /-- 02 R50. -/
  dir : Nat := 0
  deriving DecidableEq, Repr

/-- A written pattern bank (spec/02 R50). -/
structure Bank where
  /-- 02 R50. -/
  edgeForm : Bool := false
  /-- 02 R50. -/
  slotDur : Nat := 0
  /-- 02 R50. -/
  rep : Nat := 1
  /-- 02 R50. -/
  slots : List SlotEntry := []
  /-- 02 R50. -/
  edges : List EdgeEntry := []
  deriving DecidableEq, Repr

/-- One TDD pattern (spec/02 R49, R52). -/
structure Pattern where
  /-- 02 R49: none: never written since reset. -/
  bankA : Option Bank := none
  /-- 02 R49. -/
  bankB : Option Bank := none
  /-- 02 R49. -/
  activeB : Bool := false
  /-- 10 R317: bank that was active in the frame before the running one. -/
  prevB : Bool := false
  /-- 02 R52 R64: bank selected by command, waiting for the frame boundary. -/
  pending : Option Bool := none
  deriving DecidableEq, Repr

/-- A pending scheduled action (spec/02 R62, R67). -/
structure SchedAction where
  /-- 02 R62. -/
  time : Nat := 0
  /-- 02 R67: ACTION: false GRATE_SYNC, true PATTERN_SELECT. -/
  select : Bool := false
  /-- 02 R67. -/
  mask : Nat := 0
  /-- 02 R67. -/
  banks : Nat := 0
  deriving DecidableEq, Repr

/-- Package timebase (spec/02). -/
structure Tbu where
  /-- 02 R41: TBU_TICK. -/
  tick : Nat := 0
  /-- 02 R41 R84: DSP clocks from entry to KINDLING to the boundary that opened the running tick. -/
  clock : Nat := 0
  /-- 02 R41 R61. -/
  tickLen : Nat := 2048
  /-- 02 R57: device time in units of 2^-64 s. -/
  time : Nat := 0
  /-- 02 R60: device time latched at the boundary that opened the running tick. -/
  openAt : Nat := 0
  /-- 02 R62: DSP clock of the latest step of device time. -/
  stepClock : Nat := 0
  /-- 02 R57: TBU_INCR. -/
  incr : Nat := 18764998447
  /-- 02 R58. -/
  timeStatus : Nat := 0
  /-- 02 R66. -/
  timeSetPps : Option Nat := none
  /-- 02 R66: value that applies at the next tick boundary. -/
  timeSetNext : Option Nat := none
  /-- 21 R616. -/
  ppsWidth : Nat := 100
  /-- 02 R59. -/
  ppsOut : Bool := false
  /-- 02 R59: DSP clock at which PPS_OUT last rose. -/
  ppsAt : Nat := 0
  /-- 21 R616. -/
  syncGrt : Bool := false
  /-- 21 R616. -/
  syncFrame : Bool := false
  /-- 21 R616. -/
  syncTick : Bool := false
  /-- 02 R68. -/
  frameValid : Bool := false
  /-- 02 R68. -/
  inHoldover : Bool := false
  /-- 02 R54. -/
  holdoverLeft : Nat := 0
  /-- 02 R55: error still to be slewed. -/
  slew : Int := 0
  /-- 02 R55: e of the step under way, and the source's SFN. -/
  stepPending : Option (Int × Option Nat) := none
  /-- 02 R55: span between the closed frame and the corrected one. -/
  inGap : Bool := false
  /-- 02 R55: DSP clock at which the corrected frame starts. -/
  gapEnd : Nat := 0
  /-- 02 R68. -/
  sfn : Nat := 0
  /-- 02 R47: DSP clock of the running frame's boundary. -/
  frameStart : Nat := 0
  /-- 02 R62: DSP clock of the latest frame boundary, opening or closing. -/
  boundary : Nat := 0
  /-- 02 R47: DSP clock at which the frame before the running one started. -/
  lastFrame : Nat := 0
  /-- 02 R55: DSP clocks of no frame just before the running frame. -/
  gapBefore : Nat := 0
  /-- 21 R606: device time of the last frame boundary. -/
  frameTime : Nat := 0
  /-- 02 R53. -/
  source : Option Nat := none
  /-- 02 R65. -/
  srcSection : Nat := 0
  /-- 02 R65. -/
  srcPci : Nat := 0
  /-- 02 R53. -/
  srcValid : Bool := false
  /-- 10 R312: FRAME_POS and SFN of a detection that AIR has passed on, until the TBU captures it. -/
  airAlign : Option (Int × Option Nat) := none
  /-- 02 R53: frame boundaries since the chosen cell was last detected, saturating at 17. -/
  airAge : Nat := 17
  /-- 02 R65. -/
  frameOffset : Int := 0
  /-- 02 R65. -/
  sfnOffset : Nat := 0
  /-- 02 R65. -/
  holdoverCfg : Nat := 100
  /-- 02 R65. -/
  stepLimit : Nat := 255
  /-- 02 R55. -/
  firstAlign : Bool := false
  /-- 02 R53: DSP clock of the edge that opened the window. -/
  ppsOpen : Option Nat := none
  /-- 02 R53. -/
  ppsFirst : Bool := false
  /-- 03 R90: GRATE_SYNC has been captured; it acts on the first DSP clock of the next tick. -/
  grateDue : Bool := false
  /-- 02 R62. -/
  sched : List (Nat × SchedAction) := []
  /-- 10 R315: FRAME_VALID was 0 at some point of the running frame. -/
  frameInvalidSeen : Bool := true
  /-- 10 R315: FRAME_VALID was 0 at some point of the frame that ended last. -/
  endedInvalid : Bool := true
  deriving DecidableEq, Repr

/-- A SETTLE measurement channel (spec/03 R83). -/
structure MeasCh where
  /-- 03 R83: 0 free, 1 AIR, 2 and 3 LCAL of chain 8 and 9, 100 + slot BLW. -/
  owner : Nat := 0
  /-- 03 R83: source: 0 to 3 the RX chains in the order of R94, 4 and 5 the ORX. -/
  chain : Nat := 0
  /-- 03 R75 R83: NCO increment. -/
  inc : Nat := 0
  /-- 03 R75 R83: DSP clock at which its NCO accumulator was 0. -/
  start : Nat := 0
  /-- 03 R83: D = 2^k. -/
  k : Nat := 1
  /-- 03 R83. -/
  acc : Int × Int := (0, 0)
  /-- 03 R83: samples integrated since the last output. -/
  count : Nat := 0
  /-- 03 R83: last output. -/
  out : Int × Int := (0, 0)
  /-- 07 R191: the gate of its branch has been open throughout the running integration period. -/
  clean : Bool := true
  /-- 03 R83: chain, increment and k from the next output boundary on. -/
  next : Option (Nat × Nat × Nat) := none
  deriving DecidableEq, Repr

/-- GRT block of a hearth (spec/03 R91 to R93). -/
structure Grt where
  /-- 03 R91. -/
  syncCount : Nat := 0
  /-- 03 R91. -/
  lastSrc : Nat := 0
  /-- 03 R85: DSP clock of the previous phase reset. -/
  lastClock : Nat := 0
  /-- 03 R84: DSP clocks of the phase resets before it that count for samples of the running tick, latest first. -/
  prevClocks : List Nat := []
  /-- 03 R93. -/
  txSat : List Nat := [0,0,0,0]
  /-- 03 R83. -/
  meas : List MeasCh := List.replicate 16 {}
  /-- 03 R74 R76: the DAC words that each TX chain sent in the last tick. -/
  dac : List (List (Int × Int)) := [[], [], [], []]
  /-- 08 R230: ADC samples that the digital front of a chain keeps from earlier ticks, newest first. -/
  frontTail : List (List (Int × Int)) := [[], [], [], [], [], []]
  /-- 08 R233: DAC words that the digital back end of a chain keeps from earlier ticks, newest first. -/
  backTail : List (List (Int × Int)) := [[], [], [], []]
  /-- 08 R233: what the converters of each TX chain gave in the last tick, at 1,966.08 MSPS. -/
  dacOut : List (List (Int × Int)) := [[], [], [], []]
  /-- 08 R233: DAC_BO of the power step in force in the running tick. -/
  dacBo : List Nat := [0,0,0,0]
  deriving DecidableEq, Repr

/-- One tap with its lower extension (spec/04 R105, R106). -/
structure Tap where
  /-- 04 R105. -/
  i : Int := 0
  /-- 04 R105. -/
  q : Int := 0
  deriving DecidableEq, Repr

/-- Sums of a measurement sub-block (spec/04 R119). -/
structure SubBlock where
  /-- 04 R119. -/
  g : List (Int × Int) := []
  /-- 04 R119. -/
  p : Nat := 0
  /-- 04 R119. -/
  pe : Nat := 0
  /-- 04 R119. -/
  n : Nat := 0
  /-- 04 R119. -/
  ticks : Nat := 0
  deriving DecidableEq, Repr

/-- Cumulative rotation or a chain change (spec/04 R122, R123, R126). -/
structure Rot where
  /-- 04 R126. -/
  gain : Int := 0
  /-- 04 R126. -/
  phase : Int := 0
  /-- 04 R126. -/
  delay : Int := 0
  deriving DecidableEq, Repr

/-- What governs a path in the running tick: as set when its boundary opened it (spec/04 R117, R125). -/
structure PathRun where
  /-- 04 R117: enabled. -/
  on : Bool := false
  /-- 04 R117. -/
  mode : Nat := 0
  /-- 04 R114. -/
  acq : Bool := false
  /-- 04 R111. -/
  step : Nat := 0
  /-- 04 R111. -/
  leak : Nat := 0
  /-- 04 R116. -/
  rhoMax : Nat := 0
  /-- 04 R100. -/
  orx : Bool := false
  /-- 04 R98. -/
  decor : Nat := 0
  /-- 04 R98. -/
  exp : Nat := 15
  /-- 04 R111: m. -/
  gradDiv : Nat := 1
  /-- 04 R98. -/
  taps : List Tap := []
  deriving DecidableEq, Repr

/-- One canceller path (spec/04 R136, R137). -/
structure Path where
  /-- 04 R137: in units of 16 taps. -/
  base : Nat := 0
  /-- 04 R137: L; LEN16 = L / 16. -/
  len : Nat := 0
  /-- 04 R137. -/
  orx : Bool := false
  /-- 04 R137. -/
  enabled : Bool := false
  /-- 04 R137. -/
  leak : Nat := 0
  /-- 04 R137. -/
  track : Nat := 0
  /-- 04 R137. -/
  decor : Nat := 0
  /-- 04 R137. -/
  exp : Nat := 15
  /-- 04 R137. -/
  rhoMax : Nat := 0
  /-- 04 R137. -/
  step : Nat := 0
  /-- 04 R137. -/
  mode : Nat := 0
  /-- 04 R137. -/
  acq : Bool := false
  /-- 04 R114: tick of entry to acquisition. -/
  acqTick : Nat := 0
  /-- 04 R137. -/
  frozen : Bool := false
  /-- 04 R137: SUSP_REF, SAT, BIAS, OTHER of the last tick. -/
  susp : Nat := 0
  /-- 04 R118: consecutive counted ticks suspended. -/
  suspRun : Nat := 0
  /-- 04 R137. -/
  measLog2 : Nat := 3
  /-- 04 R137. -/
  supp : Int := 0
  /-- 04 R137. -/
  coupling : Int := -32768
  /-- 04 R137. -/
  residual : Int := -32768
  /-- 04 R137. -/
  peakLag : Nat := 0
  /-- 04 R137. -/
  lagMin : Nat := 0
  /-- 04 R137. -/
  filtSpan : Nat := 0
  /-- 04 R137. -/
  skip : Nat := 0
  /-- 04 R137. -/
  tapSat : Nat := 0
  /-- 04 R105. -/
  taps : List Tap := []
  /-- 04 R123. -/
  rot : Rot := {}
  /-- 04 R119. -/
  cur : SubBlock := {}
  /-- 04 R119: newest first. -/
  blocks : List SubBlock := []
  /-- 05 R141: published since enabled or reset. -/
  published : Bool := false
  /-- 05 R159: tick of the last publication. -/
  pubTick : Nat := 0
  /-- 05 R159. -/
  stale : Bool := false
  /-- 04 R119: Eh and Ed over one denominator. -/
  ehEd : Nat × Nat × Nat := (0, 0, 1)
  /-- 04 R107: it has a run in the tap store. -/
  placed : Bool := false
  /-- 04 R107: new base, switching at the next boundary. -/
  moveTo : Option Nat := none
  /-- 04 R106: a tap saturated at E = 0 in the running tick. -/
  overNow : Bool := false
  /-- 04 R117 R125: what governs it in the running tick. -/
  run : PathRun := {}
  /-- 04 R136: its register group as the last boundary left it; none since reset: as it stands. -/
  shown : List (BitVec 32) := []
  deriving DecidableEq, Repr

/-- A snapshot slot (spec/04 R126). -/
structure Snapshot where
  /-- 04 R126. -/
  path : Nat := 0
  /-- 04 R126. -/
  orx : Bool := false
  /-- 04 R126. -/
  exp : Nat := 0
  /-- 04 R126. -/
  rate : Nat := 0
  /-- 04 R126. -/
  defCount : Nat := 0
  /-- 04 R126. -/
  len : Nat := 0
  /-- 04 R126. -/
  decor : Nat := 0
  /-- 04 R126. -/
  ratio : Nat := 0
  /-- 04 R126. -/
  rot : Rot := {}
  /-- 04 R126. -/
  time : Nat := 0
  /-- 04 R126. -/
  supp : Int := 0
  /-- 04 R126. -/
  taps : List Tap := []
  deriving DecidableEq, Repr

/-- The staging buffer of snapshots and restores (spec/04 R126, R133). -/
structure Stage where
  /-- 04 R133. -/
  restore : Bool := false
  /-- 04 R133. -/
  sect : Nat := 0
  /-- 04 R124: tick that the boundary of the copy opens. -/
  tick : Nat := 0
  /-- 04 R133: path, slot, content. -/
  items : List (Nat × Nat × Snapshot) := []
  deriving DecidableEq, Repr

/-- BDC block of a hearth (spec/04 R134, R135). -/
structure Bdc where
  /-- 04 R134. -/
  gradDiv : Nat := 1
  /-- 04 R134. -/
  reloc : Bool := false
  /-- 04 R140: tick at which the compaction began. -/
  relocStart : Nat := 0
  /-- 04 R140. -/
  relocMoved : Nat := 0
  /-- 04 R133: staging buffer in use (BDC_STATUS.STAGE_BUSY). -/
  stage : Option Stage := none
  /-- 04 R135. -/
  deferCount : Nat := 0
  /-- 04 R135. -/
  deferReason : Nat := 0
  /-- 04 R126: a slot not listed is invalid. -/
  slots : KMap Snapshot := []
  deriving DecidableEq, Repr

/-- LOOP_CONFIG of a slot (spec/07 R217). -/
structure LoopCfg where
  /-- 07 R217. -/
  act : Nat := 0
  /-- 07 R217. -/
  actIdx : Nat := 0
  /-- 07 R217. -/
  measSrc : Nat := 0
  /-- 07 R217. -/
  measIdx : Nat := 0
  /-- 07 R217. -/
  k : Nat := 0
  /-- 07 R217. -/
  phase : Nat := 0
  /-- 07 R217. -/
  dEn : Bool := false
  /-- 07 R217. -/
  notchEn : Bool := false
  /-- 07 R217. -/
  plausEn : Bool := false
  /-- 07 R217. -/
  mfiltEn : Bool := false
  /-- 07 R217. -/
  tuneRule : Nat := 1
  /-- 07 R217. -/
  kpM : Int := 0
  /-- 07 R217. -/
  kpE : Int := 0
  /-- 07 R217. -/
  kiM : Int := 0
  /-- 07 R217. -/
  kiE : Int := 0
  /-- 07 R217. -/
  kdM : Int := 0
  /-- 07 R217. -/
  kdE : Int := 0
  /-- 07 R217. -/
  df : Int := 32767
  /-- 07 R217. -/
  mfilt : Int := 32767
  /-- 07 R217. -/
  outMin : Int := -32768
  /-- 07 R217. -/
  outMax : Int := 32767
  /-- 07 R217. -/
  slewUp : Nat := 0
  /-- 07 R217. -/
  slewDn : Nat := 0
  /-- 07 R217. -/
  handSlew : Nat := 256
  /-- 07 R217. -/
  safe : Int := -32768
  /-- 07 R217. -/
  notchF : Nat := 0
  /-- 07 R217. -/
  notchBw : Nat := 0
  /-- 07 R217. -/
  modelKM : Int := 16384
  /-- 07 R217. -/
  modelKE : Int := 1
  /-- 07 R217. -/
  modelDelay : Nat := 0
  /-- 07 R217. -/
  bshift : Nat := 10
  /-- 07 R217. -/
  modelTau : Nat := 1
  /-- 07 R217. -/
  plausTol : Nat := 768
  /-- 07 R217. -/
  plausN : Nat := 16
  /-- 07 R217. -/
  freezeN : Nat := 0
  /-- 07 R217. -/
  freezeDelta : Nat := 256
  /-- 07 R217. -/
  holdMax : Nat := 100
  /-- 07 R217. -/
  rampSpan : Nat := 7680
  /-- 07 R217. -/
  rampRate : Nat := 512
  /-- 07 R217. -/
  spLo : Int := 0
  /-- 07 R217. -/
  spHi : Int := 0
  /-- 07 R217. -/
  relayAmp : Nat := 256
  /-- 07 R217. -/
  relayHyst : Nat := 64
  /-- 07 R217. -/
  tuneMax : Nat := 4096
  deriving DecidableEq, Repr

/-- A relay test (spec/07 R214). -/
structure Tune where
  /-- 07 R223. -/
  apply : Bool := false
  /-- 07 R215. -/
  execs : Nat := 0
  /-- 07 R214: sum of mf over the first 16 executions. -/
  r0sum : Int := 0
  /-- 07 R214: u is u0 + RELAY_AMP. -/
  high : Bool := false
  /-- 07 R214: executions of the up-switches, newest first. -/
  ups : List Nat := []
  /-- 07 R214. -/
  mx : Int := -32768
  /-- 07 R214. -/
  mn : Int := 32767
  /-- 07 R214: (max - min) of each period, newest first. -/
  swings : List Int := []
  deriving DecidableEq, Repr

/-- A loop slot (spec/07 R189, R227). -/
structure Loop where
  /-- 07 R217. -/
  cfg : LoopCfg := {}
  /-- 07 R227. -/
  state : Nat := 0
  /-- 07 R227. -/
  mode : Nat := 0
  /-- 07 R192: section and direction-branch of a bound gain slot. -/
  bound : Option (Nat × Nat) := none
  /-- 07 R227. -/
  handover : Bool := false
  /-- 07 R209: a hand-over starts at the next execution. -/
  handStart : Bool := false
  /-- 07 R209: mode before it. -/
  handOld : Nat := 0
  /-- 07 R209: it closes from OPEN. -/
  handOpen : Bool := false
  /-- 07 R209. -/
  handN : Nat := 0
  /-- 07 R227. -/
  rampDone : Bool := false
  /-- 07 R227. -/
  heldExec : Bool := false
  /-- 07 R227. -/
  tracking : Bool := false
  /-- 07 R227. -/
  measValid : Bool := false
  /-- 07 R227. -/
  extInvalid : Bool := false
  /-- 07 R227. -/
  lostCause : Nat := 0
  /-- 07 R212: cause of a loss that applies at the next boundary. -/
  lostDue : Option Nat := none
  /-- 07 R196: a store to Acc40 has saturated in the running execution. -/
  satRun : Bool := false
  /-- 07 R212. -/
  lostTick : Nat := 0
  /-- 07 R227. -/
  lostRamp : Bool := false
  /-- 07 R212. -/
  safeDone : Bool := false
  /-- 07 R212: its output stands at SAFE from the coming boundary on, and the event of that is due. -/
  atSafe : Bool := false
  /-- 07 R227. -/
  depRun : Nat := 0
  /-- 07 R227. -/
  spTgt : Int := 0
  /-- 07 R195: Acc40: units of 2^-16 LSB. -/
  spEff : Int := 0
  /-- 07 R650: SP_eff is set by R202 at the first execution that makes mf known. -/
  spDue : Bool := false
  /-- 07 R203: its section is in RAMPING and it is not ramp-done. -/
  ramping : Bool := false
  /-- 07 R191: tick of the previous execution. -/
  execTick : Nat := 0
  /-- 07 R650: Acc40; none: unknown. -/
  mf : Option Int := none
  /-- 07 R197. -/
  mfLast : Int := 0
  /-- 07 R211. -/
  lastM : Int := 0
  /-- 07 R211: actuator values over the executions of identical measurements, newest first. -/
  freezeVals : List Int := []
  /-- 07 R211. -/
  freezeU : Int := 0
  /-- 07 R210. -/
  mHat : Int := -2147483648
  /-- 07 R210. -/
  bias : Int := 0
  /-- 07 R227. -/
  err : Int := 0
  /-- 07 R210. -/
  anchored : Bool := false
  /-- 07 R191: energy and number of what its measurement has averaged since its previous execution. -/
  measSum : Nat × Nat := (0, 0)
  /-- 07 R210 R250: the same of SEC_IN for its model, or of SEC_OUT for its set-point. -/
  inSum : Nat × Nat := (0, 0)
  /-- 07 R191 R210: latest SEC_IN of the bound branch; none before the first. -/
  secIn : Option Int := none
  /-- 07 R210: newest first. -/
  uHist : List Int := []
  /-- 07 R210. -/
  uGood : Int := -32768
  /-- 07 R197. -/
  integ : Int := 0
  /-- 07 R197. -/
  p : Int := 0
  /-- 07 R197. -/
  dfState : Int := 0
  /-- 07 R197: z_prev; -128.0 dB. -/
  z : Int := -2147483648
  /-- 07 R197: z of the last execution; -128.0 dB. -/
  zNow : Int := -2147483648
  /-- 07 R200. -/
  nx1 : Int := 0
  /-- 07 R200. -/
  nx2 : Int := 0
  /-- 07 R200. -/
  ny1 : Int := 0
  /-- 07 R200. -/
  ny2 : Int := 0
  /-- 07 R207. -/
  vT : Int := -32768
  /-- 07 R221: (log entry 70, DESIGN CHOICE). -/
  manOut : Int := 0
  /-- 07 R221. -/
  extP : Bool := false
  /-- 07 R206: SAFE after reset. -/
  openOut : Int := -32768
  /-- 07 R227. -/
  u : Int := -32768
  /-- 07 R224. -/
  table : List (Int × Int) := []
  /-- 07 R214. -/
  tune : Option Tune := none
  /-- 07 R227. -/
  kuM : Int := 0
  /-- 07 R227. -/
  kuE : Int := 0
  /-- 07 R227. -/
  tuneStatus : Nat := 0
  /-- 07 R227. -/
  upswitch : Nat := 0
  /-- 07 R227. -/
  tu : Nat := 0
  /-- 07 R227. -/
  amp : Nat := 0
  /-- 07 R227. -/
  sat : Nat := 0
  /-- 07 R227. -/
  losses : Nat := 0
  /-- 07 R227. -/
  handovers : Nat := 0
  /-- 07 R226: its register group as the last boundary left it; none since reset: as it stands. -/
  shown : List (BitVec 32) := []
  deriving DecidableEq, Repr

/-- Set-point pins of the package (spec/07 R204, R225, R226). -/
structure Setpt where
  /-- 07 R225. -/
  pfm : Bool := false
  /-- 07 R225. -/
  aMin : Nat := 0
  /-- 07 R225. -/
  aMax : Nat := 4095
  /-- 07 R225. -/
  fLo : Nat := 1000
  /-- 07 R225. -/
  fHi : Nat := 200000
  /-- 07 R226. -/
  aCode : Nat := 0
  /-- 07 R204: what SETPT_P shows. -/
  pin : SetptIn := {}
  /-- 07 R226. -/
  aValid : Bool := false
  /-- 07 R226. -/
  pValid : Bool := false
  /-- 07 R226: fraction in 2^-16. -/
  pX : Nat := 0
  deriving DecidableEq, Repr

/-- Reply status (spec/12 R358). -/
inductive Status where
  | ok
  | badOpcode
  | badLength
  | badParam
  | notPermitted
  | firebrickLimit
  | state
  | loopClosed
  | synthNotReady
  | budget
  | timeout
  | groupMismatch
  | authFailed
  | aborted
  | busy
  | internal
  | doused
  deriving DecidableEq, Repr

/-- A PF0 queue pair (spec/12 R359, R373). -/
structure Queue where
  /-- 12 R373. -/
  sqAddr : Nat := 0
  /-- 12 R373. -/
  cqAddr : Nat := 0
  /-- 12 R373. -/
  sqM1 : Nat := 0
  /-- 12 R373. -/
  cqM1 : Nat := 0
  /-- 12 R373. -/
  ien : Bool := false
  /-- 12 R373. -/
  vector : Nat := 0
  /-- 12 R373: 0 DISABLED, 1 ACTIVE, 2 ERROR. -/
  state : Nat := 0
  /-- 12 R373. -/
  err : Nat := 0
  /-- 12 R373. -/
  sqHead : Nat := 0
  /-- 12 R361. -/
  sqTail : Nat := 0
  /-- 12 R366: SQ_TAIL as it stood when the running tick opened: packets up to it may be captured in this tick. -/
  sqSeen : Nat := 0
  /-- 12 R361. -/
  cqHead : Nat := 0
  /-- 12 R373. -/
  cqTail : Nat := 0
  /-- 12 R359. -/
  phase : Bool := true
  /-- 12 R364: completion slots reserved for replies that are not written yet. -/
  reserved : Nat := 0
  /-- 12 R373: wraps. -/
  packets : Nat := 0
  /-- 12 R373. -/
  errors : Nat := 0
  /-- 12 R370: device time limit of a packet waiting for more slots: DSP clock of the capture attempt. -/
  extWait : Option Nat := none
  /-- 12 R370: SQ_TAIL as it stood when that wait ran out, where a later doorbell has moved it. -/
  extTail : Option Nat := none
  deriving DecidableEq, Repr

/-- A held command (spec/12 R368). -/
structure Held where
  /-- 12 R368. -/
  op : Nat := 0
  /-- 12 R352. -/
  src : Nat := 0
  /-- 12 R355. -/
  tag : Nat := 0
  /-- 12 R355. -/
  seq : Nat := 0
  /-- 12 R355. -/
  hearth : Nat := 0
  /-- 12 R355. -/
  sect : Nat := 0
  /-- 12 R356. -/
  flags : Nat := 0
  /-- 12 R364. -/
  reserve : Nat := 0
  /-- 12 R368: what it awaits: a global section, slot, chain, pattern mask ... -/
  key : Nat := 0
  /-- 12 R368: tick of its timeout. -/
  deadline : Option Nat := none
  /-- 12 R368. -/
  words : List (BitVec 32) := []
  deriving DecidableEq, Repr

/-- A reply written by the device (spec/12 R357). -/
structure Reply where
  /-- 12 R352. -/
  src : Nat := 0
  /-- 12 R357. -/
  tag : Nat := 0
  /-- 12 R358. -/
  status : Status := .ok
  /-- 12 R357. -/
  hearth : Nat := 0
  /-- 12 R362. -/
  phase : Bool := false
  /-- 12 R363. -/
  fill : Bool := false
  /-- 12 R357. -/
  sqHead : Nat := 0
  /-- 12 R362: completion slot of its header. -/
  slot : Nat := 0
  /-- 12 R357: TIMESTAMP. -/
  time : Nat := 0
  /-- 12 R367: MSI-X vector its message signals. -/
  irq : Option Nat := none
  /-- 12 R357. -/
  words : List (BitVec 32) := []
  deriving DecidableEq, Repr

/-- A reply that is written at the boundary that opens the next tick (spec/02 R60; spec/12 R367). -/
structure Due where
  /-- 12 R357. -/
  cmd : Held := {}
  /-- 12 R358. -/
  status : Status := .ok
  /-- 12 R357. -/
  words : List (BitVec 32) := []
  /-- 02 R60: its TIMESTAMP where it is not the time of that boundary. -/
  time : Option Nat := none
  deriving DecidableEq, Repr

/-- Kindling script runner (spec/13 R404, R405; spec/20 R580, R581). -/
structure Script where
  /-- 13 R405. -/
  state : Nat := 0
  /-- 13 R405. -/
  next : Nat := 0
  /-- 13 R405. -/
  executed : Nat := 0
  /-- 13 R405. -/
  lastErrOp : Nat := 0
  /-- 13 R405. -/
  lastErrStatus : Nat := 0
  /-- 13 R405. -/
  errors : Nat := 0
  /-- 20 R581: tick at which the DELAY of the next record starts to count. -/
  readyTick : Nat := 0
  /-- 20 R581. -/
  retryAt : Option Nat := none
  /-- 12 R354: packet of the record whose turn it is, not yet captured. -/
  turn : Option (List (BitVec 32)) := none
  /-- 12 R354: the record whose turn came has not replied. -/
  busy : Bool := false
  /-- 20 R581: captures of the present record. -/
  attempts : Nat := 0
  /-- 13 R404. -/
  stopping : Bool := false
  /-- 13 R406: SOURCE of the SCRIPT_CONTROL that stops the script. -/
  stopSrc : Nat := 64
  deriving DecidableEq, Repr

/-- Command processor (spec/12, spec/13). -/
structure Cpx where
  /-- 12 R373. -/
  queues : List Queue := List.replicate 64 {}
  /-- 12 R368: in capture order. -/
  held : List Held := []
  /-- 12 R367: replies that wait for the boundary, oldest first. -/
  due : List Due := []
  /-- 12 R357: every reply written, oldest first: the model's own outbox (log entry 10, DESIGN CHOICE). -/
  replies : List Reply := []
  /-- 12 R372. -/
  leaderSeq : Nat := 0
  /-- 12 R353: the next leader packet is accepted whatever its SEQUENCE. -/
  leaderAny : Bool := true
  /-- 12 R372. -/
  leaderDup : Nat := 0
  /-- 12 R372. -/
  unlocked : Bool := false
  /-- 20 R590: implicit privilege ended by HOST_UNLOCK with LOCK. -/
  lockedBy : Bool := false
  /-- 13 R399: tick from which on an unlock gives privilege. -/
  privFrom : Nat := 0
  /-- 13 R397: nonce and expiry tick. -/
  challenge : Option (Nat × Nat) := none
  /-- 13 R399: nonce and signature under verification. -/
  verifying : Option (Nat × List (BitVec 32)) := none
  /-- 13 R399: SOURCE of the HOST_UNLOCK under verification. -/
  verifySrc : Nat := 0
  /-- 13 R399. -/
  unlockFails : Nat := 0
  /-- 13 R399. -/
  lockoutEnd : Option Nat := none
  /-- 12 R366: packets captured in the running tick. -/
  capTotal : Nat := 0
  /-- 12 R366: by source. -/
  capBy : KMap Nat := []
  /-- 12 R366: place in the capture order of the last source captured from in the running tick. -/
  capRank : Nat := 0
  /-- 13 R403: a SYS_RESET with ORDERLY = 0 was handled in this tick: later packets of the tick are not handled. -/
  resetTaken : Bool := false
  /-- 13 R405. -/
  script : Script := {}
  deriving DecidableEq, Repr

/-- An Ash Log entry (spec/18 R534). -/
structure LogEntry where
  /-- 18 R534. -/
  time : Nat := 0
  /-- 18 R534. -/
  code : Nat := 0
  /-- 18 R534. -/
  hearth : Nat := 0
  /-- 18 R534. -/
  source : Nat := 511
  /-- 18 R534. -/
  ember : Bool := false
  /-- 18 R534: data bytes; bytes not listed are 0. -/
  data : List Nat := []
  deriving DecidableEq, Repr

/-- Token bucket of a code (spec/18 R538). -/
structure Bucket where
  /-- 18 R538. -/
  burst : Nat := 0
  /-- 18 R538. -/
  refill : Nat := 0
  /-- 18 R540: REFILL that the running count meets. -/
  refillNow : Nat := 0
  /-- 18 R538. -/
  tokens : Nat := 0
  /-- 18 R538. -/
  counter : Nat := 0
  /-- 18 R538. -/
  suppCount : Nat := 0
  /-- 18 R538. -/
  suppFirst : Nat := 0
  deriving DecidableEq, Repr

/-- An ember set in an area of the boot flash (spec/18 R541). -/
structure EmberSet where
  /-- 18 R541. -/
  generation : Nat := 0
  /-- 18 R541. -/
  cause : Nat := 0
  /-- 18 R541. -/
  time : Nat := 0
  /-- 18 R541. -/
  firstSeq : Nat := 0
  /-- 18 R541. -/
  entries : List LogEntry := []
  /-- 18 R541: CRC of the header and the entries. -/
  crc : BitVec 32 := 0
  deriving DecidableEq, Repr

/-- Content of an ember area (spec/18 R541, R544). -/
inductive Ember where
  | erased
  | corrupt
  | held (set : EmberSet)
  deriving DecidableEq, Repr

/-- Ash Log of the package (spec/18). -/
structure Alog where
  /-- 18 R535. -/
  ring : KMap LogEntry := []
  /-- 18 R535. -/
  mirror : KMap LogEntry := []
  /-- 18 R549. -/
  seq : Nat := 0
  /-- 18 R535: entries held, at most 16,384. -/
  written : Nat := 0
  /-- 18 R549. -/
  ovw : Nat := 0
  /-- 18 R549. -/
  supp : Nat := 0
  /-- 18 R538: a code not listed has its default BURST and REFILL, a full bucket and no suppressed event. -/
  buckets : KMap Bucket := []
  /-- 18 R549. -/
  rateSel : Nat := 0
  /-- 18 R547: code, BURST and REFILL that apply at the next boundary. -/
  rateNext : List (Nat × Nat × Nat) := []
  /-- 18 R541: flash (log entry 13, DESIGN CHOICE). -/
  areas : List Ember := [.erased, .erased]
  /-- 18 R544: area of the loaded set. -/
  loaded : Option Nat := none
  /-- 18 R544. -/
  loadedSet : EmberSet := {}
  /-- 18 R549. -/
  emberValid : Bool := false
  /-- 18 R549. -/
  emberReady : Bool := false
  /-- 18 R549. -/
  emberWriting : Bool := false
  /-- 18 R549. -/
  emberDone : Bool := false
  /-- 18 R544. -/
  erasing : Bool := false
  /-- 18 R542: the set being written. -/
  writing : Option EmberSet := none
  /-- 16 R508: LOG entries dropped since the last one admitted, per hearth. -/
  dropRun : List Nat := [0,0,0,0,0,0,0,0]
  /-- 18 R542. -/
  pfWarned : Bool := false
  /-- 18 R544: the ember areas have been read in this boot. -/
  emberRead : Bool := false
  deriving DecidableEq, Repr

/-- Draught fabric of a hearth (spec/16 R491, R505). -/
structure Dfb where
  /-- 16 R505. -/
  linkUp : Nat := 0
  /-- 16 R505. -/
  logDrop : Nat := 0
  /-- 16 R505. -/
  retry : Nat := 0
  /-- 16 R507: consecutive retries per link. -/
  retryRun : List Nat := [0,0]
  /-- 16 R491: LOG class queue to hearth 0, oldest first. -/
  logQ : List LogEntry := []
  deriving DecidableEq, Repr

/-- External memory controller of a hearth (spec/16 R494 to R506). -/
structure Xmc where
  /-- 16 R506. -/
  speed : Nat := 0
  /-- 16 R506. -/
  ranks2 : Bool := false
  /-- 16 R506. -/
  d32 : Bool := false
  /-- 16 R501: index subchannel * 2 + rank. -/
  marks : List (Option Nat) := [none,none,none,none]
  /-- 16 R506. -/
  ce : Nat := 0
  /-- 16 R506. -/
  uce : Nat := 0
  /-- 16 R506: key (subchannel * 2 + rank) * 10 + device. -/
  devCe : KMap Nat := []
  /-- 16 R501 R506: ticks of the CEs of the last 24 h, newest first. -/
  devCe24 : KMap (List Nat) := []
  /-- 16 R502. -/
  ceThresh : Nat := 256
  /-- 16 R502. -/
  scrubPeriod : Nat := 24
  /-- 16 R506. -/
  progress : Nat := 0
  /-- 16 R506. -/
  passes : Nat := 0
  /-- 16 R502: line of the current pass. -/
  scrubAt : Nat := 0
  deriving DecidableEq, Repr

/-- WIDE registers of one master (spec/21 R607). -/
structure WideReg where
  /-- 21 R611. -/
  req : Nat := 0
  /-- 21 R611. -/
  valid : Bool := false
  /-- 21 R611. -/
  bad : Bool := false
  /-- 21 R611. -/
  data : Nat := 0
  deriving DecidableEq, Repr

/-- SYS block (spec/21 R611). -/
structure Sys where
  /-- 21 R611: none: not yet written, reads 0. -/
  testLock : Option Bool := none
  /-- 21 R611: none: not yet written, reads 0. -/
  board : Option Nat := none
  /-- 21 R611. -/
  hbCount : Nat := 0
  /-- 21 R618: last value written. -/
  hbLast : Nat := 0
  /-- 21 R614: ticks since the last decrement. -/
  hbPhase : Nat := 0
  /-- 21 R612. -/
  intPend : Nat := 0
  /-- 21 R612. -/
  intEn : Nat := 0
  /-- 21 R612. -/
  intVector : Nat := 0
  /-- 21 R613. -/
  intOr : Bool := false
  /-- 21 R607: PF0, CPX, SEC. -/
  wide : List WideReg := [{}, {}, {}]
  /-- 21 R603: captured writes that take effect at the next boundary. -/
  late : List LateWrite := []
  /-- 21 R611. -/
  snapSeq : Nat := 0
  /-- 21 R611. -/
  snapPending : Bool := false
  /-- 21 R608. -/
  snapWindow : KMap Nat := []
  /-- 21 R611. -/
  dousedCopy : Bool := false
  /-- 21 R608: a copy has been made since the last power-up. -/
  snapDone : Bool := false
  deriving DecidableEq, Repr

/-- An IMAGE_WRITE transfer (spec/20 R586). -/
structure Transfer where
  /-- 20 R586. -/
  target : Nat := 0
  /-- 20 R586: record copy being written. -/
  copy : Nat := 0
  /-- 20 R586: bytes written since FIRST. -/
  offset : Nat := 0
  deriving DecidableEq, Repr

/-- Boot and security of the package (spec/20). -/
structure Sec where
  /-- 20 R569: strap (log entry 1, DESIGN CHOICE). -/
  bootSrc : Nat := 0
  /-- 02 R40: strap (log entry 1, DESIGN CHOICE). -/
  refsel : Bool := false
  /-- 20 R595. -/
  stage : Nat := 0
  /-- 20 R595. -/
  result : Nat := 0
  /-- 20 R595. -/
  image : Nat := 3
  /-- 20 R595. -/
  fallback : Bool := false
  /-- 20 R595. -/
  recordCopy : Nat := 0
  /-- 20 R595. -/
  oemSigned : Bool := false
  /-- 20 R595. -/
  warm : Bool := false
  /-- 20 R595. -/
  failA : Nat := 0
  /-- 20 R595. -/
  failB : Nat := 0
  /-- 20 R595. -/
  scriptOk : Bool := false
  /-- 20 R595. -/
  bootMs : Nat := 0
  /-- 20 R585: OTP (log entry 13, DESIGN CHOICE). -/
  rollback : Nat := 0
  /-- 20 R588: OTP (log entry 13, DESIGN CHOICE). -/
  oemKey : Option Nat := none
  /-- 20 R588: OTP (log entry 13, DESIGN CHOICE). -/
  hostKey : Option Nat := none
  /-- 20 R589: tick from which the OEM provisioning key is in force. -/
  oemFrom : Nat := 0
  /-- 20 R589: tick from which the host-unlock key is in force. -/
  hostFrom : Nat := 0
  /-- 20 R589: key being programmed. -/
  keyProg : Option (Nat × Nat) := none
  /-- 20 R585: target of the fuses being programmed. -/
  rollbackProg : Option Nat := none
  /-- 13 R392. -/
  fwVersion : Nat := 0
  /-- 13 R392. -/
  fwSvn : Nat := 0
  /-- 13 R392. -/
  protoMajor : Nat := 0
  /-- 13 R392. -/
  protoMinor : Nat := 0
  /-- 20 R592. -/
  imageHash : Nat := 0
  /-- 20 R583: header of the running image. -/
  header : List (BitVec 32) := []
  /-- 20 R579: record in use. -/
  record : Option (List (BitVec 32)) := none
  /-- 13 R392: SNAPSHOT. -/
  wideMode : Bool := false
  /-- 20 R574: boot flash by word; a word not listed is erased, 0xFFFF_FFFF (log entry 13, DESIGN CHOICE). -/
  flash : KMap (BitVec 32) := []
  /-- 20 R586: DRAM staging target by word. -/
  staging : KMap (BitVec 32) := []
  /-- 20 R586. -/
  xfer : Option Transfer := none
  /-- 20 R575: slots tried in this boot. -/
  slotTry : Nat := 0
  /-- 20 R575: slot being tried. -/
  slotNow : Nat := 0
  /-- 20 R587: image that IMAGE_ACTIVATE BOOT asked for. -/
  bootNext : Option Nat := none
  /-- 01 R32: RF powered. -/
  rfPowered : Bool := false
  /-- 20 R571: RESET_N is low. -/
  resetLow : Bool := false
  /-- 20 R570: PWR_GOOD is high. -/
  powered : Bool := true
  /-- 20 R592: attestation reports filled and not yet signed, by the number of the ATTEST. -/
  reports : KMap (List (BitVec 32)) := []
  /-- 20 R592: number of the next ATTEST. -/
  reportNext : Nat := 0
  deriving DecidableEq, Repr

/-- MSI-X state of a PCIe function (spec/14 R411, R414). -/
structure Msix where
  /-- 14 R411: words of the table that have been written; an entry whose control word is not listed is masked (log entry 14, PRESUMED). -/
  table : KMap (BitVec 32) := []
  /-- 14 R414: vectors pending while masked. -/
  pba : List Nat := []
  /-- 14 R414: messages sent, oldest first: the model's own outbox (log entry 10, DESIGN CHOICE). -/
  sent : List Nat := []
  /-- 14 R414: MSI-X Enable (P147). -/
  enable : Bool := false
  /-- 14 R414: Function Mask (P147). -/
  funcMask : Bool := false
  deriving DecidableEq, Repr

/-- Control fields of a physical function's configuration space (spec/14 R408, R410, R411). -/
structure PciCfg where
  /-- 14 R411: address that the host gives BAR0 (P147). -/
  bar0 : Nat := 0
  /-- 14 R411: address of BAR2 of PF0, and of VF BAR0 of PF1 (P147). -/
  bar2 : Nat := 0
  /-- 14 R408: Max_Payload_Size: 128 bytes times 2 to it (P147). -/
  mps : Nat := 0
  /-- 14 R408: Max_Read_Request_Size: 128 bytes times 2 to it (P147). -/
  mrrs : Nat := 2
  /-- 14 R417: Enable Relaxed Ordering (P147). -/
  relaxed : Bool := true
  /-- 14 R408: 10-bit tags as requester (P147). -/
  tag10 : Bool := false
  /-- 14 R408: Completion Timeout Value; 0 is the default range (P147). -/
  timeout : Nat := 0
  /-- 14 R408: ASPM L1 enabled (P147). -/
  aspmL1 : Bool := false
  /-- 14 R408: ECRC generation enabled (P147). -/
  ecrcGen : Bool := false
  /-- 14 R408: ECRC checking enabled (P147). -/
  ecrcCheck : Bool := false
  /-- 14 R408: AER uncorrectable error status (P147). -/
  uncStatus : Nat := 0
  /-- 14 R410: AER First Error Pointer (P147). -/
  firstError : Nat := 0
  deriving DecidableEq, Repr

/-- Host interface of the package (spec/14 R435). -/
structure Hif where
  /-- 14 R435. -/
  gen : Nat := 0
  /-- 14 R435. -/
  width : Nat := 0
  /-- 14 R435. -/
  d3pf0 : Bool := false
  /-- 14 R435. -/
  d3pf1 : Bool := false
  /-- 14 R433 R434: link training; configuration requests get retry status. -/
  training : Bool := true
  /-- 14 R435. -/
  capIen : Bool := false
  /-- 14 R435. -/
  capVector : Nat := 0
  /-- 14 R410. -/
  vfEnable : Bool := false
  /-- 14 R408 R410. -/
  cfg0 : PciCfg := {}
  /-- 14 R408 R410. -/
  cfg1 : PciCfg := {}
  /-- 14 R411. -/
  pf0 : Msix := {}
  /-- 14 R411. -/
  pf1 : Msix := {}
  /-- 14 R411. -/
  vfs : List Msix := List.replicate 30 {}
  deriving DecidableEq, Repr

/-- Capture configuration (spec/14 R430). -/
structure CapCfg where
  /-- 14 R430: chains in SRC order. -/
  srcs : List Nat := []
  /-- 14 R429. -/
  word0 : Nat := 0
  /-- 14 R430. -/
  spectrum : Bool := false
  /-- 14 R430. -/
  length : Nat := 0
  /-- 14 R430. -/
  pre : Nat := 0
  /-- 14 R430. -/
  fftLog2 : Nat := 0
  /-- 14 R430. -/
  avgLog2 : Nat := 0
  /-- 14 R430. -/
  hostAddr : Nat := 0
  /-- 14 R430. -/
  trigTime : Nat := 0
  deriving DecidableEq, Repr

/-- Capture engine of a hearth (spec/14 R427 to R435). -/
structure Cap where
  /-- 14 R430. -/
  cfg : Option CapCfg := none
  /-- 14 R435. -/
  state : Nat := 0
  /-- 14 R435. -/
  shortPre : Bool := false
  /-- 14 R435. -/
  dramErr : Bool := false
  /-- 14 R435. -/
  captures : Nat := 0
  /-- 14 R431. -/
  trig : Nat := 0
  /-- 14 R431. -/
  event : Nat := 0
  /-- 14 R428: DSP clock from which it records. -/
  armClock : Nat := 0
  /-- 14 R428: DSP clock of a trigger point already known. -/
  trigDue : Option Nat := none
  /-- 14 R429: time of the trigger point. -/
  trigTime : Nat := 0
  /-- 14 R429: entries or transforms per source of the running capture. -/
  entries : Nat := 0
  /-- 14 R427 R428: what has been recorded of each source, oldest first. -/
  buf : List (List (Int × Int)) := []
  /-- 14 R428: DSP clock of the first sample recorded. -/
  bufClk : Nat := 0
  /-- 14 R429: time of the first sample of the capture. -/
  firstTime : Nat := 0
  /-- 14 R429: lines of its data that a DRAM error has lost. -/
  lost : List Nat := []
  /-- 14 R417: the latest readout carried Relaxed Ordering. -/
  imageRo : Bool := false
  /-- 14 R429: what the latest readout wrote. -/
  image : List (BitVec 32) := []
  /-- 14 R431. -/
  deadline : Option Nat := none
  /-- 14 R432: words of the last ARM reply. -/
  last : List (BitVec 32) := [0,0,0,0]
  deriving DecidableEq, Repr

/-- A synthesiser (spec/08 R235 to R238, R272). -/
structure Syn where
  /-- 06 R171 R177: DSP clock at which it has lost lock, until the next channel change. -/
  lostAt : Option Nat := none
  /-- 08 R272: 0 OFF, 1 CAL, 2 SETTLE, 3 LOCKED, 4 FAULT. -/
  state : Nat := 0
  /-- 08 R272. -/
  freq : Nat := 0
  /-- 08 R272. -/
  lockLoss : Nat := 0
  /-- 08 R272. -/
  fails : Nat := 0
  /-- 08 R272. -/
  changes : Nat := 0
  /-- 08 R272. -/
  time : Nat := 0
  /-- 08 R238: failed attempts of the channel change in progress. -/
  tries : Nat := 0
  /-- 08 R236 R237: D as loaded. -/
  div : Nat := 0
  /-- 08 R236 R237: NINT as loaded. -/
  nint : Nat := 0
  /-- 08 R236 R237: FRAC as loaded. -/
  frac : Nat := 0
  deriving DecidableEq, Repr

/-- Chains of a hearth (spec/08 R230 to R240, R269). -/
structure Rfc where
  /-- 08 R269. -/
  ovl : List Nat := [0,0,0,0]
  /-- 08 R275: tick of the last increment. -/
  ovlTick : List (Option Nat) := [none,none,none,none]
  /-- 08 R262. -/
  rxAtt : List Nat := [0,0,0,0]
  /-- 08 R262. -/
  orxAtt : List Nat := [20,20]
  /-- 08 R262. -/
  synthWait : Nat := 96
  /-- 08 R235: LO of the chains of each direction and branch, in the order of R94; 0 has no LO. -/
  lo : List Nat := [0,0,0,0]
  /-- 08 R235: synthesiser that feeds them. -/
  synOf : List (Option Nat) := [none,none,none,none]
  /-- 08 R234: port an ORX observes: 0 STX, 1 DTX. -/
  orxTo : List Nat := [0,0]
  /-- 08 R232: RX_GAIN item of a chain as last loaded (R290); empty: the default of R341. -/
  rxCal : List (List (BitVec 32)) := [[],[],[],[]]
  /-- 08 R234: ORX_GAIN items, index 2 x ORX + port. -/
  orxCal : List (List (BitVec 32)) := [[],[],[],[]]
  /-- 09 R280: tick at which the running turn began. -/
  orxTurn : List Nat := [0,0]
  /-- 08 R234; 09 R280: port that each ORX observes in the running tick. -/
  orxRun : List Nat := [0,0]
  /-- 09 R280: DSP clock from which it observes that port. -/
  orxSince : List Nat := [0,0]
  deriving DecidableEq, Repr

/-- A port step change staged or deferred (spec/08 R245, R252). -/
structure StepChange where
  /-- 08 R252. -/
  target : Nat := 0
  /-- 08 R275. -/
  cause : Nat := 0
  /-- 08 R252: tick whose phase 4 staged it. -/
  tick : Nat := 0
  /-- 08 R252 R258: DSP clock at which its pre-boundary operations end, once they are issued. -/
  issued : Option Nat := none
  /-- 08 R245 R252: target and cause staged behind a change whose pre-boundary operations have been issued. -/
  next : Option (Nat × Nat) := none
  deriving DecidableEq, Repr

/-- PWR_PORT_CONFIG of a port (spec/08 R264). -/
structure PortCfg where
  /-- 08 R264. -/
  auto : Bool := false
  /-- 08 R264. -/
  step : Nat := 0
  /-- 08 R264. -/
  stepMin : Nat := 0
  /-- 08 R264. -/
  stepMax : Nat := 255
  /-- 08 R264: 0xF400. -/
  sumTgt : Int := -3072
  /-- 08 R264. -/
  sumHyst : Int := 512
  /-- 08 R264. -/
  tempZone : Nat := 0
  /-- 08 R264. -/
  supSrc : Nat := 0
  /-- 08 R264. -/
  tempCorr : List Int := [0,0,0,0,0]
  /-- 08 R264. -/
  supSlope : Int := 0
  /-- 08 R264. -/
  vCal : Nat := 0
  /-- 08 R264. -/
  pmAddr : Nat := 0
  /-- 08 R264. -/
  pmPage : Nat := 0
  deriving DecidableEq, Repr

/-- A TX port (spec/08 R243 to R252, R270). -/
structure Port where
  /-- 08 R264. -/
  cfg : PortCfg := {}
  /-- 08 R270. -/
  step : Nat := 0
  /-- 08 R270. -/
  tableValid : Bool := false
  /-- 08 R246: steps loaded or written since Kindling, rising. -/
  written : List Nat := []
  /-- 08 R246. -/
  table : KMap (BitVec 32 × BitVec 32) := []
  /-- 08 R274: tick by which the table is reloaded. -/
  eccReload : Option Nat := none
  /-- 08 R270. -/
  dgLimit : Bool := false
  /-- 08 R252. -/
  change : Option StepChange := none
  /-- 08 R270. -/
  supStale : Bool := false
  /-- 08 R270. -/
  fsDbm : Int := -32768
  /-- 08 R233 R248: port multiplier in force in the running tick. -/
  multRun : Int := 0
  /-- 08 R270. -/
  orxg : Int := 0
  /-- 08 R270. -/
  comp : Int := 0
  /-- 08 R270. -/
  trim : Int := 0
  /-- 08 R249: value of the PORT_TRIM actuator. -/
  trimWant : Int := 0
  /-- 08 R249: tick since which it differs from the applied TRIM. -/
  trimSince : Option Nat := none
  /-- 08 R249: offered for commit. -/
  trimDue : Bool := false
  /-- 08 R270. -/
  sumPk : Int := -32768
  /-- 08 R270. -/
  supMv : Nat := 0
  /-- 08 R248: VOUT_MODE as read when PWR_PORT_CONFIG was accepted. -/
  voutMode : Nat := 0
  /-- 08 R248: D_V held, in 1/1000 of LogQ. -/
  supDev : Int := 0
  /-- 08 R248: SUP_MV holds a reading of the selected source. -/
  supSeen : Bool := false
  /-- 08 R251: tick that the latest step commit opened. -/
  pkFrom : Nat := 0
  /-- 08 R251: highest counted per-tick mean power since the last evaluation or commit. -/
  pkNow : Option Int := none
  /-- 08 R251: the GRT_TXSAT field incremented since the last evaluation. -/
  satSince : Bool := false
  /-- 06 R175: powers per Firebrick range of the last ticks, newest first, in 2^-96. -/
  pWindow : List (List (Nat × Nat)) := []
  /-- 06 R185. -/
  pwr : Int := -32768
  /-- 06 R185. -/
  pwrRange : Nat := 0
  /-- 06 R185. -/
  pwrCeil : Bool := false
  deriving DecidableEq, Repr

/-- A GPIO pin (spec/08 R253, R266). -/
structure Gpio where
  /-- 08 R253. -/
  func : Nat := 0
  /-- 08 R266. -/
  idx : Nat := 0
  /-- 08 R266. -/
  pattern : Nat := 0
  /-- 08 R266. -/
  pol : Bool := false
  /-- 08 R266. -/
  init : Bool := false
  /-- 08 R266. -/
  lead : Nat := 0
  /-- 08 R266. -/
  lag : Nat := 0
  /-- 08 R253: level that GPIO operations of sequences last drove. -/
  driven : Option Bool := none
  /-- 08 R253: DSP clock of that operation. -/
  drivenAt : Nat := 0
  /-- 08 R253: level before it. -/
  drivenOld : Option Bool := none
  deriving DecidableEq, Repr

/-- An ACT sequence that runs (spec/08 R256 to R260). -/
structure SeqRun where
  /-- 08 R257: operations not yet issued. -/
  ops : List (BitVec 32 × BitVec 32) := []
  /-- 08 R256. -/
  value : Nat := 0
  /-- 08 R258: DSP clock at which the latest operation ends. -/
  free : Nat := 0
  deriving DecidableEq, Repr

/-- Front-end sequencer of a hearth (spec/08 R253 to R268, R273). -/
structure Fes where
  /-- 08 R253. -/
  gpio : List Gpio := List.replicate 16 {}
  /-- 08 R273. -/
  gpioIn : Nat := 0
  /-- 08 R273. -/
  busErr : Nat := 0
  /-- 08 R273. -/
  swClip : Nat := 0
  /-- 08 R273. -/
  actDrop : Nat := 0
  /-- 08 R265. -/
  rffeDiv : List Nat := [38,38,38,38]
  /-- 08 R265. -/
  spiDiv : List Nat := [20,20]
  /-- 08 R265. -/
  spiMode : List Nat := [0,0]
  /-- 08 R256: an entry not listed reads 0, END. -/
  seqs : KMap (BitVec 32 × BitVec 32) := []
  /-- 08 R256: start entry of an event code of R267. -/
  map : KMap Nat := []
  /-- 08 R258 R273: 2 while the BND operations of a port run, else 0. -/
  stepSeq : List Nat := [0,0,0,0]
  /-- 08 R256. -/
  actVal : KMap Nat := []
  /-- 08 R260: sequences that run, by channel. -/
  actRun : KMap SeqRun := []
  /-- 08 R260: newest value waiting for the end of a running sequence. -/
  actNext : KMap Nat := []
  /-- 08 R268: FES_BUS_ACCESS operation that runs. -/
  bus : Option (BitVec 32 × BitVec 32) := none
  /-- 08 R268: the running operation's command still awaits it. -/
  busHeld : Bool := false
  /-- 08 R258 R261: DSP clock at which the running operation ends, or by which its read data must have come, once it is issued. -/
  busEnd : Option Nat := none
  /-- 08 R255 R257: what has gone out on the external buses since the opening of the running tick: bus, DSP clock, word 0 of the entry, DATA as substituted. -/
  busOut : List (Nat × Nat × BitVec 32 × BitVec 32) := []
  /-- 08 R258 R273: DSP clock from which RFFE0-3 and SPI0-1 are free. -/
  busFree : List Nat := [0,0,0,0,0,0]
  /-- 08 R258: DSP clock at which the BND operations of a port's STEP sequence end. -/
  bndEnd : List Nat := [0,0,0,0]
  /-- 08 R253: DSP clock of the latest LATCH operation of an SPI bus. -/
  latchAt : List (Option Nat) := [none,none]
  /-- 08 R254: levels of the TDD lines before POL. -/
  tddLine : KMap Bool := []
  deriving DecidableEq, Repr

/-- A calibration delta staged or deferred (spec/09 R282 to R288). -/
structure Delta where
  /-- 09 R298. -/
  items : Nat := 0
  /-- 09 R282. -/
  gain : Int := 0
  /-- 09 R282. -/
  phase : Int := 0
  /-- 09 R282. -/
  delay : Int := 0
  /-- 09 R285: tick whose phase 4 first staged it. -/
  tick : Nat := 0
  /-- 09 R298: boundaries at which it was offered and did not apply. -/
  offers : Nat := 0
  /-- 09 R287. -/
  withheld : Bool := false
  /-- 09 R284: the chain's correction hardware values once it has applied whole. -/
  corr : List (BitVec 32) := []
  /-- 09 R282: it carries only a part of its change. -/
  part : Bool := false
  /-- 09 R292: items for which a held LCAL_RUN waits on it. -/
  runs : Nat := 0
  deriving DecidableEq, Repr

/-- An estimate that is running (spec/09 R276, R279). -/
structure Est where
  /-- 09 R276: tick of its start. -/
  start : Nat := 0
  /-- 09 R292: LCAL_RUN started it. -/
  forced : Bool := false
  /-- 09 R280: holds its measurement channel (ORX_GAIN). -/
  chan : Bool := false
  /-- 09 R279: window that its samples come from: 1 GAP, 2 IDLE, 3 BLIND; 0 none yet, and items 6 and 7. -/
  win : Nat := 0
  /-- 09 R276 R279: samples accumulated. -/
  got : Nat := 0
  /-- 09 R278: DSP clock up to which samples have been taken. -/
  upto : Nat := 0
  deriving DecidableEq, Repr

/-- Calibration state of a chain (spec/09 R296). -/
structure LcalCh where
  /-- 09 R296. -/
  enabled : Nat := 0
  /-- 09 R296. -/
  orxAbsent : Bool := false
  /-- 09 R296. -/
  lastItem : Nat := 0
  /-- 09 R296. -/
  lastWindow : Nat := 0
  /-- 09 R296. -/
  noWindow : Nat := 0
  /-- 09 R296. -/
  dGain : Int := 0
  /-- 09 R296. -/
  dPhase : Int := 0
  /-- 09 R296. -/
  dDelay : Int := 0
  /-- 09 R296. -/
  accGain : Int := 0
  /-- 09 R296. -/
  accPhase : Int := 0
  /-- 09 R296. -/
  accDelay : Int := 0
  /-- 09 R296. -/
  image : Int := 0
  /-- 09 R296. -/
  leak : Int := -32768
  /-- 09 R296. -/
  commits : Nat := 0
  /-- 09 R296. -/
  defers : Nat := 0
  /-- 09 R296. -/
  discards : Nat := 0
  /-- 09 R296. -/
  age : Nat := 0
  /-- 09 R285. -/
  delta : Option Delta := none
  /-- 09 R282: what larger changes leave for successive deltas. -/
  rest : Option Delta := none
  /-- 09 R279: running estimates by item. -/
  est : KMap Est := []
  /-- 09 R276: tick of the start of the last estimate, by item. -/
  last : KMap Nat := []
  /-- 09 R297: items that CORR_RANGE has stopped. -/
  stopped : Nat := 0
  /-- 09 R284 R290: correction hardware values in force (11 R340). -/
  corr : List (BitVec 32) := []
  /-- 09 R278: DSP clock at which the qualifying interval began that runs: GAP, IDLE, BLIND, closed gates of the observed port. -/
  runs : List (Option Nat) := [none,none,none,none]
  /-- 09 R296: its register group as the last boundary left it; none since reset: as it stands. -/
  shown : List (BitVec 32) := []
  deriving DecidableEq, Repr

/-- Live calibration of a hearth (spec/09 R295). -/
structure Lcal where
  /-- 09 R295. -/
  hold : Nat := 0
  /-- 09 R276. -/
  period : List Nat := [10,100,1000,100,100,1000,10,10,1000]
  /-- 09 R276: GAP, IDLE, BLIND; items 6 and 7 run at any time. -/
  windows : List Nat := [7,7,7,7,4,4,7,7,1]
  /-- 09 R297: source 131 has stopped items 6 and 7. -/
  detStop : Bool := false
  /-- 09 R295. -/
  deferCount : Nat := 0
  /-- 09 R295. -/
  lastReason : Nat := 0
  /-- 09 R295. -/
  lastChain : Nat := 0
  /-- 09 R296. -/
  ch : List LcalCh := [{ enabled := 0xC7 }, { enabled := 0xC7 }, { enabled := 0xC7 }, { enabled := 0xC7 }, { enabled := 0xF8 }, { enabled := 0xF8 }, { enabled := 0xF8 }, { enabled := 0xF8 }, { enabled := 0x1C7 }, { enabled := 0x1C7 }]
  deriving DecidableEq, Repr

/-- THERMAL_CONFIG of a hearth (spec/19 R563). -/
structure ThmCfg where
  /-- 19 R563. -/
  warn : Nat := 115
  /-- 19 R563. -/
  derate : Nat := 125
  /-- 19 R563. -/
  orderly : Nat := 140
  /-- 19 R563. -/
  resumeT : Int := 105
  /-- 19 R563. -/
  hyst : Nat := 5
  /-- 19 R563. -/
  slope : Nat := 256
  /-- 19 R563. -/
  maxCut : Nat := 0x0600
  /-- 19 R563. -/
  shedTime : Nat := 1000
  deriving DecidableEq, Repr

/-- Thermal management of a hearth (spec/19 R565). -/
structure Thm where
  /-- 19 R563. -/
  cfg : ThmCfg := {}
  /-- 19 R565. -/
  warn : Bool := false
  /-- 19 R565. -/
  derating : Bool := false
  /-- 19 R565: priorities shed. -/
  shed : List Nat := []
  /-- 19 R565: a trip comparator is active. -/
  trip : Bool := false
  /-- 19 R565. -/
  rfOff : Bool := false
  /-- 19 R565. -/
  depth : Int := 0
  /-- 19 R557. -/
  cuts : List Int := [0,0,0,0,0,0,0,0]
  /-- 07 R191: tick that captured the latest conversion. -/
  convTick : Nat := 0
  /-- 19 R565: latest values; none before the first conversion. -/
  temps : List Int := []
  /-- 19 R555: last raw codes. -/
  raw : List Int := []
  /-- 19 R555: identical raw codes in a row. -/
  same : List Nat := [0,0,0,0,0,0,0,0,0,0,0,0,0,0,0,0]
  /-- 19 R565: broken sensors; they stay so until RESET_N low or power-up. -/
  broken : List Nat := []
  /-- 19 R556: a conversion waits for phase 2 of the tick that captures it. -/
  convDue : Bool := false
  /-- 19 R559: that priority. -/
  fullOf : Option Nat := none
  /-- 19 R559: ticks for which the lowest unshed priority has been fully cut. -/
  fullRun : Nat := 0
  /-- 19 R559: ticks for which T_h has been below DERATE - HYST. -/
  coolRun : Nat := 0
  /-- 19 R565. -/
  sheds : Nat := 0
  /-- 19 R565. -/
  stops : Nat := 0
  /-- 19 R565. -/
  trips : Nat := 0
  deriving DecidableEq, Repr

/-- Thermal state of the package (spec/19 R560 to R562, R565). -/
structure ThmPkg where
  /-- 19 R560: 0 none, 1 draining, 2 ember write under way, 3 done. -/
  stop : Nat := 0
  /-- 19 R561: the trip holds every transmit gate closed. -/
  tripGate : Bool := false
  /-- 19 R565. -/
  resumeTicks : Nat := 0
  /-- 19 R565. -/
  resumeOk : Bool := false
  /-- 19 R565. -/
  hearth : Nat := 0
  /-- 19 R565. -/
  zone : Nat := 0
  /-- 19 R565. -/
  cause : Nat := 0
  /-- 19 R565. -/
  lastTick : Nat := 0
  deriving DecidableEq, Repr

/-- A fault record of FCOL (spec/17 R527). -/
structure FaultRec where
  /-- 17 R527. -/
  src : Nat := 0
  /-- 17 R527. -/
  cls : Nat := 0
  /-- 17 R527. -/
  inj : Bool := false
  /-- 17 R527. -/
  coinc : Bool := false
  /-- 17 R527. -/
  rail : Bool := false
  /-- 17 R527. -/
  simul : Bool := false
  /-- 17 R527. -/
  escal : Bool := false
  /-- 17 R527. -/
  react : Nat := 0
  /-- 17 R527. -/
  secOvf : Nat := 0
  /-- 17 R527. -/
  data : Nat := 0
  /-- 17 R527. -/
  tick : Nat := 0
  /-- 17 R527. -/
  cycle : Nat := 0
  deriving DecidableEq, Repr

/-- A secondary entry (spec/17 R528). -/
structure FaultSec where
  /-- 17 R528. -/
  src : Nat := 0
  /-- 17 R528. -/
  cls : Nat := 0
  /-- 17 R528. -/
  inj : Bool := false
  /-- 17 R528. -/
  rail : Bool := false
  deriving DecidableEq, Repr

/-- Fault collector of a hearth (spec/17). -/
structure Fcol where
  /-- 17 R510: sources whose pair reads Error, with their detail words. -/
  err : KMap Nat := []
  /-- 17 R510: sources that hold Error for as long as a condition lasts. -/
  hold : List Nat := []
  /-- 17 R510: sources captured since they last read Quiet. -/
  seen : List Nat := []
  /-- 17 R511: sources with equal rails. -/
  rails : KMap Nat := []
  /-- 17 R511: rail faults captured. -/
  railSeen : List Nat := []
  /-- 17 R526. -/
  seqActive : Bool := false
  /-- 17 R515: DSP clock c + 64 of the last sequence. -/
  seqEnd : Nat := 0
  /-- 17 R512: the running sequence takes CHIP_RESET at its end. -/
  chipDue : Bool := false
  /-- 17 R515: a lost FATAL pulse places the package in DOUSED on the next clock. -/
  douseDue : Bool := false
  /-- 17 R526. -/
  alert : Bool := false
  /-- 17 R526. -/
  lost : Bool := false
  /-- 17 R526. -/
  ffValid : Bool := false
  /-- 17 R526. -/
  dousedHere : Bool := false
  /-- 17 R526. -/
  injSafe : Bool := true
  /-- 17 R526. -/
  railReact : Nat := 1
  /-- 17 R526. -/
  vector : Nat := 0
  /-- 17 R526. -/
  ce : Nat := 0
  /-- 17 R526. -/
  uce : Nat := 0
  /-- 17 R527. -/
  ff : FaultRec := {}
  /-- 17 R527. -/
  last : FaultRec := {}
  /-- 17 R527. -/
  prior : Option (Nat × Nat) := none
  /-- 17 R528. -/
  sec : List FaultSec := []
  /-- 17 R529. -/
  injSource : Nat := 0
  /-- 17 R529. -/
  injMode : Nat := 0
  /-- 17 R521: first DSP clock of the tick after its capture. -/
  injFrom : Nat := 0
  /-- 17 R529. -/
  injPending : Bool := false
  /-- 17 R529. -/
  injCaptured : Bool := false
  /-- 17 R529. -/
  injCoincident : Bool := false
  /-- 17 R529. -/
  sequences : Nat := 0
  /-- 17 R529. -/
  fatal : Nat := 0
  /-- 17 R531: pending sources, rising. -/
  pend : List Nat := []
  /-- 17 R531: class and reactions of sources that FCOL_SOURCE_CONFIG has set. -/
  cfg : KMap (Nat × Nat) := []
  /-- 17 R524: the same as they apply at the next boundary. -/
  cfgNext : Option (KMap (Nat × Nat)) := none
  /-- 17 R531. -/
  count : KMap Nat := []
  deriving DecidableEq, Repr

/-- Fault pins of the package (spec/17 R516, R530). -/
structure Pins where
  /-- 17 R530. -/
  faultDrive : Bool := false
  /-- 17 R512: DSP clock at which the running FAULT_N pulse ends. -/
  faultPulse : Option Nat := none
  deriving DecidableEq, Repr

/-- A used entry of the cell table (spec/10 R305); an entry not listed is FREE. -/
structure Cell where
  /-- 10 R305: 1 DETECTED, 2 DECODED, 3 LOST. -/
  state : Nat := 1
  /-- 10 R305. -/
  rat : Nat := 0
  /-- 10 R305. -/
  tracked : Bool := false
  /-- 10 R309: sections for which it is tracked. -/
  trackedBy : Nat := 0
  /-- 10 R305. -/
  barred : Bool := false
  /-- 10 R305. -/
  pci : Nat := 0
  /-- 10 R305. -/
  sect : Nat := 0
  /-- 10 R305. -/
  inSection : Bool := false
  /-- 10 R305. -/
  chain : Nat := 0
  /-- 10 R305. -/
  ssbIdx : Nat := 0
  /-- 10 R305. -/
  half : Bool := false
  /-- 10 R301 R315: LTE: the frame structure of the last detection is TDD. -/
  tdd : Bool := false
  /-- 10 R301 R315: NR: case of the last detection. -/
  caseC : Bool := true
  /-- 10 R305. -/
  freq : Nat := 0
  /-- 10 R304 R305. -/
  level : Int := -32768
  /-- 10 R304 R309: filtered LEVEL per DL chain; LEVEL is the higher. -/
  levels : List (Option Int) := [none,none]
  /-- 10 R305. -/
  sinr : Int := 0
  /-- 10 R305 R311. -/
  framePos : Nat := 0
  /-- 10 R305. -/
  sfn : Nat := 0
  /-- 10 R307: DSP clock of the cell frame at FRAME_POS, from which a DECODED entry keeps its SFN counting. -/
  clock : Int := 0
  /-- 10 R305. -/
  fofs : Int := 0
  /-- 10 R305. -/
  mib : Nat := 0
  /-- 10 R305. -/
  bw : Nat := 0
  /-- 10 R305. -/
  lastSeen : Nat := 0
  /-- 10 R305. -/
  visits : Nat := 0
  /-- 10 R305. -/
  misses : Nat := 0
  /-- 10 R305. -/
  period : Nat := 0
  /-- 10 R307: visits and scan passes without detection since LOST. -/
  lostRun : Nat := 0
  deriving DecidableEq, Repr

/-- A stranger record in use (spec/10 R318). -/
structure Stranger where
  /-- 10 R318. -/
  sect : Nat := 0
  /-- 10 R318. -/
  dirbr : Nat := 0
  /-- 10 R318: SOURCE. -/
  dmp : Bool := false
  /-- 10 R318. -/
  count : Nat := 1
  /-- 10 R318. -/
  level : Int := -32768
  /-- 10 R318. -/
  freq : Nat := 0
  /-- 10 R318. -/
  first : Nat := 0
  /-- 10 R318. -/
  last : Nat := 0
  deriving DecidableEq, Repr

/-- A scan range (spec/10 R320). -/
structure ScanRange where
  /-- 10 R320. -/
  enable : Bool := false
  /-- 10 R320. -/
  chain : Nat := 0
  /-- 10 R320. -/
  rats : Nat := 0
  /-- 10 R320. -/
  caseC : Bool := false
  /-- 10 R320. -/
  ssbPeriod : Nat := 0
  /-- 10 R320. -/
  start : Nat := 0
  /-- 10 R320. -/
  stop : Nat := 0
  /-- 10 R320. -/
  step : Nat := 0
  deriving DecidableEq, Repr

/-- Air Monitor of a hearth (spec/10 R319, R324). -/
structure Air where
  /-- 10 R319 R324. -/
  enabled : Bool := false
  /-- 10 R319. -/
  channels : Nat := 4
  /-- 10 R319. -/
  trackPeriod : Nat := 8
  /-- 10 R319. -/
  nLost : Nat := 4
  /-- 10 R319. -/
  levelK : Nat := 2
  /-- 10 R324. -/
  tableFull : Bool := false
  /-- 10 R324. -/
  overrun : Bool := false
  /-- 10 R324. -/
  starved : Bool := false
  /-- 10 R320. -/
  ranges : List ScanRange := List.replicate 16 {}
  /-- 10 R305. -/
  cells : KMap Cell := []
  /-- 10 R326: the results of the visit or dwell that ends next are discarded. -/
  visitBad : Bool := false
  /-- 10 R310: frequencies and chains that the running round has still to visit. -/
  round : List (Nat × Nat) := []
  /-- 10 R310: DSP clock at which the frame of the latest visits began. -/
  visitAt : Nat := 0
  /-- 10 R310: visits in that frame. -/
  visitN : Nat := 0
  /-- 10 R318. -/
  strangers : KMap Stranger := []
  deriving DecidableEq, Repr

/-- A flue port (spec/15 R479, R486). -/
structure FluePort where
  /-- 15 R479. -/
  mode : Nat := 0
  /-- 15 R479. -/
  fec : Bool := false
  /-- 15 R479. -/
  group : Bool := false
  /-- 15 R479. -/
  transport : Bool := false
  /-- 15 R479. -/
  ptp : Bool := false
  /-- 15 R479. -/
  vid : Nat := 0
  /-- 15 R479. -/
  pcp : Nat := 0
  /-- 15 R479. -/
  tag : Bool := false
  /-- 15 R479. -/
  asym : Int := 0
  /-- 15 R486. -/
  link : Bool := false
  /-- 15 R486. -/
  slave : Bool := false
  /-- 15 R486. -/
  rx : Nat := 0
  /-- 15 R486. -/
  bad : Nat := 0
  /-- 15 R486. -/
  uncorr : Nat := 0
  deriving DecidableEq, Repr

/-- A frame of the group protocol that the device has sent (spec/15 R444). -/
structure FlueTx where
  /-- 15 R444. -/
  typ : Nat := 0
  /-- 15 R444. -/
  dst : Nat := 0
  /-- 15 R444. -/
  seq : Nat := 0
  /-- 15 R444: END. -/
  last : Bool := false
  /-- 15 R444. -/
  words : List (BitVec 32) := []
  /-- 15 R445 R469: port and unicast address of a TRANSPORT frame; the others go out on every port with the GROUP role. -/
  via : Option (Nat × Nat) := none
  deriving DecidableEq, Repr

/-- A record of the group plan (spec/15 R454). -/
structure PlanRecord where
  /-- 15 R454. -/
  index : Nat := 0
  /-- 15 R454. -/
  words : List (BitVec 32) := []
  deriving DecidableEq, Repr

/-- A plan round that the acting leader runs to a device (spec/15 R457). -/
structure PlanRound where
  /-- 15 R457: replies still awaited. -/
  left : Nat := 0
  /-- 15 R457. -/
  failed : Bool := false
  /-- 15 R457: tick at which a failed round is sent again. -/
  retryAt : Option Nat := none
  /-- 15 R457: SEQUENCE of the first packet of the round. -/
  first : Nat := 0
  /-- 15 R457: packets of the round. -/
  count : Nat := 0
  deriving DecidableEq, Repr

/-- What the acting leader knows of a device from its beacons (spec/15 R452, R457, R461, R477). -/
structure Heard where
  /-- 15 R452: count of own frames at its last accepted beacon. -/
  frame : Nat := 0
  /-- 15 R451. -/
  major : Nat := 0
  /-- 15 R451. -/
  minor : Nat := 0
  /-- 15 R461. -/
  mismatch : Bool := false
  /-- 15 R457. -/
  digest : Nat := 0
  /-- 15 R477: COLD_CEIL has been sent to its sections. -/
  cold : Bool := false
  deriving DecidableEq, Repr

/-- A stored coupling into a node (spec/15 R476, R485). -/
structure Coupling where
  /-- 15 R476. -/
  listener : Nat := 0
  /-- 15 R476: listening section. -/
  section_ : Nat := 0
  /-- 15 R476. -/
  dir : Bool := false
  /-- 15 R476. -/
  txIndex : Nat := 0
  /-- 15 R476. -/
  txSection : Nat := 0
  /-- 15 R476: coupling, LogQ. -/
  level : Int := 0
  /-- 15 R485: seconds of START of the window. -/
  seconds : Nat := 0
  /-- 15 R476: tick at which it was measured. -/
  tick : Nat := 0
  deriving DecidableEq, Repr

/-- An entry of a PROBE_REPORT of the running window (spec/15 R476). -/
structure ProbeEntry where
  /-- 15 R476: device that sent the report. -/
  device : Nat := 0
  /-- 15 R476. -/
  section_ : Nat := 0
  /-- 15 R476: KIND. -/
  sent : Bool := false
  /-- 15 R476: transmitter index of a received entry. -/
  index : Nat := 0
  /-- 15 R476. -/
  level : Int := 0
  deriving DecidableEq, Repr

/-- A pending or open probe window (spec/15 R473, R484). -/
structure ProbeWindow where
  /-- 15 R484. -/
  start : Nat := 0
  /-- 15 R484. -/
  first : Nat := 0
  /-- 15 R484. -/
  count : Nat := 1
  /-- 15 R484. -/
  dir : Bool := false
  /-- 15 R484. -/
  rel : Nat := 25
  /-- 15 R484: ms. -/
  duration : Nat := 10
  /-- 15 R473. -/
  running : Bool := false
  /-- 15 R473: global sections whose gain-stage output carries the probe. -/
  sending : List Nat := []
  /-- 15 R476: sections that were LIVE or DAMPED at its start and still are. -/
  stayed : List Nat := []
  /-- 15 R473: energy and number of what entered the TX sum in the 10 ms before START, by 4 x section + branch number. -/
  mean : KMap (Nat × Nat) := []
  /-- 15 R473: power of the probe that is held for the window, in LogQ dBFS, likewise. -/
  level : KMap Int := []
  /-- 15 R476: the same over the branches of a section at the reference plane, in LogQ dBm. -/
  dbm : KMap Int := []
  /-- 15 R473: chips that a section has sent. -/
  chips : KMap Nat := []
  /-- 15 R475: e_B of group-scoped sections from START on, newest first, by 4 x section + branch number. -/
  heard : KMap (List (Int × Int)) := []
  deriving DecidableEq, Repr

/-- C_GRP of a node at the acting leader (spec/15 R477). -/
structure NodeCeil where
  /-- 15 R477. -/
  device : Nat := 0
  /-- 15 R477. -/
  section_ : Nat := 0
  /-- 15 R477. -/
  dl : Int := 32767
  /-- 15 R477. -/
  ul : Int := 32767
  /-- 15 R477: the values last sent to the section. -/
  sentDl : Int := 32767
  /-- 15 R477. -/
  sentUl : Int := 32767
  deriving DecidableEq, Repr

/-- PTP clock of the package (spec/15 R464 to R466, R482). -/
structure Ptp where
  /-- 15 R482: (log entry 39, DESIGN CHOICE). -/
  domain : Nat := 0
  /-- 15 R482: (log entry 39, DESIGN CHOICE). -/
  mode : Nat := 0
  /-- 15 R482: (log entry 39, DESIGN CHOICE). -/
  p2p : Bool := false
  /-- 15 R482: (log entry 39, DESIGN CHOICE). -/
  twoStep : Bool := false
  /-- 15 R482: (log entry 39, DESIGN CHOICE). -/
  portMask : Nat := 0
  /-- 15 R482: (log entry 39, DESIGN CHOICE). -/
  addr : Bool := false
  /-- 15 R482: (log entry 39, DESIGN CHOICE). -/
  logSync : Int := 0
  /-- 15 R482: (log entry 39, DESIGN CHOICE). -/
  logAnnounce : Int := 0
  /-- 15 R482: (log entry 39, DESIGN CHOICE). -/
  logDelay : Int := 0
  /-- 15 R482: (log entry 39, DESIGN CHOICE). -/
  timeout : Nat := 0
  /-- 15 R482: (log entry 39, DESIGN CHOICE). -/
  priority1 : Nat := 0
  /-- 15 R482: (log entry 39, DESIGN CHOICE). -/
  priority2 : Nat := 0
  /-- 15 R482: (log entry 39, DESIGN CHOICE). -/
  clockClass : Nat := 0
  /-- 15 R482. -/
  lockNs : Nat := 50
  /-- 15 R482. -/
  stepNs : Nat := 1000
  /-- 15 R481: offsetFromMaster in 2^-16 ns (21 R608). -/
  offset : Int := 0
  /-- 15 R481: meanPathDelay, in units of 2^-16 ns. -/
  delay : Int := 0
  /-- 15 R451. -/
  gmId : Nat := 0
  /-- 15 R465: consecutive Sync intervals within LOCK_NS. -/
  lockRun : Nat := 0
  /-- 15 R466: magnitude of offsetFromMaster of the last 16 Sync messages, newest first. -/
  hist : List Nat := []
  /-- 15 R465: tick. -/
  lastSync : Nat := 0
  /-- 15 R465: tick. -/
  lastAnnounce : Nat := 0
  /-- 15 R465: tick at which HOLDOVER was entered. -/
  holdFrom : Nat := 0
  /-- 15 R466: last B in PTP_LOCKED. -/
  lockedB : Nat := 0
  /-- 15 R465. -/
  everLocked : Bool := false
  deriving DecidableEq, Repr

/-- Device group of the package (spec/15). -/
structure Flu where
  /-- 15 R479: port 2h + p. -/
  ports : List FluePort := List.replicate 16 {}
  /-- 15 R480. -/
  role : Nat := 0
  /-- 15 R480. -/
  deviceIndex : Nat := 0
  /-- 15 R480. -/
  groupId : Nat := 0
  /-- 15 R480. -/
  etype : Nat := 0x88B5
  /-- 15 R480. -/
  expectMajor : Nat := 0
  /-- 15 R480. -/
  margin : Int := 3840
  /-- 15 R480. -/
  coldCeil : Int := 15360
  /-- 15 R480. -/
  surveyPeriod : Nat := 0
  /-- 15 R480. -/
  probeRel : Nat := 30
  /-- 15 R480. -/
  duration : Nat := 1000
  /-- 15 R480. -/
  ceilRise : Int := 1536
  /-- 15 R480: GROUP_CONFIG's role takes effect at the next frame boundary. -/
  joinDue : Bool := false
  /-- 15 R487. -/
  acting : Nat := 0
  /-- 15 R463: the acting leader becomes standby at its next frame boundary. -/
  standDown : Bool := false
  /-- 15 R448. -/
  term : Nat := 0
  /-- 15 R487. -/
  leader : Nat := 0
  /-- 15 R463. -/
  leaderTerm : Nat := 0
  /-- 15 R453: count of own frames at the acting leader's last accepted beacon. -/
  leaderSeen : Option Nat := none
  /-- 15 R460. -/
  leaderMajor : Nat := 0
  /-- 15 R459. -/
  leaderDigest : Nat := 0
  /-- 15 R466. -/
  leaderOffset : Nat := 0xFFFFFFFF
  /-- 15 R466. -/
  leaderGm : Nat := 0
  /-- 15 R453: own frames since joining. -/
  frames : Nat := 0
  /-- 15 R453. -/
  missed : Nat := 0
  /-- 15 R452. -/
  groupMinor : Nat := 0
  /-- 15 R460. -/
  versionMismatch : Bool := false
  /-- 15 R459. -/
  digestAgree : Bool := false
  /-- 15 R460: tick since which DIGEST_AGREE is 0. -/
  digestSince : Nat := 0
  /-- 15 R460. -/
  digestWait : Bool := false
  /-- 15 R466. -/
  timeAgree : Bool := false
  /-- 15 R466: consecutive frames at or below 100 ns. -/
  agreeRun : Nat := 0
  /-- 15 R450. -/
  dupIndex : Bool := false
  /-- 15 R450. -/
  dupSeen : List Nat := []
  /-- 15 R444: by TYPE. -/
  txSeq : KMap Nat := []
  /-- 15 R446: last accepted, by 8 x SRC + TYPE. -/
  rxSeq : KMap Nat := []
  /-- 15 R444: frames handed to the ports, oldest first. -/
  sent : List FlueTx := []
  /-- 15 R454: words of the plan as read at Kindling; none when their header or digest fails. -/
  planArea : Option (List (BitVec 32)) := some []
  /-- 15 R454. -/
  plan : List PlanRecord := []
  /-- 15 R455. -/
  planDigest : Nat := 0
  /-- 15 R456. -/
  appliedDigest : Nat := 0
  /-- 15 R457: a packet since the last END replied other than OK. -/
  roundBad : Bool := false
  /-- 15 R457: SEQUENCE of the END packet and the digest it carries. -/
  roundEnd : Option (Nat × Nat) := none
  /-- 15 R457: the END packet has replied. -/
  roundReplied : Bool := false
  /-- 15 R457: running rounds, by device. -/
  rounds : KMap PlanRound := []
  /-- 15 R452. -/
  heard : KMap Heard := []
  /-- 15 R477: the acting leader has given COLD_CEIL to its own sections. -/
  ownCold : Bool := false
  /-- 15 R482. -/
  ptp : Ptp := {}
  /-- 15 R484. -/
  windows : List ProbeWindow := []
  /-- 15 R476: entries of the reports of the last window. -/
  report : List ProbeEntry := []
  /-- 15 R476: START of the window that the reports belong to. -/
  reportStart : Nat := 0
  /-- 15 R476. -/
  reportDir : Bool := false
  /-- 15 R476: devices whose report of that window has come. -/
  reported : List Nat := []
  /-- 15 R476. -/
  couplings : List Coupling := []
  /-- 15 R477. -/
  nodes : List NodeCeil := []
  /-- 15 R478: tick at which the next round starts. -/
  surveyAt : Option Nat := none
  /-- 15 R478: windows of the running round that have ended. -/
  surveyWin : Nat := 0
  /-- 15 R478: windows of the running round still to be scheduled: first index, direction. -/
  surveyLeft : List (Nat × Bool) := []
  /-- 15 R478. -/
  surveyRun : Bool := false
  /-- 15 R478: START of the next window to schedule. -/
  surveyNext : Nat := 0
  /-- 15 R481. -/
  lastWindows : Nat := 0
  /-- 15 R481. -/
  roundsDone : Nat := 0
  /-- 15 R481: Time. -/
  lastRound : Nat := 0
  deriving DecidableEq, Repr

/-- A Firebrick row (spec/11 R328). -/
structure FbRow where
  /-- 11 R328: OTP (log entry 13, DESIGN CHOICE). -/
  words : List (BitVec 32) := [0,0,0,0,0,0]
  /-- 11 R328: OTP (log entry 13, DESIGN CHOICE). -/
  written : Bool := false
  /-- 11 R328: OTP (log entry 13, DESIGN CHOICE). -/
  revoked : Bool := false
  deriving DecidableEq, Repr

/-- A Firebrick command that is programming (spec/11 R334). -/
structure FbProg where
  /-- 11 R334. -/
  row : Nat := 0
  /-- 11 R334. -/
  revoke : Bool := false
  /-- 11 R334: content with its CRC. -/
  words : List (BitVec 32) := []
  deriving DecidableEq, Repr

/-- A calibration item (spec/11 R339, R340). -/
structure CalItem where
  /-- 11 R339. -/
  origin : Bool := false
  /-- 11 R340. -/
  words : List (BitVec 32) := []
  /-- 11 R339: its CRC matches. -/
  crcOk : Bool := true
  deriving DecidableEq, Repr

/-- A calibration write that is running (spec/11 R343). -/
structure CalProg where
  /-- 11 R343. -/
  id : Nat := 0
  /-- 11 R348. -/
  origin : Bool := false
  /-- 11 R348. -/
  words : List (BitVec 32) := []
  /-- 11 R351. -/
  op : Nat := 0
  /-- 11 R338: flash offset of the region that it writes. -/
  base : Nat := 0
  deriving DecidableEq, Repr

/-- Firebrick rows and calibration set of the package (spec/11). -/
structure Limits where
  /-- 11 R328. -/
  rows : List FbRow := List.replicate 64 {}
  /-- 11 R334: rows treated as revoked for the rest of the boot. -/
  treated : List Nat := []
  /-- 11 R335: rows in force, rising. -/
  inForce : List Nat := []
  /-- 11 R334. -/
  prog : Option FbProg := none
  /-- 11 R335: programmed row not yet in force: row, whether it is a revoke, whether its programming failed. -/
  due : Option (Nat × Bool × Bool) := none
  /-- 11 R335: last tick at whose closing boundary a programmed row comes into force. -/
  dueBy : Nat := 0
  /-- 11 R341: working copy. -/
  working : KMap CalItem := []
  /-- 11 R342: recomputed digest. -/
  calDigest : Nat := 0
  /-- 11 R342. -/
  digestBad : Bool := false
  /-- 11 R343. -/
  calProg : Option CalProg := none
  deriving DecidableEq, Repr

/-- One hearth (spec/01 R15). -/
structure Hearth where
  /-- 01 R35. -/
  sections : List Section := List.replicate 8 {}
  /-- 02 R49. -/
  patterns : List Pattern := List.replicate 8 {}
  /-- 03 R91. -/
  grt : Grt := {}
  /-- 04 R134. -/
  bdc : Bdc := {}
  /-- 04 R136. -/
  paths : List Path := List.replicate 64 {}
  /-- 07 R189. -/
  loops : List Loop := List.replicate 64 {}
  /-- 16 R505. -/
  dfb : Dfb := {}
  /-- 16 R506. -/
  xmc : Xmc := {}
  /-- 08 R272. -/
  syns : List Syn := List.replicate 4 {}
  /-- 08 R269. -/
  rfc : Rfc := {}
  /-- 08 R270. -/
  ports : List Port := List.replicate 4 {}
  /-- 08 R273. -/
  fes : Fes := {}
  /-- 09 R295. -/
  lcal : Lcal := {}
  /-- 19 R565. -/
  thm : Thm := {}
  /-- 10 R324. -/
  air : Air := {}
  /-- 14 R435. -/
  cap : Cap := {}
  /-- 01 R16: rows in force in SPA's working copy. -/
  fbCopy : List Nat := []
  /-- 06 R187: the working copy has failed its parity check and has not been reloaded. -/
  fbCopyBad : Bool := false
  /-- 06 R187: tick by which it is reloaded. -/
  fbCopyBy : Nat := 0
  /-- 17 R526. -/
  fcol : Fcol := {}
  /-- 07 R226: BLW_STATUS as the last boundary left it; none since reset: as it stands. -/
  blwShown : List (BitVec 32) := []
  deriving DecidableEq, Repr

end Sys2Proof.Machine
end

