-- ==== Sys2Proof/Machine/State.lean ====
section
/-! DEFINITION. Machine/State.lean: the whole state of the block, its stop reasons and the state right after reset. -/

namespace Sys2Proof.Machine

/-- Why the machine stops. -/
inductive Fault where
  /-- Raised by REGISTER_WRITE when software writes a reserved field with a value other than the one it read: the
  spec calls the behaviour undefined (spec/00 R14; log entry 12, DESIGN CHOICE). Safe: the model stops where the hardware's
  behaviour is not given. -/
  | reservedWrite
  deriving DecidableEq, Repr

/-- Why no meaning is given. -/
inductive Refusal where
  /-- Answered by the dispatcher for a row whose meaning is not written, by its name. Safe: the model stops. -/
  | notModelled (mnemonic : String)
  deriving DecidableEq, Repr

/-- The state of the block. -/
structure State where
  /-- 00 R3. -/
  ident : Ident := {}
  /-- 01 R31: state that holds from the next boundary on; KINDLING and DOUSED hold at once. -/
  pkg : PkgState := .kindling
  /-- 01 R32: state in force in the running tick. -/
  pkgShown : PkgState := .kindling
  /-- 01 R34. -/
  holds : Holds := {}
  /-- 13 R403: a warm reset has been requested and takes effect at the next boundary. -/
  warmDue : Bool := false
  /-- 02 R41. -/
  tbu : Tbu := {}
  /-- 07 R225. -/
  setpt : Setpt := {}
  /-- 12 R372. -/
  cpx : Cpx := {}
  /-- 14 R435. -/
  hif : Hif := {}
  /-- 18 R535. -/
  alog : Alog := {}
  /-- 21 R611. -/
  sys : Sys := {}
  /-- 20 R595. -/
  sec : Sec := {}
  /-- 15 R487. -/
  flu : Flu := {}
  /-- 11 R328. -/
  limits : Limits := {}
  /-- 19 R565. -/
  thmPkg : ThmPkg := {}
  /-- 17 R530. -/
  pins : Pins := {}
  /-- 01 R15. -/
  hearths : List Hearth := List.replicate 8 {}
  /-- 02 R43: what has happened in the running tick and is captured in phase 0 of the next. -/
  arrivals : List Arrival := []
  /-- none (the model's own): counter of the free values taken (log entry 6, DESIGN CHOICE). -/
  free : Nat := 0
  /-- none (the model's own): commands waiting, first in, first out (log entry 2, DESIGN CHOICE). -/
  pending : List Instr := []
  deriving DecidableEq, Repr

/-- The machine right after reset: power has come up, RESET_N has risen and the package has just entered KINDLING at
stage K0 (spec/01 R32, spec/20 R569, R572; log entries 1 and 13). -/
def State.reset : State := {}

end Sys2Proof.Machine
end

