-- ==== Sys2Proof/Machine/Sources.lean ====
section
/-! DEFINITION. Machine/Sources.lean: the default class and reactions of every fault source, from the source tables of
the chapters (spec/17 R509, R512, R514). -/

namespace Sys2Proof.Machine

/-- Reaction bits (spec/17 R512). -/
abbrev reactIrq : Nat := 1
abbrev reactTrap : Nat := 2
abbrev reactBlock : Nat := 4
abbrev reactChip : Nat := 8
abbrev reactPin : Nat := 16

/-- Sources of default class FATAL, all with FAULT_PIN (spec/16 R507, spec/17 R532, spec/20 R596). -/
def fatalSources : List Nat := [13, 14, 37, 486, 487, 496, 499]

/-- Sources whose class is fixed (spec/16 R507, spec/17 R532, spec/20 R596). -/
def lockedSources : List Nat := [14, 37, 486, 487, 496, 499]

/-- Sources of class CE without reactions that a chapter assigns. -/
def plainSources : List Nat := [12, 32, 192]

/-- Sources of class UCE with IRQ and BLOCK_RESET. -/
def blockSources : List Nat := [72, 130, 132, 196, 224, 225, 256]

/-- Sources of class UCE with the reaction IRQ alone. -/
def irqSource (n : Nat) : Bool :=
  decide (n ≤ 11) || decide (33 ≤ n ∧ n ≤ 36) || decide (64 ≤ n ∧ n ≤ 71) || decide (73 ≤ n ∧ n ≤ 78)
    || [128, 129, 131, 193, 194, 195, 226].contains n || decide (257 ≤ n ∧ n ≤ 260) || decide (320 ≤ n ∧ n ≤ 386)
    || decide (416 ≤ n ∧ n ≤ 424) || decide (448 ≤ n ∧ n ≤ 463) || decide (n = 466) || decide (480 ≤ n ∧ n ≤ 485)
    || [488, 497, 498].contains n || decide (504 ≤ n ∧ n ≤ 507)

/-- Default class and reactions of a source: 0 CE, 1 UCE, 2 FATAL (spec/17 R509, R512). -/
def sourceDefault (n : Nat) : Nat × Nat :=
  if fatalSources.contains n then (2, reactPin)
  else if n = 464 then (0, reactIrq)
  else if n = 465 then (1, reactIrq + reactPin)
  else if blockSources.contains n then (1, reactIrq + reactBlock)
  else if irqSource n then (1, reactIrq)
  else (0, 0)

/-- Class and reactions in force of a source (spec/17 R524). -/
def sourceConfig (f : Fcol) (n : Nat) : Nat × Nat := (kget f.cfg n).getD (sourceDefault n)

/-- Sources that BLOCK_RESET may be given to (spec/17 R514). -/
def blockAllowed (n : Nat) : Bool :=
  decide (32 ≤ n ∧ n ≤ 63) || decide (64 ≤ n ∧ n ≤ 399) || decide (416 ≤ n ∧ n ≤ 447)

end Sys2Proof.Machine
end

