-- ==== Sys2Proof/Machine/Ops.lean ====
section
/-! DEFINITION. Machine/Ops.lean: the named operations over the state: where hearths, sections and registers are read
and changed, log events, interrupts, replies, and the capture and checks that every command packet passes. -/

namespace Sys2Proof.Machine

/-! ### Reading and changing the parts of the state -/

/-- Hearths of the part (spec/00 R3). -/
def hearthCount (s : State) : Nat :=
  match s.ident.part with
  | .brd110 => 1
  | .brd220 => 2
  | .brd440 => 4
  | .brd880 => 8

/-- Whether hearth `h` is present (spec/00 R3). -/
def present (s : State) (h : Nat) : Bool := decide (h < hearthCount s)

/-- The present hearths, rising. -/
def hearthsOf (s : State) : List Nat := List.range (hearthCount s)

/-- Hearth `h`. -/
def hearthAt (s : State) (h : Nat) : Hearth := s.hearths.getD h {}

/-- Changes hearth `h`. -/
def modHearth (h : Nat) (f : Hearth → Hearth) (s : State) : State := { s with hearths := s.hearths.modify h f }

/-- Section `i` of hearth `h`. -/
def secAt (s : State) (h i : Nat) : Section := (hearthAt s h).sections.getD i {}

/-- Changes section `i` of hearth `h`. -/
def modSec (h i : Nat) (f : Section → Section) (s : State) : State :=
  modHearth h (fun x => { x with sections := x.sections.modify i f }) s

/-- The global section number (spec/00, Part family). -/
def globalOf (h i : Nat) : Nat := h * 8 + i

/-- Every section of the present hearths, in global order. -/
def allSections (s : State) : List (Nat × Nat) := (hearthsOf s).flatMap fun h => (List.range 8).map fun i => (h, i)

/-- Applies a change for each element of a list, in order. -/
def each {α : Type} (xs : List α) (f : α → State → State) (s : State) : State := xs.foldl (fun t x => f x t) s

/-- Applies a change when a condition holds. -/
def onlyIf (c : Bool) (f : State → State) (s : State) : State := if c then f s else s

/-- Changes the timebase. -/
def modTbu (f : Tbu → Tbu) (s : State) : State := { s with tbu := f s.tbu }

/-- Changes the command processor. -/
def modCpx (f : Cpx → Cpx) (s : State) : State := { s with cpx := f s.cpx }

/-- Changes the SYS block. -/
def modSys (f : Sys → Sys) (s : State) : State := { s with sys := f s.sys }

/-- Changes boot and security. -/
def modBoot (f : Sec → Sec) (s : State) : State := { s with sec := f s.sec }

/-- Changes the Ash Log. -/
def modAlog (f : Alog → Alog) (s : State) : State := { s with alog := f s.alog }

/-- Changes the host interface. -/
def modHif (f : Hif → Hif) (s : State) : State := { s with hif := f s.hif }

/-- Takes one free value (log entry 6, DESIGN CHOICE). -/
def takeFree (s : State) : BitVec 256 × State := (Config.freeWord s.free, { s with free := s.free + 1 })

/-! ### Time -/

/-- Device time, as a Time value, from the timebase's count of 2^-64 s (spec/00 R11, spec/02 R57). -/
def timeValue (t : Nat) : Nat := t / 2 ^ 32 % 2 ^ 64

/-- Device time latched at the boundary that opened the running tick: the TIME of what is captured in it, whatever steps
follow (spec/02 R60). -/
def openTime (s : State) : Nat := timeValue s.tbu.openAt

/-- Device time `d` DSP clocks after the boundary that opened the running tick (spec/02 R57). -/
def timeAfter (s : State) (d : Nat) : Nat := (s.tbu.time + d * s.tbu.incr) % 2 ^ 96

/-- The timebase's count at the boundary that closes the running tick: the value of a TIME_SET that waits for it, or the accumulator's
(spec/02 R57, R58, R66). -/
def boundaryTime (s : State) : Nat :=
  match s.tbu.timeSetNext with
  | some v => v * 2 ^ 32
  | none => timeAfter s s.tbu.tickLen

/-- Device time of the boundary that opens the next tick: the completion timestamp of a command (spec/02 R60). -/
def nextTime (s : State) : Nat := timeValue (boundaryTime s)

/-- Whether a DSP clock lies in the running tick. -/
def inTick (s : State) (clk : Nat) : Bool := decide (s.tbu.clock ≤ clk ∧ clk < s.tbu.clock + s.tbu.tickLen)

/-- Control ticks in one second. -/
abbrev ticksPerSecond : Nat := 480000

/-- DSP clocks in one frame (spec/02 R47). -/
abbrev frameClocks : Nat := 9830400

/-! ### Interrupts -/

/-- A vector sends no message: MSI-X is not enabled, the Function Mask is set, or the vector is masked, as one is whose control word has not
been written (spec/14 R414; log entries 14 and 147, PRESUMED). -/
def msixMasked (v : Nat) (m : Msix) : Bool := !m.enable || m.funcMask || bitOf (kgetD m.table (4 * v + 3) 1) 0

/-- Sends the message of a vector: pending while the vector is masked, otherwise sent (spec/14 R414). -/
def msixSignal (v : Nat) (m : Msix) : Msix :=
  if msixMasked v m then (if m.pba.contains v then m else { m with pba := m.pba ++ [v] }) else { m with sent := m.sent ++ [v] }

/-- Pending vectors that are no longer masked send their messages (spec/14 R414). -/
def msixFlush (m : Msix) : Msix :=
  { m with sent := m.sent ++ m.pba.filter (fun v => !msixMasked v m), pba := m.pba.filter fun v => msixMasked v m }

/-- Signals a PF0 vector (spec/14 R414). -/
def signalPf0 (v : Nat) (s : State) : State := modHif (fun x => { x with pf0 := msixSignal v x.pf0 }) s

/-- Signals a PF1 vector: the stream causes of a global section (spec/14 R415). -/
def signalPf1 (v : Nat) (s : State) : State := modHif (fun x => { x with pf1 := msixSignal v x.pf1 }) s

/-- Signals a vector of VF `n`, 1 to 30; without VF Enable no VF exists (spec/14 R408, R416). -/
def signalVf (n v : Nat) (s : State) : State :=
  if n = 0 ∨ s.hif.vfEnable = false then s else modHif (fun x => { x with vfs := x.vfs.modify (n - 1) (msixSignal v) }) s

/-- Evaluates the OR of the package causes and signals its rise (spec/21 R613). -/
def evalSysInt (s : State) : State :=
  let now := decide (s.sys.intPend &&& s.sys.intEn ≠ 0)
  let t := modSys (fun x => { x with intOr := now }) s
  if now && !s.sys.intOr then signalPf0 s.sys.intVector t else t

/-- Sets package causes (spec/21 R612). -/
def raiseSys (mask : Nat) (s : State) : State :=
  evalSysInt (modSys (fun x => { x with intPend := (x.intPend ||| mask) % 2 ^ 10 }) s)

/-- The package causes of an event code (spec/21 R612). -/
def sysCauses (code : Nat) : Nat :=
  2 ^ 4 + (if code = 0x0110 then 1 else 0) + (if code = 0x0126 then 2 else 0) + (if code = 0x0210 then 4 else 0)
    + (if code = 0x0510 then 8 else 0) + (if code = 0x0C43 then 32 else 0)
    + (if 0x0A10 ≤ code ∧ code ≤ 0x0A14 then 64 else 0)
    + (if code = 0x0C10 ∨ code = 0x0C13 ∨ code = 0x0C14 then 128 else 0)
    + (if code = 0x0128 then 256 else 0)

/-! ### Log events -/

/-- Arms an EVENT capture trigger that an event code meets: the first DSP clock of the tick (spec/14 R428). -/
def eventTrigger (code : Nat) (s : State) : State :=
  { s with hearths := s.hearths.map fun x =>
      if x.cap.state = 1 ∧ x.cap.trig = 3 ∧ x.cap.event = code ∧ x.cap.trigDue = none
      then { x with cap := { x.cap with trigDue := some s.tbu.clock } } else x }

/-- Puts an entry into the LOG queue of a hearth, or counts its loss (spec/16 R491). -/
def queueEntry (h : Nat) (e : LogEntry) (s : State) : State :=
  if 1024 ≤ (hearthAt s h).dfb.logQ.length then
    let t := modHearth h (fun x => { x with dfb := { x.dfb with logDrop := incSat 16 x.dfb.logDrop } }) s
    modAlog (fun x => { x with dropRun := x.dropRun.modify h (incSat 16) }) t
  else modHearth h (fun x => { x with dfb := { x.dfb with logQ := x.dfb.logQ ++ [e] } }) s

/-- Generates a log event of a captured source: the package causes set at once, before admission (spec/21 R612), and
the entry goes to its hearth's LOG queue (spec/18 R534, R536). -/
def emitFrom (source h code : Nat) (data : List Nat) (s : State) : State :=
  let e : LogEntry := { time := openTime s, code := code, hearth := h, source := source, data := data }
  queueEntry h e (eventTrigger code (raiseSys (sysCauses code) s))

/-- Generates a log event (spec/18 R534). -/
def emit (h code : Nat) (data : List Nat) (s : State) : State := emitFrom 511 h code data s

/-- What happens at a clock of the running tick waits for phase 0 of the next (spec/02 R43). -/
def arrive (a : Arrival) (s : State) : State := { s with arrivals := s.arrivals ++ [a] }

/-- The place of a beacon or a frame tick among those of its tick: by its DSP clock, and a beacon on the clock of a frame boundary before
it (spec/02 R45, spec/15 R453). -/
def arrivalOrder (a : Arrival) : Option Nat :=
  match a with
  | .beacon b => some (2 * b.clk)
  | .frameTick _ _ clk _ => some (2 * clk + 1)
  | _ => none

/-- A beacon or a frame tick of the running tick waits for phase 0 of the next, before those that come later (spec/02 R43, R45). -/
def arriveInOrder (a : Arrival) (s : State) : State :=
  let before (b : Arrival) : Bool := decide ((arrivalOrder b).getD 0 ≤ (arrivalOrder a).getD 0)
  { s with arrivals := s.arrivals.takeWhile before ++ a :: s.arrivals.dropWhile before }

/-- A log event of something that happens at a clock of the running tick: it is written when the next tick captures it
(spec/02 R43, R60). -/
def note (h code : Nat) (data : List Nat) (s : State) : State := arrive (.note h code data) s

/-- The detail word of a source is a device-internal diagnostic value: a free value (spec/17 R510; log entry 6, DESIGN CHOICE). -/
def freeDetail (s : State) : Nat × State :=
  let f := takeFree s
  (f.1.toNat % 2 ^ 32, f.2)

/-- Changes the fault collector of a hearth. -/
def modFcol (h : Nat) (f : Fcol → Fcol) (s : State) : State := modHearth h (fun x => { x with fcol := f x.fcol }) s

/-- A block pulses Error on a source's pair. While a sequence runs the pulse is lost; a lost FATAL pulse still douses
the package (spec/01 R30; spec/17 R510, R515). -/
def raiseSource (h n : Nat) (s : State) : State :=
  let f := (hearthAt s h).fcol
  let d := freeDetail s
  if f.rails.any (·.1 == n) then s
  else if (kget f.err n).isSome then s
  else if f.seqActive then
    let t := modFcol h (fun x => { x with lost := true, douseDue := x.douseDue || (sourceConfig x n).1 == 2 }) s
    if f.lost then t else emit h 0x0C33 [] t
  else modFcol h (fun x => { x with err := kset x.err n d.1 }) d.2

/-- A block holds a source's pair at Error for as long as a condition lasts (spec/17 R510). -/
def holdSource (h n : Nat) (s : State) : State :=
  let f := (hearthAt s h).fcol
  let d := freeDetail s
  if f.hold.contains n then s
  else modFcol h (fun x => { x with err := kset x.err n d.1, hold := x.hold ++ [n] }) d.2

/-- A condition ends: the pair reads Quiet; one that has not been captured is lost when a sequence runs
(spec/17 R510, R515). -/
def clearSource (h n : Nat) (s : State) : State :=
  let f := (hearthAt s h).fcol
  if f.hold.contains n then
    let missed := f.seqActive && !f.seen.contains n && (kget f.err n).isSome
    let t := modFcol h (fun x => { x with
      err := kerase x.err n, hold := x.hold.erase n, seen := x.seen.erase n, lost := x.lost || missed }) s
    if missed && !f.lost then emit h 0x0C33 [] t else t
  else s

/-! ### Package and section states -/

/-- Code of a package state (spec/01 R31). -/
def pkgCode : PkgState → Nat
  | .kindling => 0
  | .ember => 1
  | .alight => 2
  | .doused => 3

/-- Code of a section state (spec/01 R35). -/
def secCode : SecState → Nat
  | .cold => 0
  | .ready => 1
  | .ramping => 2
  | .live => 3
  | .damped => 4
  | .quenched => 5

/-- A transmitting state (spec/01 R31). -/
def transmits : SecState → Bool
  | .ramping | .live | .damped => true
  | _ => false

/-- Sections in a transmitting state; a section keeps its state during a down-ramp (spec/01 R37). -/
def transmitting (s : State) : Nat := ((allSections s).filter fun g => transmits (secAt s g.1 g.2).state).length

/-- The package state in force becomes the one that holds now, with its event (spec/01 R32, R39). -/
def showPkg (s : State) : State :=
  if s.pkgShown = s.pkg then s else emit 0 0x0110 [pkgCode s.pkgShown, pkgCode s.pkg] { s with pkgShown := s.pkg }

/-- Entry to KINDLING or DOUSED, which takes effect at once (spec/01 R32, R39). -/
def setPkg (p : PkgState) (s : State) : State := if s.pkg = p then s else showPkg { s with pkg := p }

/-- EMBER and ALIGHT follow the sections; the change takes effect, with its event, at the next boundary (spec/01 R32). -/
def evalPkg (s : State) : State :=
  match s.pkg with
  | .ember => if transmitting s ≠ 0 then { s with pkg := .alight } else s
  | .alight => if transmitting s = 0 then { s with pkg := .ember } else s
  | _ => s

/-- PKG_STATE: the state in force in the running tick (spec/01 R31, R32). -/
def pkgState (s : State) : PkgState := if s.pkg = .doused then .doused else s.pkgShown

/-- Tenant of a section; 0 when it has none (spec/03 R69). -/
def tenantOf (s : State) (h i : Nat) : Nat := ((secAt s h i).defn.map (·.tenant)).getD 0

/-- Changes a section's state, writes its event, signals its tenant, and lets the package state follow
(spec/01 R35, R39; spec/14 R416). Outside the transmitting states held and FB_CLIP read 0 (spec/01 R25). -/
def setSec (h i : Nat) (st : SecState) (s : State) : State :=
  let old := (secAt s h i).state
  if old = st then s
  else
    let clear (x : Section) : Section :=
      if transmits st then { x with state := st }
      else { x with
        state := st, held := [false, false, false, false], fbClip := [false, false, false, false], downRamp := none
        next := { x.next with held := [false, false, false, false], fbClip := [false, false, false, false] } }
    let t := modSec h i clear s
    evalPkg (signalVf (tenantOf s h i) 0 (emit h 0x0210 [secCode old, secCode st, globalOf h i] t))

/-- An event of a section that also signals a vector of the VF that holds the section (spec/14 R416). -/
def emitVf (v h i code : Nat) (data : List Nat) (s : State) : State := signalVf (tenantOf s h i) v (emit h code data s)

/-- HOLDS as five bits, HOST first (spec/13 R393). -/
def holdBits (x : Holds) : Nat :=
  bitNat x.host + 2 * bitNat x.groupVersion + 4 * bitNat x.groupLost + 8 * bitNat x.thermal + 16 * bitNat x.reset

/-- Whether any hold is present (spec/01 R34). -/
def anyHold (s : State) : Bool := holdBits s.holds != 0

/-- Whether a section has a wait cause (spec/01 R36). -/
def anyWait (x : Section) : Bool := x.waits.digest || x.waits.timing || x.waits.frame || x.waits.shed

/-- The state of a section as a command of the running tick meets it: a SECTION_START before it has taken effect (spec/01 R38). -/
def secNow (x : Section) : SecState := if x.startDue then .ramping else x.state

/-- Starts a down-ramp of a transmitting section, or cuts the one in progress short when the new one is the 1-tick ramp:
the output then falls from its level at that boundary, and RESUME is left as the ramp that is cut short would have left it (spec/01 R34, R36). A longer cause that begins during
another ramp leaves the ramp and its RESUME as they are (log entry 97, DESIGN CHOICE). -/
def startDown (len : Nat) (resume : Bool) (h i : Nat) (s : State) : State :=
  let x := secAt s h i
  if transmits x.state then
    match x.downRamp with
    | none => modSec h i (fun y => { y with downRamp := some { start := s.tbu.tick + 1, endTick := s.tbu.tick + len, len := len, resume := resume } }) s
    | some r =>
      if len = 1 ∧ s.tbu.tick + 1 < r.endTick then
        modSec h i (fun y => { y with downRamp := some { r with
          start := s.tbu.tick + 1, endTick := s.tbu.tick + 1, len := 1, fromNum := min r.len (r.endTick - s.tbu.tick), fromDen := r.len } }) s
      else s
  else s

/-- Changes the set of holds, writes its event, and ramps the transmitting sections down when a hold begins
(spec/01 R34, spec/13 R406). -/
def setHolds (f : Holds → Holds) (s : State) : State :=
  let new := f s.holds
  if new = s.holds then s
  else
    let t := emit 0 0x0126 [holdBits s.holds, holdBits new] { s with holds := new }
    if holdBits new &&& (31 - holdBits s.holds) ≠ 0 then each (allSections t) (fun g => startDown 256 true g.1 g.2) t else t

/-! ### Replies -/

/-- Code of a status (spec/12 R358). -/
def statusCode : Status → Nat
  | .ok => 0
  | .badOpcode => 1
  | .badLength => 2
  | .badParam => 3
  | .notPermitted => 4
  | .firebrickLimit => 5
  | .state => 6
  | .loopClosed => 7
  | .synthNotReady => 8
  | .budget => 9
  | .timeout => 10
  | .groupMismatch => 11
  | .authFailed => 12
  | .aborted => 13
  | .busy => 14
  | .internal => 15
  | .doused => 16

/-- Slots of a packet or reply with `n` payload words (spec/12 R360, R362). -/
def slotsOf (n : Nat) : Nat := ceilDiv (16 + 4 * n) 64

/-- Completion slots reserved for a reply of at most `n` words (spec/12 R364). -/
def reservation (n : Nat) : Nat := 2 * slotsOf n - 1

/-- Changes PF0 queue `q`. -/
def modQueue (q : Nat) (f : Queue → Queue) (s : State) : State :=
  modCpx (fun c => { c with queues := c.queues.modify q f }) s

/-- PF0 queue `q`. -/
def queueAt (s : State) (q : Nat) : Queue := s.cpx.queues.getD q {}

/-- Completion slots of a queue that hold replies the host has not consumed. -/
def cqUsed (x : Queue) : Nat := (x.cqTail + (x.cqM1 + 1) - x.cqHead) % (x.cqM1 + 1)

/-- Writes a reply into a queue's completion ring: a filler first when it does not fit before the ring end
(spec/12 R362, R363). -/
def queueReply (q : Nat) (r : Reply) (noIrq : Bool) (s : State) : State :=
  let x := queueAt s q
  let depth := x.cqM1 + 1
  let n := slotsOf r.words.length
  let wraps := decide (depth < x.cqTail + n)
  let fill : List Reply :=
    if wraps then [{ src := q, phase := x.phase, fill := true, slot := x.cqTail, sqHead := x.sqHead, time := r.time }] else []
  let start := if wraps then 0 else x.cqTail
  let ph := if wraps then !x.phase else x.phase
  let stop := start + n
  let irq := if x.ien && !noIrq then some x.vector else none
  let out := { r with phase := ph, slot := start, sqHead := x.sqHead, irq := irq }
  let t := modQueue q (fun y => { y with
    cqTail := if stop = depth then 0 else stop
    phase := if stop = depth then !ph else ph
    errors := if r.status = .ok then y.errors else incSat 8 y.errors }) s
  let u := modCpx (fun c => { c with replies := c.replies ++ fill ++ [out] }) t
  match irq with
  | some v => signalPf0 v u
  | none => u

/-- The words of a reply: its 16-byte header and its payload (spec/12 R357). -/
def replyWords (r : Reply) : List Word :=
  [wordOf [(0, 16, r.tag), (16, 8, statusCode r.status), (24, 4, r.hearth), (28, 1, bit r.phase), (29, 1, bit r.fill)],
   wordOf [(0, 12, r.words.length), (16, 16, r.sqHead)]] ++ wordsOf 2 r.time ++ r.words

/-- Changes the group agent. -/
def modFlu (f : Flu → Flu) (s : State) : State := { s with flu := f s.flu }

/-- A frame reaches a port with the GROUP role while the device is in a group (spec/15 R442, R447). -/
def groupPort (s : State) (port : Nat) : Bool :=
  s.flu.acting != 0 && decide (port < 2 * hearthCount s) && (s.flu.ports.getD port {}).group

/-- A frame is newer than the last accepted one of its SRC and TYPE (spec/15 R446). -/
def frameNew (s : State) (src typ seq : Nat) : Bool := (kget s.flu.rxSeq (8 * src + typ)).all fun v => serialGt seq v

/-- A frame that the device's port accepts counts (spec/15 R446, R486). -/
def acceptFrame (port src typ seq : Nat) (s : State) : State :=
  modFlu (fun x => { x with
    rxSeq := kset x.rxSeq (8 * src + typ) seq, ports := x.ports.modify port fun p => { p with rx := incWrap 32 p.rx } }) s

/-- The device takes the COMMAND frame that carries a leader packet: it came in on a port of the group and is no copy. A packet of the
acting leader to itself comes in no frame (spec/15 R446, R457; log entry 55, DEDUCED). -/
def leaderFrame (p : Packet) (s : State) : Bool := s.flu.acting == 2 || (groupPort s p.port && frameNew s s.flu.leader 2 p.frame)

/-- The COMMAND frame of a leader packet is accepted (spec/15 R446, R457, R486). -/
def tookFrame (p : Packet) (s : State) : State := if s.flu.acting = 2 then s else acceptFrame p.port s.flu.leader 2 p.frame s

/-- Frames of a TYPE sent so far. -/
def nextSeq (s : State) (typ : Nat) : Nat := kgetD s.flu.txSeq typ 0 + 1

/-- Sends a frame on every port with the GROUP role (spec/15 R444, R445). -/
def sendFrame (typ dst : Nat) (last : Bool) (words : List Word) (s : State) : State :=
  let n := nextSeq s typ
  modFlu (fun x => { x with txSeq := kset x.txSeq typ n, sent := x.sent ++ [{ typ := typ, dst := dst, seq := n % 2 ^ 32, last := last, words := words }] }) s

/-- A member answers the acting leader with a REPLY frame (spec/15 R446). The acting leader's own packets need none
(spec/15 R457). -/
def replyFrame (r : Reply) (s : State) : State :=
  if s.flu.acting = 1 ∨ s.flu.acting = 3 then sendFrame 3 s.flu.leader false (replyWords r) s else s

/-- A leader packet of a plan round replies (spec/15 R457). -/
def roundReply (seq : Nat) (st : Status) (s : State) : State :=
  { s with flu := { s.flu with
      roundBad := s.flu.roundBad || st != .ok
      roundReplied := s.flu.roundReplied || s.flu.roundEnd.any fun e => e.1 == seq } }

/-- Writes the reply of a command: to its queue, whose reservation is released, or to the outbox of the other sources, and to the group leader
as a frame (spec/12 R352, R356, R364, R367; spec/15 R446). A queue that is not ACTIVE takes none (R365). -/
def writePlain (c : Held) (st : Status) (words : List Word) (time : Nat) (s : State) : State :=
  let r : Reply := { src := c.src, tag := c.tag, status := st, hearth := c.hearth, time := time, words := words }
  let silent := st = .ok ∧ maskHas c.flags 1
  if c.src < 64 then
    if (queueAt s c.src).state ≠ 1 then s
    else
      let t := modQueue c.src (fun q => { q with reserved := q.reserved - c.reserve }) s
      if silent then t else queueReply c.src r (maskHas c.flags 2) t
  else
    let t := if silent then s else modCpx (fun x => { x with replies := x.replies ++ [r] }) s
    let t := if c.src = 0x41 ∧ ¬silent then replyFrame r t else t
    if c.src = 0x41 then roundReply c.seq st t else t

/-- The reply of a command is ready: it is written at the boundary that opens the next tick, with the time of that boundary unless `time` names
another. A reply other than OK to a source that is no queue writes CMD_ERROR (spec/02 R60; spec/12 R367, R375). -/
def dueReply (time : Option Nat) (c : Held) (st : Status) (words : List Word) (s : State) : State :=
  let t := modCpx (fun x => { x with due := x.due ++ [{ cmd := c, status := st, words := words, time := time }] }) s
  if c.src < 64 ∨ st = .ok then t
  else emit 0 0x0120 ([c.src] ++ bytesOf 2 c.op ++ [statusCode st] ++ bytesOf 2 c.tag ++ bytesOf 4 c.seq) t

/-- The reply of a command whose TIMESTAMP is the boundary that opens the next tick (spec/02 R60). -/
def sendReply (c : Held) (st : Status) (words : List Word) (s : State) : State := dueReply none c st words s

/-- A word of the boot flash by byte offset; erased flash reads all ones (spec/20 R574; log entry 13, DESIGN CHOICE). -/
def flashWord (s : State) (offset : Nat) : Word := kgetD s.sec.flash (offset / 4) 0xFFFFFFFF

/-- Words written from a word address of a memory that reads 0xFFFF_FFFF when erased: a word of that value stays unlisted. -/
def putWords (m : KMap Word) (base : Nat) (ws : List Word) : KMap Word :=
  ws.zipIdx.foldl (fun m e => if e.1 = 0xFFFFFFFF then kerase m (base + e.2) else kset m (base + e.2) e.1) m

/-- Words programmed into the boot flash from a byte offset on (spec/20 R574). -/
def putFlash (offset : Nat) (ws : List Word) (s : State) : State :=
  { s with sec := { s.sec with flash := putWords s.sec.flash (offset / 4) ws } }

/-- Word `k` of the Kindling record in use; 0 while none is (spec/20 R579). -/
def recordWord (s : State) (k : Nat) : Word := wordAt (s.sec.record.getD []) k

/-- Records of the Kindling script (spec/20 R579). -/
def scriptCount (s : State) : Nat := fld (recordWord s 16) 0 16

/-- Byte offset, within the script area, of script record `n`: each record is a header word and a packet
(spec/20 R580). -/
def scriptOffset (s : State) : Nat → Nat
  | 0 => 0
  | n + 1 =>
    let o := scriptOffset s n
    o + 20 + 4 * fld (flashWord s ((recordWord s 15).toNat + o + 8)) 0 12

/-- Header word of script record `n` (spec/20 R580). -/
def scriptHeader (s : State) (n : Nat) : Word := flashWord s ((recordWord s 15).toNat + scriptOffset s n)

/-- Packet words of script record `n`, cut at the end of the script area (spec/12 R370, spec/20 R579, R580). -/
def scriptPacket (s : State) (n : Nat) : List Word :=
  let o := scriptOffset s n
  let stop := min (scriptOffset s (n + 1)) (recordWord s 17).toNat
  (List.range ((stop - (o + 4)) / 4)).map fun k => flashWord s ((recordWord s 15).toNat + o + 4 + 4 * k)

/-- The script's policy on a reply (spec/20 R580, R581): what a record's ON_ERR, or SCRIPT_POLICY, asks for: 1 go on,
2 stop, 3 retry. -/
def scriptPolicy (s : State) (n : Nat) : Nat :=
  let e := fld (scriptHeader s n) 20 2
  if e = 0 then (if bitOf (recordWord s 6) 8 then 2 else 1) else e

/-- Four words of a SCRIPT_CONTROL reply; a record that has been captured is no longer the next one (spec/13 R405; log entry 154,
DEDUCED). -/
def scriptWords (x : Script) : List Word :=
  [wordOf [(0, 2, x.state), (16, 16, x.next + bitNat x.busy)], BitVec.ofNat 32 x.executed,
   wordOf [(0, 16, x.lastErrOp), (16, 8, x.lastErrStatus)], wordOf [(0, 16, x.errors)]]

/-- The script state after the present record has replied at the boundary that opens tick `opens`: unless the record is captured again,
NEXT has passed it (spec/13 R404, R405; spec/20 R581; log entry 154, DEDUCED). -/
def scriptAfter (op : Nat) (st : Status) (opens : Nat) (s : State) : Script :=
  let x := s.cpx.script
  let y : Script := { x with
    executed := incWrap 32 x.executed
    lastErrOp := if st = .ok then x.lastErrOp else op
    lastErrStatus := if st = .ok then x.lastErrStatus else statusCode st
    errors := if st = .ok then x.errors else incSat 16 x.errors
    busy := false, turn := none, readyTick := opens }
  let pol := if st = .ok then 1 else scriptPolicy s x.next
  let forward : Script := { y with next := x.next + 1, attempts := 0, state := if x.next + 1 < scriptCount s then 1 else 2 }
  let z : Script :=
    if pol = 1 then forward
    else if pol = 3 ∧ x.attempts < 7 then { y with attempts := x.attempts + 1, retryAt := some (opens + ticksPerSecond) }
    else { y with next := x.next + 1, state := 3, attempts := 0 }
  if x.stopping then { z with state := if z.state = 2 then 2 else 3, stopping := false, retryAt := none } else z

/-- The script takes the reply of its record; its end writes event 0x0125, with the SOURCE of a STOP that ends it, and a held STOP replies
(spec/13 R404 to R406). -/
def scriptReplied (op : Nat) (st : Status) (opens time : Nat) (s : State) : State :=
  let x := s.cpx.script
  let y := scriptAfter op st opens s
  let t := modCpx (fun c => { c with script := y }) s
  let u := if y.state = 1 then t else emit 0 0x0125 ([y.state] ++ bytesOf 2 y.next ++ [if x.stopping then x.stopSrc else 0x40]) t
  if y.state = 1 then u
  else
    each (u.cpx.held.filter fun c => c.op == 0x010B) (fun c v =>
      writePlain c .ok (scriptWords y) time (modCpx (fun z => { z with held := z.held.erase c }) v)) u

/-- A reply is written; the Kindling script goes on from the reply of its record (spec/12 R352, R354). `opens` is the tick that the
boundary opens. -/
def writeReply (opens : Nat) (c : Held) (st : Status) (words : List Word) (time : Nat) (s : State) : State :=
  let t := writePlain c st words time s
  if c.src = 0x40 then scriptReplied c.op st opens time t else t

/-- Ends a held command with a reply whose TIMESTAMP is `time`, or else the boundary that opens the next tick (spec/02 R60; spec/12 R368). -/
def endHeldAt (time : Option Nat) (c : Held) (st : Status) (words : List Word) (s : State) : State :=
  dueReply time c st words (modCpx (fun x => { x with held := x.held.erase c }) s)

/-- Ends a held command: it replies (spec/12 R368). -/
def endHeld (c : Held) (st : Status) (words : List Word) (s : State) : State := endHeldAt none c st words s

/-- Ends a held command without a reply: its reservation is released (spec/12 R364, R368). -/
def dropHeld (c : Held) (s : State) : State :=
  let t := modCpx (fun x => { x with held := x.held.erase c }) s
  if c.src < 64 then modQueue c.src (fun q => { q with reserved := q.reserved - c.reserve }) t else t

/-- The held commands of an opcode that await `key`, in capture order. -/
def heldFor (s : State) (op key : Nat) : List Held := s.cpx.held.filter fun c => c.op == op && c.key == key

/-- Ends every held command of an opcode that awaits `key`. -/
def endHeldFor (op key : Nat) (st : Status) (words : List Word) (s : State) : State :=
  each (heldFor s op key) (fun c => endHeld c st words) s

/-! ### Privilege -/

/-- The OEM provisioning key in force (spec/20 R589). -/
def oemKeyNow (s : State) : Option Nat := if s.sec.oemFrom ≤ s.tbu.tick then s.sec.oemKey else none

/-- The host-unlock key in force (spec/20 R589, R590). -/
def hostKeyNow (s : State) : Option Nat := if s.sec.hostFrom ≤ s.tbu.tick then s.sec.hostKey else none

/-- Implicit privilege of PF0 while no host-unlock key is provisioned (spec/20 R590). -/
def implicitPriv (s : State) : Bool := (hostKeyNow s).isNone && !s.cpx.lockedBy

/-- Whether PF0 is privileged: an unlock gives privilege from the boundary that opens the tick after its capture
(spec/12 R352, spec/13 R399, spec/20 R590). -/
def pf0Priv (s : State) : Bool :=
  (if (hostKeyNow s).isNone then implicitPriv s else s.cpx.unlocked) && decide (s.cpx.privFrom ≤ s.tbu.tick)

/-- Register masters: 0 PF0, 1 CPX firmware, 2 SEC; the last two are always privileged (spec/20 R593). -/
def masterPriv (s : State) (m : Nat) : Bool := if m = 0 then pf0Priv s else decide (m = 1 ∨ m = 2)

/-! ### Capture and checks of a command packet -/

/-- Target rule of an opcode (spec/13 R377). -/
inductive Target where
  | package | hearths | hearth | sect
  deriving DecidableEq, Repr

/-- Sources an opcode is accepted from (spec/13 R377). -/
inductive Sources where
  | all | queues | queuesService | nobody
  deriving DecidableEq, Repr

/-- Whether the group leader may send an opcode (spec/13 R377). -/
inductive Leader where
  | no | eligible | only
  deriving DecidableEq, Repr

/-- A row of the command index (spec/13 R376, R377). -/
structure CmdInfo where
  op : Nat
  target : Target
  sources : Sources
  leader : Leader
  priv : Bool
  kindling : Bool
  ember : Bool
  alight : Bool
  lenLo : Nat
  lenHi : Nat
  reply : Nat
  deriving DecidableEq, Repr

/-- What the handling of a command ends in: a reply, or a wait for an event, with the state that follows. -/
inductive Done where
  | reply (st : Status) (words : List Word) (s : State)
  | hold (key : Nat) (deadline : Option Nat) (s : State)

/-- The source of a packet is in the opcode's Src column (spec/13 R377). -/
def sourceOk (ci : CmdInfo) (src : Nat) : Bool :=
  match ci.sources with
  | .all => true
  | .queues => decide (src < 64)
  | .queuesService => decide (src < 64) || src == 0x42
  | .nobody => false

/-- Privilege and group role, check 5 (spec/12 R369, spec/13 R377). -/
def permitted (ci : CmdInfo) (src : Nat) (s : State) : Bool :=
  match ci.leader with
  | .only => src == 0x41
  | .eligible => src == 0x41 || !ci.priv || src == 0x40 || src == 0x42 || pf0Priv s
  | .no => src != 0x41 && (!ci.priv || src == 0x40 || src == 0x42 || pf0Priv s)

/-- The package state is one of the opcode's valid states, check 6 (spec/12 R369). -/
def stateOk (ci : CmdInfo) (s : State) : Bool :=
  match pkgState s with
  | .kindling => ci.kindling
  | .ember => ci.ember
  | .alight => ci.alight
  | .doused => false

/-- The target names what the opcode's Tgt column asks for (spec/13 R377). -/
def targetOk (ci : CmdInfo) (p : Packet) (s : State) : Bool :=
  match ci.target with
  | .package => true
  | .hearths => p.hearth == 15 || present s p.hearth
  | .hearth => present s p.hearth
  | .sect => present s p.hearth && decide (p.sect < 8)

/-- The hearths that a packet with target rule H acts on (spec/13 R377). -/
def targets (p : Packet) (s : State) : List Nat := if p.hearth = 15 then hearthsOf s else [p.hearth]

/-- The checks of a packet before its opcode's own, in order (spec/12 R369). -/
def firstFailure (ci : CmdInfo) (lenRule : Bool) (p : Packet) (s : State) : Option Status :=
  let n := p.payload.length
  if s.pkg = .doused then some .doused
  else if !sourceOk ci p.src then some .badOpcode
  else if !p.whole || decide (n < ci.lenLo) || decide (ci.lenHi < n) || !lenRule then some .badLength
  else if decide (8 ≤ p.flags) || p.rsv then some .badParam
  else if !permitted ci p.src s then some .notPermitted
  else if !stateOk ci s then some .state
  else if !targetOk ci p s then some .badParam
  else none

/-- The record of a command that replies or waits. -/
def heldOf (ci : CmdInfo) (p : Packet) : Held :=
  { op := ci.op, src := p.src, tag := p.tag, seq := p.seq, hearth := p.hearth, sect := p.sect, flags := p.flags
    reserve := reservation ci.reply, words := p.payload }

/-- A command that touches the agreed configuration of the group: a group-scoped section, its gain slots, its paths or its
settings, a TDD pattern, or a scheduled selection (spec/15 R456; log entry 42, DEDUCED). -/
def touchesGroup (op : Nat) (p : Packet) (s t : State) : Bool :=
  let grouped (i : Nat) (u : State) : Bool := (secAt u p.hearth i).defn.any (·.group)
  let bound : Option (Nat × Nat) := ((hearthAt s p.hearth).loops[fld (wordAt p.payload 0) 0 6]?).bind (·.bound)
  if [0x0201, 0x0202, 0x0301, 0x0303, 0x0401, 0x0501, 0x0903, 0x0A05].contains op then grouped p.sect s || grouped p.sect t
  else if [0x0601, 0x0603, 0x0604, 0x0605, 0x0606, 0x0607, 0x0608].contains op then bound.any fun b => grouped b.1 s
  else op == 0x0E01 || op == 0x0E02 || (op == 0x0E05 && fld (wordAt p.payload 2) 0 4 == 2)

/-- DIGEST_AGREE (spec/15 R459). -/
def digestAgrees (x : Flu) : Bool :=
  x.acting == 2 || ((x.acting == 1 || x.acting == 3) && x.leaderSeen.isSome && x.appliedDigest == x.leaderDigest)

/-- DIGEST_AGREE follows what it depends on, with its event (spec/15 R459, R460, R490). -/
def evalDigest (s : State) : State :=
  let v := digestAgrees s.flu
  if s.flu.digestAgree = v then s
  else
    let t : State := { s with flu := { s.flu with digestAgree := v, digestSince := s.tbu.tick + 1 } }
    if s.flu.acting = 0 then t else emit 0 0x0A12 ([bitNat v] ++ bytesOf 8 s.flu.leaderDigest) t

/-- The applied digest returns to 0 when a source other than the leader changes the agreed configuration (spec/15 R456). -/
def groupTouched (op : Nat) (p : Packet) (s t : State) : State :=
  if p.src ≠ 0x41 ∧ touchesGroup op p s t = true then evalDigest { t with flu := { t.flu with appliedDigest := 0 } } else t

/-- Handles a captured packet: the checks, then the opcode's own handling (spec/12 R367 to R369). A command that would
be held while 256 are held returns BUSY and nothing of it applies (R368). -/
def handle (ci : CmdInfo) (lenRule : Bool) (body : Packet → State → Done) (p : Packet) (s : State) : State :=
  let c := heldOf ci p
  match firstFailure ci lenRule p s with
  | some st => sendReply c st [] s
  | none =>
    match body p s with
    | .reply st words t => sendReply c st words (if st = .ok then groupTouched ci.op p s t else t)
    | .hold key dl t =>
      if 256 ≤ s.cpx.held.length then sendReply c .busy [] s
      else modCpx (fun x => { x with held := x.held ++ [{ c with key := key, deadline := dl }] }) (groupTouched ci.op p s t)

/-- Place of a source in the order of capture: the script, the leader, the service, then the queues (spec/12 R366). -/
def captureRank (src : Nat) : Nat := if src < 64 then 3 + src else src - 0x40

/-- Counts a captured packet against the limits of the tick (spec/12 R366). -/
def countCapture (src : Nat) (s : State) : State :=
  modCpx (fun c => { c with
    capTotal := c.capTotal + 1, capBy := kset c.capBy src (kgetD c.capBy src 0 + 1), capRank := captureRank src }) s

/-- Whether the tick still captures a packet of a source: its limits leave room, and no source that comes later in the order has been
captured from (spec/12 R366). -/
def captureRoom (src : Nat) (s : State) : Bool :=
  decide (s.cpx.capTotal < 64) && decide (kgetD s.cpx.capBy src 0 < 16) && decide (s.cpx.capRank ≤ captureRank src) && !s.cpx.resetTaken

/-- Slots of a queue from its SQ head to a place in the ring. -/
def sqSlots (x : Queue) (tail : Nat) : Nat := (tail + (x.sqM1 + 1) - x.sqHead) % (x.sqM1 + 1)

/-- Slots whose doorbell write completed before the running tick and that are not yet fetched (spec/12 R366). -/
def sqUsed (x : Queue) : Nat := sqSlots x x.sqSeen

/-- Moves the SQ head past `n` slots. -/
def advanceSq (n : Nat) (x : Queue) : Queue :=
  let h := x.sqHead + n
  { x with sqHead := if h = x.sqM1 + 1 then 0 else h, extWait := none, extTail := none }

/-- Whether a packet of queue `q` with FENCE set still has a packet before it that has not replied (spec/12 R356). -/
def fenced (p : Packet) (q : Nat) (s : State) : Bool :=
  maskHas p.flags 0 && (s.cpx.held.any (fun c => c.src == q) || s.cpx.due.any fun d => d.cmd.src == q)

/-- D3hot on either physical function: nothing is captured from the queues (spec/14 R433). -/
def queuesSleep (s : State) : Bool := s.hif.d3pf0 || s.hif.d3pf1

/-- The state once queue `q` has given a packet: its SQ head moves by `f`, and `want` completion slots are reserved for its reply
(spec/12 R364, R366, R373). -/
def takeSlots (q want : Nat) (f : Queue → Queue) (s : State) : State :=
  countCapture q (modQueue q (fun y => { f y with packets := incWrap 16 y.packets, reserved := y.reserved + want }) s)

/-- A packet that the form of its slots or its reply refuses: BAD_LENGTH, in one completion slot (spec/12 R364, R370). -/
def refuseLength (ci : CmdInfo) (p : Packet) (s : State) : State :=
  sendReply { heldOf ci p with reserve := 1 } (if s.pkg = .doused then .doused else .badLength) [] s

/-- Captures a packet of PF0 queue `q` (spec/12 R360, R364, R366, R370). A packet that cannot be captured now leaves the
state as it is: it waits. -/
def captureQueue (ci : CmdInfo) (lenRule : Bool) (body : Packet → State → Done) (p : Packet) (s : State) : State :=
  let q := p.src
  let x := queueAt s q
  let n := slotsOf p.payload.length
  let need := reservation ci.reply
  if x.state ≠ 1 ∨ sqUsed x = 0 ∨ fenced p q s = true ∨ captureRoom q s = false ∨ queuesSleep s = true then s
  else if x.sqM1 + 1 < x.sqHead + n then
    -- past the ring end: BAD_LENGTH, and the rest of the ring counts as PAD (R370)
    if cqUsed x + x.reserved + 1 ≤ x.cqM1 then refuseLength ci p (takeSlots q 1 (fun y => { y with sqHead := 0, extWait := none, extTail := none }) s) else s
  else if sqUsed x < n then
    -- past SQ_TAIL: it waits for a further doorbell (R370)
    if x.extWait.isSome || decide (n ≤ sqSlots x x.sqTail) then s else modQueue q (fun y => { y with extWait := some s.tbu.clock }) s
  else
    let fits := decide (need ≤ x.cqM1)
    let want := if fits then need else 1
    if cqUsed x + x.reserved + want ≤ x.cqM1 then
      let t := takeSlots q want (advanceSq n) s
      if fits then handle ci lenRule body p t else refuseLength ci p t
    else s

/-- Header and payload words of a packet (spec/12 R355). -/
def packetWords (op : Nat) (p : Packet) : List Word :=
  [wordOf [(0, 16, op), (16, 8, p.flags), (24, 4, p.hearth), (28, 4, p.sect)],
   wordOf [(0, 12, p.payload.length), (16, 16, p.tag)], BitVec.ofNat 32 p.seq, 0] ++ p.payload

/-- Whether a packet is the one that a script record holds, its bits that R355 marks 0 apart: those are judged by check 4 (spec/12 R355,
R369). -/
def spelledBy (ws : List Word) (op : Nat) (p : Packet) : Bool :=
  let w1 := wordAt ws 1
  decide ([wordAt ws 0, wordOf [(0, 12, fld w1 0 12), (16, 16, fld w1 16 16)], wordAt ws 2, 0] ++ ws.drop 4 = packetWords op p)
    && p.rsv == (fld w1 12 4 != 0 || wordAt ws 3 != 0)

/-- Captures a packet of any source and handles it (spec/12 R352 to R354, R366). Packets of sources that the table of
R352 does not use change nothing. -/
def runCommandWith (ci : CmdInfo) (lenRule : Bool) (body : Packet → State → Done) (p : Packet) (s : State) : State :=
  if p.src < 64 then captureQueue ci lenRule body p s
  else if captureRoom p.src s = false then s
  else if p.src = 0x40 then
    -- the script's packet is captured only on its turn (R354)
    if s.cpx.script.turn.any (spelledBy · ci.op p) then
      let t := modCpx (fun c => { c with script := { c.script with turn := none, busy := true } }) s
      handle ci lenRule body p (countCapture p.src t)
    else s
  else if p.src = 0x41 then
    -- the leader's packets carry a serial number (R353)
    -- without an acting leader, or with another major version, they are discarded (spec/12 R353, spec/15 R460; log entry 41, DEDUCED)
    -- a copy of a frame that came in before is discarded (spec/15 R446)
    if s.flu.acting = 0 ∨ s.flu.versionMismatch = true ∨ leaderFrame p s = false then s
    else if s.cpx.leaderAny || serialGt p.seq s.cpx.leaderSeq then
      let t := modCpx (fun c => { c with leaderSeq := p.seq, leaderAny := false }) (tookFrame p s)
      let t : State := match p.roundEnd with
        | some d => { t with flu := { t.flu with roundEnd := some (p.seq, d), roundReplied := false } }
        | none => t
      handle ci lenRule body p (countCapture p.src t)
    else modCpx (fun c => { c with leaderDup := incSat 16 c.leaderDup }) (tookFrame p s)
  else if p.src = 0x42 then handle ci lenRule body p (countCapture p.src s)
  else s

/-- Captures and handles a packet whose only length rule is that of the index. -/
def runCommand (ci : CmdInfo) (body : Packet → State → Done) (p : Packet) (s : State) : State :=
  runCommandWith ci true body p s

/-- A check of an opcode's own table: when it fails its status is the reply and nothing changes (spec/12 R369). -/
def check (ok : Bool) (st : Status) (s : State) (next : Done) : Done := if ok then next else .reply st [] s

end Sys2Proof.Machine
end

