-- ==== Sys2Proof/Machine/Index.lean ====
section
/-! DEFINITION. Machine/Index.lean: the command index, one row for each opcode, as the tables of spec/13 give it. -/

namespace Sys2Proof.Machine

/-- 0x0100 PAD (spec/13 R379). -/
def infoPad : CmdInfo :=
  { op := 0x0100, target := .package, sources := .queues, leader := .no, priv := false, kindling := true, ember := true, alight := true
    lenLo := 0, lenHi := 4095, reply := 0 }

/-- 0x0101 IDENTIFY (spec/13 R379). -/
def infoIdentify : CmdInfo :=
  { op := 0x0101, target := .package, sources := .all, leader := .eligible, priv := false, kindling := true, ember := true, alight := true
    lenLo := 0, lenHi := 0, reply := 9 }

/-- 0x0102 NOP (spec/13 R379). -/
def infoNop : CmdInfo :=
  { op := 0x0102, target := .package, sources := .all, leader := .eligible, priv := false, kindling := true, ember := true, alight := true
    lenLo := 0, lenHi := 4095, reply := 0 }

/-- 0x0103 HOST_UNLOCK (spec/13 R379). -/
def infoHostUnlock : CmdInfo :=
  { op := 0x0103, target := .package, sources := .queues, leader := .no, priv := false, kindling := true, ember := true, alight := true
    lenLo := 1, lenHi := 25, reply := 0 }

/-- 0x0104 QUEUE_CREATE (spec/13 R379). -/
def infoQueueCreate : CmdInfo :=
  { op := 0x0104, target := .package, sources := .queues, leader := .no, priv := false, kindling := false, ember := true, alight := true
    lenLo := 6, lenHi := 6, reply := 0 }

/-- 0x0105 QUEUE_DELETE (spec/13 R379). -/
def infoQueueDelete : CmdInfo :=
  { op := 0x0105, target := .package, sources := .queues, leader := .no, priv := false, kindling := false, ember := true, alight := true
    lenLo := 1, lenHi := 1, reply := 0 }

/-- 0x0106 COUNTER_SNAPSHOT (spec/13 R379). -/
def infoCounterSnapshot : CmdInfo :=
  { op := 0x0106, target := .package, sources := .all, leader := .no, priv := false, kindling := false, ember := true, alight := true
    lenLo := 0, lenHi := 0, reply := 1 }

/-- 0x0107 WIDE_READ (spec/13 R379). -/
def infoWideRead : CmdInfo :=
  { op := 0x0107, target := .package, sources := .all, leader := .no, priv := false, kindling := true, ember := true, alight := true
    lenLo := 1, lenHi := 32, reply := 128 }

/-- 0x0108 PACKAGE_HOLD (spec/13 R379). -/
def infoPackageHold : CmdInfo :=
  { op := 0x0108, target := .package, sources := .all, leader := .no, priv := true, kindling := false, ember := true, alight := true
    lenLo := 1, lenHi := 1, reply := 0 }

/-- 0x0109 UNLOCK_CHALLENGE (spec/13 R379). -/
def infoUnlockChallenge : CmdInfo :=
  { op := 0x0109, target := .package, sources := .queues, leader := .no, priv := false, kindling := true, ember := true, alight := true
    lenLo := 0, lenHi := 0, reply := 8 }

/-- 0x010A SYS_RESET (spec/13 R379). -/
def infoSysReset : CmdInfo :=
  { op := 0x010A, target := .package, sources := .queuesService, leader := .no, priv := true, kindling := false, ember := true, alight := true
    lenLo := 1, lenHi := 1, reply := 0 }

/-- 0x010B SCRIPT_CONTROL (spec/13 R379). -/
def infoScriptControl : CmdInfo :=
  { op := 0x010B, target := .package, sources := .queuesService, leader := .no, priv := true, kindling := false, ember := true, alight := true
    lenLo := 1, lenHi := 1, reply := 4 }

/-- 0x010C PACKAGE_STATUS (spec/13 R379). -/
def infoPackageStatus : CmdInfo :=
  { op := 0x010C, target := .package, sources := .all, leader := .eligible, priv := false, kindling := true, ember := true, alight := true
    lenLo := 0, lenHi := 0, reply := 12 }

/-- 0x0201 SECTION_DEFINE (spec/13 R381). -/
def infoSectionDefine : CmdInfo :=
  { op := 0x0201, target := .sect, sources := .all, leader := .eligible, priv := true, kindling := false, ember := true, alight := true
    lenLo := 8, lenHi := 8, reply := 0 }

/-- 0x0202 SECTION_DELETE (spec/13 R381). -/
def infoSectionDelete : CmdInfo :=
  { op := 0x0202, target := .sect, sources := .all, leader := .eligible, priv := true, kindling := false, ember := true, alight := true
    lenLo := 0, lenHi := 0, reply := 0 }

/-- 0x0203 SECTION_QUERY (spec/13 R381). -/
def infoSectionQuery : CmdInfo :=
  { op := 0x0203, target := .sect, sources := .all, leader := .eligible, priv := false, kindling := false, ember := true, alight := true
    lenLo := 0, lenHi := 0, reply := 11 }

/-- 0x0204 SECTION_START (spec/13 R381). -/
def infoSectionStart : CmdInfo :=
  { op := 0x0204, target := .sect, sources := .all, leader := .eligible, priv := true, kindling := false, ember := true, alight := true
    lenLo := 0, lenHi := 0, reply := 0 }

/-- 0x0205 SECTION_STOP (spec/13 R381). -/
def infoSectionStop : CmdInfo :=
  { op := 0x0205, target := .sect, sources := .all, leader := .eligible, priv := true, kindling := false, ember := true, alight := true
    lenLo := 0, lenHi := 0, reply := 0 }

/-- 0x0206 GRATE_SYNC (spec/13 R381). -/
def infoGrateSync : CmdInfo :=
  { op := 0x0206, target := .package, sources := .all, leader := .eligible, priv := true, kindling := false, ember := true, alight := true
    lenLo := 0, lenHi := 0, reply := 0 }

/-- 0x0301 BDC_PATH_CONFIG (spec/13 R382). -/
def infoBdcPathConfig : CmdInfo :=
  { op := 0x0301, target := .sect, sources := .all, leader := .no, priv := true, kindling := false, ember := true, alight := true
    lenLo := 4, lenHi := 4, reply := 2 }

/-- 0x0302 BDC_PATH_QUERY (spec/13 R382). -/
def infoBdcPathQuery : CmdInfo :=
  { op := 0x0302, target := .sect, sources := .all, leader := .no, priv := false, kindling := false, ember := true, alight := true
    lenLo := 1, lenHi := 1, reply := 8 }

/-- 0x0303 BDC_PATH_MODE (spec/13 R382). -/
def infoBdcPathMode : CmdInfo :=
  { op := 0x0303, target := .sect, sources := .all, leader := .no, priv := true, kindling := false, ember := true, alight := true
    lenLo := 1, lenHi := 1, reply := 0 }

/-- 0x0304 BDC_TAP_RESET (spec/13 R382). -/
def infoBdcTapReset : CmdInfo :=
  { op := 0x0304, target := .sect, sources := .all, leader := .no, priv := true, kindling := false, ember := true, alight := true
    lenLo := 1, lenHi := 1, reply := 0 }

/-- 0x0305 BDC_SNAPSHOT (spec/13 R382). -/
def infoBdcSnapshot : CmdInfo :=
  { op := 0x0305, target := .sect, sources := .all, leader := .no, priv := true, kindling := false, ember := true, alight := true
    lenLo := 1, lenHi := 1, reply := 0 }

/-- 0x0306 BDC_RESTORE (spec/13 R382). -/
def infoBdcRestore : CmdInfo :=
  { op := 0x0306, target := .sect, sources := .all, leader := .no, priv := true, kindling := false, ember := true, alight := true
    lenLo := 1, lenHi := 1, reply := 0 }

/-- 0x0401 DMP_CONFIG (spec/13 R383). -/
def infoDmpConfig : CmdInfo :=
  { op := 0x0401, target := .sect, sources := .all, leader := .eligible, priv := true, kindling := false, ember := true, alight := true
    lenLo := 3, lenHi := 3, reply := 0 }

/-- 0x0402 DMP_QUERY (spec/13 R383). -/
def infoDmpQuery : CmdInfo :=
  { op := 0x0402, target := .sect, sources := .all, leader := .eligible, priv := false, kindling := false, ember := true, alight := true
    lenLo := 0, lenHi := 0, reply := 7 }

/-- 0x0403 DMP_STRANGER_CLEAR (spec/13 R383). -/
def infoDmpStrangerClear : CmdInfo :=
  { op := 0x0403, target := .sect, sources := .all, leader := .eligible, priv := true, kindling := false, ember := true, alight := true
    lenLo := 0, lenHi := 0, reply := 0 }

/-- 0x0404 DMP_GROUP_CEIL (spec/13 R383). -/
def infoDmpGroupCeil : CmdInfo :=
  { op := 0x0404, target := .sect, sources := .all, leader := .only, priv := false, kindling := false, ember := true, alight := true
    lenLo := 1, lenHi := 1, reply := 0 }

/-- 0x0501 SPA_CONFIG (spec/13 R383). -/
def infoSpaConfig : CmdInfo :=
  { op := 0x0501, target := .sect, sources := .all, leader := .eligible, priv := true, kindling := false, ember := true, alight := true
    lenLo := 5, lenHi := 5, reply := 0 }

/-- 0x0502 SPA_QUERY (spec/13 R383). -/
def infoSpaQuery : CmdInfo :=
  { op := 0x0502, target := .sect, sources := .all, leader := .eligible, priv := false, kindling := false, ember := true, alight := true
    lenLo := 0, lenHi := 0, reply := 13 }

/-- 0x0503 SPA_HISTORY_CLEAR (spec/13 R383). -/
def infoSpaHistoryClear : CmdInfo :=
  { op := 0x0503, target := .sect, sources := .all, leader := .eligible, priv := true, kindling := false, ember := true, alight := true
    lenLo := 0, lenHi := 0, reply := 0 }

/-- 0x0601 LOOP_CONFIG (spec/13 R384). -/
def infoLoopConfig : CmdInfo :=
  { op := 0x0601, target := .hearth, sources := .all, leader := .eligible, priv := true, kindling := false, ember := true, alight := true
    lenLo := 17, lenHi := 17, reply := 0 }

/-- 0x0602 LOOP_QUERY (spec/13 R384). -/
def infoLoopQuery : CmdInfo :=
  { op := 0x0602, target := .hearth, sources := .all, leader := .eligible, priv := false, kindling := false, ember := true, alight := true
    lenLo := 1, lenHi := 1, reply := 25 }

/-- 0x0603 LOOP_CLOSE (spec/13 R384). -/
def infoLoopClose : CmdInfo :=
  { op := 0x0603, target := .hearth, sources := .all, leader := .no, priv := true, kindling := false, ember := true, alight := true
    lenLo := 1, lenHi := 1, reply := 0 }

/-- 0x0604 LOOP_OPEN (spec/13 R384). -/
def infoLoopOpen : CmdInfo :=
  { op := 0x0604, target := .hearth, sources := .all, leader := .no, priv := true, kindling := false, ember := true, alight := true
    lenLo := 1, lenHi := 1, reply := 0 }

/-- 0x0605 LOOP_MODE (spec/13 R384). -/
def infoLoopMode : CmdInfo :=
  { op := 0x0605, target := .hearth, sources := .all, leader := .eligible, priv := true, kindling := false, ember := true, alight := true
    lenLo := 2, lenHi := 2, reply := 0 }

/-- 0x0606 LOOP_SETPOINT (spec/13 R384). -/
def infoLoopSetpoint : CmdInfo :=
  { op := 0x0606, target := .hearth, sources := .all, leader := .eligible, priv := true, kindling := false, ember := true, alight := true
    lenLo := 1, lenHi := 1, reply := 0 }

/-- 0x0607 LOOP_TUNE (spec/13 R384). -/
def infoLoopTune : CmdInfo :=
  { op := 0x0607, target := .hearth, sources := .all, leader := .eligible, priv := true, kindling := false, ember := true, alight := true
    lenLo := 1, lenHi := 1, reply := 4 }

/-- 0x0608 LOOP_TABLE (spec/13 R384). -/
def infoLoopTable : CmdInfo :=
  { op := 0x0608, target := .hearth, sources := .all, leader := .eligible, priv := true, kindling := false, ember := true, alight := true
    lenLo := 3, lenHi := 17, reply := 0 }

/-- 0x0609 SETPT_CONFIG (spec/13 R384). -/
def infoSetptConfig : CmdInfo :=
  { op := 0x0609, target := .package, sources := .all, leader := .no, priv := true, kindling := false, ember := true, alight := true
    lenLo := 4, lenHi := 4, reply := 0 }

/-- 0x0701 RADIO_CONFIG (spec/13 R385). -/
def infoRadioConfig : CmdInfo :=
  { op := 0x0701, target := .hearths, sources := .all, leader := .no, priv := true, kindling := false, ember := true, alight := true
    lenLo := 3, lenHi := 3, reply := 0 }

/-- 0x0702 PWR_TABLE_WRITE (spec/13 R385). -/
def infoPwrTableWrite : CmdInfo :=
  { op := 0x0702, target := .hearths, sources := .all, leader := .no, priv := true, kindling := false, ember := true, alight := true
    lenLo := 3, lenHi := 513, reply := 0 }

/-- 0x0703 PWR_PORT_CONFIG (spec/13 R385). -/
def infoPwrPortConfig : CmdInfo :=
  { op := 0x0703, target := .hearths, sources := .all, leader := .no, priv := true, kindling := false, ember := true, alight := true
    lenLo := 7, lenHi := 7, reply := 0 }

/-- 0x0704 FES_CONFIG (spec/13 R385). -/
def infoFesConfig : CmdInfo :=
  { op := 0x0704, target := .hearths, sources := .all, leader := .no, priv := true, kindling := false, ember := true, alight := true
    lenLo := 3, lenHi := 3, reply := 0 }

/-- 0x0705 FES_GPIO_CONFIG (spec/13 R385). -/
def infoFesGpioConfig : CmdInfo :=
  { op := 0x0705, target := .hearths, sources := .all, leader := .no, priv := true, kindling := false, ember := true, alight := true
    lenLo := 2, lenHi := 2, reply := 0 }

/-- 0x0706 FES_SEQ_WRITE (spec/13 R385). -/
def infoFesSeqWrite : CmdInfo :=
  { op := 0x0706, target := .hearths, sources := .all, leader := .no, priv := true, kindling := false, ember := true, alight := true
    lenLo := 4, lenHi := 2050, reply := 0 }

/-- 0x0707 FES_BUS_ACCESS (spec/13 R385). -/
def infoFesBusAccess : CmdInfo :=
  { op := 0x0707, target := .hearth, sources := .all, leader := .no, priv := true, kindling := false, ember := true, alight := true
    lenLo := 2, lenHi := 2, reply := 1 }

/-- 0x0801 LCAL_CONFIG (spec/13 R385). -/
def infoLcalConfig : CmdInfo :=
  { op := 0x0801, target := .hearths, sources := .all, leader := .no, priv := true, kindling := false, ember := true, alight := true
    lenLo := 2, lenHi := 2, reply := 0 }

/-- 0x0802 LCAL_RUN (spec/13 R385). -/
def infoLcalRun : CmdInfo :=
  { op := 0x0802, target := .hearth, sources := .all, leader := .no, priv := true, kindling := false, ember := true, alight := true
    lenLo := 1, lenHi := 1, reply := 4 }

/-- 0x0803 LCAL_QUERY (spec/13 R385). -/
def infoLcalQuery : CmdInfo :=
  { op := 0x0803, target := .hearth, sources := .all, leader := .no, priv := false, kindling := false, ember := true, alight := true
    lenLo := 1, lenHi := 1, reply := 8 }

/-- 0x0804 LCAL_HOLD (spec/13 R385). -/
def infoLcalHold : CmdInfo :=
  { op := 0x0804, target := .hearths, sources := .all, leader := .no, priv := true, kindling := false, ember := true, alight := true
    lenLo := 1, lenHi := 1, reply := 0 }

/-- 0x0901 AIR_CONFIG (spec/13 R386). -/
def infoAirConfig : CmdInfo :=
  { op := 0x0901, target := .hearths, sources := .all, leader := .no, priv := true, kindling := false, ember := true, alight := true
    lenLo := 2, lenHi := 2, reply := 0 }

/-- 0x0902 AIR_SCAN_RANGE (spec/13 R386). -/
def infoAirScanRange : CmdInfo :=
  { op := 0x0902, target := .hearths, sources := .all, leader := .no, priv := true, kindling := false, ember := true, alight := true
    lenLo := 4, lenHi := 4, reply := 0 }

/-- 0x0903 AIR_SECTION_CONFIG (spec/13 R386). -/
def infoAirSectionConfig : CmdInfo :=
  { op := 0x0903, target := .sect, sources := .all, leader := .eligible, priv := true, kindling := false, ember := true, alight := true
    lenLo := 2, lenHi := 2, reply := 0 }

/-- 0x0904 AIR_CELL_READ (spec/13 R386). -/
def infoAirCellRead : CmdInfo :=
  { op := 0x0904, target := .hearth, sources := .all, leader := .eligible, priv := false, kindling := false, ember := true, alight := true
    lenLo := 1, lenHi := 1, reply := 513 }

/-- 0x0905 AIR_STRANGER_READ (spec/13 R386). -/
def infoAirStrangerRead : CmdInfo :=
  { op := 0x0905, target := .hearth, sources := .all, leader := .no, priv := false, kindling := false, ember := true, alight := true
    lenLo := 1, lenHi := 1, reply := 256 }

/-- 0x0A01 FLUE_PORT_CONFIG (spec/13 R387). -/
def infoFluePortConfig : CmdInfo :=
  { op := 0x0A01, target := .hearth, sources := .all, leader := .no, priv := true, kindling := false, ember := true, alight := true
    lenLo := 4, lenHi := 4, reply := 0 }

/-- 0x0A02 GROUP_CONFIG (spec/13 R387). -/
def infoGroupConfig : CmdInfo :=
  { op := 0x0A02, target := .package, sources := .all, leader := .no, priv := true, kindling := false, ember := true, alight := false
    lenLo := 8, lenHi := 8, reply := 0 }

/-- 0x0A03 GROUP_QUERY (spec/13 R387). -/
def infoGroupQuery : CmdInfo :=
  { op := 0x0A03, target := .package, sources := .all, leader := .no, priv := false, kindling := false, ember := true, alight := true
    lenLo := 0, lenHi := 0, reply := 24 }

/-- 0x0A04 PTP_CONFIG (spec/13 R387). -/
def infoPtpConfig : CmdInfo :=
  { op := 0x0A04, target := .package, sources := .all, leader := .no, priv := true, kindling := false, ember := true, alight := true
    lenLo := 6, lenHi := 6, reply := 0 }

/-- 0x0A05 SPLIT_CONFIG (spec/13 R387). -/
def infoSplitConfig : CmdInfo :=
  { op := 0x0A05, target := .sect, sources := .all, leader := .eligible, priv := true, kindling := false, ember := true, alight := true
    lenLo := 6, lenHi := 6, reply := 0 }

/-- 0x0A06 PROBE_SCHEDULE (spec/13 R387). -/
def infoProbeSchedule : CmdInfo :=
  { op := 0x0A06, target := .package, sources := .all, leader := .eligible, priv := true, kindling := false, ember := true, alight := true
    lenLo := 4, lenHi := 4, reply := 0 }

/-- 0x0A07 PROBE_READ (spec/13 R387). -/
def infoProbeRead : CmdInfo :=
  { op := 0x0A07, target := .package, sources := .all, leader := .no, priv := false, kindling := false, ember := true, alight := true
    lenLo := 1, lenHi := 1, reply := 33 }

/-- 0x0B01 STREAM_CONFIG (spec/13 R388). -/
def infoStreamConfig : CmdInfo :=
  { op := 0x0B01, target := .sect, sources := .all, leader := .no, priv := true, kindling := false, ember := true, alight := true
    lenLo := 8, lenHi := 8, reply := 0 }

/-- 0x0B02 STREAM_CONTROL (spec/13 R388). -/
def infoStreamControl : CmdInfo :=
  { op := 0x0B02, target := .sect, sources := .all, leader := .no, priv := true, kindling := false, ember := true, alight := true
    lenLo := 1, lenHi := 1, reply := 0 }

/-- 0x0B03 CAPTURE_CONFIG (spec/13 R388). -/
def infoCaptureConfig : CmdInfo :=
  { op := 0x0B03, target := .hearth, sources := .all, leader := .no, priv := true, kindling := false, ember := true, alight := true
    lenLo := 8, lenHi := 8, reply := 0 }

/-- 0x0B04 CAPTURE_ARM (spec/13 R388). -/
def infoCaptureArm : CmdInfo :=
  { op := 0x0B04, target := .hearth, sources := .all, leader := .no, priv := true, kindling := false, ember := true, alight := true
    lenLo := 2, lenHi := 2, reply := 4 }

/-- 0x0B05 CAPTURE_QUERY (spec/13 R388). -/
def infoCaptureQuery : CmdInfo :=
  { op := 0x0B05, target := .hearth, sources := .all, leader := .no, priv := false, kindling := false, ember := true, alight := true
    lenLo := 0, lenHi := 0, reply := 8 }

/-- 0x0C01 THERMAL_CONFIG (spec/13 R389). -/
def infoThermalConfig : CmdInfo :=
  { op := 0x0C01, target := .hearths, sources := .all, leader := .no, priv := true, kindling := false, ember := true, alight := true
    lenLo := 4, lenHi := 4, reply := 0 }

/-- 0x0C02 THERMAL_RESUME (spec/13 R389). -/
def infoThermalResume : CmdInfo :=
  { op := 0x0C02, target := .package, sources := .all, leader := .no, priv := true, kindling := false, ember := true, alight := true
    lenLo := 0, lenHi := 0, reply := 0 }

/-- 0x0C03 THERMAL_QUERY (spec/13 R389). -/
def infoThermalQuery : CmdInfo :=
  { op := 0x0C03, target := .hearth, sources := .all, leader := .eligible, priv := false, kindling := true, ember := true, alight := true
    lenLo := 0, lenHi := 0, reply := 20 }

/-- 0x0C04 FCOL_SOURCE_CONFIG (spec/13 R389). -/
def infoFcolSourceConfig : CmdInfo :=
  { op := 0x0C04, target := .hearths, sources := .all, leader := .no, priv := true, kindling := false, ember := true, alight := true
    lenLo := 2, lenHi := 2, reply := 0 }

/-- 0x0C05 FCOL_INJECT (spec/13 R389). -/
def infoFcolInject : CmdInfo :=
  { op := 0x0C05, target := .hearth, sources := .all, leader := .no, priv := true, kindling := false, ember := true, alight := true
    lenLo := 1, lenHi := 1, reply := 0 }

/-- 0x0C06 FCOL_QUERY (spec/13 R389). -/
def infoFcolQuery : CmdInfo :=
  { op := 0x0C06, target := .hearth, sources := .all, leader := .eligible, priv := false, kindling := true, ember := true, alight := true
    lenLo := 0, lenHi := 0, reply := 24 }

/-- 0x0C07 ALOG_READ (spec/13 R389). -/
def infoAlogRead : CmdInfo :=
  { op := 0x0C07, target := .package, sources := .all, leader := .no, priv := false, kindling := true, ember := true, alight := true
    lenLo := 1, lenHi := 1, reply := 1025 }

/-- 0x0C08 ALOG_RATE_CONFIG (spec/13 R389). -/
def infoAlogRateConfig : CmdInfo :=
  { op := 0x0C08, target := .package, sources := .all, leader := .no, priv := true, kindling := true, ember := true, alight := true
    lenLo := 2, lenHi := 2, reply := 0 }

/-- 0x0C09 EMBERS_READ (spec/13 R389). -/
def infoEmbersRead : CmdInfo :=
  { op := 0x0C09, target := .package, sources := .all, leader := .no, priv := false, kindling := true, ember := true, alight := true
    lenLo := 1, lenHi := 1, reply := 1025 }

/-- 0x0C0A ALOG_MARK (spec/13 R389). -/
def infoAlogMark : CmdInfo :=
  { op := 0x0C0A, target := .package, sources := .all, leader := .no, priv := false, kindling := false, ember := true, alight := true
    lenLo := 1, lenHi := 5, reply := 0 }

/-- 0x0D01 FIREBRICK_WRITE (spec/13 R390). -/
def infoFirebrickWrite : CmdInfo :=
  { op := 0x0D01, target := .package, sources := .all, leader := .no, priv := true, kindling := true, ember := true, alight := true
    lenLo := 30, lenHi := 30, reply := 0 }

/-- 0x0D02 FIREBRICK_REVOKE (spec/13 R390). -/
def infoFirebrickRevoke : CmdInfo :=
  { op := 0x0D02, target := .package, sources := .all, leader := .no, priv := true, kindling := true, ember := true, alight := true
    lenLo := 25, lenHi := 25, reply := 0 }

/-- 0x0D03 FIREBRICK_READ (spec/13 R390). -/
def infoFirebrickRead : CmdInfo :=
  { op := 0x0D03, target := .package, sources := .all, leader := .no, priv := false, kindling := true, ember := true, alight := true
    lenLo := 0, lenHi := 0, reply := 448 }

/-- 0x0D04 CALSET_QUERY (spec/13 R390). -/
def infoCalsetQuery : CmdInfo :=
  { op := 0x0D04, target := .package, sources := .all, leader := .no, priv := false, kindling := true, ember := true, alight := true
    lenLo := 0, lenHi := 0, reply := 2061 }

/-- 0x0D05 CALSET_EXPORT (spec/13 R390). -/
def infoCalsetExport : CmdInfo :=
  { op := 0x0D05, target := .package, sources := .all, leader := .no, priv := false, kindling := true, ember := true, alight := true
    lenLo := 1, lenHi := 1, reply := 518 }

/-- 0x0D06 CALSET_IMPORT (spec/13 R390). -/
def infoCalsetImport : CmdInfo :=
  { op := 0x0D06, target := .package, sources := .all, leader := .no, priv := true, kindling := true, ember := true, alight := true
    lenLo := 7, lenHi := 515, reply := 0 }

/-- 0x0D07 CALSET_STORE (spec/13 R390). -/
def infoCalsetStore : CmdInfo :=
  { op := 0x0D07, target := .package, sources := .all, leader := .no, priv := true, kindling := true, ember := true, alight := true
    lenLo := 1, lenHi := 1, reply := 0 }

/-- 0x0D08 ATTEST (spec/13 R390). -/
def infoAttest : CmdInfo :=
  { op := 0x0D08, target := .package, sources := .all, leader := .eligible, priv := false, kindling := true, ember := true, alight := true
    lenLo := 8, lenHi := 8, reply := 96 }

/-- 0x0D09 CERT_READ (spec/13 R390). -/
def infoCertRead : CmdInfo :=
  { op := 0x0D09, target := .package, sources := .all, leader := .no, priv := false, kindling := true, ember := true, alight := true
    lenLo := 1, lenHi := 1, reply := 512 }

/-- 0x0D0A IMAGE_WRITE (spec/13 R390). -/
def infoImageWrite : CmdInfo :=
  { op := 0x0D0A, target := .package, sources := .queuesService, leader := .no, priv := true, kindling := true, ember := true, alight := true
    lenLo := 2, lenHi := 4095, reply := 0 }

/-- 0x0D0B IMAGE_ACTIVATE (spec/13 R390). -/
def infoImageActivate : CmdInfo :=
  { op := 0x0D0B, target := .package, sources := .queuesService, leader := .no, priv := true, kindling := true, ember := true, alight := true
    lenLo := 1, lenHi := 1, reply := 0 }

/-- 0x0D0C OEM_KEY_WRITE (spec/13 R390). -/
def infoOemKeyWrite : CmdInfo :=
  { op := 0x0D0C, target := .package, sources := .queues, leader := .no, priv := true, kindling := true, ember := true, alight := false
    lenLo := 50, lenHi := 50, reply := 0 }

/-- 0x0E01 TDD_PATTERN_WRITE (spec/13 R391). -/
def infoTddPatternWrite : CmdInfo :=
  { op := 0x0E01, target := .hearths, sources := .all, leader := .eligible, priv := true, kindling := false, ember := true, alight := true
    lenLo := 1, lenHi := 65, reply := 0 }

/-- 0x0E02 TDD_PATTERN_SELECT (spec/13 R391). -/
def infoTddPatternSelect : CmdInfo :=
  { op := 0x0E02, target := .hearths, sources := .all, leader := .eligible, priv := true, kindling := false, ember := true, alight := true
    lenLo := 1, lenHi := 1, reply := 0 }

/-- 0x0E03 FRAME_SOURCE (spec/13 R391). -/
def infoFrameSource : CmdInfo :=
  { op := 0x0E03, target := .package, sources := .all, leader := .no, priv := true, kindling := false, ember := true, alight := true
    lenLo := 4, lenHi := 4, reply := 0 }

/-- 0x0E04 TIME_SET (spec/13 R391). -/
def infoTimeSet : CmdInfo :=
  { op := 0x0E04, target := .package, sources := .all, leader := .no, priv := true, kindling := false, ember := true, alight := true
    lenLo := 3, lenHi := 3, reply := 0 }

/-- 0x0E05 TIME_SCHEDULE (spec/13 R391). -/
def infoTimeSchedule : CmdInfo :=
  { op := 0x0E05, target := .package, sources := .all, leader := .eligible, priv := true, kindling := false, ember := true, alight := true
    lenLo := 3, lenHi := 3, reply := 1 }

/-- 0x0E06 TIME_SCHEDULE_CANCEL (spec/13 R391). -/
def infoTimeScheduleCancel : CmdInfo :=
  { op := 0x0E06, target := .package, sources := .all, leader := .eligible, priv := true, kindling := false, ember := true, alight := true
    lenLo := 1, lenHi := 1, reply := 0 }

/-- The command index (spec/13 R376). -/
def commandIndex : List CmdInfo :=
  [infoPad, infoIdentify, infoNop, infoHostUnlock, infoQueueCreate, infoQueueDelete, infoCounterSnapshot, infoWideRead, infoPackageHold, infoUnlockChallenge, infoSysReset, infoScriptControl, infoPackageStatus, infoSectionDefine, infoSectionDelete, infoSectionQuery, infoSectionStart, infoSectionStop, infoGrateSync, infoBdcPathConfig, infoBdcPathQuery, infoBdcPathMode, infoBdcTapReset, infoBdcSnapshot, infoBdcRestore] ++
  [infoDmpConfig, infoDmpQuery, infoDmpStrangerClear, infoDmpGroupCeil, infoSpaConfig, infoSpaQuery, infoSpaHistoryClear, infoLoopConfig, infoLoopQuery, infoLoopClose, infoLoopOpen, infoLoopMode, infoLoopSetpoint, infoLoopTune, infoLoopTable, infoSetptConfig, infoRadioConfig, infoPwrTableWrite, infoPwrPortConfig, infoFesConfig, infoFesGpioConfig, infoFesSeqWrite, infoFesBusAccess, infoLcalConfig, infoLcalRun] ++
  [infoLcalQuery, infoLcalHold, infoAirConfig, infoAirScanRange, infoAirSectionConfig, infoAirCellRead, infoAirStrangerRead, infoFluePortConfig, infoGroupConfig, infoGroupQuery, infoPtpConfig, infoSplitConfig, infoProbeSchedule, infoProbeRead, infoStreamConfig, infoStreamControl, infoCaptureConfig, infoCaptureArm, infoCaptureQuery, infoThermalConfig, infoThermalResume, infoThermalQuery, infoFcolSourceConfig, infoFcolInject, infoFcolQuery] ++
  [infoAlogRead, infoAlogRateConfig, infoEmbersRead, infoAlogMark, infoFirebrickWrite, infoFirebrickRevoke, infoFirebrickRead, infoCalsetQuery, infoCalsetExport, infoCalsetImport, infoCalsetStore, infoAttest, infoCertRead, infoImageWrite, infoImageActivate, infoOemKeyWrite, infoTddPatternWrite, infoTddPatternSelect, infoFrameSource, infoTimeSet, infoTimeSchedule, infoTimeScheduleCancel]

/-- The row of an opcode (spec/13 R376). -/
def infoOf (op : Nat) : Option CmdInfo := commandIndex.find? (fun c => c.op == op)

end Sys2Proof.Machine
end

