-- ==== Sys2Proof/Machine/Queues.lean ====
section
/-! DEFINITION. Machine/Queues.lean: the queue pairs of PF0: doorbells, errors, creation and deletion
(spec/12 R359 to R373, spec/13 R400, R401). -/

namespace Sys2Proof.Machine

/-- What a step answers. -/
abbrev Out := Host.Outcome State Fault Refusal

/-- Ends an armed or running capture: the engine is idle (spec/14 R431). -/
def stopCapture (h : Nat) (s : State) : State :=
  modHearth h (fun x => { x with cap := { x.cap with state := 0, trigDue := none, deadline := none, buf := [] } }) s

/-- Loop slot `n` of hearth `h`. -/
def loopAt (s : State) (h n : Nat) : Loop := (hearthAt s h).loops.getD n {}

/-- Changes a loop slot. -/
def modLoop (h n : Nat) (f : Loop → Loop) (s : State) : State :=
  modHearth h (fun x => { x with loops := x.loops.modify n f }) s

/-- Changes a slot's loop state and writes its event (spec/07 R229). -/
def setLoop (h n st : Nat) (s : State) : State :=
  let old := (loopAt s h n).state
  if old = st then s else emit h 0x0610 [n, old, st] (modLoop h n (fun l => { l with state := st }) s)

/-- A relay test ends with a TUNE_STATUS code: the slot returns to OPEN at u0, with its events (spec/07 R206, R215, R229). -/
def dropTune (h n code : Nat) (s : State) : State :=
  let t := modLoop h n (fun l => { l with tune := none, tuneStatus := code, u := l.openOut, z := l.openOut * 65536 }) s
  let x := loopAt t h n
  emit h 0x0613 ([n, code] ++ bytesOf 2 x.kuM ++ [patternOf 8 x.kuE] ++ bytesOf 2 x.tu ++ bytesOf 2 x.amp) (setLoop h n 0 t)

/-! ### Measurement channels -/

/-- Changes the measurement channels of a hearth (spec/03 R83). -/
def modChannels (h : Nat) (f : List MeasCh → List MeasCh) (s : State) : State :=
  modHearth h (fun x => { x with grt := { x.grt with meas := f x.grt.meas } }) s

/-- Measurement channels of a hearth whose owner passes a test (spec/03 R83). -/
def channelsOf (s : State) (h : Nat) (test : Nat → Bool) : Nat := ((hearthAt s h).grt.meas.filter fun x => x.owner != 0 && test x.owner).length

/-- `n` free measurement channels go to an owner as given (spec/03 R83). -/
def giveChannels (ch : MeasCh) : Nat → List MeasCh → List MeasCh
  | 0, xs => xs
  | _, [] => []
  | n + 1, x :: rest => if x.owner = 0 then ch :: giveChannels ch n rest else x :: giveChannels ch (n + 1) rest

/-- The channels of an owner beyond the first `n` are free again (spec/03 R83). -/
def dropChannels (owner : Nat) : Nat → List MeasCh → List MeasCh
  | _, [] => []
  | n, x :: rest =>
    if x.owner = owner then (if n = 0 then {} :: dropChannels owner 0 rest else x :: dropChannels owner (n - 1) rest)
    else x :: dropChannels owner n rest

/-! ### What a held command leaves -/

/-- LCAL state of a chain (spec/09 R277). -/
def lcalAt (s : State) (h n : Nat) : LcalCh := (hearthAt s h).lcal.ch.getD n {}

/-- Changes the LCAL state of a chain. -/
def modLcal (h n : Nat) (f : LcalCh → LcalCh) (s : State) : State :=
  modHearth h (fun x => { x with lcal := { x.lcal with ch := x.lcal.ch.modify n f } }) s

/-- Key of an LCAL_RUN. -/
def runKey (h n item : Nat) : Nat := h * 256 + n * 16 + item

/-- Items of a chain for which a held LCAL_RUN waits on a staged change, and no longer on an estimate (spec/09 R292). -/
def runsStaged (c : LcalCh) : Nat := (c.delta.map (·.runs)).getD 0 ||| (c.rest.map (·.runs)).getD 0

/-- Ends an estimate; it releases its measurement channel (spec/09 R280). -/
def endEst (h n item : Nat) (s : State) : State :=
  match kget (lcalAt s h n).est item with
  | none => s
  | some e =>
    let t := modLcal h n (fun c => { c with est := kerase c.est item }) s
    if e.chan then modChannels h (dropChannels (n - 6) 0) t else t

/-- A pending delta is discarded with what was to follow it: the count, the event, and ABORTED to the LCAL_RUN commands that wait on it;
their items' estimates are due again (spec/09 R288, R292, R298). -/
def withdrawDelta (h n : Nat) (s : State) : State :=
  match (lcalAt s h n).delta with
  | none => s
  | some d =>
    let items := d.items ||| (((lcalAt s h n).rest.map (·.items)).getD 0)
    let t := modLcal h n (fun y => { y with
      delta := none, rest := none, discards := incSat 8 y.discards, last := y.last.filter fun e => !maskHas items e.1 }) s
    let t := emit h 0x0812 ([n] ++ bytesOf 2 d.items ++ bytesOf 2 (s.tbu.tick - d.tick : Nat)) t
    each (maskBits 9 (runsStaged (lcalAt s h n))) (fun item => endHeldFor 0x0802 (runKey h n item) .aborted []) t

/-- The work of an LCAL_RUN that ends as on ABORTED: its estimate is abandoned, or the delta that holds its change is withdrawn
(spec/09 R288, R292, R294; spec/12 R368; log entry 140, DEDUCED). -/
def dropRun (key : Nat) (s : State) : State :=
  let h := key / 256
  let n := key % 256 / 16
  if maskHas (runsStaged (lcalAt s h n)) (key % 16) then withdrawDelta h n s else endEst h n (key % 16) s

/-- What ending a held command as on ABORTED leaves of its work, reply apart (spec/12 R368). A write of a Firebrick row
or a calibration item that has started programming completes, a bank selection still applies (spec/02 R64), and a reset hold stays (spec/13 R403). -/
def abortEffect (c : Held) (s : State) : State :=
  if c.op = 0x0B04 then stopCapture c.key s
  else if c.op = 0x0607 then dropTune (c.key / 64) (c.key % 64) 4 s
  else if c.op = 0x0802 then dropRun c.key s
  else if c.op = 0x0707 then
    -- the running operation goes on without its command (spec/08 R268)
    if (heldFor s 0x0707 c.key).head? = some c then
      modHearth c.key (fun x => { x with fes := { x.fes with busHeld := false } }) s else s
  else s

/-- Ends every held command of a queue without a reply; replies that are not written yet are lost (spec/12 R365, R368). -/
def dropQueueHeld (q : Nat) (s : State) : State :=
  modCpx (fun c => { c with due := c.due.filter fun d => d.cmd.src != q })
    (each (s.cpx.held.filter fun c => c.src == q) (fun c t => dropHeld c (abortEffect c t)) s)

/-- A queue enters ERROR (spec/12 R365, R375): it stops capturing and its held commands end. -/
def queueError (q err value : Nat) (s : State) : State :=
  let x := queueAt s q
  if x.state = 1 then
    let t := modQueue q (fun y => { y with state := 2, err := err, extWait := none, extTail := none }) s
    let u := emit 0 0x0121 ([q, err] ++ bytesOf 2 x.sqHead ++ bytesOf 2 value) t
    dropQueueHeld q u
  else s

/-- A doorbell write of SQ_TAIL: submits packets, or puts the queue in ERROR. One that completes no later than the 1 ms timer of a packet
that waits for slots ends the wait; a later one leaves the expired timer to act on SQ_TAIL as it stood (spec/02 R45; spec/12 R361, R365,
R370). -/
def execSqTailWrite (q : Nat) (x : TailWrite) (s : State) : Out :=
  .next <|
    let y := queueAt s q
    let v := x.tail % 2 ^ 16
    if 64 ≤ q ∨ y.state ≠ 1 then s
    else if y.sqM1 < v then queueError q 1 v s
    else if y.extWait.any fun c => decide (c + 983040 < x.clk) then
      modQueue q (fun z => { z with sqTail := v, extTail := some (z.extTail.getD z.sqTail) }) s
    else modQueue q (fun z => { z with sqTail := v, extWait := none }) s

/-- A doorbell write of CQ_HEAD: frees completion slots, or puts the queue in ERROR (spec/12 R361, R365). -/
def execCqHeadWrite (q head : Nat) (s : State) : Out :=
  .next <|
    let x := queueAt s q
    let v := head % 2 ^ 16
    if 64 ≤ q ∨ x.state ≠ 1 then s
    else if x.cqM1 < v ∨ cqUsed x < (v + (x.cqM1 + 1) - x.cqHead) % (x.cqM1 + 1) then queueError q 2 v s
    else modQueue q (fun y => { y with cqHead := v }) s

/-- Whether the 1 ms timer of a packet that waits for slots expires at a clock of the running tick or has expired before
it (spec/02 R45, spec/12 R370). -/
def extExpired (x : Queue) (s : State) : Bool :=
  x.extWait.any fun c => decide (c + 983040 < s.tbu.clock + s.tbu.tickLen)

/-- A packet that waits for more slots gets no doorbell within 1 ms, 983,040 DSP clocks on a cycle-level timer from the
capture attempt: it is answered BAD_LENGTH and the SQ head moves to SQ_TAIL. Nothing happens before the tick in which the
timer expires (spec/02 R45, spec/12 R370). `p` is the header that stands at the SQ head. -/
def execSqExtensionTimeout (q : Nat) (p : Packet) (s : State) : Out :=
  .next <|
    let x := queueAt s q
    if 64 ≤ q ∨ x.state ≠ 1 ∨ !extExpired x s ∨ queuesSleep s = true then s
    else if cqUsed x + x.reserved + 1 ≤ x.cqM1 then
      let f (y : Queue) : Queue := { y with sqHead := y.extTail.getD y.sqTail, sqSeen := y.extTail.getD y.sqTail, extWait := none, extTail := none }
      refuseLength infoPad { p with src := q } (takeSlots q 1 f s)
    else s

/-- The command of an opcode that the index does not list: no source may send it (spec/12 R369; spec/13 R376). -/
def unlisted (op : Nat) : CmdInfo := { infoPad with op := op, sources := .nobody }

/-- PAD: from a queue the device goes on at slot 0, without a reply; from any other source BAD_OPCODE, as a packet with an opcode that
the index does not list from every source (spec/12 R360, R369; spec/13 R376, R380). -/
def execPad (p : Packet) (s : State) : Out :=
  .next <|
    match p.code with
    | some op => if (infoOf op).isSome then s else runCommand (unlisted op) (fun _ t => .reply .badOpcode [] t) p s
    | none =>
      if p.src < 64 then
        let x := queueAt s p.src
        if x.state ≠ 1 ∨ sqUsed x = 0 ∨ queuesSleep s = true then s
        else modQueue p.src (fun y => { y with sqHead := 0, extWait := none, extTail := none }) s
      else runCommand infoPad (fun _ t => .reply .badOpcode [] t) p s

/-- Whether two byte ranges overlap. -/
def rangesOverlap (a n b m : Nat) : Bool := decide (a < b + m) && decide (b < a + n)

/-- QUEUE_CREATE: the payload is one that R400 accepts. -/
def queueCreateOk (ws : List Word) : Bool :=
  let w0 := wordAt ws 0
  let w5 := wordAt ws 5
  let sq := pairAt ws 1
  let cq := pairAt ws 3
  let sm := fld w5 0 16
  let cm := fld w5 16 16
  fld w0 0 6 != 0 && zeroAt w0 6 2 && zeroAt w0 9 7 && zeroAt w0 27 5 && zeroAt (wordAt ws 1) 0 12 && zeroAt (wordAt ws 3) 0 12
    && sm != 0 && cm != 0 && !rangesOverlap sq ((sm + 1) * 64) cq ((cm + 1) * 64)

/-- The queue that QUEUE_CREATE sets up: ACTIVE with zeroed pointers and phase 1 (spec/12 R359, spec/13 R400). -/
def createdQueue (ws : List Word) : Queue :=
  let w0 := wordAt ws 0
  let w5 := wordAt ws 5
  { sqAddr := pairAt ws 1, cqAddr := pairAt ws 3, sqM1 := fld w5 0 16, cqM1 := fld w5 16 16
    ien := bitOf w0 8, vector := fld w0 16 11, state := 1 }

/-- Handling of QUEUE_CREATE (spec/13 R400, R406). -/
def queueCreate (p : Packet) (s : State) : Done :=
  let q := fld (wordAt p.payload 0) 0 6
  check (queueCreateOk p.payload) .badParam s <|
  check ((queueAt s q).state == 0) .busy s <|
  .reply .ok [] (emit 0 0x0123 [q, 1, p.src] (modQueue q (fun _ => createdQueue p.payload) s))

/-- QUEUE_CREATE (spec/13 R400). -/
def execQueueCreate (p : Packet) (s : State) : Out := .next (runCommand infoQueueCreate queueCreate p s)

/-- A queue is deleted: its held commands end without a reply and its register group returns to reset (spec/13 R401). -/
def deleteQueue (q src : Nat) (s : State) : State :=
  emit 0 0x0123 [q, 0, src] (modQueue q (fun _ => {}) (dropQueueHeld q s))

/-- Handling of QUEUE_DELETE: the queue stops, and the command replies, at the boundary after capture (spec/13 R401). -/
def queueDelete (p : Packet) (s : State) : Done :=
  let w := wordAt p.payload 0
  let q := fld w 0 6
  check (zeroAt w 6 26 && q != 0 && q != p.src) .badParam s <|
  check ((queueAt s q).state != 0) .state s <|
  .hold q none s

/-- The boundary at which a QUEUE_DELETE acts, after the replies of what its queue has handled: the queue is deleted and the command
replies (spec/13 R401). -/
def finishDelete (opens time : Nat) (c : Held) (s : State) : State :=
  let t := deleteQueue c.key c.src s
  if t.cpx.held.contains c then writeReply opens c .ok [] time (modCpx (fun x => { x with held := x.held.erase c }) t) else t

/-- QUEUE_DELETE (spec/13 R401). -/
def execQueueDelete (p : Packet) (s : State) : Out := .next (runCommand infoQueueDelete queueDelete p s)

/-- Queue 0 is enabled, with its pointers at 0; a queue that is ACTIVE or in ERROR stays as it is (spec/12 R359, R365). -/
def queue0On (s : State) : State :=
  if (queueAt s 0).state ≠ 0 then s
  else modQueue 0 (fun y => { y with state := 1, sqHead := 0, sqTail := 0, sqSeen := 0, cqHead := 0, cqTail := 0, phase := true, reserved := 0, extWait := none, extTail := none }) s

/-- Queue 0 is disabled and its held commands end (spec/12 R368). -/
def queue0Off (s : State) : State :=
  if (queueAt s 0).state = 0 then s
  else modQueue 0 (fun y => { y with state := 0, reserved := 0, extWait := none, extTail := none }) (dropQueueHeld 0 s)

/-- A write of 1 to CPXQ_CFG.ENABLE of queue 0 takes effect at the boundary that opens the tick after its capture; it is ignored while
SQ_M1 or CQ_M1 is 0 (spec/12 R359, R373; spec/21 R603). -/
def execQueue0Enable (s : State) : Out :=
  .next (if (queueAt s 0).sqM1 = 0 ∨ (queueAt s 0).cqM1 = 0 then s else arrive (.write (.queue true)) s)

/-- A write of 0 to CPXQ_CFG.ENABLE of queue 0 takes effect likewise (spec/12 R368, R373; spec/21 R603). -/
def execQueue0Disable (s : State) : Out := .next (arrive (.write (.queue false)) s)

/-- CPX_CTRL.CNT_CLR: every CPXQ_CNT and CPX_LEADER_DUP (spec/12 R372); in DOUSED the write has no effect (R433, R603). -/
def execCpxCntClr (s : State) : Out :=
  .next <|
    if s.pkg != .doused then
      modCpx (fun c => { c with
        leaderDup := 0
        queues := c.queues.map fun q => { q with packets := 0, errors := 0 } }) s
    else s

end Sys2Proof.Machine
end

