-- ==== Sys2Proof/Machine/SymbolCode.lean ====
section
/-! DEFINITION. Machine/SymbolCode.lean: the symbol code of the external memory: beats and symbols of a line, RS(10,8) over GF(16),
and the decoding of a read, with and without a marked device (spec/16 R499 to R501). -/

namespace Sys2Proof.Machine

/-! ### GF(16) -/

/-- α times an element: the field is generated by x^4 + x + 1 (spec/16 R500). -/
def gfTwice (a : Nat) : Nat := if a < 8 then 2 * a else (2 * a) ^^^ 0x13

/-- α to the power n. -/
def gfAlpha : Nat → Nat
  | 0 => 1
  | n + 1 => gfTwice (gfAlpha n)

/-- a times x^k for each bit k of b, added. -/
def gfMul (a b : Nat) : Nat :=
  let term (k c : Nat) : Nat := if b.testBit k then c else 0
  term 0 a ^^^ term 1 (gfTwice a) ^^^ term 2 (gfTwice (gfTwice a)) ^^^ term 3 (gfTwice (gfTwice (gfTwice a)))

/-- The inverse of an element that is not 0: a^14. -/
def gfInv (a : Nat) : Nat := (List.range 14).foldl (fun b _ => gfMul b a) 1

/-- Sum of field elements. -/
def gfSum (xs : List Nat) : Nat := xs.foldl (· ^^^ ·) 0

/-! ### Beats and lines -/

/-- Power of x that symbol j has in the codeword: the data symbols stand above the check symbols (spec/16 R500). -/
def symbolPower (j : Nat) : Nat := if j < 8 then j + 2 else j - 8

/-- S_n = c(α^n) of a beat's 10 symbols (spec/16 R500). -/
def syndrome (n : Nat) (c : List Nat) : Nat := gfSum ((List.range 10).map fun j => gfMul (c.getD j 0) (gfAlpha (n * symbolPower j)))

/-- Data symbol i of a word: bits 4i+3:4i (spec/16 R499). -/
def dataSymbols (w : Word) : List Nat := (List.range 8).map fun i => fld w (4 * i) 4

/-- A beat of a word: its data symbols, and the check symbols that make α and α² roots (spec/16 R499, R500). -/
def encodeBeat (w : Word) : List Nat :=
  let d := dataSymbols w
  let c9 := gfMul (syndrome 1 d ^^^ syndrome 2 d) (gfInv (gfAlpha 1 ^^^ gfAlpha 2))
  d ++ [syndrome 1 d ^^^ gfMul c9 (gfAlpha 1), c9]

/-- The word of a beat (spec/16 R499). -/
def beatWord (c : List Nat) : Word := wordOf ((List.range 8).map fun i => (4 * i, 4, ((c.getD i 0 : Nat) : Int)))

/-- The word of beat b of a 64-byte line: bytes 4b to 4b + 3, little-endian (spec/16 R499). -/
def lineWord (bytes : List Nat) (b : Nat) : Word := wordOf ((List.range 4).map fun k => (8 * k, 8, ((bytes.getD (4 * b + k) 0 : Nat) : Int)))

/-- The 16 beats of a line (spec/16 R499). -/
def encodeLine (bytes : List Nat) : DramLine := (List.range 16).map fun b => encodeBeat (lineWord bytes b)

/-! ### Decoding -/

/-- What a read makes of a beat: it is clean, a symbol is corrected by e, or it cannot be corrected (spec/16 R500). -/
inductive BeatRead where
  | clean
  | corrected (dev e : Nat)
  | uce
  deriving DecidableEq, Repr

/-- Decoding of a beat without a marked device (spec/16 R500). -/
def decodeBeat (c : List Nat) : BeatRead :=
  let s1 := syndrome 1 c
  let s2 := syndrome 2 c
  if s1 = 0 ∧ s2 = 0 then .clean
  else if s1 = 0 ∨ s2 = 0 then .uce
  else match (List.range 10).find? fun j => gfMul s2 (gfInv s1) == gfAlpha (symbolPower j) with
    | some j => .corrected j (gfMul (gfMul s1 s1) (gfInv s2))
    | none => .uce

/-- Decoding of a beat whose rank has a marked device: its symbol is an erasure (spec/16 R501). -/
def decodeMarked (m : Nat) (c : List Nat) : BeatRead :=
  let e := gfMul (syndrome 1 c) (gfInv (gfAlpha (symbolPower m)))
  if syndrome 2 c ≠ gfMul e (gfAlpha (2 * symbolPower m)) then .uce
  else if e = 0 then .clean
  else .corrected m e

/-- A beat as a read of its rank decodes it (spec/16 R500, R501). -/
def readBeat (mark : Option Nat) (c : List Nat) : BeatRead :=
  match mark with
  | some m => decodeMarked m c
  | none => decodeBeat c

/-- The beat that a read returns; zeros for one that cannot be corrected (spec/16 R500, R504). -/
def fixBeat (mark : Option Nat) (c : List Nat) : List Nat :=
  match readBeat mark c with
  | .clean => c
  | .corrected j e => c.modify j (· ^^^ e)
  | .uce => List.replicate 10 0

/-- A read cannot correct a beat of its line (spec/16 R500). -/
def lineUce (mark : Option Nat) (line : DramLine) : Bool := line.any fun c => readBeat mark c == .uce

/-- Devices that a read of a line corrects, other than the marked one, each once (spec/16 R500, R501; log entry 118, DEDUCED). -/
def lineDevices (mark : Option Nat) (line : DramLine) : List Nat :=
  (List.range 10).filter fun j => mark != some j && line.any fun c => match readBeat mark c with
    | .corrected k _ => k == j
    | _ => false

end Sys2Proof.Machine
end

