-- ==== Sys2Proof/Machine/Memory.lean ====
section
/-! DEFINITION. Machine/Memory.lean: the links of the draught fabric and the external memory controller (spec/16). -/

namespace Sys2Proof.Machine

/-- Changes the memory controller of a hearth. -/
def modXmc (h : Nat) (f : Xmc → Xmc) (s : State) : State := modHearth h (fun x => { x with xmc := f x.xmc }) s

/-- 24 h in control ticks (spec/16 R501). -/
abbrev dayTicks : Nat := 41472000000

/-- Key of a device's counts: subchannel, rank, device (spec/16 R506). -/
def deviceKey (sub rank dev : Nat) : Nat := (sub * 2 + rank) * 10 + dev

/-- Marks a device of a rank, or finds its mark taken (spec/16 R501, R508). -/
def markDevice (h sub rank dev : Nat) (s : State) : State :=
  match (hearthAt s h).xmc.marks.getD (sub * 2 + rank) none with
  | none =>
    let t := modXmc h (fun x => { x with marks := x.marks.modify (sub * 2 + rank) fun _ => some dev }) s
    raiseSource h 34 (emit h 0x0132 [h, sub, dev, 1] t)
  | some d => if d = dev then s else raiseSource h 35 s

/-- A corrected symbol counts a CE against its device; the device that reaches CE_THRESH within 24 h is marked
(spec/16 R500, R501, R506). -/
def countCe (h sub rank dev : Nat) (s : State) : State :=
  let k := deviceKey sub rank dev
  let x := (hearthAt s h).xmc
  let recent := ([s.tbu.tick] ++ kgetD x.devCe24 k []).filter fun t => decide (s.tbu.tick < t + dayTicks)
  let t := modXmc h (fun x => { x with
    devCe := kset x.devCe k (incSat 8 (kgetD x.devCe k 0))
    devCe24 := kset x.devCe24 k (recent.take 65535) }) s
  let u := raiseSource h 32 t
  if recent.length = x.ceThresh then markDevice h sub rank dev u else u

/-- Whether a subchannel and rank exist on a hearth (spec/16 R494, R499). -/
def rankOk (s : State) (h sub rank : Nat) : Bool :=
  present s h && decide (sub < 2) && (rank == 0 || (rank == 1 && (hearthAt s h).xmc.ranks2))

/-- The mark that a read of a rank meets (spec/16 R501). -/
def markOf (s : State) (h sub rank : Nat) : Option Nat := (hearthAt s h).xmc.marks.getD (sub * 2 + rank) none

/-- A read that corrects a line: it counts once in XMC_ERR, and a CE against each device that it corrected (spec/16 R500, R501, R506;
log entry 118, DEDUCED). A read of a clean line, or of one that cannot be corrected, counts nothing here. -/
def correctRead (h sub rank : Nat) (line : DramLine) (s : State) : State :=
  let m := markOf s h sub rank
  if lineUce m line = true ∨ lineDevices m line = [] then s
  else each (lineDevices m line) (countCe h sub rank) (modXmc h (fun x => { x with ce := incSat 16 x.ce }) s)

/-- DRAM_CORRECTED_READ: a read whose symbols the code corrects (spec/16 R500). -/
def execDramCorrectedRead (h sub rank : Nat) (line : DramLine) (s : State) : Out :=
  .next (if rankOk s h sub rank then correctRead h sub rank line s else s)

/-- Lines of installed memory: 32 GiB, or 64 GiB with 2 ranks or 32 Gb devices (spec/16 R494). -/
def memoryLines (x : Xmc) : Nat := if x.ranks2 || x.d32 then 2 ^ 30 else 2 ^ 29

/-- The region of an offset in a hearth's memory, in the order of R496; none past the installed capacity, and only hearth 0 has a group
table and an Ash Log mirror (spec/16 R496). -/
def regionOf (x : Xmc) (h address : Nat) : Option Nat :=
  if address < 0x04000000 then some 0
  else if address < 0x06000000 then some 1
  else if address < 0x0A000000 then some 2
  else if address < 0x0B000000 then some 3
  else if address < 0x0D000000 then (if h = 0 then some 4 else none)
  else if address < 0x0E000000 then (if h = 0 then some 5 else none)
  else if address < 0x10000000 then some 6
  else if address < 64 * memoryLines x then some 7
  else none

/-- A read that cannot be corrected counts, is logged and raises source 33 (spec/16 R504, R506, R508). -/
def noteUce (h region address : Nat) (s : State) : State :=
  raiseSource h 33 (emit h 0x0131 ([h, region] ++ bytesOf 8 address) (modXmc h (fun x => { x with uce := incSat 16 x.uce }) s))

/-- The patrol scrub reads a line and writes back any correction, unless a write came between; a line that cannot be corrected is an
uncorrectable read, of no requester but the scrub (spec/16 R502, R504, R506). -/
def execScrubLine (h sub rank : Nat) (line : DramLine) (_overwritten : Bool) (s : State) : Out :=
  .next <|
    if rankOk s h sub rank then
      let x := (hearthAt s h).xmc
      let t := onlyIf (lineUce (markOf s h sub rank) line) (noteUce h ((regionOf x h (64 * x.scrubAt)).getD 6) (64 * x.scrubAt))
        (correctRead h sub rank line s)
      modXmc h (fun x =>
        let n := x.scrubAt + 1
        if memoryLines x ≤ n then { x with scrubAt := 0, progress := 0, passes := incWrap 16 x.passes }
        else { x with scrubAt := n, progress := 256 * n / memoryLines x }) t
    else s

/-- A firmware or group-table page fails its CRC: the page is reloaded, or the table discarded (spec/16 R503, R508). -/
def execPageCrcMismatch (h region page : Nat) (s : State) : Out :=
  .next <|
    if present s h && (region == 0 || region == 4) then
      let t := raiseSource h 36 (emit h 0x0133 ([h, region] ++ bytesOf 4 page) s)
      if region = 4 then { t with flu := { t.flu with couplings := [] } } else t
    else s

/-- A hearth-link frame is sent again after a CRC failure (spec/16 R493, R505, R507). `again` says that the frame had
failed before. -/
def execLinkFrameRetry (h link : Nat) (again : Bool) (s : State) : Out :=
  .next <|
    if present s h && decide (link < 2) then
      raiseSource h 12 (modHearth h (fun x => { x with dfb := { x.dfb with
        retry := incSat 16 x.dfb.retry
        retryRun := x.dfb.retryRun.modify link fun n => if again then incSat 5 n else 1 } }) s)
    else s

/-- 16 consecutive retries on one link are a FATAL fault (spec/16 R507). -/
def execLinkFail (h link : Nat) (s : State) : Out :=
  .next <|
    if present s h && decide (16 ≤ (hearthAt s h).dfb.retryRun.getD link 0) then raiseSource h 14 s else s

/-- XMC_CTRL.CNT_CLR clears XMC_ERR and every XMC_DEVCE (spec/16 R506); in DOUSED the write has no effect (R433, R603). -/
def execXmcCntClr (h : Nat) (s : State) : Out :=
  .next <| if s.pkg != .doused && present s h then modXmc h (fun x => { x with ce := 0, uce := 0, devCe := [] }) s else s

/-- Clears the marks of a hearth (spec/16 R501, R508). -/
def clearMarks (h : Nat) (s : State) : State :=
  let marks := (hearthAt s h).xmc.marks
  let t := modXmc h (fun x => { x with marks := [none, none, none, none] }) s
  each (List.range 4) (fun k u =>
    match marks.getD k none with
    | some d => emit h 0x0132 [h, k / 2, d, 0] u
    | none => u) t

/-- XMC_CTRL.MARK_CLR by a privileged master clears the marks (spec/16 R501, R506, R508). -/
def execXmcMarkClr (m h : Nat) (s : State) : Out :=
  .next (if masterPriv s m && s.pkg != .doused && present s h then clearMarks h s else s)

end Sys2Proof.Machine
end

