-- ==== Sys2Proof/Machine/System.lean ====
section
/-! DEFINITION. Machine/System.lean: the system commands, host privilege, the Kindling script runner, the wide values
and the SYS block (spec/13 R392 to R406, spec/20 R580, R581, spec/21 R606 to R614). -/

namespace Sys2Proof.Machine

/-! ### Identity and status -/

/-- PART of the identity (spec/13 R392). -/
def partNumber (x : Part) : Nat :=
  match x with
  | .brd110 => 110
  | .brd220 => 220
  | .brd440 => 440
  | .brd880 => 880

/-- Word 0 of IDENTIFY and SYS_ID (spec/13 R392, spec/21 R611). -/
def identWord (s : State) : Word :=
  wordOf [(0, 16, partNumber s.ident.part), (16, 8, 0xA1), (24, 4, hearthCount s), (28, 1, bit s.ident.gradeH),
    (29, 1, bit s.ident.optionP)]

/-- Whether an image has authenticated since Kindling began: Kindling stands at K5 or beyond (spec/13 R392, spec/20 R572). -/
def imageRuns (s : State) : Bool := s.sec.stage == 5 || s.sec.stage == 6

/-- The straps with a WIDE_MODE (spec/13 R392, spec/21 R611). -/
def strapsWith (s : State) (wide : Bool) : Word := wordOf [(0, 2, s.sec.bootSrc), (2, 1, bit s.sec.refsel), (3, 1, bit wide)]

/-- SYS_STRAP, whose WIDE_MODE is set in K1 (spec/21 R611). -/
def strapWord (s : State) : Word := strapsWith s s.sec.wideMode

/-- The 9 words of IDENTIFY; WIDE_MODE reads 0 while no image has authenticated (spec/13 R392). -/
def identifyWords (s : State) : List Word :=
  [identWord s] ++ wordsOf 4 s.ident.uid ++
  [BitVec.ofNat 32 s.sec.fwVersion, wordOf [(0, 16, s.sec.fwSvn), (16, 16, s.ident.romVersion)],
   wordOf [(0, 8, s.sec.protoMinor), (8, 8, s.sec.protoMajor)], strapsWith s (imageRuns s && s.sec.wideMode)]

/-- IDENTIFY (spec/13 R392). -/
def execIdentify (p : Packet) (s : State) : Out :=
  .next (runCommand infoIdentify (fun _ t => .reply .ok (identifyWords t) t) p s)

/-- NOP does nothing and replies OK (spec/13 R394). -/
def execNop (p : Packet) (s : State) : Out := .next (runCommand infoNop (fun _ t => .reply .ok [] t) p s)

/-- SYS_STATE and word 0 of PACKAGE_STATUS (spec/13 R393, spec/21 R611). -/
def stateWord (s : State) : Word :=
  wordOf [(0, 2, pkgCode (pkgState s)), (4, 5, holdBits s.holds), (9, 1, bit (pf0Priv s)), (10, 1, bit (s.cpx.script.state == 1)),
    (16, 7, transmitting s), (23, 9, s.cpx.held.length)]

/-- The section nibbles of hearth `h`: state, and RESUME in bit 3 (spec/13 R393). -/
def sectionNibbles (s : State) (h : Nat) : Word :=
  if present s h then
    wordOf ((List.range 8).map fun i => (4 * i, 4, (secCode (secAt s h i).state + 8 * bitNat (secAt s h i).resume : Nat)))
  else 0

/-- The 12 words of PACKAGE_STATUS, at a device time (spec/13 R393). -/
def statusAt (time : Nat) (s : State) : List Word :=
  [stateWord s] ++ wordsOf 2 time ++ (List.range 8).map (sectionNibbles s) ++
  [wordOf [(0, 10, s.flu.deviceIndex), (10, 2, s.flu.role), (16, 16, (if s.flu.role = 0 then 0 else s.flu.groupId : Nat))]]

/-- The 12 words of PACKAGE_STATUS, at the boundary that opened the running tick (spec/13 R393). -/
def statusWords (s : State) : List Word := statusAt (openTime s) s

/-- PACKAGE_STATUS (spec/13 R393). -/
def execPackageStatus (p : Packet) (s : State) : Out :=
  .next (runCommand infoPackageStatus (fun _ t => .reply .ok (statusWords t) t) p s)

/-! ### Host privilege -/

/-- The UID as 16 bytes, byte 0 first (spec/13 R392). -/
def uidBytes (s : State) : List (BitVec 8) := asBytes (bytesOf 16 s.ident.uid)

/-- The message that HOST_UNLOCK signs (spec/13 R398). -/
def unlockMessage (s : State) (nonce : Nat) : List (BitVec 8) := uidBytes s ++ [3] ++ asBytes (bytesOf 32 nonce)

/-- The length rule of HOST_UNLOCK (spec/13 R398). -/
def unlockLength (p : Packet) (s : State) : Bool :=
  if bitOf (wordAt p.payload 0) 0 || (hostKeyNow s).isNone then p.payload.length == 1 else p.payload.length == 25

/-- The tick from which on an unlock that the running tick captures gives privilege; one that meets privilege changes nothing
(spec/13 R399). -/
def privNext (s : State) : Nat := if pf0Priv s then s.cpx.privFrom else s.tbu.tick + 1

/-- Handling of HOST_UNLOCK (spec/13 R398, R399, spec/20 R590). -/
def hostUnlock (p : Packet) (s : State) : Done :=
  let w := wordAt p.payload 0
  check (zeroAt w 1 31) .badParam s <|
  if bitOf w 0 then
    .reply .ok [] (emit 0 0x0122 [p.src, 1, s.cpx.unlockFails] (modCpx (fun c => { c with unlocked := false, lockedBy := true }) s))
  else if (hostKeyNow s).isNone then
    .reply .ok [] (emit 0 0x0122 [p.src, 0, s.cpx.unlockFails] (modCpx (fun c => { c with lockedBy := false, privFrom := privNext s }) s))
  else if pf0Priv s then .reply .ok [] (emit 0 0x0122 [p.src, 0, s.cpx.unlockFails] s)
  else
    match s.cpx.challenge with
    | none => .reply .state [] s
    | some (nonce, expiry) =>
      if expiry ≤ s.tbu.tick then .reply .state [] s
      else if s.cpx.verifying.isSome then .reply .busy [] s
      else .hold 0 none (modCpx (fun c => { c with challenge := none, verifying := some (nonce, p.payload.drop 1), verifySrc := p.src }) s)

/-- HOST_UNLOCK (spec/13 R399). -/
def execHostUnlock (p : Packet) (s : State) : Out :=
  .next (runCommandWith infoHostUnlock (unlockLength p s) hostUnlock p s)

/-- 60 s in ticks: a challenge's life and the lockout (spec/13 R397, R399). -/
abbrev unlockTicks : Nat := 28800000

/-- The result of a HOST_UNLOCK that still waits for its reply: event 0x0122 and the reply; where its queue has dropped the command neither is
written (spec/12 R368, spec/13 R399, R406). -/
def endUnlock (st : Status) (result : Nat) (s : State) : State :=
  if s.cpx.held.any (fun c => c.op == 0x0103) then
    endHeldFor 0x0103 0 st [] (emit 0 0x0122 [s.cpx.verifySrc, result, s.cpx.unlockFails] s)
  else s

/-- SEC finishes verifying a HOST_UNLOCK signature (spec/13 R399). -/
def execUnlockVerifyDone (s : State) : Out :=
  .next <|
    match s.cpx.verifying with
    | none => s
    | some (nonce, sig) =>
      if Config.ecdsaVerify ((hostKeyNow s).getD 0) (unlockMessage s nonce) sig then
        let t := modCpx (fun c => { c with verifying := none, unlockFails := 0, lockoutEnd := none, unlocked := true, privFrom := privNext s }) s
        endUnlock .ok 0 t
      else
        let n := incSat 8 s.cpx.unlockFails
        let t := modCpx (fun c => { c with
          verifying := none, unlockFails := n
          lockoutEnd := if n = 8 then some (s.tbu.tick + 1 + unlockTicks) else c.lockoutEnd }) s
        endUnlock .authFailed 2 t

/-- Whether the lockout runs (spec/13 R399). -/
def lockedOut (s : State) : Bool := s.cpx.lockoutEnd.any fun e => decide (s.tbu.tick < e)

/-- Handling of UNLOCK_CHALLENGE: the nonce is a free value (spec/13 R397; log entry 6, DESIGN CHOICE). -/
def unlockChallenge (_p : Packet) (s : State) : Done :=
  check (hostKeyNow s).isSome .state s <|
  check (!lockedOut s) .busy s <|
  let (r, t) := takeFree s
  let nonce := r.toNat
  .reply .ok (wordsOf 8 nonce) (modCpx (fun c => { c with challenge := some (nonce, s.tbu.tick + 1 + unlockTicks) }) t)

/-- UNLOCK_CHALLENGE (spec/13 R397). -/
def execUnlockChallenge (p : Packet) (s : State) : Out := .next (runCommand infoUnlockChallenge unlockChallenge p s)

/-- A challenge expires 60 s after its reply (spec/13 R397). -/
def challengeDue (s : State) : State :=
  if s.cpx.challenge.any fun c => decide (c.2 ≤ s.tbu.tick) then modCpx (fun c => { c with challenge := none }) s else s

/-- CHALLENGE_EXPIRY (spec/13 R397). -/
def execChallengeExpiry (s : State) : Out := .next (challengeDue s)

/-- The lockout after eight failed unlocks ends (spec/13 R399). -/
def lockoutDue (s : State) : State :=
  if s.cpx.lockoutEnd.any fun e => decide (e ≤ s.tbu.tick) then modCpx (fun c => { c with lockoutEnd := none }) s else s

/-- UNLOCK_LOCKOUT_END (spec/13 R399). -/
def execUnlockLockoutEnd (s : State) : Out := .next (lockoutDue s)

/-! ### Wide values -/

/-- The device time `d` DSP clocks into the running tick, as the 96-bit wide value; at its end that of the boundary (spec/02 R66;
spec/21 R606). -/
def wideTime (s : State) (d : Nat) : Nat := if d = s.tbu.tickLen then boundaryTime s else timeAfter s d

/-- A wide value of hearth `h` (spec/21 R606), `d` DSP clocks after the boundary that opened the running tick. -/
def wideHearth (s : State) (h item d : Nat) : Option Nat :=
  if !present s h then none
  else if item = 0x001 then some (s.tbu.tick + d / s.tbu.tickLen)
  else if item = 0x002 then some s.tbu.incr
  else if item = 0x004 then some (hearthAt s h).fcol.ff.tick
  else if item = 0x005 then some (hearthAt s h).fcol.last.tick
  else none

/-- Bits `128 k + 127 : 128 k` of a value. -/
def wideSlice (v k : Nat) : Nat := v >>> (128 * k) % 2 ^ 128

/-- A wide value of the package (spec/21 R606). -/
def widePackage (s : State) (item d : Nat) : Option Nat :=
  if item = 0x003 then some (wideTime s d)
  else if item = 0x006 then some (timeValue s.tbu.frameTime)
  else if item = 0x007 then some (patternOf 64 s.flu.ptp.offset)
  else if item = 0x010 then some s.ident.uid
  else if 0x011 ≤ item ∧ item ≤ 0x013 then some (wideSlice s.limits.calDigest (item - 0x011))
  else if item = 0x014 then some s.flu.planDigest
  else if item = 0x015 then some s.flu.appliedDigest
  else if 0x016 ≤ item ∧ item ≤ 0x018 then some (wideSlice s.sec.imageHash (item - 0x016))
  else if 0x020 ≤ item ∧ item < 0x030 then some (((s.tbu.sched.find? fun e => e.1 == item - 0x020).map (·.2.time)).getD 0)
  else none

/-- A wide value by its ID; none for an unknown ID (spec/21 R606). -/
def wideValue (s : State) (id d : Nat) : Option Nat :=
  if id / 0x1000 = 15 then widePackage s (id % 0x1000) d else wideHearth s (id / 0x1000) (id % 0x1000) d

/-- WIDE_READ `d` DSP clocks after the boundary that opened the running tick (spec/13 R395). -/
def wideReadAt (d : Nat) (p : Packet) (s : State) : Done :=
  let vs := p.payload.map fun w => if zeroAt w 16 16 then wideValue s w.toNat d else none
  check (vs.all Option.isSome) .badParam s <|
  .reply .ok (vs.flatMap fun v => wordsOf 4 (v.getD 0)) s

/-- Handling of WIDE_READ: every named value at the boundary that opens the tick after capture (spec/13 R395). -/
def wideRead (p : Packet) (s : State) : Done := wideReadAt s.tbu.tickLen p s

/-- WIDE_READ (spec/13 R395). -/
def execWideRead (p : Packet) (s : State) : Out := .next (runCommand infoWideRead wideRead p s)

/-- A register write that DOUSED lets through only for the queue 0 group and the MSI-X tables (spec/14 R433). -/
def writable (s : State) : Bool := s.pkg != .doused

/-- A write of WIDE_REQ by a master, in MAILBOX mode (spec/21 R607). -/
def execWideReqWrite (m id : Nat) (s : State) : Out :=
  .next <|
    if s.sec.wideMode || !writable s then s
    else
      let v := wideValue s (id % 2 ^ 16) 0
      modSys (fun x => { x with wide := x.wide.modify m fun _ =>
        { req := id % 2 ^ 16, valid := v.isSome, bad := v.isNone, data := v.getD 0 } }) s

/-- A read of WIDE_DATA3 clears WIDE_VALID (spec/21 R607). -/
def execWideData3Read (m : Nat) (s : State) : Out :=
  .next <|
    if s.sec.wideMode then s
    else modSys (fun x => { x with wide := x.wide.modify m fun r => { r with valid := false } }) s

/-- Every value ID of the present hearths and the package, rising (spec/21 R606, R608). -/
def wideIds (s : State) : List Nat :=
  ((hearthsOf s).flatMap fun h => [0x001, 0x002, 0x004, 0x005].map fun i => h * 0x1000 + i) ++
  (([0x003, 0x006, 0x007] ++ (List.range 9).map (0x010 + ·) ++ (List.range 16).map (0x020 + ·)).map (0xF000 + ·))

/-- The holding window as a copy at `d` DSP clocks into the running tick fills it (spec/21 R608). -/
def wideCopy (s : State) (d : Nat) : KMap Nat := (wideIds s).map fun id => (id, (wideValue s id d).getD 0)

/-- One copy of every wide value: SNAP_SEQ increments and SNAP_DONE is raised (spec/21 R608, R612). -/
def copyWide (d : Nat) (s : State) : State :=
  raiseSys (2 ^ 9) (modSys (fun x => { x with snapSeq := incWrap 32 x.snapSeq, snapWindow := wideCopy s d, snapPending := false, snapDone := true }) s)

/-- A write of SNAP_CMD.GO in SNAPSHOT mode is captured in the next tick and asks for a copy at the boundary after it (spec/02 R43; spec/21
R608). -/
def execSnapCmdWrite (go : Bool) (s : State) : Out :=
  .next (if go && s.sec.wideMode && writable s then arrive (.write (.register 0 0x60 1)) s else s)

/-- The boundary takes the copy that the tick before it has captured (spec/13 R396; spec/21 R608). -/
def snapDue (s : State) : State := if s.sys.snapPending then copyWide 0 s else s

/-- SNAP_COPY: the copy of the coming boundary (spec/21 R608; log entry 68, DESIGN CHOICE). -/
def execSnapCopy (s : State) : Out := .next (if s.sys.snapPending then copyWide s.tbu.tickLen s else s)

/-- The one copy on entry to DOUSED, in either mode (spec/21 R609, R618). -/
def dousedSnapshot (s : State) : State :=
  let t := modSys (fun x => { x with dousedCopy := true }) (copyWide 0 s)
  emit 0 0x0129 (bytesOf 4 t.sys.snapSeq) t

/-- Handling of COUNTER_SNAPSHOT: it asks for the copy at the boundary after capture and reports the value that
SNAP_SEQ then has (spec/13 R396). -/
def counterSnapshot (_p : Packet) (s : State) : Done :=
  check s.sec.wideMode .state s <|
  .reply .ok [BitVec.ofNat 32 (incWrap 32 s.sys.snapSeq)] (modSys (fun x => { x with snapPending := true }) s)

/-- COUNTER_SNAPSHOT (spec/13 R396). -/
def execCounterSnapshot (p : Packet) (s : State) : Out := .next (runCommand infoCounterSnapshot counterSnapshot p s)

/-! ### The SYS block -/

/-- A write of SYS_HB.COUNT (spec/21 R614). -/
def execSysHbWrite (m count : Nat) (s : State) : Out :=
  .next <|
    if masterPriv s m && writable s then modSys (fun x => { x with hbCount := count % 2 ^ 16, hbLast := count % 2 ^ 16 }) s else s

/-- Every 480 ticks SYS_HB.COUNT decrements, and at 0 HOST_SILENT sets (spec/21 R614, R618). -/
def heartbeatDue (s : State) : State :=
  if s.sys.hbCount = 0 ∨ s.sys.hbPhase < 480 then s
  else
    let t := modSys (fun x => { x with hbCount := x.hbCount - 1, hbPhase := x.hbPhase - 480 }) s
    if s.sys.hbCount = 1 then emit 0 0x0128 (bytesOf 2 s.sys.hbLast) t else t

/-- HEARTBEAT_DECREMENT (spec/21 R614). -/
def execHeartbeatDecrement (s : State) : Out := .next (heartbeatDue s)

/-- A write of SYS_INT_EN (spec/21 R612, R613). -/
def execSysIntEnWrite (m en : Nat) (s : State) : Out :=
  .next (if masterPriv s m && writable s then evalSysInt (modSys (fun x => { x with intEn := en % 2 ^ 10 }) s) else s)

/-- A W1C write of SYS_INT_PEND (spec/21 R613). -/
def execSysIntPendClear (mask : Nat) (s : State) : Out :=
  .next (if writable s then evalSysInt (modSys (fun x => { x with intPend := x.intPend &&& (1023 - mask % 1024) }) s) else s)

/-! ### Holds and reset -/

/-- The warm reset that an accepted SYS_RESET asks for: its event and the reset at the next boundary (spec/13 R403, R406). -/
def resetCommanded (src orderly tag : Nat) (s : State) : State :=
  { emit 0 0x0124 ([src, orderly] ++ bytesOf 2 tag) s with warmDue := true }

/-- Held PACKAGE_HOLD replies once no section is in a transmitting state or a down-ramp (spec/13 R402). -/
def drainCommands (s : State) : State := if transmitting s ≠ 0 then s else endHeldFor 0x0108 0 .ok [] s

/-- The first tick that opens with the RESET hold set in which no section is in a transmitting state or a down-ramp: an orderly
SYS_RESET, or an IMAGE_ACTIVATE that acts as one, replies, and the reset follows at the boundary that opens the next tick. An
orderly reset whose command no longer waits resets all the same (spec/13 R403; spec/20 R587; log entry 155, DEDUCED). -/
def orderlyReset (s : State) : State :=
  if s.holds.reset && !s.warmDue && transmitting s == 0 then
    match ((heldFor s 0x010A 0) ++ (heldFor s 0x0D0B 1)).head? with
    | some c =>
      let u := resetCommanded c.src 1 c.tag s
      let u := if c.op = 0x0D0B then emit 0 0x0D1A [2, fld (wordAt c.words 0) 4 2, 0] u else u
      endHeld c .ok [] u
    | none => { s with warmDue := true }
  else s

/-- Handling of PACKAGE_HOLD (spec/13 R402). -/
def packageHold (p : Packet) (s : State) : Done :=
  let w := wordAt p.payload 0
  let hold := bitOf w 0
  let wait := bitOf w 1
  check (zeroAt w 2 30 && (hold || !wait)) .badParam s <|
  if hold then
    let t := setHolds (fun x => { x with host := true }) s
    if wait && transmitting t != 0 then .hold 0 none t else .reply .ok [] t
  else
    .reply .ok [] (endHeldFor 0x0108 0 .aborted [] (setHolds (fun x => { x with host := false }) s))

/-- PACKAGE_HOLD (spec/13 R402). -/
def execPackageHold (p : Packet) (s : State) : Out := .next (runCommand infoPackageHold packageHold p s)

/-- Handling of SYS_RESET (spec/13 R403). -/
def sysReset (p : Packet) (s : State) : Done :=
  let w := wordAt p.payload 0
  check (zeroAt w 1 15 && fld w 16 16 == 0xA55A) .badParam s <|
  if !bitOf w 0 then
    let t := each (heldFor s 0x010A 0) dropHeld s
    .reply .ok [] (modCpx (fun c => { c with resetTaken := true }) (resetCommanded p.src 0 p.tag t))
  else
    check (!s.holds.reset) .busy s <|
    .hold 0 none (setHolds (fun x => { x with reset := true }) s)

/-- SYS_RESET (spec/13 R403). -/
def execSysReset (p : Packet) (s : State) : Out := .next (runCommand infoSysReset sysReset p s)

/-! ### The Kindling script -/

/-- The script starts at a record (spec/13 R404, R406; spec/20 R582). -/
def scriptStart (first src : Nat) (s : State) : State :=
  let t := modCpx (fun c => { c with script := { c.script with
    state := 1, next := first, executed := 0, errors := 0, readyTick := s.tbu.tick + 1
    retryAt := none, turn := none, busy := false, attempts := 0, stopping := false } }) s
  emit 0 0x0125 ([1] ++ bytesOf 2 first ++ [src]) t

/-- Handling of SCRIPT_CONTROL (spec/13 R404, R405). -/
def scriptControl (p : Packet) (s : State) : Done :=
  let w := wordAt p.payload 0
  let op := fld w 0 4
  let first := fld w 16 16
  let x := s.cpx.script
  check (zeroAt w 4 12 && decide (op ≤ 2) && (op == 2 || first == 0)) .badParam s <|
  if op = 0 then .reply .ok (scriptWords x) s
  else if op = 1 then
    if x.state ≠ 1 then .reply .ok (scriptWords x) s
    else if x.busy then .hold 1 none (modCpx (fun c => { c with script := { c.script with stopping := true, stopSrc := p.src } }) s)
    else
      let t := modCpx (fun c => { c with script := { c.script with state := 3, turn := none, retryAt := none } }) s
      .reply .ok (scriptWords t.cpx.script) (emit 0 0x0125 ([3] ++ bytesOf 2 x.next ++ [p.src]) t)
  else
    check (x.state != 1) .busy s <|
    check (scriptCount s != 0) .state s <|
    check (decide (first < scriptCount s)) .badParam s <|
    let t := scriptStart first p.src s
    .reply .ok (scriptWords t.cpx.script) t

/-- SCRIPT_CONTROL (spec/13 R404). -/
def execScriptControl (p : Packet) (s : State) : Out := .next (runCommand infoScriptControl scriptControl p s)

/-- Whether every synthesiser of a hearth is LOCKED or OFF (spec/20 R580). -/
def synsSettled (s : State) (h : Nat) : Bool := (hearthAt s h).syns.all fun x => x.state == 0 || x.state == 3

/-- The WAIT condition of a script record (spec/20 R580). -/
def scriptWait (s : State) (n : Nat) : Bool :=
  let k := fld (scriptHeader s n) 16 4
  let h := fld (wordAt (scriptPacket s n) 0) 24 4
  if k = 1 then s.tbu.frameValid
  else if k = 2 then s.tbu.timeStatus == 3
  else if k = 3 then s.flu.digestAgree
  else if k = 4 then (if h = 15 then (hearthsOf s).all (synsSettled s) else synsSettled s h)
  else true

/-- The tick at which DELAY of the next record has elapsed (spec/20 R580). -/
def scriptDue (s : State) : Nat := s.cpx.script.readyTick + fld (scriptHeader s s.cpx.script.next) 0 16 * 480

/-- Whether the script stands before a record that has not been captured. -/
def scriptIdle (s : State) : Bool :=
  let x := s.cpx.script
  x.state == 1 && !x.busy && x.turn.isNone && decide (x.next < scriptCount s)

/-- The record's turn: its packet may be captured, or the record fails at once when its WAIT is not one of R580, its opcode is none of
the index, or its packet runs past it; every record replies DOUSED in that state (spec/12 R369, R370; spec/20 R580). -/
def scriptTurn (s : State) : State :=
  let n := s.cpx.script.next
  let ws := scriptPacket s n
  let op := fld (wordAt ws 0) 0 16
  let c : Held := { op := op, src := 0x40, tag := fld (wordAt ws 1) 16 16, seq := (wordAt ws 2).toNat, hearth := fld (wordAt ws 0) 24 4
                    flags := fld (wordAt ws 0) 16 8 }
  let fails (st : Status) : State :=
    sendReply c (if s.pkg = .doused then .doused else st) [] (modCpx (fun x => { x with script := { x.script with busy := true } }) s)
  if 4 < fld (scriptHeader s n) 16 4 then fails .badParam
  else if (infoOf op).isNone then fails .badOpcode
  else if ws.length < 4 + fld (wordAt ws 1) 0 12 then fails .badLength
  else modCpx (fun x => { x with script := { x.script with turn := some ws } }) s

/-- A script record is captured once its DELAY has elapsed and its WAIT holds (spec/20 R581). -/
def execScriptRecord (s : State) : Out :=
  .next <|
    if scriptIdle s && s.cpx.script.retryAt.isNone && decide (scriptDue s ≤ s.tbu.tick)
        && (scriptWait s s.cpx.script.next) then scriptTurn s else s

/-- WAIT_S expires before the condition holds: the record counts as replied TIMEOUT (spec/20 R581). -/
def scriptWaitDue (s : State) : State :=
  let n := s.cpx.script.next
  let ws := fld (scriptHeader s n) 24 8
  if scriptIdle s && s.cpx.script.retryAt.isNone && ws != 0 && !scriptWait s n && decide (scriptDue s + ws * ticksPerSecond ≤ s.tbu.tick) then
    scriptReplied (fld (wordAt (scriptPacket s n) 0) 0 16) .timeout (s.tbu.tick + 1) (nextTime s) s
  else s

/-- SCRIPT_WAIT_TIMEOUT (spec/20 R581). -/
def execScriptWaitTimeout (s : State) : Out := .next (scriptWaitDue s)

/-- A record with ON_ERR RETRY is captured again 1 s after its reply (spec/20 R581). -/
def execScriptRetry (s : State) : Out :=
  .next <|
    if scriptIdle s && s.cpx.script.retryAt.any fun t => decide (t ≤ s.tbu.tick) then
      scriptTurn (modCpx (fun c => { c with script := { c.script with retryAt := none } }) s)
    else s

end Sys2Proof.Machine
end

