-- ==== Sys2Proof/Machine/Ranges.lean ====
section
/-! DEFINITION. Machine/Ranges.lean: Firebrick rows and the limits that they set on a passband (spec/11 R328 to R333,
spec/06 R173). -/

namespace Sys2Proof.Machine

/-- A Firebrick row. -/
def rowAt (s : State) (k : Nat) : FbRow := s.limits.rows.getD k {}

/-- The CRC word that a row's content calls for (spec/11 R328). -/
def rowCrc (ws : List Word) : Word := crc32Words ((List.range 5).map (wordAt ws))

/-- A written row whose CRC does not match (spec/11 R330). -/
def rowBad (r : FbRow) : Bool := r.written && wordAt r.words 5 != rowCrc r.words

/-- A row is blank only when every content bit and both fuses read 0 (spec/11 R334). -/
def rowBlank (r : FbRow) : Bool := r.words.all (· == 0) && !r.written && !r.revoked

/-- A row that SEC distributes: written, intact, and neither revoked nor treated as revoked (spec/11 R330, R334). -/
def rowPermits (s : State) (k : Nat) : Bool :=
  let r := rowAt s k
  r.written && !rowBad r && !r.revoked && !s.limits.treated.contains k

/-- The rows that are permitted ranges, rising (spec/11 R330). -/
def permittedRows (s : State) : List Nat := (List.range 64).filter (rowPermits s)

/-- START of a row. -/
def rowStart (r : FbRow) : Nat := (wordAt r.words 0).toNat

/-- STOP of a row. -/
def rowStop (r : FbRow) : Nat := (wordAt r.words 1).toNat

/-- MAX_GAIN of a row. -/
def rowGain (r : FbRow) : LogQ := sfld (wordAt r.words 2) 0 16

/-- DIR of a row: 0 DL, 1 UL. -/
def rowDir (r : FbRow) : Nat := fld (wordAt r.words 2) 16 1

/-- DUTY of a row, in units of 1/1,024. -/
def rowDuty (r : FbRow) : Nat := fld (wordAt r.words 2) 17 11

/-- POWER of a row for a branch. -/
def rowPower (r : FbRow) (b : Nat) : LogQ := sfld (wordAt r.words 3) (16 * b) 16

/-- A row permits a passband of its direction (spec/11 R329). -/
def rowHolds (r : FbRow) (dir centre bandwidth : Nat) : Bool :=
  rowDir r == dir && decide (2 * rowStart r + bandwidth ≤ 2 * centre) && decide (2 * centre + bandwidth ≤ 2 * rowStop r)

/-- Centre of a direction of a section: 0 DL, 1 UL (spec/03 R69). -/
def centreOf (d : SecDef) (dir : Nat) : Nat := if dir = 0 then d.dlCentre else d.ulCentre

/-- The rows in a hearth's working copy that hold a direction of a definition (spec/06 R173). -/
def governing (s : State) (h : Nat) (d : SecDef) (dir : Nat) : List FbRow :=
  ((hearthAt s h).fbCopy.map (rowAt s)).filter fun r => rowHolds r dir (centreOf d dir) d.bandwidth

/-- FB_GAIN of a direction, C_fb of R24: the minimum over its ranges, −128.0 dB with none (spec/06 R173). -/
def fbGain (s : State) (h : Nat) (d : SecDef) (dir : Nat) : LogQ :=
  let rs := governing s h d dir
  if rs.isEmpty then logMin else minLog (rs.map rowGain)

/-- FB_POWER of a direction and branch (spec/06 R173). -/
def fbPower (s : State) (h : Nat) (d : SecDef) (dir b : Nat) : LogQ :=
  let rs := governing s h d dir
  if rs.isEmpty then logMin else minLog (rs.map fun r => rowPower r b)

/-- FB_DUTY of a direction in units of 1/1,024; 0 with no range (spec/06 R173, spec/11 R329). -/
def fbDuty (s : State) (h : Nat) (d : SecDef) (dir : Nat) : Nat :=
  let rs := governing s h d dir
  if rs.isEmpty then 0 else (rs.map rowDuty).foldl min 1024

/-- Whether a direction has a permitting range. -/
def hasRange (s : State) (h : Nat) (d : SecDef) (dir : Nat) : Bool := !(governing s h d dir).isEmpty

/-- Every hearth's working copy takes the rows in force (spec/01 R16, spec/11 R335). -/
def distributeRows (s : State) : State :=
  let rows := permittedRows s
  { s with
    limits := { s.limits with inForce := rows }
    hearths := s.hearths.map fun x => { x with fbCopy := rows, fbCopyBad := false } }

end Sys2Proof.Machine
end

