-- ==== Sys2Proof/Machine/Cells.lean ====
section
/-! DEFINITION. Machine/Cells.lean: the cell table of the Air Monitor as other blocks see it: which cells are tracked for
which section, and what follows a change of an LO or a definition (spec/10 R304 to R313). -/

namespace Sys2Proof.Machine

/-- Changes the Air Monitor of a hearth. -/
def modAir (h : Nat) (f : Air → Air) (s : State) : State := modHearth h (fun x => { x with air := f x.air }) s

/-- Changes the Air Monitor's record of a section. -/
def modAirSec (h i : Nat) (f : AirSec → AirSec) (s : State) : State := modSec h i (fun x => { x with air := f x.air }) s

/-- Width of a sync block in Freq units (spec/10 R309). -/
def syncWidth (rat : Nat) : Nat := if rat = 0 then 108000 else if rat = 1 then 360000 else 720000

/-- A sync block lies within a section's DL passband (spec/10 R309). -/
def syncInside (d : SecDef) (c : Cell) : Bool :=
  decide (2 * d.dlCentre + syncWidth c.rat ≤ 2 * c.freq + d.bandwidth) && decide (2 * c.freq + syncWidth c.rat ≤ 2 * d.dlCentre + d.bandwidth)

/-- A width around a frequency lies within the instantaneous band of an LO (spec/03 R70). -/
def inBand (lo freq width : Nat) : Bool :=
  lo != 0 && decide (2 * lo + width ≤ 2 * freq + 80000000) && decide (2 * freq + width ≤ 2 * lo + 80000000)

/-- Whether a section's DL passband holds a cell's sync block (spec/10 R305, R309). -/
def holdsCell (s : State) (h i : Nat) (c : Cell) : Bool := (secAt s h i).defn.any fun d => syncInside d c

/-- Whether a cell may be tracked for a section (spec/10 R309). -/
def trackable (s : State) (h i : Nat) (c : Cell) : Bool :=
  let a := (secAt s h i).air
  holdsCell s h i c && a.trackEn && maskHas a.rats c.rat && (c.state == 1 || c.state == 2)

/-- SECTION of a cell: the lowest for which it is tracked, and otherwise the lowest whose DL passband holds its sync block (spec/10 R305,
R309; log entry 143, DEDUCED). -/
def cellSection (s : State) (h : Nat) (c : Cell) : Option Nat :=
  match (maskBits 8 c.trackedBy).head? with
  | some i => some i
  | none => (List.range 8).find? fun i => holdsCell s h i c

/-- The weakest of tracked cells, each with its level. -/
def weakest : List (Nat × Int) → Option (Nat × Int)
  | [] => none
  | c :: rest => match weakest rest with
    | none => some c
    | some w => if w.2 < c.2 then some w else some c

/-- Tracked cells of a section from those tracked now and further candidates by falling level: up to 32, and a candidate
displaces the weakest only when it is at least 3.0 dB higher (spec/10 R309). -/
def chooseTracked (cur : List (Nat × Int)) : List (Nat × Int) → List (Nat × Int)
  | [] => cur
  | c :: rest =>
    if cur.length < 32 then chooseTracked (cur ++ [c]) rest
    else match weakest cur with
      | none => cur
      | some w => if w.2 + 768 ≤ c.2 then chooseTracked (cur.erase w ++ [c]) rest else cur

/-- The cells that a section tracks (spec/10 R309). -/
def trackedOf (s : State) (h i : Nat) : List (Nat × Int) :=
  let may := (hearthAt s h).air.cells.filter fun e => trackable s h i e.2
  let levels (xs : KMap Cell) : List (Nat × Int) := xs.map fun e => (e.1, e.2.level)
  chooseTracked (levels (may.filter fun e => maskHas e.2.trackedBy i))
    ((levels (may.filter fun e => !maskHas e.2.trackedBy i)).mergeSort fun a b => decide (b.2 ≤ a.2))

/-- Frequencies and DL chains that a round visits, once each, in ascending section and frequency (spec/10 R310). -/
def roundVisits (s : State) (h : Nat) : List (Nat × Nat) :=
  ((List.range 8).flatMap fun i =>
    let fs := ((hearthAt s h).air.cells.filter fun e => maskHas e.2.trackedBy i).map fun e => e.2.freq
    let bs := ((secAt s h i).defn.map fun d => maskBits 2 d.branchMask).getD []
    (fs.mergeSort fun a b => decide (a ≤ b)).flatMap fun f => bs.map fun b => (f, b)).eraseDups

/-- What the running round has still to visit; a new round begins once nothing is left (spec/10 R310). -/
def visitsLeft (s : State) (h : Nat) : List (Nat × Nat) :=
  let all := roundVisits s h
  let left := (hearthAt s h).air.round.filter all.contains
  if left.isEmpty then all else left

/-- Publishes what a section's tracked cells give; SPA captures the level in its next tick (spec/10 R313, R325). -/
def publishCells (h i : Nat) (cells : KMap Cell) (s : State) : State :=
  let mine := cells.filter fun e => maskHas e.2.trackedBy i
  let best := mine.foldl (fun (a : Option (Nat × Int)) e => match a with
    | none => some (e.1, e.2.level)
    | some b => if b.2 < e.2.level then some (e.1, e.2.level) else some b) none
  modSec h i (fun x => { x with
    air := { x.air with tracked := mine.length, noCell := best.isNone, best := (best.map (·.1)).getD x.air.best, level := (best.map (·.2)).getD logMin }
    spa := { x.spa with airLevel := best.map (·.2) } }) s

/-- Decides again which cells are tracked, publishes every section's level, and sets TRACK_OVERRUN and SCAN_STARVED
(spec/10 R309, R310, R313; log entry 28, DEDUCED). -/
def retrack (h : Nat) (s : State) : State :=
  let chosen := (List.range 8).map fun i => (trackedOf s h i).map (·.1)
  let place (n : Nat) (c : Cell) : Cell :=
    let m := maskOf ((List.range 8).filter fun i => (chosen.getD i []).contains n)
    let y : Cell := { c with trackedBy := m, tracked := m != 0 }
    match cellSection s h y with
    | some i => { y with sect := i, inSection := true }
    | none => { y with inSection := false }
  let cells : KMap Cell := (hearthAt s h).air.cells.map fun e => (e.1, place e.1 e.2)
  let t := modAir h (fun a => { a with cells := cells }) s
  let t := each (List.range 8) (fun i => publishCells h i cells) t
  let a := (hearthAt t h).air
  let v := (roundVisits t h).length
  let extra := if s.tbu.source = some 2 ∧ s.tbu.srcSection / 8 = h then ceilDiv a.trackPeriod 4 else 0
  let late := a.enabled && decide (a.trackPeriod < ceilDiv v a.channels)
  let t := modAir h (fun b => { b with overrun := late, starved := b.enabled && decide (b.channels * b.trackPeriod ≤ v + extra) }) t
  if late && !a.overrun then emit h 0x0915 (bytesOf 2 v ++ [a.channels, a.trackPeriod]) t else t

/-- A cell that its band has left is lost (spec/10 R307). -/
def dropCell (h n : Nat) (s : State) : State :=
  modAir h (fun a => { a with cells := a.cells.map fun e =>
    if e.1 = n ∧ e.2.state ≠ 3 then (e.1, { e.2 with state := 3, tracked := false, trackedBy := 0, lostRun := 0 }) else e }) s

/-- A cell is lost after N_LOST misses, with its event (spec/10 R307, R327). -/
def loseCell (h n : Nat) (s : State) : State :=
  match kget (hearthAt s h).air.cells n with
  | none => s
  | some c =>
    if c.state = 3 then s
    else emit h 0x0911 (bytesOf 2 n ++ bytesOf 2 c.pci ++ [if c.inSection then c.sect else 0xFF]) (dropCell h n s)

/-- The LO of a DL chain has changed: cells measured on it whose sync block leaves the band are lost, without an event (spec/10 R307). -/
def loseBand (h b lo : Nat) (s : State) : State :=
  let gone := (hearthAt s h).air.cells.filter fun e => e.2.chain == b && !inBand lo e.2.freq (syncWidth e.2.rat)
  if gone.isEmpty then s else retrack h (each (gone.map (·.1)) (dropCell h) s)

/-- Whether AIR tracks a cell of a PCI for a global section (spec/02 R65). -/
def airTracks (s : State) (g pci : Nat) : Bool :=
  (hearthAt s (g / 8)).air.cells.any fun e => maskHas e.2.trackedBy (g % 8) && e.2.pci == pci

/-- The tracked cell of a section with a PCI; of several, the one of highest LEVEL (spec/10 R312). -/
def cellNamed (s : State) (g pci : Nat) : Option Cell :=
  let cs := (hearthAt s (g / 8)).air.cells.filterMap fun e =>
    if maskHas e.2.trackedBy (g % 8) && e.2.pci == pci then some e.2 else none
  match cs with
  | [] => none
  | c :: rest => some (rest.foldl (fun a b => if a.level < b.level then b else a) c)

/-! ### Strangers -/

/-- The oldest stranger record. -/
def oldestStranger (s : State) (xs : KMap Stranger) : Nat :=
  let age (r : Stranger) : Nat := (s.tbu.tick + 2 ^ 32 - r.last % 2 ^ 32) % 2 ^ 32
  (xs.foldl (fun (a : Nat × Nat) e => if a.2 < age e.2 then (e.1, age e.2) else a) ((xs.head?.map (·.1)).getD 0, 0)).1

/-- A report of a stranger: it updates the record of its section, direction and branch near its frequency, or takes a free
record, or the one with the oldest LAST (spec/10 R318; log entry 30, DEDUCED). -/
def reportStranger (h i k : Nat) (dmp : Bool) (freq bin : Nat) (level : Int) (s : State) : State :=
  let xs := (hearthAt s h).air.strangers
  let near := xs.find? fun e => e.2.sect == i && e.2.dirbr == k && decide (((e.2.freq : Int) - freq).natAbs ≤ max 5000 bin)
  let now := s.tbu.tick % 2 ^ 32
  match near with
  | some (n, r) => modAir h (fun a => { a with strangers := kset a.strangers n { r with count := incSat 8 r.count, level := level, freq := freq, dmp := dmp, last := now } }) s
  | none =>
    let n := ((List.range 64).find? fun n => (kget xs n).isNone).getD (oldestStranger s xs)
    let r : Stranger := { sect := i, dirbr := k, dmp := dmp, level := level, freq := freq, first := now, last := now }
    emit h 0x0913 ([n, globalOf h i, k + 4 * bitNat dmp] ++ bytesOf 4 freq ++ bytesOf 2 level)
      (modAir h (fun a => { a with strangers := kset a.strangers n r }) s)

end Sys2Proof.Machine
end

