-- ==== Sys2Proof/Machine/Timebase.lean ====
section
/-! DEFINITION. Machine/Timebase.lean: TDD pattern tables, frame timing, device time, SYNC_N, PPS and scheduled actions
(spec/02), and the Grate phase reset (spec/03 R84, R85). -/

namespace Sys2Proof.Machine

/-! ### TDD pattern tables -/

/-- Pattern `n` of hearth `h`. -/
def patternAt (s : State) (h n : Nat) : Pattern := (hearthAt s h).patterns.getD n {}

/-- Changes pattern `n` of hearth `h`. -/
def modPattern (h n : Nat) (f : Pattern → Pattern) (s : State) : State :=
  modHearth h (fun x => { x with patterns := x.patterns.modify n f }) s

/-- Bank of a pattern: false for A, true for B. -/
def bankOf (x : Pattern) (b : Bool) : Option Bank := if b then x.bankB else x.bankA

/-- The active bank of a pattern. -/
def activeBank (x : Pattern) : Option Bank := bankOf x x.activeB

/-- DSP clocks between the slot markers of numerology `mu` (spec/02 R48). -/
def slotClocks (mu : Nat) : Nat := 983040 / 2 ^ mu

/-- Slot marker of a frame at an offset: the slot whose marker stands there (spec/02 R48). -/
def slotMarker (mu off : Nat) : Option Nat := if off % slotClocks mu = 0 then some (off / slotClocks mu) else none

/-- Offset in the frame of symbol `n` of numerology `mu`: 7 · 2^mu symbols in each 0.5 ms, the first 512 clocks longer
(spec/02 R51). -/
def symbolClock (mu n : Nat) : Nat :=
  let half := 7 * 2 ^ mu
  n / half * 491520 + n % half * (70144 / 2 ^ mu) + (if n % half = 0 then 0 else 512)

/-- The direction changes of slot `k`, as offsets in the frame: 0 D, 1 U, 2 guard, 3 an X slot; a slot starts with its first
symbol (spec/02 R50, R51; log entry 91, DEDUCED). -/
def slotEdges (mu k : Nat) (e : SlotEntry) : List (Nat × Nat) :=
  let o (m : Nat) : Nat := symbolClock mu (14 * k + m)
  if e.typ = 0 then [(o 0, 0)]
  else if e.typ = 1 then [(o 0, 1)]
  else if e.typ = 2 then
    (if e.dlSym = 0 then [] else [(o 0, 0)]) ++ [(o e.dlSym, 2)] ++ (if e.ulSym = 0 then [] else [(o (14 - e.ulSym), 1)])
  else [(o 0, 3)]

/-- Every edge of a bank over one frame, as offsets and directions, rising (spec/02 R50). -/
def bankEdges (b : Bank) : List (Nat × Nat) :=
  if b.edgeForm then
    let period := frameClocks / b.rep
    (List.range b.rep).flatMap fun r => b.edges.map fun e => (r * period + e.offset, e.dir)
  else (b.slots.zipIdx.map fun e => slotEdges b.slotDur e.2 e.1).flatten

/-- What edges give at an offset of the frame: the last edge at or before it, across the wrap; 0 D, 1 U, 2 none, 3 an X slot. -/
def kindAt (es : List (Nat × Nat)) (off : Nat) : Nat :=
  match (es.filter fun e => decide (e.1 ≤ off)).getLast? with
  | some e => e.2
  | none => (es.getLast?.map (·.2)).getD 2

/-- The direction that edges give at an offset of the frame: an X slot gives none (spec/02 R50; spec/04 R115). -/
def dirAt (es : List (Nat × Nat)) (off : Nat) : Nat := min 2 (kindAt es off)

/-- DSP clocks of a frame in which edges give a direction (spec/06 R173). -/
def dutyClocks (es : List (Nat × Nat)) (d : Nat) : Nat :=
  let starts := es.map (·.1)
  let stops := (starts.drop 1) ++ [frameClocks + starts.headD 0]
  ((es.zip stops).map fun e => if e.1.2 = d then e.2 - e.1.1 else 0).foldl (· + ·) 0

/-- The difference of two Time values as a signed 64-bit value (spec/02 R62). -/
def timeDiff (t n : Nat) : Int := signedOf 64 ((t + 2 ^ 64 - n % 2 ^ 64) % 2 ^ 64)

/-- Device time at a DSP clock at or after the boundary that opened the running tick. -/
def timeAtClock (s : State) (clk : Nat) : Nat := timeValue (timeAfter s (clk - s.tbu.clock))

/-- A number of milliseconds as a Time difference, rounded to nearest (spec/00 R11, R12). -/
def milliTime (ms : Nat) : Nat := (roundDiv (ms * 2 ^ 32 : Nat) 1000).toNat

/-- DSP clock at which the last running frame closes, slewing apart (spec/02 R47). -/
def baseBoundary (s : State) : Nat := s.tbu.frameStart + frameClocks

/-- DSP clock of the next running frame boundary, one clock towards the source while slewing (spec/02 R47, R55). The error is
the source's boundary less the running one, as R312 forms it, so a positive error moves it later (log entry 15, DEDUCED). -/
def nextFrameClock (s : State) : Nat :=
  if s.tbu.inGap then s.tbu.gapEnd
  else if 0 < s.tbu.slew then baseBoundary s + 1
  else if s.tbu.slew < 0 then baseBoundary s - 1
  else baseBoundary s

/-- The bank of a pattern after the next frame boundary: the selection by command first, then the scheduled ones due there in
handle order (spec/02 R52). -/
def nextBank (s : State) (n : Nat) (x : Pattern) : Bool :=
  let due (e : Nat × SchedAction) : Bool :=
    e.2.select && maskHas e.2.mask n && decide (timeDiff e.2.time (timeAtClock s (nextFrameClock s)) ≤ 0)
  (s.tbu.sched.filter due).foldl (fun _ e => maskHas e.2.banks n) (x.pending.getD x.activeB)

/-- The bank and the offset in its frame that stand at a DSP clock of the last, the running or the next frame; none in a span
that belongs to no frame (spec/02 R49, R52, R55). -/
def placeAt (s : State) (n : Nat) (x : Pattern) (clk : Nat) : Option (Bool × Nat) :=
  if clk < s.tbu.frameStart then
    if s.tbu.frameStart ≤ clk + s.tbu.gapBefore then none
    else if clk < s.tbu.lastFrame then some (x.prevB, clk + frameClocks - s.tbu.lastFrame)
    else some (x.prevB, clk - s.tbu.lastFrame)
  else if s.tbu.inGap then
    if s.tbu.gapEnd ≤ clk then some (nextBank s n x, clk - s.tbu.gapEnd)
    else if s.tbu.boundary ≤ clk then none else some (x.prevB, clk - s.tbu.frameStart)
  else if clk < nextFrameClock s then some (x.activeB, clk - s.tbu.frameStart)
  else if s.tbu.stepPending.any (fun e => e.1 % (frameClocks : Int) != 0) then none
  else some (nextBank s n x, clk - nextFrameClock s)

/-- What a pattern gives at a DSP clock: 0 D, 1 U, 2 none, 3 an X slot; none for a pattern never written. -/
def patternKind (s : State) (h n clk : Nat) : Nat :=
  let x := patternAt s h n
  match placeAt s n x clk with
  | some (b, off) => ((bankOf x b).map fun k => kindAt (bankEdges k) off).getD 2
  | none => 2

/-- The direction that a pattern gives at a DSP clock of the last, the running or the next frame (spec/02 R49, R52, R55). -/
def patternDir (s : State) (h n clk : Nat) : Nat := min 2 (patternKind s h n clk)

/-- DSP clocks at which a pattern may change: the edges of its banks in the last, the running and the next frame, and the
boundaries of these frames. -/
def patternMarks (s : State) (h n : Nat) : List Nat :=
  let x := patternAt s h n
  let edges (start : Nat) (b : Bool) : List Nat :=
    start :: (((bankOf x b).map bankEdges).getD []).map fun e => start + e.1
  let running := if s.tbu.inGap then edges s.tbu.frameStart x.prevB ++ [s.tbu.boundary] else edges s.tbu.frameStart x.activeB
  edges s.tbu.lastFrame x.prevB ++ [s.tbu.frameStart - s.tbu.gapBefore] ++ running ++ edges (nextFrameClock s) (nextBank s n x)

/-- The interval around a DSP clock in which a reading of the pattern does not change: the changes that open and close it, where
there are any (spec/04 R115). -/
def spanAt (kind : Nat → Nat) (marks : List Nat) (clk : Nat) : Option Nat × Option Nat :=
  let changes := marks.filter fun m => decide (0 < m) && kind m != kind (m - 1)
  ((changes.filter (decide <| · ≤ clk)).max?, (changes.filter (decide <| clk < ·)).min?)

/-- A DSP clock lies in its interval, the first and last `edge` clocks apart (spec/04 R115). -/
def innerClock (kind : Nat → Nat) (marks : List Nat) (edge clk : Nat) : Bool :=
  let (a, b) := spanAt kind marks clk
  a.all (fun c => decide (c + edge ≤ clk)) && b.all fun c => decide (clk + edge < c)

/-- Whether a DSP clock lies in the valid window of a direction: every clock of an FDD section; of a TDD section those at which
its pattern gives the direction, the first and last 1,024 of each interval apart (spec/04 R115). -/
def validClock (s : State) (h : Nat) (d : SecDef) (dir clk : Nat) : Bool :=
  !d.tdd || (patternDir s h d.pattern clk == dir && innerClock (patternDir s h d.pattern) (patternMarks s h d.pattern) 1024 clk)

/-- Slot entry `k` of a SLOT payload (spec/02 R63). -/
def slotOf (ws : List Word) (k : Nat) : SlotEntry :=
  let w := wordAt ws (1 + k / 2)
  let o := 16 * (k % 2)
  { typ := fld w o 2, dlSym := fld w (o + 2) 4, ulSym := fld w (o + 6) 4 }

/-- Edge entry `k` of an EDGE payload (spec/02 R63). -/
def edgeOf (ws : List Word) (k : Nat) : EdgeEntry :=
  { offset := fld (wordAt ws (1 + k)) 0 24, dir := fld (wordAt ws (1 + k)) 24 2 }

/-- The bank that a TDD_PATTERN_WRITE payload spells (spec/02 R63). -/
def bankFrom (ws : List Word) : Bank :=
  let w := wordAt ws 0
  let n := fld w 16 7
  if bitOf w 3 then { edgeForm := true, rep := fld w 8 8, edges := (List.range n).map (edgeOf ws) }
  else { edgeForm := false, slotDur := fld w 4 2, slots := (List.range n).map (slotOf ws) }

/-- A slot entry that R50 accepts. -/
def slotEntryOk (e : SlotEntry) : Bool :=
  if e.typ = 2 then decide (e.dlSym ≤ 14) && decide (e.ulSym ≤ 14) && decide (e.dlSym + e.ulSym ≤ 13)
  else e.dlSym == 0 && e.ulSym == 0

/-- No U slot directly follows a D slot, counted across the frame wrap (spec/02 R50). -/
def slotOrderOk (es : List SlotEntry) : Bool :=
  let next := es.drop 1 ++ es.take 1
  (es.zip next).all fun e => !(e.1.typ == 0 && e.2.typ == 1)

/-- The D or U direction before edge `k`, and the DSP clocks of "none" just before edge `k`, looking back over at most
`fuel` edges of a period (spec/02 R50). -/
def beforeEdge (es : List EdgeEntry) (period k : Nat) : Nat → Nat → Nat × Nat
  | 0, gap => (2, gap)
  | fuel + 1, gap =>
    let j := (k + es.length - 1) % es.length
    let e := es.getD j {}
    if e.dir = 2 then beforeEdge es period j fuel (gap + ((es.getD k {}).offset + period - e.offset) % period)
    else (e.dir, gap)

/-- The rules of R50 on an EDGE bank. -/
def edgeBankOk (b : Bank) : Bool :=
  let period := frameClocks / b.rep
  b.rep != 0 && frameClocks % b.rep == 0 && b.edges.all (fun e => decide (e.offset < period) && decide (e.dir ≤ 2))
    && decide ((b.edges.map (·.offset)).Pairwise (· < ·))
    && (List.range b.edges.length).all fun k =>
      let d := (b.edges.getD k {}).dir
      let (p, gap) := beforeEdge b.edges period k b.edges.length 0
      d == 2 || p == 2 || p == d || decide (1024 ≤ gap)

/-- The length rule of TDD_PATTERN_WRITE (spec/02 R63). -/
def patternLength (ws : List Word) : Bool :=
  let w := wordAt ws 0
  let n := fld w 16 7
  decide (1 ≤ ws.length) && (if bitOf w 3 then ws.length == 1 + n else ws.length == 1 + ceilDiv n 2)

/-- The fields and the bank of a TDD_PATTERN_WRITE payload are ones that R50 and R63 accept. -/
def patternOk (ws : List Word) : Bool :=
  let w := wordAt ws 0
  let n := fld w 16 7
  let b := bankFrom ws
  zeroAt w 6 2 && zeroAt w 23 9 &&
  (if bitOf w 3 then
    decide (1 ≤ n) && decide (n ≤ 64) && (ws.drop 1).all (fun e => zeroAt e 26 6) && edgeBankOk b
  else
    n == 10 * 2 ^ fld w 4 2 && (List.range n).all (fun k => zeroAt (wordAt ws (1 + k / 2)) (16 * (k % 2) + 10) 6)
      && b.slots.all slotEntryOk && slotOrderOk b.slots)

/-- A bank selection of a pattern is pending on a hearth, by command or scheduled (spec/02 R52). -/
def selectionPending (s : State) (h n : Nat) : Bool :=
  (patternAt s h n).pending.isSome || s.tbu.sched.any fun e => e.2.select && maskHas e.2.mask n

/-- Handling of TDD_PATTERN_WRITE: the inactive bank of a pattern (spec/02 R52, R63). -/
def patternWrite (p : Packet) (s : State) : Done :=
  let n := fld (wordAt p.payload 0) 0 3
  let b := bankFrom p.payload
  check (patternOk p.payload) .badParam s <|
  check ((targets p s).all fun h => !selectionPending s h n) .busy s <|
  .reply .ok [] (each (targets p s) (fun h => modPattern h n fun x =>
    if x.activeB then { x with bankA := some b } else { x with bankB := some b }) s)

/-- TDD_PATTERN_WRITE (spec/02 R63). -/
def execTddPatternWrite (p : Packet) (s : State) : Out :=
  .next (runCommandWith infoTddPatternWrite (patternLength p.payload) patternWrite p s)

/-- Handling of TDD_PATTERN_SELECT: the selection waits for the frame boundary, and so does the reply
(spec/02 R52, R64). -/
def patternSelect (p : Packet) (s : State) : Done :=
  let w := wordAt p.payload 0
  let ns := maskBits 8 (fld w 0 8)
  check (zeroAt w 16 16 && (targets p s).all fun h => ns.all fun n =>
    (bankOf (patternAt s h n) (bitOf w (8 + n))).isSome) .badParam s <|
  .hold 0 none (each (targets p s) (fun h => each ns fun n => modPattern h n fun x =>
    { x with pending := some (bitOf w (8 + n)) }) s)

/-- TDD_PATTERN_SELECT (spec/02 R64). -/
def execTddPatternSelect (p : Packet) (s : State) : Out := .next (runCommand infoTddPatternSelect patternSelect p s)

/-! ### Frame timing -/

/-- The TDD sections. -/
def tddSections (s : State) : List (Nat × Nat) :=
  (allSections s).filter fun g => (secAt s g.1 g.2).defn.any (·.tdd)

/-- Changes FRAME_VALID: TDD sections have the frame-timing wait cause while it is 0 and mute with a 1-tick ramp. The event is
written by `log`: at once for a change in phase 0, or when the next tick captures a change at a frame boundary
(spec/02 R43, R55, R56). -/
def setFrameValid (log : Nat → Nat → List Nat → State → State) (v : Bool) (s : State) : State :=
  if s.tbu.frameValid = v then s
  else
    let t := log 0 0x0E10 [bitNat v] (modTbu (fun x => { x with frameValid := v, frameInvalidSeen := x.frameInvalidSeen || !v }) s)
    each (tddSections t) (fun g u =>
      let w := modSec g.1 g.2 (fun y => { y with waits := { y.waits with frame := !v } }) u
      if v then w else startDown 1 true g.1 g.2 w) t

/-- The source stops being valid: holdover, or no frame timing at once when HOLDOVER is 0 (spec/02 R54). A slew in progress goes on during
holdover until its error is 0 (log entry 134, DESIGN CHOICE). -/
def loseSource (s : State) : State :=
  let t := modTbu (fun x => { x with srcValid := false }) s
  if !t.tbu.frameValid || t.tbu.inHoldover then t
  else if t.tbu.holdoverCfg = 0 then setFrameValid emit false t
  else modTbu (fun x => { x with inHoldover := true, holdoverLeft := x.holdoverCfg }) t

/-- An error reduced to −half a frame up to half a frame less one (spec/10 R312). -/
def wrapError (e : Int) : Int :=
  let r := e % (frameClocks : Int)
  if (frameClocks : Int) ≤ 2 * r then r - frameClocks else r

/-- The error of the running frame boundary against a boundary of the source at a DSP clock (spec/02 R55; log entry 15, DEDUCED). -/
def errorAt (s : State) (clk : Int) : Int := wrapError (clk - baseBoundary s)

/-- DSP clock at which the corrected frame of a step starts: the first boundary of the source's timing at or after the running
boundary; an alignment captured in the span before a corrected frame places it again, at a boundary that has not passed
(spec/02 R55; log entry 92, DESIGN CHOICE). -/
def correctedStart (s : State) (clk : Int) : Nat :=
  let c := baseBoundary s + ((clk - baseBoundary s) % (frameClocks : Int)).toNat
  if s.tbu.inGap && decide (c < s.tbu.clock + s.tbu.tickLen) then c + frameClocks else c

/-- A new alignment to a boundary of the source at a DSP clock, with the SFN that the source gives the frame which starts
there (spec/02 R54, R55): it ends holdover, and slews or steps. -/
def align (clk : Int) (sfn : Option Nat) (s : State) : State :=
  let e := errorAt s clk
  let t := modTbu (fun x => { x with srcValid := true, inHoldover := false, holdoverLeft := 0 }) s
  if e.natAbs ≤ t.tbu.stepLimit ∧ t.tbu.firstAlign = false ∧ t.tbu.frameValid = true then
    modTbu (fun x => { x with slew := e }) t
  else
    let c := correctedStart s clk
    let n := sfn.map fun k => (((k : Int) + ((c : Int) - clk) / frameClocks) % 1024).toNat
    let u := modTbu (fun x => { x with
      firstAlign := false, slew := 0, stepPending := some (e, n), gapEnd := if x.inGap then c else x.gapEnd }) (setFrameValid emit false t)
    emit 0 0x0E11 (bytesOf 4 e) u

/-- The boundary of PTP frame timing nearest to the running one: frame n starts at n · 10 ms of device time and FRAME_OFFSET
clocks; the frame that starts there has SFN n + SFN_OFFSET (spec/02 R53). -/
def ptpBoundary (s : State) : Int × Nat :=
  let at_ : Int := (s.tbu.time : Int) + ((baseBoundary s : Int) - s.tbu.frameOffset - s.tbu.clock) * s.tbu.incr
  let n := (200 * at_ + 2 ^ 64) / 2 ^ 65
  let late := roundDiv (n * 2 ^ 64 - 100 * at_) (100 * s.tbu.incr)
  ((baseBoundary s : Int) + late, ((n + s.tbu.sfnOffset) % 1024).toNat)

/-- The boundary and the SFN that the PTP or AIR source gives now: PTP while locked, AIR when it has passed a detection on
(spec/02 R53, spec/10 R312). -/
def sourceAlignment (s : State) : Option (Int × Option Nat) :=
  if s.tbu.source = some 1 ∧ s.tbu.timeStatus = 3 then some ((ptpBoundary s).1, some (ptpBoundary s).2)
  else if s.tbu.source = some 2 then s.tbu.airAlign.map fun a => (a.1 + s.tbu.frameOffset, a.2)
  else none

/-- The alignment that the PTP or AIR source gives now is captured (spec/02 R53, R55). -/
def captureSource (s : State) : State :=
  match sourceAlignment s with
  | some (clk, sfn) => align clk sfn (onlyIf (s.tbu.source == some 2) (modTbu fun x => { x with airAlign := none }) s)
  | none => s

/-- The alignment that the PTP or AIR source has given is captured, with the errors that stand then (spec/02 R43, R55). -/
def takeAlignment (clk : Int) (sfn : Option Nat) (s : State) : State :=
  if s.tbu.source = some 1 ∨ s.tbu.source = some 2 then align clk sfn s else s

/-- FRAME_ALIGNMENT: a new alignment from the PTP or AIR source, to the boundary and SFN that the row names, which the next tick
captures; one that the source does not give is none (spec/02 R43, R53, R55; log entry 116, DESIGN CHOICE). The SYNC_N and PPS_IN sources
align when the tick after their edges captures them, and FREE at its command. -/
def execFrameAlignment (clk : Int) (sfn : Option Nat) (s : State) : Out :=
  .next <|
    if sourceAlignment s = some (clk, sfn) then
      arrive (.alignment clk sfn) (onlyIf (s.tbu.source == some 2) (modTbu fun x => { x with airAlign := none }) s)
    else s

/-- Whether the PTP or AIR source is still valid: PTP_LOCKED, or the cell detected within the last 16 frames (spec/02 R53). -/
def sourceLapsed (s : State) : Bool :=
  s.tbu.srcValid && (s.tbu.source == some 1 && s.tbu.timeStatus != 3 || s.tbu.source == some 2 && decide (16 < s.tbu.airAge))

/-- The PTP or AIR source stops being valid (spec/02 R53, R54). -/
def lapseSource (s : State) : State := if sourceLapsed s then loseSource s else s

/-- FRAME_SOURCE_INVALID (spec/02 R53, R54). -/
def execFrameSourceInvalid (s : State) : Out := .next (lapseSource s)

/-- Holdover runs out (spec/02 R54). -/
def endHoldover (s : State) : State :=
  if s.tbu.inHoldover = true ∧ s.tbu.holdoverLeft = 0 then
    setFrameValid emit false (modTbu (fun x => { x with inHoldover := false }) s)
  else s

/-- HOLDOVER_EXPIRY (spec/02 R54). -/
def execHoldoverExpiry (s : State) : Out := .next (endHoldover s)

/-- The corrected frame opens: FRAME_VALID is set again (spec/02 R55). Where the source has stopped being valid since the step began,
holdover begins with this frame, and with HOLDOVER 0 FRAME_VALID stays 0 (spec/02 R54; log entry 135, DEDUCED). -/
def openFrame (clk : Nat) (sfn gap : Nat) (s : State) : State :=
  let t := modTbu (fun x => { x with
    inGap := false, stepPending := none, lastFrame := x.frameStart, frameStart := clk, boundary := clk, gapBefore := gap, sfn := sfn
    frameTime := timeAfter s (clk - s.tbu.clock) }) s
  if s.tbu.srcValid then setFrameValid note true t
  else if s.tbu.holdoverCfg = 0 then t
  else setFrameValid note true (modTbu (fun x => { x with inHoldover := true, holdoverLeft := x.holdoverCfg }) t)

/-- Bank selections by command take effect at a frame boundary, at DSP clock `clk`; their commands reply when its frame tick is captured,
with its time (spec/02 R52, R64). Every pattern keeps the bank of the frame that ends (spec/10 R317). -/
def applySelections (clk : Nat) (s : State) : State :=
  let t := { s with hearths := s.hearths.map fun x => { x with patterns := x.patterns.map fun y =>
    { y with prevB := y.activeB, activeB := y.pending.getD y.activeB, pending := none } } }
  modCpx (fun c => { c with held := c.held.map fun e => if e.op = 0x0E02 ∧ e.key = 0 then { e with key := 1 + clk } else e }) t

/-- The replies of the selections that applied at the frame boundary whose frame tick is captured, with its time (spec/02 R64). -/
def replySelections (clk time : Nat) (s : State) : State :=
  each (heldFor s 0x0E02 (1 + clk)) (fun c => endHeldAt (some (timeValue time)) c .ok []) s

/-- One running frame boundary: the SFN advances, a slew moves on, holdover counts, and a pending step closes the last
running frame (spec/02 R47, R54, R55). The answer says whether a frame closed here and whether one opened. -/
def frameAdvance (s : State) : (Bool × Bool) × State :=
  let clk := nextFrameClock s
  let sfnNext := (s.tbu.sfn + 1) % 1024
  if s.tbu.inGap then
    let sfn := (s.tbu.stepPending.bind (·.2)).getD sfnNext
    ((false, true), applySelections clk (openFrame clk sfn (clk - s.tbu.boundary) s))
  else
    let t := modTbu (fun x => { x with airAge := min 17 (x.airAge + 1) }) s
    match s.tbu.stepPending with
    | some (e, sfn) =>
      let gap := (e % (frameClocks : Int)).toNat
      if gap = 0 then ((true, true), applySelections clk (openFrame clk (sfn.getD sfnNext) 0 t))
      else ((true, false), applySelections clk (modTbu (fun x => { x with
        inGap := true, boundary := clk, gapEnd := clk + gap, frameTime := timeAfter s (clk - s.tbu.clock) }) t))
    | none =>
      let u := modTbu (fun x => { x with
        lastFrame := x.frameStart, frameStart := clk, boundary := clk, gapBefore := 0, sfn := sfnNext
        frameTime := timeAfter s (clk - s.tbu.clock)
        slew := if 0 < x.slew then x.slew - 1 else if x.slew < 0 then x.slew + 1 else 0
        holdoverLeft := if x.inHoldover then x.holdoverLeft - 1 else x.holdoverLeft }) t
      ((true, true), applySelections clk u)

/-- Frames since a section's tracked cell of a PCI was last detected, up to 17; of several, the one of highest LEVEL (spec/02 R53;
spec/10 R305, R312). -/
def sourceAge (s : State) (g pci : Nat) : Nat :=
  match cellNamed s g pci with
  | some c => min 17 (((s.tbu.tick + 2 ^ 32 - c.lastSeen) % 2 ^ 32) / 4800)
  | none => 17

/-- Handling of FRAME_SOURCE (spec/02 R53, R65). PCI is held to its range for every source (log entry 93, DESIGN CHOICE). -/
def frameSource (p : Packet) (s : State) : Done :=
  let w0 := wordAt p.payload 0
  let w2 := wordAt p.payload 2
  let w3 := wordAt p.payload 3
  let src := fld w0 0 3
  let off := sfld (wordAt p.payload 1) 0 32
  let hold := fld w3 0 13
  let g := fld w0 3 6
  let pci := fld w0 9 10
  check (decide (src ≤ 4) && zeroAt w0 19 13 && decide (off.natAbs < frameClocks) && zeroAt w2 10 22 && zeroAt w3 21 11
    && decide (hold ≤ 6000) && decide (pci ≤ 1007) && (src != 2 || airTracks s g pci)) .badParam s <|
  let t := modTbu (fun x => { x with
    source := some src, srcSection := g, srcPci := pci, frameOffset := off, sfnOffset := fld w2 0 10
    holdoverCfg := hold, stepLimit := fld w3 13 8, firstAlign := true, slew := 0
    ppsOpen := none, ppsFirst := src == 4, airAlign := none, airAge := if src = 2 then sourceAge s g pci else 0 }) s
  if src = 0 then
    .reply .ok [] (align (t.tbu.clock + t.tbu.tickLen + off) none t)
  else if (src = 2 ∧ t.tbu.airAge ≤ 16) ∨ (src = 1 ∧ t.tbu.timeStatus = 3) then
    .reply .ok [] (modTbu (fun x => { x with srcValid := true }) t)
  else .reply .ok [] (loseSource t)

/-- FRAME_SOURCE (spec/02 R65). -/
def execFrameSource (p : Packet) (s : State) : Out := .next (runCommand infoFrameSource frameSource p s)

/-! ### Device time and PPS -/

/-- Device time steps at `d` DSP clocks into the running tick; what has been latched keeps its time (spec/02 R60, R62). -/
def setTimeAt (d t : Nat) (s : State) : State :=
  modTbu (fun x => { x with time := (t + 2 ^ 96 - d * x.incr % 2 ^ 96) % 2 ^ 96, stepClock := x.clock + d }) s

/-- DSP clocks in one second. -/
abbrev secondClocks : Nat := 983040000

/-- Handling of TIME_SET: a value for the next tick boundary discards one that still waits for its PPS_IN edge, and not the other way
round (spec/02 R58, R66; log entry 136, DESIGN CHOICE). -/
def timeSet (p : Packet) (s : State) : Done :=
  let w2 := wordAt p.payload 2
  let v := pairAt p.payload 0
  check (zeroAt w2 1 31) .badParam s <|
  check (s.tbu.timeStatus != 3 && s.tbu.timeStatus != 4) .state s <|
  if bitOf w2 0 then .reply .ok [] (modTbu (fun x => { x with timeSetPps := some v }) s)
  else .reply .ok [] (modTbu (fun x => { x with timeSetNext := some v, timeSetPps := none }) s)

/-- TIME_SET (spec/02 R66). -/
def execTimeSet (p : Packet) (s : State) : Out := .next (runCommand infoTimeSet timeSet p s)

/-- A PPS_IN edge aligns the seconds, or applies a TIME_SET that waits for it, in every TIME_STATUS (spec/02 R58, R59, R66;
log entry 94, DESIGN CHOICE). -/
def ppsTime (d : Nat) (s : State) : State :=
  match s.tbu.timeSetPps with
  | some v => modTbu (fun x => { x with timeStatus := 2, timeSetPps := none }) (setTimeAt d (v * 2 ^ 32) s)
  | none =>
    if s.tbu.timeStatus = 2 then
      let t := timeAfter s d
      setTimeAt d ((t + 2 ^ 63) / 2 ^ 64 % 2 ^ 32 * 2 ^ 64) s
    else s

/-- A PPS_IN edge as a frame source (spec/02 R53): the window moves at the edge, and the next tick captures an alignment, or
that the source is not valid. An edge after the window in the tick in which it closed only opens the next. -/
def ppsFrames (clk : Nat) (s : State) : State :=
  if s.tbu.source ≠ some 4 then s
  else
    let next := modTbu (fun x => { x with ppsOpen := some clk, ppsFirst := false }) s
    let used := arrive (.align (clk + next.tbu.frameOffset)) next
    if s.tbu.ppsFirst then used
    else match s.tbu.ppsOpen with
      | none => next
      | some c =>
        if clk - c + 983 < secondClocks then arrive .sourceLost next
        else if clk - c ≤ secondClocks + 983 then used
        else arrive .sourceLost next

/-- A PPS_IN edge sampled on a DSP clock of the running tick (spec/02 R53, R59, R66). -/
def execPpsInEdge (clk : Nat) (s : State) : Out :=
  .next (if inTick s clk then ppsFrames clk (ppsTime (clk - s.tbu.clock) s) else s)

/-- A PPS window closes without an edge: the source is not valid, and the next edge only opens a window (spec/02 R53). -/
def closePpsWindow (s : State) : State :=
  match s.tbu.ppsOpen with
  | none => s
  | some c =>
    if s.tbu.source = some 4 ∧ c + secondClocks + 983 < s.tbu.clock then
      loseSource (modTbu (fun x => { x with ppsOpen := none }) s)
    else s

/-- PPS_WINDOW_CLOSE: the tick after the one in which the window closed captures it (spec/02 R43, R53). -/
def execPpsWindowClose (s : State) : Out := .next (closePpsWindow s)

/-- DSP clock of the next edge of PPS_OUT: it rises on the first clock at or after a whole second of device time, and falls PPS_WIDTH
after it rose (spec/02 R59). -/
def ppsEdgeClock (rise : Bool) (s : State) : Nat :=
  if rise then s.tbu.clock + ceilDiv ((2 ^ 64 - s.tbu.time % 2 ^ 64) % 2 ^ 64) (max 1 s.tbu.incr) else s.tbu.ppsAt + s.tbu.ppsWidth * 983040

/-- An edge of PPS_OUT that lies in the running tick, or before it (spec/02 R59). -/
def ppsEdge (rise : Bool) (s : State) : State :=
  let clk := ppsEdgeClock rise s
  if s.tbu.ppsOut != rise && decide (clk < s.tbu.clock + s.tbu.tickLen) then
    modTbu (fun x => { x with ppsOut := rise, ppsAt := if rise then clk else x.ppsAt }) s
  else s

/-- PPS_OUT rises at each whole second of device time and falls after PPS_WIDTH (spec/02 R59). -/
def execPpsOutEdge (rise : Bool) (s : State) : Out := .next (ppsEdge rise s)

/-! ### Grate phase reset -/

/-- A section is aligned at a phase reset: no resampler, and a multiple of 2^RATE clocks since the last (spec/03 R85). -/
def aligned (d : SecDef) (lastClock clk : Nat) : Bool := d.ratio == 0 && (clk - lastClock) % 2 ^ d.rate == 0

/-- Ticks for which a section that is not aligned is blanked (spec/03 R85). -/
def blankTicks (x : Section) : Nat := ceilDiv (max x.latDl x.latUl) 2048 + 1

/-- Blanks a section from a reset clock, or from that of the reset whose blank still runs: SYNC_SETTLE until the ramp after its S ticks
has run (spec/03 R85). -/
def blankSection (s : State) (clk : Nat) (x : Section) : Section :=
  let t := s.tbu.tick + (if s.tbu.clock + s.tbu.tickLen ≤ clk then 1 else 0)
  let onEdge := clk == s.tbu.clock || clk == s.tbu.clock + s.tbu.tickLen
  { x with syncSettle := true, blankFrom := if x.syncSettle then x.blankFrom else clk, blankEnd := t + blankTicks x + (if onEdge then 1 else 2) }

/-- Whether a phase reset at a DSP clock blanks a section: one that is not aligned, or one whose blank is still running
(spec/03 R85; log entry 95, DESIGN CHOICE). -/
def blanks (lastClock clk : Nat) (x : Section) : Bool :=
  transmits x.state && (x.syncSettle || x.defn.any fun d => !aligned d lastClock clk)

/-- A reset that coincides with one already performed gives its event the lower source code (spec/03 R91, R96). -/
def mergeReset (h src clk : Nat) (a : Arrival) : Arrival :=
  match a with
  | .reset g r c n b => if g = h ∧ c = clk then .reset g (min r src) c n b else a
  | _ => a

/-- Of the clocks of phase resets, latest first, those that samples of the tick which opened at `clk` may count from (spec/03 R84). -/
def keepResets (clk : Nat) (l : List Nat) : List Nat := l.takeWhile (fun c => decide (clk < c)) ++ (l.find? fun c => decide (c ≤ clk)).toList

/-- A Grate phase reset of every hearth at a DSP clock: triggers on the same clock are one reset, which reports the lowest
source code; its event is written when the next tick captures it (spec/02 R43, R61; spec/03 R84, R85, R91, R96). -/
def grateReset (src clk : Nat) (s : State) : State :=
  each (hearthsOf s) (fun h t =>
    let g := (hearthAt t h).grt
    if g.lastSrc ≠ 0 ∧ g.lastClock = clk then
      { modHearth h (fun x => { x with grt := { x.grt with lastSrc := min x.grt.lastSrc src } }) t with
        arrivals := t.arrivals.map (mergeReset h src clk) }
    else
      let n := ((hearthAt t h).sections.filter (blanks g.lastClock clk)).length
      let u := modHearth h (fun x => { x with
        grt := { x.grt with
          syncCount := incWrap 16 x.grt.syncCount, lastSrc := src, lastClock := clk
          prevClocks := keepResets t.tbu.clock (x.grt.lastClock :: x.grt.prevClocks) }
        sections := x.sections.map fun y => if blanks g.lastClock clk y then blankSection t clk y else y }) t
      arrive (.reset h src clk (hearthAt u h).grt.syncCount n) u) s

/-- After the blank and its ramp SYNC_SETTLE clears (spec/03 R85). -/
def endBlank (h i : Nat) (s : State) : State :=
  let x := secAt s h i
  if x.syncSettle && decide (x.blankEnd ≤ s.tbu.tick) then modSec h i (fun y => { y with syncSettle := false }) s else s

/-- GRT_BLANK_END (spec/03 R85). -/
def execGrtBlankEnd (h i : Nat) (s : State) : Out := .next (endBlank h i s)

/-- GRATE_SYNC resets on the first DSP clock of the tick after capture (spec/03 R84, R90). -/
def execGrateSync (p : Packet) (s : State) : Out :=
  .next (runCommand infoGrateSync (fun _ t => .reply .ok [] (modTbu (fun x => { x with grateDue := true }) t)) p s)

/-- The reset of GRATE_SYNC on the first DSP clock of the tick that has opened (spec/03 R84). -/
def grateBoundary (s : State) : State :=
  if s.tbu.grateDue then grateReset 2 s.tbu.clock (modTbu (fun x => { x with grateDue := false }) s) else s

/-! ### SYNC_N -/

/-- TICK_ALIGN: the tick in progress is lengthened so that it closes 2,048 DSP clocks after the edge (spec/02 R61). An
edge in the part by which a tick has been lengthened moves nothing (log entry 16, DEDUCED). -/
def tickAlign (clk : Nat) (s : State) : State :=
  let ramping := (allSections s).any fun g => (secAt s g.1 g.2).downRamp.isSome
  if (s.pkg = .kindling ∨ s.pkg = .ember) ∧ ramping = false then
    if clk < s.tbu.clock + 2048 then modTbu (fun x => { x with tickLen := clk + 2048 - x.clock }) s else s
  else note 0 0x0E21 [] s

/-- A falling edge of SYNC_N sampled on a DSP clock of the running tick: the phase reset and the tick grid act at once, and the
next tick captures the alignment of frames (spec/02 R43, R55, R61). -/
def execSyncNEdge (clk : Nat) (s : State) : Out :=
  .next <|
    if inTick s clk then
      let a := onlyIf s.tbu.syncGrt (grateReset 1 (clk + 1)) s
      let b := onlyIf (s.tbu.syncFrame && s.tbu.source == some 3) (fun t => arrive (.align (clk + t.tbu.frameOffset)) t) a
      let c := { b with hearths := b.hearths.map fun x =>
        if x.cap.state = 1 ∧ x.cap.trig = 2 ∧ x.cap.trigDue = none then { x with cap := { x.cap with trigDue := some clk } } else x }
      onlyIf s.tbu.syncTick (tickAlign clk) c
    else s

/-! ### Scheduled actions -/

/-- The lowest free handle (spec/02 R62). -/
def freeHandle (s : State) : Option Nat := (List.range 16).find? fun k => !s.tbu.sched.any fun e => e.1 == k

/-- Handling of TIME_SCHEDULE (spec/02 R62, R67). Bits 7:4 of word 2 belong to no field and must be 0 (log entry 96, DESIGN CHOICE). -/
def timeSchedule (p : Packet) (s : State) : Done :=
  let w := wordAt p.payload 2
  let act := fld w 0 4
  let t := pairAt p.payload 0
  let d := timeDiff t (openTime s)
  let mask := fld w 8 8
  let banks := fld w 16 8
  check ((act == 1 || act == 2) && zeroAt w 4 4 && zeroAt w 24 8) .badParam s <|
  check (act == 1 || (hearthsOf s).all fun h => (maskBits 8 mask).all fun n =>
    (bankOf (patternAt s h n) (maskHas banks n)).isSome) .badParam s <|
  check (decide (d ≤ 2 ^ 63)) .badParam s <|
  check (decide (0 < d)) .timeout s <|
  match freeHandle s with
  | none => .reply .busy [] s
  | some k =>
    let a : SchedAction := { time := t, select := act == 2, mask := mask, banks := banks }
    .reply .ok [BitVec.ofNat 32 k] (modTbu (fun x => { x with sched := kset x.sched k a }) s)

/-- TIME_SCHEDULE (spec/02 R67). -/
def execTimeSchedule (p : Packet) (s : State) : Out := .next (runCommand infoTimeSchedule timeSchedule p s)

/-- Handling of TIME_SCHEDULE_CANCEL (spec/02 R67; log entry 17, DEDUCED). -/
def timeScheduleCancel (p : Packet) (s : State) : Done :=
  let k := fld (wordAt p.payload 0) 0 4
  check (s.tbu.sched.any fun e => e.1 == k) .badParam s <|
  .reply .ok [] (modTbu (fun x => { x with sched := kerase x.sched k }) s)

/-- TIME_SCHEDULE_CANCEL (spec/02 R67). -/
def execTimeScheduleCancel (p : Packet) (s : State) : Out :=
  .next (runCommand infoTimeScheduleCancel timeScheduleCancel p s)

/-- Device time on the DSP clock before one of the running tick. -/
def timeBefore (s : State) (clk : Nat) : Nat :=
  timeValue ((s.tbu.time + (clk - s.tbu.clock) * s.tbu.incr + 2 ^ 96 - s.tbu.incr) % 2 ^ 96)

/-- A scheduled action is due at a DSP clock: GRATE_SYNC on the first one at or after its time, or at once where device time
steps over it; PATTERN_SELECT at the first frame boundary at or after it, also where device time steps over its time (spec/02 R52,
R62; log entry 137, DESIGN CHOICE). -/
def actionDue (s : State) (a : SchedAction) (clk : Nat) : Bool :=
  let reached (c : Nat) : Bool := decide (timeDiff a.time (timeAtClock s c) ≤ 0)
  reached clk && (if a.select then clk == s.tbu.boundary
    else decide (s.tbu.stepClock ≤ clk) && (clk == s.tbu.stepClock || decide (0 < timeDiff a.time (timeBefore s clk))))

/-- No action of a lower handle is due at the clock: actions due at the same instant act in handle order
(spec/02 R52, R62). -/
def actionFirst (s : State) (handle clk : Nat) : Bool :=
  s.tbu.sched.all fun e => decide (handle ≤ e.1) || !actionDue s e.2 clk

end Sys2Proof.Machine
end

