-- ==== Sys2Proof/Machine/Hif.lean ====
section
/-! DEFINITION. Machine/Hif.lean: the PCIe link and its resets, streams and capture (spec/14). -/

namespace Sys2Proof.Machine

/-! ### Rates and bandwidth -/

/-- RATIO as a factor in units of 2^-32; a section without a resampler has 1 (spec/03 R79). -/
def ratioOf (d : SecDef) : Nat := if d.ratio = 0 then 2 ^ 32 else d.ratio

/-- The processing rate Fp in units of 2^-48 samples per second (spec/03 R79): 983.04 MHz × C / 2^(RATE + 32). -/
def rateOf (d : SecDef) : Nat := 983040000 * ratioOf d * 2 ^ 16 / 2 ^ d.rate

/-- Branches of a mask. -/
def branchCount (m : Nat) : Nat := (maskBits 2 m).length

/-- Samples per branch of a stream's block (spec/14 R424). -/
def blockSamples (x : Stream) : Nat := 2 ^ (8 + x.blockLog2)

/-- Bytes of one sample of one branch (spec/14 R423). -/
def sampleBytes (x : Stream) : Nat := if x.format = 0 then 4 else 2

/-- Bytes of a block with `n` samples per branch, padded to 64 (spec/14 R419). -/
def blockBytes (x : Stream) (n : Nat) : Nat := 64 + ceilDiv (n * branchCount x.branchMask * sampleBytes x) 64 * 64

/-- B of a stream in bytes per second, in units of 2^-48 (spec/14 R423). -/
def streamBandwidth (d : SecDef) (x : Stream) : Nat :=
  rateOf d * (branchCount x.branchMask * sampleBytes x * blockSamples x + 64) / blockSamples x

/-- The stream of a section: 0 export, 1 import. -/
def streamAt (s : State) (h i kind : Nat) : Stream := if kind = 0 then (secAt s h i).exportS else (secAt s h i).importS

/-- Changes a stream. -/
def modStream (h i kind : Nat) (f : Stream → Stream) (s : State) : State :=
  modSec h i (fun y => if kind = 0 then { y with exportS := f y.exportS } else { y with importS := f y.importS }) s

/-- B of a stream whose state is at least `lo`; 0 otherwise. -/
def bandwidthAt (s : State) (h i kind lo : Nat) : Nat :=
  let x := streamAt s h i kind
  match (secAt s h i).defn with
  | some d => if lo ≤ x.state then streamBandwidth d x else 0
  | none => 0

/-- Sum of B over the streams of a kind whose state is at least `lo` (spec/14 R423). -/
def bandwidthSum (s : State) (kind lo : Nat) : Nat :=
  ((allSections s).map fun g => bandwidthAt s g.1 g.2 kind lo).foldl (· + ·) 0

/-- L of R423 in units of 2^-48 bytes per second; 0 while the link is down. -/
def linkLimit (s : State) : Nat :=
  if s.hif.gen = 0 then 0 else 48000000000 * 2 ^ 48 * s.hif.width / 16 / 2 ^ (5 - s.hif.gen)

/-- A bandwidth in MB/s, rounded up (spec/14 R423). -/
def megabytes (b : Nat) : Nat := ceilDiv b (1000000 * 2 ^ 48)

/-! ### Streams -/

/-- Writes event 0x0B10: a stream starts or stops; a stop signals the section's PF1 vector (spec/14 R415, R440). -/
def streamEvent (h i kind state cause : Nat) (s : State) : State :=
  onlyIf (state != 2) (signalPf1 (globalOf h i)) (emit h 0x0B10 [globalOf h i, kind, state, cause] s)

/-- Stops a running or waiting stream; but in DOUSED, an export that ran still delivers what waits in staging and its partial
block (spec/14 R425, R433; log entry 88, DEDUCED). -/
def stopStream (cause h i kind : Nat) (s : State) : State :=
  let on := s.pkg != .doused
  if 2 ≤ (streamAt s h i kind).state then
    streamEvent h i kind 1 cause (modStream h i kind (fun x => { x with
      state := 1, underrun := false, staged := if on then x.staged else [], ending := on && kind == 0 && x.state == 2
      stopClk := if on && x.state == 2 then s.tbu.clock + s.tbu.tickLen else 0 }) s)
  else s

/-- Stops and unconfigures a stream; its counters stay (spec/14 R426, R433). -/
def dropStream (cause h i kind : Nat) (s : State) : State :=
  let x := streamAt s h i kind
  if x.state = 0 then s
  else streamEvent h i kind 0 cause (modStream h i kind (fun x => { blocks := x.blocks, lost := x.lost, bad := x.bad }) s)

/-- Stops and unconfigures every stream of the package. -/
def dropStreams (cause : Nat) (s : State) : State :=
  each (allSections s) (fun g t => dropStream cause g.1 g.2 1 (dropStream cause g.1 g.2 0 t)) s

/-- The stream that a STREAM_CONFIG payload spells (spec/14 R424). -/
def streamFrom (ws : List Word) (old : Stream) : Stream :=
  let w := wordAt ws 0
  { state := 1, dir := fld w 1 1, branchMask := fld w 2 2, point := fld w 4 2, format := fld w 8 1, replace := bitOf w 9
    blockLog2 := fld w 12 3, irqLog2 := fld w 16 4, ringAddr := pairAt ws 1, ringLog2 := fld (wordAt ws 3) 0 5
    wbAddr := pairAt ws 4, startTime := pairAt ws 6, blocks := old.blocks, lost := old.lost, bad := old.bad }

/-- The fields of a STREAM_CONFIG payload are ones that R420 and R424 accept. -/
def streamOk (d : SecDef) (ws : List Word) : Bool :=
  let w := wordAt ws 0
  let x := streamFrom ws {}
  let imp := bitOf w 0
  zeroAt w 6 2 && zeroAt w 10 2 && zeroAt w 15 1 && zeroAt w 20 12 && zeroAt (wordAt ws 3) 5 27
    && x.branchMask != 0 && (x.branchMask &&& d.branchMask) == x.branchMask
    && decide (x.point ≤ 2) && (!imp || x.point == 0) && (imp || !x.replace)
    && x.ringAddr % 4096 == 0 && x.wbAddr % 8 == 0
    && decide (16 ≤ x.ringLog2) && decide (x.ringLog2 ≤ 30) && decide (2 * blockBytes x (blockSamples x) ≤ 2 ^ x.ringLog2)

/-- Handling of STREAM_CONFIG (spec/14 R424). -/
def streamConfig (p : Packet) (s : State) : Done :=
  let kind := fld (wordAt p.payload 0) 0 1
  let old := streamAt s p.hearth p.sect kind
  match (secAt s p.hearth p.sect).defn with
  | none => .reply .state [] s
  | some d =>
    check (decide (old.state ≤ 1)) .busy s <|
    check (streamOk d p.payload) .badParam s <|
    let x := streamFrom p.payload old
    check (decide (bandwidthSum s kind 1 - bandwidthAt s p.hearth p.sect kind 1 + streamBandwidth d x ≤ linkLimit s)) .budget s <|
    .reply .ok [] (modStream p.hearth p.sect kind (fun _ => x) s)

/-- STREAM_CONFIG (spec/14 R424). -/
def execStreamConfig (p : Packet) (s : State) : Out := .next (runCommand infoStreamConfig streamConfig p s)

/-- A stream starts, or begins to wait for START_TIME: it runs from a DSP clock on, with no sample and block number 0 (spec/14 R419,
R425). -/
def startStream (clk state : Nat) (x : Stream) : Stream :=
  { x with state := state, seq := 0, entries := [], fromClk := clk, stopClk := 0, ending := false }

/-- Handling of STREAM_CONTROL (spec/14 R425). -/
def streamControl (p : Packet) (s : State) : Done :=
  let w := wordAt p.payload 0
  let op := fld w 0 2
  let kind := fld w 4 1
  let x := streamAt s p.hearth p.sect kind
  check (decide (op ≤ 1) && zeroAt w 2 2 && zeroAt w 5 27) .badParam s <|
  if op = 0 then .reply .ok [] (stopStream 0 p.hearth p.sect kind s)
  else if x.state = 0 then .reply .state [] s
  else if 2 ≤ x.state then .reply .ok [] s
  else if x.startTime = 0 ∨ timeDiff x.startTime (nextTime s) ≤ 0 then
    .reply .ok [] (streamEvent p.hearth p.sect kind 2 0 (modStream p.hearth p.sect kind (startStream (s.tbu.clock + s.tbu.tickLen) 2) s))
  else .reply .ok [] (modStream p.hearth p.sect kind (startStream (s.tbu.clock + s.tbu.tickLen) 3) s)

/-- STREAM_CONTROL (spec/14 R425). -/
def execStreamControl (p : Packet) (s : State) : Out := .next (runCommand infoStreamControl streamControl p s)

/-- A waiting stream reaches START_TIME within the running tick (spec/14 R425). -/
def startDue (h i kind : Nat) (s : State) : State :=
  let x := streamAt s h i kind
  if x.state = 3 ∧ timeDiff x.startTime (nextTime s) ≤ 0 then
    streamEvent h i kind 2 0 (modStream h i kind (startStream (max x.fromClk s.tbu.clock) 2) s)
  else s

/-- STREAM_START_TIME (spec/14 R425). -/
def execStreamStartTime (h i kind : Nat) (s : State) : Out := .next (startDue h i kind s)

/-- A stream runs at a DSP clock, of which the device time is `time`: from its start, the first sample at or after START_TIME, to its
stop (spec/14 R425). -/
def streamRuns (x : Stream) (clk time : Nat) : Bool :=
  decide (x.fromClk ≤ clk) && (x.state == 2 || decide (clk < x.stopClk)) && (x.startTime == 0 || decide (timeDiff x.startTime time ≤ 0))

/-! ### Blocks -/

/-- An 8-bit part of FORMAT 1: the upper 8 bits of a Frac16 value, rounded (spec/00 R12; spec/14 R418). -/
def upper8 (v : Int) : Int := clampInt (-128) 127 (roundDiv v 256)

/-- The value of a sample's entry (spec/14 R418, R419). -/
def packSample (format : Nat) (z : Int × Int) : Nat :=
  if format = 0 then patternOf 16 z.1 + 65536 * patternOf 16 z.2 else patternOf 8 (upper8 z.1) + 256 * patternOf 8 (upper8 z.2)

/-- Entries of 16 bits in words, two to a word. -/
def packHalves : List Nat → List Word
  | [] => []
  | [a] => [BitVec.ofNat 32 a]
  | a :: b :: rest => BitVec.ofNat 32 (a + 65536 * b) :: packHalves rest

/-- Words padded with 0 to a multiple of 64 bytes (spec/14 R419). -/
def padBlock (ws : List Word) : List Word := ws ++ List.replicate ((16 - ws.length % 16) % 16) 0

/-- A block's header: its FILL bit and its samples; GAP and DROPPED are set on delivery (spec/14 R419, R421). -/
def blockHeader (s : State) (h i : Nat) (x : Stream) (fill : Bool) (es : List StreamSample) : List Word :=
  let e := es.headD {}
  let d := (secAt s h i).defn.getD {}
  [wordOf [(0, 6, globalOf h i), (6, 1, x.dir), (7, 2, x.branchMask), (9, 2, x.point), (11, 1, x.format), (12, 1, bit fill)],
   BitVec.ofNat 32 es.length, BitVec.ofNat 32 x.seq, 0] ++ wordsOf 2 e.time
  ++ [BitVec.ofNat 32 d.rate, BitVec.ofNat 32 d.ratio, wordOf [(0, 16, e.applied.getD 0 logMin), (16, 16, e.applied.getD 1 logMin)]]
  ++ List.replicate 7 0

/-- A block of samples: the header, then one entry per branch of each sample (spec/14 R419). -/
def blockOf (s : State) (h i : Nat) (x : Stream) (es : List StreamSample) : List Word :=
  let vs := (es.flatMap (·.v)).map (packSample x.format)
  padBlock (blockHeader s h i x false es ++ (if x.format = 0 then vs.map (BitVec.ofNat 32) else packHalves vs))

/-- A block with GAP and DROPPED for the blocks lost before it (spec/14 R419, R421). -/
def markGap (dropped : Nat) (ws : List Word) : List Word :=
  if dropped = 0 then ws else (ws.set 0 (wordAt ws 0 ||| 0x2000)).set 3 (BitVec.ofNat 32 dropped)

/-- Bytes by which the producer of a ring advances for a block: a FILL to the ring end first when it does not fit before
it (spec/14 R420). -/
def ringAdvance (x : Stream) (ptr n : Nat) : Nat := if 2 ^ x.ringLog2 < ptr + n then 2 ^ x.ringLog2 - ptr + n else n

/-- Whether an export block of `n` bytes finds room: the producer never advances onto the consumer (spec/14 R420). -/
def ringRoom (x : Stream) (n : Nat) : Bool :=
  decide (ringAdvance x x.devPtr n ≤ (x.hostPtr + 2 ^ x.ringLog2 - x.devPtr - 1) % 2 ^ x.ringLog2)

/-- The device publishes its pointer in STR_DEV_PTR and then at WB_ADDR (spec/14 R417, R420). -/
def publishPtr (ptr : Nat) (x : Stream) : Stream := { x with devPtr := ptr, wbValue := ptr }

/-- Writes one export block to the host ring, after a FILL header where it does not fit before the ring end: the pointer moves, and the
host is told every 2^IRQ_LOG2 blocks; the block carries Relaxed Ordering when the host enables it (spec/14 R415, R417, R419 to R421). -/
def deliverBlock (h i : Nat) (ws : List Word) (s : State) : State :=
  let x := streamAt s h i 0
  let n := 4 * ws.length
  let told := decide (2 ^ x.irqLog2 ≤ x.sinceIrq + 1)
  let t := modStream h i 0 (fun y => publishPtr ((y.devPtr + ringAdvance y y.devPtr n) % 2 ^ y.ringLog2) { y with
    lastBlock := markGap y.dropped ws, blockRo := s.hif.cfg1.relaxed
    lastFill := if 2 ^ y.ringLog2 < y.devPtr + n then blockHeader s h i y true [] else y.lastFill
    blocks := incWrap 16 y.blocks, dropped := 0, sinceIrq := if told then 0 else y.sinceIrq + 1 }) s
  onlyIf told (signalPf1 (globalOf h i)) t

/-- Delivers staged blocks, oldest first, while the ring has room (spec/14 R421). -/
def drainStaging (h i : Nat) : Nat → State → State
  | 0, s => s
  | fuel + 1, s =>
    let x := streamAt s h i 0
    match x.staged with
    | [] => s
    | ws :: rest =>
      if ringRoom x (4 * ws.length) = true ∧ s.hif.d3pf1 = false ∧ s.hif.d3pf0 = false then
        drainStaging h i fuel (modStream h i 0 (fun y => { y with staged := rest }) (deliverBlock h i ws s))
      else s

/-- Drops an export block (spec/14 R421, R440). -/
def dropBlock (h i : Nat) (s : State) : State :=
  let t := modStream h i 0 (fun y => { y with lost := incSat 8 y.lost, dropped := incWrap 32 y.dropped }) s
  signalPf1 (globalOf h i) (emit h 0x0B11 ([globalOf h i] ++ bytesOf 4 (streamAt t h i 0).dropped) t)

/-- The samples of the block that an export completes: S of them as soon as it has taken them, and after a stop those that are left
(spec/14 R424, R425; log entry 88, DEDUCED). -/
def exportGives (x : Stream) (clk : Nat) : List StreamSample :=
  if blockSamples x ≤ x.entries.length then x.entries.take (blockSamples x)
  else if x.ending && decide (x.stopClk ≤ clk) then x.entries else []

/-- An export block completes (spec/14 R418 to R421, R425, R433): to the host ring, to staging, or dropped. -/
def execStreamExportBlock (h i : Nat) (b : BlockIn) (s : State) : Out :=
  .next <|
    let x := streamAt s h i 0
    let es := exportGives x s.tbu.clock
    if es.isEmpty then s
    else
      let ws := blockOf s h i x es
      let t := modStream h i 0 (fun y => { y with
        seq := incWrap 32 y.seq, entries := y.entries.drop es.length, ending := y.ending && decide (es.length < y.entries.length) }) s
      if b.memErr then dropBlock h i (raiseSource 0 3 t)
      else if s.hif.d3pf0 || s.hif.d3pf1 then dropBlock h i t
      else if x.staged = [] ∧ ringRoom x (4 * ws.length) = true then deliverBlock h i ws t
      else if x.staged.length < 8 then modStream h i 0 (fun y => { y with staged := y.staged ++ [ws] }) t
      else dropBlock h i t

/-- The header of an import block matches its stream (spec/14 R422). -/
def importMatches (h i : Nat) (x : Stream) (w : Word) : Bool :=
  fld w 0 6 == globalOf h i && fld w 6 1 == x.dir && fld w 7 2 == x.branchMask && fld w 11 1 == x.format

/-- Sample `n` of an import block, for branches 0 and 1 (spec/14 R419, R422). -/
def importSample (x : Stream) (ws : List Word) (n : Nat) : StreamSample :=
  let at_ (b : Nat) : Int × Int :=
    if maskHas x.branchMask b then
      let k := n * branchCount x.branchMask + (if b = 1 ∧ maskHas x.branchMask 0 = true then 1 else 0)
      if x.format = 0 then (sfld (wordAt ws (16 + k)) 0 16, sfld (wordAt ws (16 + k)) 16 16)
      else (256 * sfld (wordAt ws (16 + k / 2)) (16 * (k % 2)) 8, 256 * sfld (wordAt ws (16 + k / 2)) (16 * (k % 2) + 8) 8)
    else (0, 0)
  { v := [at_ 0, at_ 1] }

/-- Samples per branch of a block, at most 32,768 (spec/14 R419). -/
def blockCount (ws : List Word) : Nat := min (fld (wordAt ws 1) 0 16) 32768

/-- No block is ready for a running import: it feeds 0 and counts, and the first of a run writes its event (spec/14 R415, R422, R433,
R440). -/
def underrun (h i : Nat) (s : State) : State :=
  signalPf1 (globalOf h i) (onlyIf (!(streamAt s h i 1).underrun) (emit h 0x0B12 [globalOf h i])
    (modStream h i 1 (fun y => { y with underrun := true, lost := incSat 8 y.lost }) s))

/-- Blocks that an import ring holds for the device, from a pointer on. -/
def ringHolds (x : Stream) (ptr : Nat) : Nat := (x.hostPtr + 2 ^ x.ringLog2 - ptr) % 2 ^ x.ringLog2 / blockBytes x (blockSamples x)

/-- The device takes an import ring's data up to a pointer and publishes it; a ring that falls to 2^IRQ_LOG2 blocks or fewer signals (spec/14
R415, R420). -/
def consumeTo (h i ptr : Nat) (s : State) : State :=
  let x := streamAt s h i 1
  onlyIf (decide (2 ^ x.irqLog2 < ringHolds x x.devPtr ∧ ringHolds x ptr ≤ 2 ^ x.irqLog2)) (signalPf1 (globalOf h i))
    (modStream h i 1 (publishPtr ptr) s)

/-- An import block is taken from the host ring, skipped as bad, or missing once the samples before it are fed; a FILL header leads back
to the start of the ring, and a block of failed staging memory is fed as 0 (spec/14 R415, R420, R422, R433, R439). -/
def execStreamImportBlock (h i : Nat) (b : BlockIn) (s : State) : Out :=
  .next <|
    let x := streamAt s h i 1
    let w := wordAt b.words 0
    if x.state ≠ 2 then s
    else if !b.ready || x.devPtr == x.hostPtr || s.hif.d3pf0 || s.hif.d3pf1 then (if x.entries.isEmpty then underrun h i s else s)
    else if bitOf w 12 then consumeTo h i 0 s
    else
      let count := blockCount b.words
      let ptr := (x.devPtr + blockBytes x count) % 2 ^ x.ringLog2
      if importMatches h i x w then
        let es := (List.range count).map fun n => if b.memErr then { v := [(0, 0), (0, 0)] } else importSample x b.words n
        let t := modStream h i 1 (fun y => { y with
          underrun := false, blocks := incWrap 16 y.blocks, seq := incWrap 32 y.seq, entries := y.entries ++ es }) (consumeTo h i ptr s)
        onlyIf b.memErr (raiseSource 0 3) t
      else modStream h i 1 (fun y => { y with bad := incSat 8 y.bad }) (consumeTo h i ptr s)

/-- The host writes its stream pointer; outside the ring the write is ignored and counted (spec/14 R436, R437). -/
def execStrHostPtrWrite (h i kind ptr : Nat) (s : State) : Out :=
  .next <|
    let x := streamAt s h i kind
    let v := ptr / 64 * 64 % 2 ^ 30
    if !present s h || decide (8 ≤ i) || s.pkg == .doused then s
    else if x.state = 0 ∨ 2 ^ x.ringLog2 ≤ v then modStream h i kind (fun y => { y with bad := incSat 8 y.bad }) s
    else
      let t := modStream h i kind (fun y => { y with hostPtr := v }) s
      if kind = 0 then drainStaging h i 8 t else t

/-! ### The link -/

/-- Changes the link's generation and width and writes event 0x0127 (spec/14 R440). -/
def setLink (gen width : Nat) (s : State) : State :=
  if s.hif.gen = gen ∧ s.hif.width = width then s
  else emit 0 0x0127 [gen, width] (modHif (fun x => { x with gen := gen, width := width }) s)

/-- Stops streams of a kind, from the highest section down, until their bandwidth fits (spec/14 R423; log entry 21, DEDUCED). -/
def fitStreams (kind : Nat) (s : State) : State :=
  each (allSections s).reverse (fun g t =>
    if linkLimit t < bandwidthSum t kind 2 then stopStream 1 g.1 g.2 kind t else t) s

/-- The link trains to a rate and width (spec/14 R408, R423, R434). -/
def execLinkRetrain (gen width : Nat) (s : State) : Out :=
  .next <|
    if 1 ≤ gen ∧ gen ≤ 5 ∧ (width = 4 ∨ width = 8 ∨ width = 16) then
      fitStreams 1 (fitStreams 0 (setLink gen width (modHif (fun x => { x with training := false }) s)))
    else s

/-! ### Configuration space -/

/-- Configuration requests are answered with retry status, and change nothing, until the link has trained (spec/14 R434). -/
def configReady (s : State) : Bool := !s.hif.training

/-- A write to MSI-X Message Control: bit 31 MSI-X Enable, bit 30 Function Mask (spec/14 R410, R414; log entry 147, PRESUMED). -/
def msixControl (v : Word) (m : Msix) : Msix := msixFlush { m with enable := bitOf v 31, funcMask := bitOf v 30 }

/-- A 64-bit BAR of a size takes the bits above it (spec/14 R411). -/
def setBar (size : Nat) (upper : Bool) (v : Word) (old : Nat) : Nat :=
  if upper then old % 2 ^ 32 + v.toNat * 2 ^ 32 else old / 2 ^ 32 * 2 ^ 32 + v.toNat / size * size

/-- Sizes of BAR0 of a physical function, and of BAR2 of PF0 or VF BAR0 (spec/14 R411). -/
def barSizes (f : Nat) : Nat × Nat := if f = 0 then (2 ^ 28, 2 ^ 20) else (2 ^ 24, 2 ^ 16)

/-- A configuration write to a control field of a physical function: BARs, the PCI Express capability at 0x070, and AER at 0x100, of which only
the values that R408 supports are taken (spec/14 R408, R410, R411; log entry 147, PRESUMED). -/
def writePci (f a : Nat) (v : Word) (x : PciCfg) : PciCfg :=
  let second := if f = 0 then 0x18 else 0x324
  if a = 0x10 ∨ a = 0x14 then { x with bar0 := setBar (barSizes f).1 (a == 0x14) v x.bar0 }
  else if a = second ∨ a = second + 4 then { x with bar2 := setBar (barSizes f).2 (a == second + 4) v x.bar2 }
  else if a = 0x78 then
    { x with
      relaxed := bitOf v 4, mps := if fld v 5 3 ≤ 2 then fld v 5 3 else x.mps, mrrs := if fld v 12 3 ≤ 5 then fld v 12 3 else x.mrrs }
  else if a = 0x80 then { x with aspmL1 := bitOf v 1 }
  else if a = 0x98 then { x with timeout := fld v 0 4, tag10 := bitOf v 12 }
  else if a = 0x104 then { x with uncStatus := x.uncStatus &&& (v.toNat ^^^ 0xFFFFFFFF) }
  else if a = 0x118 then { x with ecrcGen := bitOf v 6, ecrcCheck := bitOf v 8 }
  else x

/-- A configuration write to function `f`: 0 PF0, 1 PF1, 1 + n VF n, which exists while VF Enable is set (spec/14 R408, R410, R411, R414, R434;
log entry 147, PRESUMED). -/
def writeConfig (f a : Nat) (v : Word) (s : State) : State :=
  if configReady s = false then s
  else if f = 0 then
    modHif (fun x => if a = 0x50 then { x with pf0 := msixControl v x.pf0 } else { x with cfg0 := writePci 0 a v x.cfg0 }) s
  else if f = 1 then
    modHif (fun x =>
      if a = 0x50 then { x with pf1 := msixControl v x.pf1 }
      else if a = 0x308 then { x with vfEnable := bitOf v 0, vfs := if bitOf v 0 then x.vfs else List.replicate 30 {} }
      else { x with cfg1 := writePci 1 a v x.cfg1 }) s
  else if s.hif.vfEnable = true ∧ a = 0x50 then modHif (fun x => { x with vfs := x.vfs.modify (f - 2) (msixControl v) }) s
  else s

/-- Ends an ARM that waits, without a reply, and its capture (spec/14 R431, R433). -/
def abortCaptures (s : State) : State :=
  each (hearthsOf s) (fun h t => stopCapture h (each (heldFor t 0x0B04 h) dropHeld t)) s

/-- What PERST_N, a hot reset and a function-level reset of PF0 do to its queues and privilege: implicit privilege returns from the
first boundary after the reset (spec/14 R433,
spec/20 R590). -/
def resetPf0 (s : State) : State :=
  let t := each (List.range 64) (fun q u => modQueue q (fun _ => {}) (dropQueueHeld q u)) s
  modCpx (fun c => { c with unlocked := false, privFrom := s.tbu.tick + 1 }) (modHif (fun x => { x with pf0 := {}, cfg0 := {}, d3pf0 := false }) (abortCaptures t))

/-- PERST_N low (0), a hot reset (1) or DL_Down (2) (spec/14 R433, R439). -/
def execLinkReset (cause : Nat) (s : State) : Out :=
  .next <|
    let t := onlyIf (cause == 2) (raiseSource 0 0) s
    let u := dropStreams 3 (resetPf0 t)
    setLink 0 0 (modHif (fun x => { x with
      training := true, d3pf1 := false, vfEnable := false, pf1 := {}, cfg1 := {}, vfs := List.replicate 30 {} }) u)

/-- PERST_N rises: the link begins training (spec/14 R434). -/
def execPerstNRise (s : State) : Out := .next (modHif (fun x => { x with training := true }) s)

/-- A function-level reset of PF0 (spec/14 R433). -/
def execFlrPf0 (s : State) : Out := .next (resetPf0 s)

/-- A function-level reset of PF1: VF Enable clears and the streams stop, unconfigured (spec/14 R433). -/
def execFlrPf1 (s : State) : Out :=
  .next (dropStreams 3 (modHif (fun x => { x with vfEnable := false, pf1 := {}, cfg1 := {}, d3pf1 := false, vfs := List.replicate 30 {} }) s))

/-- A function-level reset of VF `n` (spec/14 R433). -/
def execFlrVf (n : Nat) (s : State) : Out :=
  .next (if n = 0 then s else modHif (fun x => { x with vfs := x.vfs.modify (n - 1) fun _ => {} }) s)

/-- PF0 or PF1 enters or leaves D3hot (spec/14 R433). -/
def execD3hotChange (pf : Nat) (enter : Bool) (s : State) : Out :=
  .next <|
    let t := modHif (fun x => if pf = 0 then { x with d3pf0 := enter } else if pf = 1 then { x with d3pf1 := enter } else x) s
    if enter then t else each (allSections t) (fun g => drainStaging g.1 g.2 8) t

/-- AER notes a Completion Timeout of a requester: bit 14 of its status, and the First Error Pointer at the first error (spec/14 R408, R410; log
entry 147, PRESUMED). -/
def noteTimeout (x : PciCfg) : PciCfg :=
  { x with uncStatus := x.uncStatus ||| 2 ^ 14, firstError := if x.uncStatus = 0 then 14 else x.firstError }

/-- A DMA read fails: source 2, and its stream or capture stops (spec/14 R417, R440). -/
def execDmaReadErr (d : DmaErr) (s : State) : Out :=
  .next <|
    if d.capture then
      if (hearthAt s d.hearth).cap.state = 0 then s
      else
        let t := onlyIf d.timeout (modHif fun x => { x with cfg0 := noteTimeout x.cfg0 }) s
        raiseSource 0 2 (stopCapture d.hearth (endHeldFor 0x0B04 d.hearth .internal [] t))
    else if 2 ≤ (streamAt s d.hearth d.sect d.kind).state then
      let t := onlyIf d.timeout (modHif fun x => { x with cfg1 := noteTimeout x.cfg1 }) s
      raiseSource 0 2 (stopStream 4 d.hearth d.sect d.kind t)
    else s

/-! ### Capture -/

/-- Changes the capture engine of a hearth. -/
def modCap (h : Nat) (f : Cap → Cap) (s : State) : State := modHearth h (fun x => { x with cap := f x.cap }) s

/-- The capture region of a hearth in MiB: the installed capacity less 256 MiB (spec/16 R496). -/
def captureMib (x : Xmc) : Nat := if x.ranks2 || x.d32 then 65280 else 32512

/-- Usable DRAM bandwidth in bytes per second (spec/16 R494). -/
def usableBandwidth (x : Xmc) : Nat :=
  if x.speed = 1 then 30720000000 else if x.speed = 2 then 35840000000 else if x.speed = 3 then 40960000000 else 0

/-- Real-time demand of the split directions that a hearth receives, one for each split section, in units of 2^-48 bytes
per second (spec/16 R497). -/
def splitDemand (s : State) (h : Nat) : Nat :=
  ((hearthAt s h).sections.map fun x =>
    match x.defn with
    | some d => if x.split.role = 0 then 0 else 8 * branchCount d.branchMask * rateOf d
    | none => 0).foldl (· + ·) 0

/-- Real-time demand of `n` capture sources in units of 2^-48 bytes per second (spec/16 R497). -/
def captureDemand (n : Nat) : Nat := n * 3932160000 * 2 ^ 48

/-- Sources of a capture that is ARMED or RECORDING (spec/16 R497). -/
def liveSources (x : Cap) : Nat :=
  if x.state = 1 ∨ x.state = 2 then ((x.cfg.map fun c => c.srcs.length)).getD 0 else 0

/-- The split directions that a hearth receives and `n` capture sources fit into its usable bandwidth (spec/01 R23,
spec/16 R497). -/
def demandFits (s : State) (h n : Nat) : Bool :=
  decide (captureDemand n + splitDemand s h ≤ usableBandwidth (hearthAt s h).xmc * 2 ^ 48)

/-- The four SRC fields that name a chain (spec/14 R430). -/
def captureSources (w : Word) : List Nat := ((List.range 4).map fun k => fld w (4 * k) 4).filter (· != 15)

/-- The capture configuration that a payload spells (spec/14 R430). -/
def captureFrom (ws : List Word) : CapCfg :=
  let w := wordAt ws 0
  { srcs := captureSources w, word0 := fld w 0 17, spectrum := bitOf w 16, length := fld (wordAt ws 1) 0 24
    pre := fld (wordAt ws 2) 0 24, fftLog2 := fld (wordAt ws 3) 0 5, avgLog2 := fld (wordAt ws 3) 8 5
    hostAddr := pairAt ws 4, trigTime := pairAt ws 6 }

/-- The fields of CAPTURE_CONFIG are ones that R430 accepts. -/
def captureOk (ws : List Word) : Bool :=
  let x := captureFrom ws
  let w3 := wordAt ws 3
  zeroAt (wordAt ws 0) 17 15 && zeroAt (wordAt ws 1) 24 8 && zeroAt (wordAt ws 2) 24 8 && zeroAt w3 5 3 && zeroAt w3 13 19
    && !x.srcs.isEmpty && x.srcs.all (fun n => decide (n ≤ 9)) && decide x.srcs.Nodup
    && x.hostAddr % 4096 == 0 && x.hostAddr != 0
    && (if x.spectrum then decide (10 ≤ x.fftLog2) && decide (x.fftLog2 ≤ 16) && decide (x.avgLog2 ≤ 16)
        else decide (1 ≤ x.length) && decide (x.pre ≤ x.length))

/-- Handling of CAPTURE_CONFIG (spec/14 R430, spec/16 R497). -/
def captureConfig (p : Packet) (s : State) : Done :=
  let h := p.hearth
  let x := captureFrom p.payload
  let m := (hearthAt s h).xmc
  check (captureOk p.payload) .badParam s <|
  check ((hearthAt s h).cap.state == 0) .busy s <|
  check (x.spectrum || decide (x.srcs.length * (x.length * 4096) ≤ captureMib m * 2 ^ 20)) .budget s <|
  check (demandFits s h x.srcs.length) .budget s <|
  .reply .ok [] (modCap h (fun c => { c with cfg := some x }) s)

/-- CAPTURE_CONFIG (spec/14 R430). -/
def execCaptureConfig (p : Packet) (s : State) : Out := .next (runCommand infoCaptureConfig captureConfig p s)

/-- Handling of CAPTURE_ARM (spec/14 R428, R431; log entry 89, DEDUCED). -/
def captureArm (p : Packet) (s : State) : Done :=
  let h := p.hearth
  let w := wordAt p.payload 0
  let w1 := wordAt p.payload 1
  let op := fld w 0 2
  let trig := fld w 4 3
  let x := (hearthAt s h).cap
  let clk := s.tbu.clock + s.tbu.tickLen
  check (decide (op ≤ 1) && decide (trig ≤ 4) && zeroAt w 2 2 && zeroAt w 7 9 && zeroAt w1 16 16) .badParam s <|
  if op = 1 then
    check (x.state != 0) .state s <|
    .reply .ok [] (stopCapture h (endHeldFor 0x0B04 h .aborted [] s))
  else
    check (x.state == 0 && x.cfg.isSome) .state s <|
    let dl := if fld w1 0 16 = 0 then none else some (s.tbu.tick + fld w1 0 16 * 480)
    .hold h dl (modCap h (fun c => { c with
      state := 1, buf := [], bufClk := clk, trig := trig, event := fld w 16 16, armClock := clk, deadline := dl
      shortPre := false, dramErr := false, lost := [], trigDue := if trig = 0 then some clk else none }) s)

/-- CAPTURE_ARM (spec/14 R431). -/
def execCaptureArm (p : Packet) (s : State) : Out := .next (runCommand infoCaptureArm captureArm p s)

/-- CAP_STATUS of a hearth (spec/14 R435). -/
def capStatus (c : Cap) : Word :=
  wordOf [(0, 2, c.state), (2, 1, bit c.shortPre), (3, 1, bit c.dramErr), (16, 16, c.captures)]

/-- CAPTURE_QUERY (spec/14 R432). -/
def execCaptureQuery (p : Packet) (s : State) : Out :=
  .next (runCommand infoCaptureQuery (fun p t =>
    let x := hearthAt t p.hearth
    .reply .ok ([capStatus x.cap, BitVec.ofNat 32 (captureMib x.xmc)] ++ x.cap.last ++ [0, 0]) t) p s)

/-- Whether a DSP clock of the running tick is the trigger point of an armed capture (spec/14 R428). -/
def triggersAt (s : State) (c : Cap) (clk : Nat) : Bool :=
  let due (time : Nat) : Bool := decide (timeDiff (c.cfg.getD {}).trigTime time ≤ 0)
  c.state == 1 && (c.trigDue == some clk || (c.trig == 1 && clk == s.tbu.frameStart && decide (c.armClock ≤ clk))
    || (c.trig == 4 && decide (c.armClock ≤ clk) && due (timeAtClock s clk) && (clk == c.armClock || !due (timeBefore s clk))))

/-- The trigger point of an armed capture lies in the running tick, and its row has still to come (spec/02 R44, spec/14 R428). -/
def triggerArrived (s : State) (c : Cap) : Bool :=
  let last := s.tbu.clock + s.tbu.tickLen - 1
  c.trigDue.any (fun k => decide (k ≤ last)) || (c.trig == 1 && inTick s s.tbu.frameStart && decide (c.armClock ≤ s.tbu.frameStart))
    || (c.trig == 4 && decide (c.armClock ≤ last) && decide (timeDiff (c.cfg.getD {}).trigTime (timeAtClock s last) ≤ 0))

/-- The trigger point of an armed capture occurs (spec/14 R428). -/
def execCaptureTrigger (h clk : Nat) (s : State) : Out :=
  .next <|
    let c := (hearthAt s h).cap
    let cfg := c.cfg.getD {}
    if inTick s clk && triggersAt s c clk then
      let before := if cfg.spectrum then 0 else min (cfg.pre * 1024) (clk - c.armClock)
      let short := !cfg.spectrum && decide (before < cfg.pre * 1024)
      modCap h (fun x => { x with
        state := 2, trigDue := none, deadline := none, shortPre := short
        buf := x.buf.map fun l => l.drop (clk - before - x.bufClk), bufClk := clk - before
        trigTime := timeAtClock s clk, firstTime := timeValue ((s.tbu.time + 2 ^ 96 + (clk - s.tbu.clock) * s.tbu.incr - before * s.tbu.incr) % 2 ^ 96)
        entries := if cfg.spectrum then 2 ^ cfg.avgLog2 else cfg.length * 1024 - (cfg.pre * 1024 - before) }) s
    else s

/-- Samples of each source that a triggered capture records (spec/14 R427, R428). -/
def captureNeeds (c : Cap) : Nat := if (c.cfg.getD {}).spectrum then c.entries * 2 ^ (c.cfg.getD {}).fftLog2 else c.entries

/-- Recording ends and readout begins (spec/14 R428, R429). -/
def execCaptureRecordDone (h : Nat) (s : State) : Out :=
  .next <|
    let c := (hearthAt s h).cap
    if c.state = 2 ∧ c.buf.all (fun l => decide (captureNeeds c ≤ l.length)) = true then modCap h (fun x => { x with state := 3 }) s else s

/-- The flags of a capture (spec/14 R429). -/
def captureFlags (c : Cap) : Nat := bitNat c.shortPre + 2 * bitNat c.dramErr

/-- The Hann window at sample `n` of `size`, in units of 2^-97 (spec/05 R146, spec/14 R427; log entry 110, DEDUCED). -/
def hannOf (size n : Nat) : Int := 2 ^ 96 - cosPi (2 * n) size

/-- |X|² of bin `k` of a Hann-windowed transform of samples, at the offset (k − N/2) · rate / N (spec/05 R146, spec/14 R427). -/
def binNorm (xs : List (Int × Int)) (k : Nat) : Nat :=
  let size := xs.length
  let z := xs.zipIdx.foldl (fun (a : Int × Int) e =>
    let w := hannOf size e.2
    let ph : Int := 2 * ((k : Int) - size / 2) * e.2
    let c := cosPi ph size
    -- the sine is the cosine a quarter turn back
    let s := cosPi (2 * ph - size) (2 * size)
    (a.1 + w * (e.1.1 * c + e.1.2 * s), a.2 + w * (e.1.2 * c - e.1.1 * s))) (0, 0)
  (z.1 * z.1 + z.2 * z.2).toNat

/-- |X|² of a full-scale carrier at its bin of a transform of `size` samples. -/
def fullNorm (size : Nat) : Nat := 2 ^ 416 * (size / 2) ^ 2

/-- Bin `k` of a SPECTRUM capture: the mean and the highest of its transforms (spec/14 R427). -/
def spectrumWord (size : Nat) (xs : List (List (Int × Int))) (k : Nat) : Word :=
  let ps := xs.map fun x => binNorm x k
  wordOf [(0, 16, logRatio (ps.foldl (· + ·) 0) (xs.length * fullNorm size)), (16, 16, logRatio (ps.foldl max 0) (fullNorm size))]

/-- What a capture holds of a source, in the layout of R419 or as bins (spec/14 R427). -/
def sourceWords (c : Cap) (xs : List (Int × Int)) : List Word :=
  let cfg := c.cfg.getD {}
  let size := 2 ^ cfg.fftLog2
  if cfg.spectrum then
    (List.range size).map (spectrumWord size ((List.range c.entries).map fun n => (xs.drop (n * size)).take size))
  else (xs.take c.entries).map fun z => BitVec.ofNat 32 (packSample 0 z)

/-- The data of a capture with the lines that a DRAM error has lost read as 0: a line of the memory is 16 words (spec/14 R429, spec/16 R499). -/
def lostLines (c : Cap) (ws : List Word) : List Word :=
  ws.zipIdx.map fun e => if c.lost.contains (e.2 / 16) then 0 else e.1

/-- What a readout writes to HOST_ADDR: a header, then each source (spec/14 R429). -/
def captureImage (c : Cap) : List Word :=
  let cfg := c.cfg.getD {}
  [BitVec.ofNat 32 cfg.word0, BitVec.ofNat 32 (if cfg.spectrum then 2 ^ cfg.fftLog2 else c.entries)] ++ wordsOf 2 c.firstTime
    ++ wordsOf 2 c.trigTime ++ [BitVec.ofNat 32 (captureFlags c)] ++ List.replicate 9 0 ++ lostLines c (c.buf.flatMap (sourceWords c))

/-- Readout completes: its image is in host memory, the held ARM replies, and the completion signals its vector; in D3hot readout waits
(spec/14 R417, R429, R431, R433, R435, R440). -/
def execCaptureReadoutDone (h : Nat) (s : State) : Out :=
  .next <|
    let c := (hearthAt s h).cap
    if c.state ≠ 3 ∨ s.hif.d3pf0 = true ∨ s.hif.d3pf1 = true then s
    else
      let words := wordsOf 2 c.trigTime ++ [BitVec.ofNat 32 c.entries, BitVec.ofNat 32 (captureFlags c)]
      let t := modCap h (fun x => { x with state := 0, captures := incWrap 16 x.captures, last := words, image := captureImage c, imageRo := s.hif.cfg0.relaxed, buf := [] }) s
      let u := emit h 0x0B13 ([h, captureFlags c] ++ bytesOf 8 c.trigTime) (endHeldFor 0x0B04 h .ok words t)
      onlyIf u.hif.capIen (signalPf0 u.hif.capVector) u

/-- The TIMEOUT of an armed capture expires (spec/14 R428, R431). -/
def captureExpiry (h : Nat) (s : State) : State :=
  let c := (hearthAt s h).cap
  if c.state = 1 ∧ c.deadline.any (fun d => decide (d ≤ s.tbu.tick)) = true then endHeldFor 0x0B04 h .timeout [] (stopCapture h s)
  else s

/-- CAPTURE_TIMEOUT: a trigger of the running tick counts as in time (spec/02 R44; spec/14 R428, R431). -/
def execCaptureTimeout (h : Nat) (s : State) : Out :=
  .next (if triggerArrived s (hearthAt s h).cap then s else captureExpiry h s)

/-- HIF_CTRL.CNT_CLR clears every STR_CNT (spec/14 R435); in DOUSED the write has no effect (R433, R603). -/
def execHifCntClr (s : State) : Out :=
  .next <|
    if s.pkg != .doused then
      { s with hearths := s.hearths.map fun x => { x with sections := x.sections.map fun y =>
        { y with
          exportS := { y.exportS with blocks := 0, lost := 0, bad := 0 }
          importS := { y.importS with blocks := 0, lost := 0, bad := 0 } } } }
    else s

end Sys2Proof.Machine
end

