-- ==== Sys2Proof/Machine/Chains.lean ====
section
/-! DEFINITION. Machine/Chains.lean: chains, canceller paths and synthesisers of a hearth: who uses what, loading of
chains, tap resets, channel changes, and the gain split (spec/04 R97, R106; spec/08 R232 to R245; spec/09 R290).
A direction and branch, its RX chain and its TX port all carry the number k = 2 × direction + branch of R94. -/

namespace Sys2Proof.Machine

/-! ### Sections, paths and chains -/

/-- Branches that a definition uses. -/
def usedBranches (d : SecDef) : List Nat := maskBits 2 d.branchMask

/-- Directions and branches that a definition uses, in the order of R94. -/
def usedIdx (d : SecDef) : List Nat := [0, 1].flatMap fun dir => (usedBranches d).map fun b => 2 * dir + b

/-- Whether a section's definition uses direction and branch `k`. -/
def usesIdx (x : Section) (k : Nat) : Bool := x.defn.any fun d => maskHas d.branchMask (k % 2)

/-- The direction that a device transmits of a split section, from frames of its peer: the uplink on the head, the downlink on the
remote (spec/15 R467). -/
def splitDir (x : Split) : Nat := if x.role = 1 then 1 else 0

/-- Whether frames of a peer, and no chain, give a section's direction its input (spec/15 R467). -/
def fromFrames (x : Section) (dir : Nat) : Bool := x.split.role != 0 && splitDir x.split == dir

/-- Whether a section sends through the TX chain of direction and branch `k`: the head of a split section sends the uplink alone,
its remote the downlink (spec/15 R467). -/
def sendsIdx (x : Section) (k : Nat) : Bool :=
  usesIdx x k && (x.split.role == 0 || (x.split.role == 1) == (k / 2 == 1))

/-- RXG that SPA and BLW use for a section's direction and branch: of a direction received in frames, the one they carry
(spec/15 R469). -/
def rxgUsed (x : Section) (k : Nat) : LogQ :=
  if x.split.role != 0 && sendsIdx x k then x.split.rxg.getD (k % 2) 0 else x.rxg.getD k 0

/-- Directions and branches in use by a section; none while it is COLD. -/
def idxOf (x : Section) : List Nat := ((x.defn.map usedIdx).getD [])

/-- The defined sections of a hearth that use `k`. -/
def usersOf (s : State) (h k : Nat) : List Nat := (List.range 8).filter fun i => usesIdx (secAt s h i) k

/-- Whether a section that transmits, or starts in the running tick, uses `k`. -/
def busyIdx (s : State) (h k : Nat) : Bool := (usersOf s h k).any fun i => transmits (secNow (secAt s h i))

/-- Whether any section of a hearth transmits, or starts in the running tick. -/
def hearthTransmits (s : State) (h : Nat) : Bool := (List.range 8).any fun i => transmits (secNow (secAt s h i))

/-- Path `p` of hearth `h` (spec/04 R97). -/
def pathAt (s : State) (h p : Nat) : Path := (hearthAt s h).paths.getD p {}

/-- Changes a path. -/
def modPath (h p : Nat) (f : Path → Path) (s : State) : State :=
  modHearth h (fun x => { x with paths := x.paths.modify p f }) s

/-- Direction of a path (spec/04 R97). -/
def pathDir (p : Nat) : Nat := p % 8 / 4

/-- RX chain of a path. -/
def pathRx (p : Nat) : Nat := 2 * pathDir p + p % 2

/-- TX port of a path. -/
def pathTx (p : Nat) : Nat := 2 * pathDir p + p % 4 / 2

/-- Enabled paths of a hearth, rising. -/
def enabledPaths (s : State) (h : Nat) : List Nat := (List.range 64).filter fun p => (pathAt s h p).enabled

/-- Whether a path uses a chain, numbered as in R277 (spec/08 R239). -/
def pathUses (x : Path) (p n : Nat) : Bool :=
  if n < 4 then pathRx p == n else if n < 8 then pathTx p + 4 == n else x.orx && p % 4 / 2 + 8 == n

/-- Changes the damper's record of a direction and RX branch. -/
def modBr (h i k : Nat) (f : DmpBr → DmpBr) (s : State) : State :=
  modSec h i (fun x => { x with dmp := { x.dmp with br := x.dmp.br.modify k f } }) s

/-- Sets the taps of an enabled path to 0 and starts acquisition, and leaves one that is not enabled alone (log entry 109, DESIGN CHOICE); its
branch has no measurement until it publishes
(spec/04 R106, R114; spec/05 R141). -/
def resetTaps (h p : Nat) (s : State) : State :=
  if (pathAt s h p).enabled then
    modBr h (p / 8) (pathRx p) (fun b => { b with suppLast := none })
      (modPath h p (fun x => { x with
        taps := List.replicate x.len {}, exp := 15, acq := true, acqTick := s.tbu.tick + 1, published := false }) s)
  else s

/-- Resets the taps of every enabled path that uses a chain (spec/08 R239). -/
def resetChainTaps (h n : Nat) (s : State) : State :=
  each ((enabledPaths s h).filter fun p => pathUses (pathAt s h p) p n) (resetTaps h) s

/-! ### Calibration set and gains -/

/-- ITEM_ID of a calibration item (spec/11 R339). -/
def itemId (typ h idx : Nat) : Nat := typ + 256 * h + 4096 * idx

/-- Words of an intact item in the working copy (spec/11 R341). -/
def workItem (s : State) (id : Nat) : Option (List Word) :=
  (kget s.limits.working id).bind fun x => if x.crcOk then some x.words else none

/-- Whether an item of the working copy fails its CRC (spec/11 R341). -/
def itemBad (s : State) (id : Nat) : Bool := (kget s.limits.working id).any fun x => !x.crcOk

/-- Reads an item and raises source 482 for a CRC failure (spec/11 R341, R350). -/
def itemCheck (id : Nat) (s : State) : State := onlyIf (itemBad s id) (raiseSource 0 482) s

/-- Grid value `i` of an RX_GAIN or ORX_GAIN item (spec/11 R340). -/
def gridValue (ws : List Word) (i : Nat) : LogQ := sfld (wordAt ws (2 + i / 2)) (16 * (i % 2)) 16

/-- A grid read at a frequency: linear between points, end values outside (spec/11 R340). -/
def gridAt (ws : List Word) (f : Nat) : LogQ :=
  let first := (wordAt ws 0).toNat
  let step := (wordAt ws 1).toNat
  if f ≤ first ∨ step = 0 then gridValue ws 0
  else if first + 63 * step ≤ f then gridValue ws 63
  else
    let i := (f - first) / step
    let r := (f - first) % step
    roundDiv (gridValue ws i * ((step - r : Nat) : Int) + gridValue ws (i + 1) * (r : Int)) step

/-- The 8 correction hardware values that a CHAIN_CORR item gives: those of the grid point at the frequency, and outside the grid of its
end; between points, and of an empty item, the spec gives no values (spec/11 R340, R341; log entry 7, DESIGN CHOICE). -/
def correctionAt (ws : List Word) (f a : Nat) : List Word :=
  let first := (wordAt ws 0).toNat
  let step := (wordAt ws 1).toNat
  let point (i : Nat) : List Word := (List.range 8).map fun k => wordAt ws (2 + 8 * i + k)
  if ws.isEmpty then Config.chainCorrection [] f a
  else if f ≤ first ∨ step = 0 then point 0
  else if first + 63 * step ≤ f then point 63
  else if (f - first) % step = 0 then point ((f - first) / step)
  else Config.chainCorrection ws f a

/-- Conversion gain of a chain at a frequency and an attenuation, with the default of a missing item
(spec/11 R341). -/
def chainGain (ws : List Word) (dflt : LogQ) (f a : Nat) : LogQ :=
  if ws.isEmpty then satLog (dflt - 256 * (a : Int))
  else satLog (gridAt ws f - 256 * (a : Int) + sfld (wordAt ws (34 + a / 2)) (16 * (a % 2)) 16)

/-- A TX port of a hearth. -/
def portAt (s : State) (h c : Nat) : Port := (hearthAt s h).ports.getD c {}

/-- Changes a TX port. -/
def modPort (h c : Nat) (f : Port → Port) (s : State) : State :=
  modHearth h (fun x => { x with ports := x.ports.modify c f }) s

/-- Changes the chains of a hearth. -/
def modRfc (h : Nat) (f : Rfc → Rfc) (s : State) : State := modHearth h (fun x => { x with rfc := f x.rfc }) s

/-- RXG of an RX chain at a frequency (spec/08 R232). -/
def rxgAt (s : State) (h k f : Nat) : LogQ :=
  let r := (hearthAt s h).rfc
  satLog (chainGain (r.rxCal.getD k []) 3072 f (r.rxAtt.getD k 0) + (lcalAt s h k).accGain)

/-- RXG of a section's direction and branch (spec/08 R232). -/
def rxgOf (s : State) (h k : Nat) (d : SecDef) : LogQ := rxgAt s h k (centreOf d (k / 2))

/-- ORXG of a TX port, at the LO of its chain (spec/08 R234; log entry 22, DEDUCED). -/
def orxgOf (s : State) (h c : Nat) : LogQ :=
  let r := (hearthAt s h).rfc
  if r.lo.getD c 0 = 0 then 0
  else
    let o := c % 2
    satLog (chainGain (r.orxCal.getD (2 * o + c / 2) []) 0 (r.lo.getD c 0) (r.orxAtt.getD o 0) + (lcalAt s h (8 + o)).accGain)

/-- FS_DBM of a step of a port (spec/08 R246); the lowest value for a step that holds nothing. -/
def fsAt (x : Port) (step : Nat) : LogQ := ((kget x.table step).map fun e => sfld e.1 0 16).getD logMin

/-- PDG of a step of a port (spec/08 R246); 0 for a step that holds nothing. -/
def pdgAt (x : Port) (step : Nat) : LogQ := ((kget x.table step).map fun e => sfld e.2 0 16).getD 0

/-- multiplier(c) of a port: PDG of its step plus COMP and TRIM (spec/08 R233, R248). -/
def multOf (x : Port) : LogQ := pdgAt x x.step + x.comp + x.trim

/-- DAC_BO of a step of a port, in quarters of a dB (spec/08 R233, R246); 0 for a step that holds nothing. -/
def dacBoAt (x : Port) (step : Nat) : Nat := ((kget x.table step).map fun e => fld e.2 16 6).getD 0

/-- Publishes RXG, ORXG and PORT_FS_DBM of a hearth from what they depend on (spec/08 R232, R234, R248). -/
def refreshGains (h : Nat) (s : State) : State :=
  let t := each (List.range 8) (fun i u =>
    modSec h i (fun x => { x with rxg := (List.range 4).map fun k =>
      match x.defn with
      | some d => if maskHas d.branchMask (k % 2) then rxgOf s h k d else 0
      | none => 0 }) u) s
  each (List.range 4) (fun c u => modPort h c (fun x => { x with
    orxg := orxgOf s h c, fsDbm := fsAt x x.step }) u) t

/-- OFS of a direction and branch (spec/08 R243). -/
def ofsOf (s : State) (h i k : Nat) : Int := (secAt s h i).rxg.getD k 0 + (portAt s h k).fsDbm

/-- C_fb of a section's direction and branch (spec/01 R24, spec/06 R173). -/
def fbCeil (s : State) (h i k : Nat) : LogQ :=
  match (secAt s h i).defn with
  | some d => fbGain s h d (k / 2)
  | none => logMin

/-- x of R243 for the applied gain of a direction and branch, which the gain stage clamps to C_fb whatever R24 has computed
(spec/06 R174). -/
def splitOf (s : State) (h i k : Nat) : Int := min ((secAt s h i).applied.getD k logMin) (fbCeil s h i k) - ofsOf s h i k

/-- DG of R243: mute below −64.0 dB, at most +48.0 dB. -/
def digitalGain (x : Int) : LogQ := if x < -16384 then logMin else min x 12288

/-- x lies outside −64.0 to +48.0 dB (spec/08 R244). -/
def splitOut (x : Int) : Bool := decide (x < -16384) || decide (12288 < x)

/-- Recomputes DG of every direction and branch of a hearth, and DG_LIMIT with its event, once per occurrence;
a section that enters RAMPING has no applied gain before its first tick (spec/08 R243, R244). -/
def refreshDg (h : Nat) (s : State) : State :=
  let t := each (List.range 8) (fun i u =>
    each (idxOf (secAt s h i)) (fun k v =>
      let x := splitOf s h i k
      let y := secAt s h i
      let first := y.state == .ramping && y.rampTicks == 0
      let out := splitOut x && transmits y.state && !first && sendsIdx y k
      let was := (secAt s h i).dgLimitOn.getD k false
      let w := modSec h i (fun y => { y with dg := y.dg.set k (digitalGain x), dgLimitOn := y.dgLimitOn.set k out }) v
      if out && !was then emit h 0x0713 ([globalOf h i, k] ++ bytesOf 2 (satLog x)) w else w) u) s
  each (List.range 4) (fun c u => modPort h c (fun x => { x with
    dgLimit := (List.range 8).any fun i => (secAt u h i).dgLimitOn.getD c false && usesIdx (secAt u h i) c }) u) t

/-! ### Loading a chain -/

/-- Loads a chain's corrections from the calibration set: accumulated values return to 0 and pending deltas are
discarded, with ABORTED to the LCAL_RUN commands that wait for them (spec/09 R289, R290, R292; log entry 24, DEDUCED). -/
def loadChain (h n : Nat) (s : State) : State :=
  let r := (hearthAt s h).rfc
  let f := if n < 8 then r.lo.getD (n % 4) 0 else r.lo.getD (n - 8 + 2 * r.orxTo.getD (n - 8) 0) 0
  let a := if n < 4 then r.rxAtt.getD n 0 else if n < 8 then 0 else r.orxAtt.getD (n - 8) 0
  let c := lcalAt s h n
  let t := itemCheck (itemId 3 h n) s
  let t := if n < 4 then itemCheck (itemId 1 h n) t else t
  let t := if 8 ≤ n then itemCheck (itemId 2 h (2 * (n - 8) + 1)) (itemCheck (itemId 2 h (2 * (n - 8))) t) else t
  let t := modLcal h n (fun x => { x with
    accGain := 0, accPhase := 0, accDelay := 0, delta := none, rest := none, age := 0, last := []
    est := x.est.filter fun e => e.2.forced
    corr := correctionAt ((workItem s (itemId 3 h n)).getD []) f a }) t
  let t := modRfc h (fun x => { x with
    rxCal := if n < 4 then x.rxCal.set n ((workItem s (itemId 1 h n)).getD []) else x.rxCal
    orxCal := if 8 ≤ n then
        (x.orxCal.set (2 * (n - 8)) ((workItem s (itemId 2 h (2 * (n - 8)))).getD [])).set (2 * (n - 8) + 1)
          ((workItem s (itemId 2 h (2 * (n - 8) + 1))).getD [])
      else x.orxCal }) t
  let t := if (kget c.est 8).any (fun e => e.chan && !e.forced) then modChannels h (dropChannels (n - 6) 0) t else t
  each (maskBits 9 (runsStaged c)) (fun item => endHeldFor 0x0802 (runKey h n item) .aborted []) t

/-- A chain's channel change or attenuation change begins (spec/08 R239, spec/09 R290). -/
def reloadChain (h n : Nat) (s : State) : State := refreshGains h (resetChainTaps h n (loadChain h n s))

/-- The LO of the chains of direction and branch `k` changes: RX chain, TX chain, and the ORX that takes its LO from
it (spec/08 R234, R239). -/
def chainsChanged (h k : Nat) (s : State) : State :=
  let t := reloadChain h (4 + k) (reloadChain h k s)
  let t := onlyIf (decide (k < 2)) (loseBand h k ((hearthAt s h).rfc.lo.getD k 0)) t
  if (hearthAt s h).rfc.orxTo.getD (k % 2) 0 = k / 2 then reloadChain h (8 + k % 2) t else t

/-! ### Synthesisers -/

/-- A synthesiser of a hearth. -/
def synAt (s : State) (h n : Nat) : Syn := (hearthAt s h).syns.getD n {}

/-- Changes a synthesiser. -/
def modSyn (h n : Nat) (f : Syn → Syn) (s : State) : State := modHearth h (fun x => { x with syns := x.syns.modify n f }) s

/-- Changes a synthesiser's state and writes its event (spec/08 R275). -/
def setSyn (h n st : Nat) (s : State) : State :=
  let old := (synAt s h n).state
  if old = st then s else emit h 0x0710 [n, old, st] (modSyn h n (fun x => { x with state := st }) s)

/-- Which synthesiser feeds the chains of each direction and branch (spec/08 R235). -/
def assignSyn (lo : List Nat) : List (Option Nat) :=
  let at_ (k : Nat) : Nat := lo.getD k 0
  let pick (k main spare : Nat) : Option Nat :=
    if at_ k = 0 then none else if at_ k = at_ (k - 1) then some main else some spare
  [if at_ 0 = 0 then none else some 0, pick 1 0 2, if at_ 2 = 0 then none else some 1, pick 3 1 3]

/-- Synthesiser that feeds direction and branch `k`. -/
def synFor (s : State) (h k : Nat) : Option Nat := (hearthAt s h).rfc.synOf.getD k none

/-- Directions and branches that a synthesiser feeds. -/
def fedBy (s : State) (h n : Nat) : List Nat := (List.range 4).filter fun k => synFor s h k == some n

/-- Whether the chains of direction and branch `k` have a locked LO. -/
def lockedIdx (s : State) (h k : Nat) : Bool := (synFor s h k).any fun n => (synAt s h n).state == 3

/-- Whether the LO of direction and branch `k` is locked at a DSP clock: one that has lost its lock was until then (spec/06 R171, R177). -/
def lockedAt (s : State) (h k clk : Nat) : Bool :=
  lockedIdx s h k && (synFor s h k).any fun n => (synAt s h n).lostAt.all (decide <| clk < ·)

/-- Whether every synthesiser that feeds a section's chains is LOCKED (spec/08 R242). -/
def losLocked (s : State) (h i : Nat) : Bool := (idxOf (secAt s h i)).all (lockedIdx s h)

/-- Synthesisers that feed a section's chains, rising. -/
def synsOf (s : State) (h i : Nat) : List Nat :=
  (List.range 4).filter fun n => (idxOf (secAt s h i)).any fun k => synFor s h k == some n

/-- D of a LO: the smallest divider that brings the VCO to 7,200 MHz or more (spec/08 R236). -/
def loDiv (f : Nat) : Nat := ([2, 4, 8, 16, 32].find? fun d => decide (720000000 ≤ f * d)).getD 32

/-- F_PFD in Freq units (spec/08 R236). -/
abbrev pfdFreq : Nat := 24576000

/-- REFCLK in Freq units: doubled for the phase detector when REFSEL is low, used directly when it is high (spec/08 R236). -/
def refClock (s : State) : Nat := if s.sec.refsel then pfdFreq else pfdFreq / 2

/-- A channel change begins at a frequency: D, NINT and FRAC are loaded, and what has arrived of the change before it is dropped. A new frequency ends the conditions of SYN_LOCK_LOST; leaving FAULT ends
that of SYN_FAULT (spec/08 R236 to R238). -/
def beginSyn (h n f : Nat) (s : State) : State :=
  let t := onlyIf ((synAt s h n).freq != f) (clearSource h (64 + n)) s
  let mine (a : Arrival) : Bool := match a with
    | .synLocked g m _ | .synFailed g m | .synLost g m => g == h && m == n
    | _ => false
  setSyn h n 1 (modSyn h n (fun x => { x with
    freq := f, tries := 0, lostAt := none, div := loDiv f, nint := f * loDiv f / pfdFreq, frac := f * loDiv f % pfdFreq })
    (clearSource h (68 + n) { t with arrivals := t.arrivals.filter fun a => !mine a }))

/-- A synthesiser is powered down (spec/08 R235, R238; spec/19 R560). -/
def synOff (h n : Nat) (s : State) : State :=
  setSyn h n 0 (modSyn h n (fun x => { x with freq := 0, tries := 0, lostAt := none }) (clearSource h (68 + n) (clearSource h (64 + n) s)))

/-- Sets the chain LOs of a hearth: the synthesisers are assigned again, channel changes begin, and every chain whose
LO or synthesiser changed is reloaded (spec/08 R235, R239). While THM keeps the RF powered down, no synthesiser
starts (spec/19 R560). -/
def applyLos (h : Nat) (lo : List Nat) (s : State) : State :=
  let r := (hearthAt s h).rfc
  let syn := assignSyn lo
  let moved := (List.range 4).filter fun k => lo.getD k 0 != r.lo.getD k 0 || syn.getD k none != r.synOf.getD k none
  let t := modRfc h (fun x => { x with lo := lo, synOf := syn }) s
  let u := each (List.range 4) (fun n v =>
    match fedBy v h n with
    | [] => synOff h n v
    | k :: _ =>
      let f := lo.getD k 0
      if (hearthAt v h).thm.rfOff then v
      else if (synAt v h n).freq = f then v else beginSyn h n f v) t
  each moved (chainsChanged h) u

/-- A synthesiser repeats its channel change at the same frequency: a channel change of every chain it feeds
(spec/08 R238). -/
def repeatSyn (h n : Nat) (s : State) : State :=
  let f := (fedBy s h n).head?.map fun k => (hearthAt s h).rfc.lo.getD k 0
  match f with
  | none => s
  | some f => each (fedBy s h n) (chainsChanged h) (beginSyn h n f s)

/-- Increment of an NCO from a centre and a LO in Freq: round(2^32 · (centre − LO) / 983.04 MHz), modulo 2^32 (spec/03 R75). -/
def ncoInc (centre lo : Nat) : Nat := (roundDiv (2 ^ 32 * ((centre : Int) - lo)) 98304000 % 2 ^ 32).toNat

/-- A channel changes its source chain, NCO increment and k at its next output boundary; a channel that stands between outputs
changes at once (spec/03 R83). -/
def retune (chain inc k : Nat) (clk : Nat) (x : MeasCh) : MeasCh :=
  if x.count = 0 then { x with chain := chain, inc := inc, k := k, start := clk, next := none } else { x with next := some (chain, inc, k) }

end Sys2Proof.Machine
end

