-- ==== Sys2Proof/Machine/Loops.lean ====
section
/-! DEFINITION. Machine/Loops.lean: the execution of a loop slot: measurements, the control law, hand-over, plausibility,
feedback loss and the relay test (spec/07 R189 to R216, R650). Values held in Acc40 are integers in units of 2^-16 of an
output LSB. -/

namespace Sys2Proof.Machine

/-! ### Slots -/

/-- The gain slot of a section's direction and branch (spec/07 R192). -/
def slotFor (s : State) (h i k : Nat) : Option Nat :=
  (List.range 64).find? fun n => (loopAt s h n).bound == some (i, k)

/-- The gain slots of a section, with their direction and branch. -/
def gainSlots (s : State) (h i : Nat) : List (Nat × Nat) :=
  (List.range 64).filterMap fun n => match (loopAt s h n).bound with
    | some (j, k) => if j = i then some (n, k) else none
    | none => none

/-- Saturation into Acc40 (spec/00 R11, spec/07 R196). -/
def satAcc (x : Int) : Int := clampInt (-549755813888) 549755813887 x

/-- Saturation into 16 bits. -/
def sat16 (x : Int) : Int := clampInt (-32768) 32767 x

/-- An output LSB in Acc40. -/
def acc (x : Int) : Int := x * 65536

/-- Reduction of an Acc40 value to 16 bits (spec/07 R196). -/
def round16 (x : Int) : Int := sat16 (roundDiv x 65536)

/-- An Acc40 value times a coefficient M × 2^E, in units of 2^-23 of Acc40: exact (spec/07 R195, R196). -/
def timesCoef (x m e : Int) : Int := x * m * 2 ^ (e + 8).toNat

/-- Stores an exact sum in units of 2^-23 into Acc40 (spec/07 R196). -/
def storeAcc (x : Int) : Int := satAcc (roundDiv x 8388608)

/-- Notes that a store to Acc40 of an exact value over `d` saturates in the running execution (spec/07 R196). -/
def noteSat (d : Nat) (v : Int) (x : Loop) : Loop := { x with satRun := x.satRun || satAcc (roundDiv v d) != roundDiv v d }

/-! ### Set-point pins -/

/-- Fraction of SETPT_A in units of 2^-16 (spec/07 R204). -/
def setptA (p : Setpt) : Int := roundDiv (((p.aCode : Int) - p.aMin) * 65536) (p.aMax - p.aMin)

/-- SETPT_A is valid: its code lies within A_MIN to A_MAX (spec/07 R204). -/
def validA (p : Setpt) : Bool := decide (p.aMin ≤ p.aCode) && decide (p.aCode ≤ p.aMax)

/-- DSP clocks of 5 µs, rounded up. -/
abbrev shortPeriod : Nat := 4916

/-- Fraction of SETPT_P in units of 2^-16: the duty of the latest complete period, of a level held for 1 ms 0 or 1; in PFM the place of
its frequency between F_LO and F_HI, clamped (spec/07 R204). -/
def setptP (p : Setpt) : Int :=
  let g := p.pin
  if p.pfm then
    clampInt 0 65536 (roundDiv ((983040000 - (p.fLo * g.period : Nat) : Int) * 65536) (max 1 ((p.fHi - p.fLo) * g.period)))
  else if 983040 ≤ g.age then (if g.level then 65536 else 0)
  else roundDiv (65536 * g.high : Nat) (max 1 g.period)

/-- SETPT_P is valid: its latest period is not shorter than 5 µs and, in PFM, an edge has come within 2 ms (spec/07 R204). -/
def validP (p : Setpt) : Bool :=
  (decide (shortPeriod ≤ p.pin.period) || (!p.pfm && decide (983040 ≤ p.pin.age))) && !(p.pfm && decide (1966080 ≤ p.pin.age))

/-- Whether the pin a slot reads is valid: SETPT_A or SETPT_P. -/
def pinValid (p : Setpt) (x : Loop) : Bool := if x.extP then p.pValid else p.aValid

/-- The mapped pin value of a slot in EXTERNAL (spec/07 R204). -/
def mappedPin (p : Setpt) (x : Loop) : Int :=
  let f : Int := if x.extP then setptP p else setptA p
  sat16 (roundDiv (x.cfg.spLo * 65536 + (x.cfg.spHi - x.cfg.spLo) * f) 65536)

/-! ### Targets and hand-over -/

/-- Interpolation in a slot's table, clamped to its end points (spec/07 R207, R224). -/
def tableAt (t : List (Int × Int)) (x : Int) : Int :=
  match t.getLast?, t.head? with
  | some hi, some lo =>
    if x ≤ acc lo.1 then lo.2
    else if acc hi.1 ≤ x then hi.2
    else
      match (t.zip (t.drop 1)).find? fun e => decide (acc e.1.1 ≤ x ∧ x < acc e.2.1) with
      | some (a, b) => roundDiv (a.2 * (acc b.1 - x) + b.2 * (x - acc a.1)) ((b.1 - a.1).toNat * 65536)
      | none => lo.2
  | _, _ => 0

/-- SP_eff of R202: the higher of mf and SP_TGT − RAMP_SPAN. -/
def softStart (x : Loop) (mf : Int) : Int := max mf (acc (x.spTgt - x.cfg.rampSpan))

/-- K × x of the plausibility model in Acc40, for an actuator value in LSB (spec/07 R210). -/
def modelGain (c : LoopCfg) (x : Int) : Int := storeAcc (timesCoef (acc x) c.modelKM c.modelKE)

/-- The model adds SEC_IN of the bound branch to the actuator value (spec/07 R210). -/
def needsInput (x : Loop) : Bool := x.bound.isSome && (x.cfg.measSrc == 1 || x.cfg.measSrc == 4)

/-- The model's input: the actuator value and, for a gain slot on an output measurement, the input of its branch
(spec/07 R210). -/
def modelInput (x : Loop) (u : Int) : Int := if needsInput x then u + x.secIn.getD 0 else u

/-- Anchors the plausibility model at the current output, once mf and what the model adds are known (spec/07 R210, R650). -/
def anchor (x : Loop) : Loop :=
  match x.mf with
  | none => { x with anchored := false }
  | some m =>
    if needsInput x && x.secIn.isNone then { x with anchored := false }
    else
      let kx := modelGain x.cfg (modelInput x x.u)
      { noteSat 8388608 (timesCoef (acc (modelInput x x.u)) x.cfg.modelKM x.cfg.modelKE) (noteSat 1 (m - kx) x) with
        uHist := List.replicate 64 x.u, mHat := m, bias := satAcc (m - kx), depRun := 0, uGood := x.u, anchored := true }

/-- The lower of two rates, of which 0 is no limit (spec/07 R197). -/
def minRate (a b : Nat) : Nat := if a = 0 then b else if b = 0 then a else min a b

/-- Moves towards a target by a rate per tick over 2^k ticks, up and down; a rate of 0 is no limit
(spec/07 R193, R195, R197). -/
def slewTo (target fromZ : Int) (up dn k : Nat) : Int :=
  satAcc <|
    if fromZ ≤ target then (if up = 0 then target else min target (fromZ + (up : Int) * 2 ^ k * 256))
    else (if dn = 0 then target else max target (fromZ - (dn : Int) * 2 ^ k * 256))

/-- A PORT_TRIM slot whose set-point is SEC_OUT (spec/08 R250). -/
def followsOut (x : Loop) : Bool := x.cfg.act == 2 && x.cfg.measSrc == 4

/-- Starts a hand-over at an execution (spec/07 R209). -/
def handOver (p : Setpt) (x : Loop) : Loop :=
  let y0 := if x.handOpen then acc x.openOut else x.z
  let law := x.mode == 0 || x.mode == 4
  let sp := match x.mode, x.mf with
    | 0, some m => if x.handOld = 4 ∨ followsOut x = true then x.spEff else softStart x m
    | 4, _ => if pinValid p x then acc (mappedPin p x) else x.spEff
    | _, _ => x.spEff
  let pex := timesCoef (sp - x.mf.getD sp) x.cfg.kpM x.cfg.kpE
  let pp := storeAcc pex
  let y : Loop := { (if law then noteSat 8388608 pex x else x) with
    z := y0, spEff := sp, handover := true, handStart := false, handOpen := false, handN := 0
    spDue := x.mode == 0 && x.handOld != 4 && !followsOut x && x.mf.isNone
    p := if law then pp else x.p, dfState := if law then 0 else x.dfState
    integ := if law then clampInt (acc x.cfg.outMin) (acc x.cfg.outMax) (y0 - pp) else x.integ
    nx1 := if law then y0 else x.nx1, nx2 := if law then y0 else x.nx2
    ny1 := if law then y0 else x.ny1, ny2 := if law then y0 else x.ny2
    vT := if x.mode = 1 then round16 y0 else if x.mode = 2 then x.manOut
      else if x.mode = 3 then tableAt x.table (x.mf.getD 0) else x.vT
    handovers := incSat 16 x.handovers }
  anchor { y with u := round16 y0 }

/-! ### Measurements -/

/-- Section, direction and branch that MEAS_SRC 1 to 4 refer to (spec/07 R192, R217). -/
def measOf (x : Loop) : Nat × Nat :=
  match x.bound with
  | some b => b
  | none => (fld (BitVec.ofNat 32 x.cfg.measIdx) 0 3, 2 * (x.cfg.measIdx / 8 % 2) + x.cfg.measIdx / 16 % 2)

/-- The mean of |H|² of an integrate-and-dump over D samples for a flat spectrum of bandwidth `bw` at the rate `fs`, in units of
2^-96: with |H(f)|² = sin²(πfD/fs) / (D² sin²(πf/fs)) it is the sum over lags m of (1 − |m|/D) · sin(πm·bw/fs) / (πm·bw/fs), divided
by D (spec/03 R83, spec/07 R191). -/
def droopMean (dd bw fs : Nat) : Nat :=
  let term (m : Nat) : Int := ((dd : Int) - m) * (cosPi (2 * m * bw - fs : Int) (2 * fs) * (2 ^ 96 * fs) / (piFix * m * bw : Nat))
  (((dd : Int) * 2 ^ 96 + 2 * (((List.range dd).drop 1).map term).foldl (· + ·) 0) / (dd * dd : Nat)).toNat

/-- Correction of the integrate-and-dump droop of an ORX measurement channel for a flat spectrum filling a section's bandwidth
(spec/07 R191). -/
def droop (d : SecDef) : Int := logRatio (2 ^ 96) (droopMean (2 ^ max d.rate 1) d.bandwidth 98304000)

/-- Temperature of a zone, 1/64 °C: the higher of its two sensors; 0x8000 before the first conversion
(spec/19 R553, R565). -/
def zoneTemp (t : Thm) (z : Nat) : Int :=
  if t.temps.isEmpty then -32768 else max (t.temps.getD (2 * z) (-32768)) (t.temps.getD (2 * z + 1) (-32768))

/-- Mean power of a sum; none of no samples. -/
def meanIf (a : Nat × Nat) : Option LogQ := if a.2 = 0 then none else some (meanOf a)

/-- A slot's measurement before its reduction to 16 bits; none when it is not fresh (spec/07 R191, spec/19 R554). -/
def measure (s : State) (h n : Nat) : Option Int :=
  let x := loopAt s h n
  let g := measOf x
  let k := if x.cfg.measSrc = 3 then (g.2 + 2) % 4 else g.2
  let d := ((secAt s h g.1).defn).getD {}
  let m := meanIf x.measSum
  match x.cfg.measSrc with
  | 1 => m.map fun v => v + (portAt s h k).fsDbm
  | 2 | 3 => m.map fun v => v - rxgUsed (secAt s h g.1) k
  | 4 => if (hearthAt s h).rfc.orxTo.getD (k % 2) 0 = k / 2 then m.map fun v => v + droop d - (portAt s h k).orxg else none
  | 5 =>
    let t := (hearthAt s h).thm
    if x.execTick ≤ t.convTick ∧ !t.temps.isEmpty then some (zoneTemp t (x.cfg.measIdx % 8) * 4) else none
  | _ => none

/-! ### One execution -/

/-- What an execution reads beside its slot: the measurement before reduction, the ceiling C,
the actuator value in force, whether a condition of R198 other than freshness holds, whether the section's ramp of R203 runs for the
slot, and whether 4,800 ticks have passed since the section entered RAMPING. -/
structure ExecIn where
  raw : Option Int := none
  ceil : Int := 32767
  inForce : Int := 0
  blocked : Bool := false
  ramping : Bool := false
  aged : Bool := false
  deriving DecidableEq, Repr

/-- Updates mf: the first fresh value while mf is unknown sets it (spec/07 R650). -/
def updateMf (e : ExecIn) (x : Loop) : Loop :=
  if e.blocked then x
  else match e.raw with
    | none => x
    | some r =>
      let m := acc (sat16 r)
      let y : Loop := match x.mf with
        | none =>
          let y : Loop := { x with mf := some m, mfLast := m }
          if y.spDue then { y with spEff := softStart y m, spDue := false } else y
        | some f =>
          let v := if x.cfg.mfiltEn then f * 32768 + x.cfg.mfilt * (m - f) else m * 32768
          { noteSat 32768 v x with mf := some (satAcc (roundDiv v 32768)) }
      if y.anchored || y.state != 1 then y else anchor y

/-- The notch of R200, direct form I: coefficients rounded and saturated to Q2.14 (spec/00 R12). -/
def notchCoefs (c : LoopCfg) : Int × Int × Int × Int × Int :=
  let w0 : Int := (piFix : Int) * c.notchF / 32768
  let cw := cosFix w0
  let one : Int := 2 ^ 96
  let r : Int := one - (piFix : Int) * c.notchBw / 65536
  let a1 := -(2 * r * cw / one)
  let a2 := r * r / one
  let den := 2 * one - 2 * cw
  let g := if den = 0 then one else (one + a1 + a2) * one / den
  let q (v : Int) : Int := sat16 (roundDiv (v * 16384) (2 ^ 96))
  (q g, q (-(2 * g * cw / one)), q g, q a1, q a2)

/-- Applies the notch to a 16-bit value. -/
def notch (v : Int) (x : Loop) : Int × Loop :=
  let (b0, b1, b2, a1, a2) := notchCoefs x.cfg
  let s := b0 * acc v + b1 * x.nx1 + b2 * x.nx2 - a1 * x.ny1 - a2 * x.ny2
  let y := satAcc (roundDiv s 16384)
  (round16 y, { noteSat 16384 s x with nx1 := acc v, nx2 := x.nx1, ny1 := y, ny2 := x.ny1 })

/-- ALPHA of R210 in Frac16. -/
def modelAlpha (c : LoopCfg) : Int := roundDiv ((2 ^ 96 - expNegFix c.modelTau) * 32768) (2 ^ 96)

/-- The run of identical measurements: the actuator values over its executions, newest first, and the output at the execution before
it began (spec/07 R211). -/
def freezeStep (e : ExecIn) (x : Loop) : Loop :=
  match e.raw with
  | none => x
  | some r =>
    let m := sat16 r
    if m = x.lastM ∧ !x.freezeVals.isEmpty then { x with freezeVals := (e.inForce :: x.freezeVals).take 255 }
    else { x with lastM := m, freezeVals := [e.inForce], freezeU := x.u }

/-- The freeze check of R211: FREEZE_N identical measurements while the actuator spans more than FREEZE_DELTA over them. -/
def frozenRun (x : Loop) : Bool :=
  let vs := x.freezeVals.take x.cfg.freezeN
  decide (x.cfg.freezeN ≠ 0) && vs.length == x.cfg.freezeN
    && decide ((x.cfg.freezeDelta : Int) < (vs.max?.getD 0) - (vs.min?.getD 0))

/-- An execution of the plausibility model of an anchored slot (spec/07 R210). -/
def modelStep (e : ExecIn) (hist : List Int) (mf : Int) (x : Loop) : Loop :=
  let u := modelInput x (hist.getD x.cfg.modelDelay x.u)
  let kx := modelGain x.cfg u
  let target := satAcc (kx + x.bias)
  let mEx := x.mHat * 32768 + modelAlpha x.cfg * (target - x.mHat)
  let mh := satAcc (roundDiv mEx 32768)
  let r := mf - mh
  let dep := decide (acc x.cfg.plausTol < (r.natAbs : Int)) || e.raw.any (fun v => sat16 v != v)
  let bEx := x.bias + roundDiv r (2 ^ x.cfg.bshift)
  let y := noteSat 8388608 (timesCoef (acc u) x.cfg.modelKM x.cfg.modelKE) (noteSat 1 (kx + x.bias) (noteSat 32768 mEx x))
  { (if dep then y else noteSat 1 bEx y) with
    mHat := mh, err := round16 r, depRun := if dep then satCount 8 (x.depRun + 1) else 0
    bias := if dep then x.bias else satAcc bEx }

/-- The plausibility model and its checks in an execution that is not held; the second value is the cause of a loss:
0 none, 1 PLAUS, 2 FREEZE (spec/07 R210, R211). -/
def plausible (e : ExecIn) (x : Loop) : Nat × Loop :=
  let hist := (e.inForce :: x.uHist).take 64
  let fz : Loop := { freezeStep e x with uHist := hist }
  let y := match x.mf with
    | some mf => if x.cfg.plausEn && x.anchored then modelStep e hist mf fz else fz
    | none => fz
  let cause := if y.cfg.plausEn && decide (y.cfg.plausN ≤ y.depRun) && decide (0 < y.depRun) then 1
    else if frozenRun y then 2 else 0
  (cause, y)

/-- The law of R197 in an execution that is not held. -/
def runLaw (p : Setpt) (e : ExecIn) (x : Loop) : Loop :=
  let c := x.cfg
  let mf := x.mf.getD 0
  let auto := x.mode == 0
  let sp :=
    if auto then slewTo (acc x.spTgt) x.spEff c.rampRate c.rampRate c.k
    else if x.mode = 4 ∧ pinValid p x then acc (mappedPin p x) else x.spEff
  let er := satAcc (sp - mf)
  let pp := storeAcc (timesCoef er c.kpM c.kpE)
  let kd := timesCoef (mf - x.mfLast) c.kdM c.kdE
  let dEx := if c.dEn then x.dfState * 2 ^ 38 + c.df * (-kd - x.dfState * 2 ^ 23) else 0
  let df := satAcc (roundDiv dEx (2 ^ 38))
  let iExact := x.integ * 8388608 + timesCoef er c.kiM c.kiE
  let law := auto || x.mode == 4
  let integ := if law then clampInt (acc c.outMin) (acc c.outMax) (storeAcc iExact) else x.integ
  let y := noteSat 8388608 (timesCoef er c.kpM c.kpE) (noteSat (2 ^ 38) dEx x)
  let y := if law then noteSat 8388608 iExact (noteSat 1 (integ + pp + df) y) else y
  let x1 : Loop := { y with spEff := sp, p := pp, dfState := df, mfLast := mf, integ := integ }
  let vt := if x.mode = 3 then tableAt x.table mf else x.vT
  let (v, x2) := if law then
      let v := round16 (satAcc (integ + pp + df))
      if c.notchEn then notch v x1 else (v, x1)
    else (vt, { x1 with vT := vt })
  let up := if x.handover then minRate c.handSlew c.slewUp else c.slewUp
  let dn := if x.handover then minRate c.handSlew c.slewDn else c.slewDn
  let slow := e.ramping && !law
  let z := if slow then slewTo (acc v) x.z c.handSlew c.handSlew c.k else slewTo (acc v) x.z up dn c.k
  let near := decide (((acc v - z).natAbs : Int) ≤ (c.handSlew : Int) * 2 ^ c.k * 256)
  { x2 with z := z, handN := if x.handover then (if near then min 16 (x.handN + 1) else 0) else 0 }

/-- The output of an execution: U, and ceiling tracking (spec/07 R197, R199). -/
def finish (e : ExecIn) (law : Bool) (x : Loop) : Loop :=
  let u := max (round16 x.z) x.cfg.outMin
  let x : Loop := { x with zNow := x.z }
  if e.ceil < min u x.cfg.outMax then
    let z := min x.z (acc (e.ceil + 256))
    { (if law then noteSat 1 (z - x.p - x.dfState) x else x) with
      u := u, z := z, tracking := true, integ := if law then satAcc (z - x.p - x.dfState) else x.integ }
  else { x with u := u, tracking := false }

/-- Ramp-done of R203, evaluated after an execution. -/
def rampDoneOf (e : ExecIn) (x : Loop) : Bool :=
  if x.state = 3 then true
  else if x.state = 1 ∧ x.mode = 0 then x.mf.isSome && !x.spDue && x.spEff == acc x.spTgt
  else if x.state = 1 ∧ x.mode = 4 then
    x.mf.any fun m => e.aged || decide (((x.spEff - m).natAbs : Int) ≤ acc 256)
  else if x.state = 1 then x.zNow == acc x.vT
  else !e.ramping || x.z == acc x.openOut

/-- An execution begins: no store has saturated in it yet (spec/07 R196). -/
def beginExec (x : Loop) : Loop := { x with satRun := false }

/-- An execution ends: LOOP_CNT.SAT counts it when a store saturated, and its measurement starts again (spec/07 R191, R196). -/
def endExec (x : Loop) : Loop :=
  { x with sat := if x.satRun then incSat 8 x.sat else x.sat, satRun := false, measSum := (0, 0), inSum := (0, 0) }

/-- A mode needs a measurement: AUTO, TABLE and EXTERNAL (spec/07 R207). -/
def modeNeeds (m : Nat) : Bool := m == 0 || m == 3 || m == 4

/-- Whether the execution of a slot is held, by R198 or because mf is still unknown (spec/07 R198, R650). -/
def heldBy (e : ExecIn) (x : Loop) : Bool := e.blocked || (modeNeeds x.mode && (e.raw.isNone || x.mf.isNone))

/-- An execution of a CLOSED slot; the first value is the cause of a feedback loss (spec/07 R197, R198, R209 to R211). -/
def runClosed (p : Setpt) (e : ExecIn) (x0 : Loop) : Nat × Loop :=
  let x := if x0.handStart then handOver p x0 else x0
  let x := updateMf e x
  let law := x.mode == 0 || x.mode == 4
  if heldBy e x then
    let sp :=
      if x.mode = 0 ∧ !x.spDue then slewTo (acc x.spTgt) x.spEff x.cfg.rampRate x.cfg.rampRate x.cfg.k
      else if x.mode = 4 ∧ pinValid p x then acc (mappedPin p x) else x.spEff
    let z := if e.ramping && !law then slewTo (acc x.vT) x.z x.cfg.handSlew x.cfg.handSlew x.cfg.k else x.z
    (0, finish e law { x with spEff := sp, z := z })
  else
    let pl := plausible e x
    let y := finish e law (runLaw p e pl.2)
    (pl.1, { y with uGood := if y.depRun = 0 then y.u else y.uGood })

/-- An execution of a LOST slot: u_good until HOLD_MAX has passed, then towards SAFE (spec/07 R212). -/
def runLost (e : ExecIn) (x : Loop) : Loop :=
  let z := if x.lostRamp then slewTo (acc x.cfg.safe) x.z x.cfg.handSlew x.cfg.handSlew x.cfg.k else x.z
  finish e false { x with z := z }

/-- An execution of an OPEN slot: OPEN_OUT; while its section ramps, the movement of R203 (spec/07 R203, R206). -/
def runOpen (e : ExecIn) (x0 : Loop) : Loop :=
  let x := updateMf e x0
  if e.ramping && !x.rampDone then
    let z := slewTo (acc x.openOut) x.z x.cfg.handSlew x.cfg.handSlew x.cfg.k
    { x with z := z, u := max (round16 z) x.cfg.outMin }
  else { x with z := acc x.openOut, u := x.openOut }

/-! ### The relay test -/

/-- Sign with which the relay acts (spec/07 R214). -/
def relaySign (c : LoopCfg) : Int := if c.modelKM < 0 then -1 else 1

/-- One execution of a relay test (spec/07 R214). -/
def runTune (e : ExecIn) (x0 : Loop) (t : Tune) : Loop :=
  let x := updateMf e x0
  let mf := x.mf.getD 0
  let n := t.execs
  let amp : Int := x.cfg.relayAmp
  if n < 16 then
    let t1 : Tune := { t with execs := n + 1, r0sum := t.r0sum + mf }
    if n + 1 < 16 then { x with tune := some t1 }
    else { x with tune := some { t1 with high := true, ups := [n + 1], mx := round16 mf, mn := round16 mf }, upswitch := 1
                  u := x.openOut + amp * relaySign x.cfg, z := acc (x.openOut + amp * relaySign x.cfg) }
  else
    let er := satAcc (roundDiv t.r0sum 16 - mf)
    let m := round16 mf
    let t1 : Tune := { t with execs := n + 1, mx := max t.mx m, mn := min t.mn m }
    let hyst := acc x.cfg.relayHyst
    if hyst < er ∧ t.high = false then
      let u := x.openOut + amp * relaySign x.cfg
      { x with tune := some { t1 with high := true, ups := (n + 1) :: t1.ups, swings := (t1.mx - t1.mn) :: t1.swings, mx := m, mn := m }
               upswitch := min 7 (x.upswitch + 1), u := u, z := acc u }
    else if er < -hyst ∧ t.high = true then
      let u := x.openOut - amp * relaySign x.cfg
      { x with tune := some { t1 with high := false }, u := u, z := acc u }
    else { x with tune := some t1 }

/-- What a relay test measured: the sum of P3 to P6 in executions, and the sum of the last four swings. -/
def tuneSums (t : Tune) : Nat × Int :=
  let u7 := t.ups.getD 0 0
  let u3 := t.ups.getD 4 0
  (u7 - u3, (t.swings.take 4).foldl (· + ·) 0)

/-- Coefficients that a tuning rule gives from Ku and Tu, as exact fractions: KP, KI and KD, and D_EN (spec/07 R216).
Ku = 4 · RELAY_AMP / (π · a) with a = swings / 8, Tu = periods / 4. -/
def tuneGains (c : LoopCfg) (periods : Nat) (swings : Int) : List (Int × Nat) × Bool :=
  let kuN : Int := 32 * (c.relayAmp : Int) * 2 ^ 96 * relaySign c
  let kuD : Nat := piFix * swings.toNat
  let t := max periods 1
  match c.tuneRule with
  | 0 => ([(kuN * 45, kuD * 100), (kuN * 45 * 12 * 4, kuD * 100 * 10 * t), (0, 1)], false)
  | 1 => ([(kuN * 10, kuD * 32), (kuN * 10 * 10 * 4, kuD * 32 * 22 * t), (0, 1)], false)
  | 2 => ([(kuN * 6, kuD * 10), (kuN * 6 * 2 * 4, kuD * 10 * t), (kuN * 6 * t, kuD * 10 * 4 * 8)], true)
  | _ => ([(kuN * 2, kuD * 10), (kuN * 2 * 2 * 4, kuD * 10 * t), (kuN * 2 * t, kuD * 10 * 4 * 3)], true)

/-! ### Cost -/

/-- Cost of a slot in MACs per execution (spec/07 R194). -/
def slotCost (c : LoopCfg) : Nat :=
  48 + 24 * bitNat c.dEn + 40 * bitNat c.notchEn + 32 * bitNat c.plausEn + 8 * bitNat c.mfiltEn

/-- Cost of the slots that execute in ticks with TBU_TICK mod 128 = r. -/
def costAt (cs : List LoopCfg) (r : Nat) : Nat :=
  ((cs.filter fun c => r % 2 ^ c.k == c.phase).map slotCost).foldl (· + ·) 0

/-- COST_MAX (spec/07 R194). -/
def costMax (cs : List LoopCfg) : Nat := ((List.range 128).map (costAt cs)).foldl max 0

/-- Configurations of a hearth's slots with one replaced. -/
def cfgsWith (s : State) (h n : Nat) (c : LoopCfg) : List LoopCfg := ((hearthAt s h).loops.map (·.cfg)).set n c

/-- Cost budget per tick (spec/07 R194). -/
abbrev costBudget : Nat := 6144

/-! ### End of a relay test -/

/-- Words 2 and 3 of a configuration (spec/07 R217). -/
def coefWords (c : LoopCfg) : List Word :=
  [wordOf [(0, 16, c.kpM), (16, 4, c.kpE), (20, 4, c.kiE), (24, 4, c.kdE), (28, 4, c.modelKE)],
   wordOf [(0, 16, c.kiM), (16, 16, c.kdM)]]

/-- The coefficients that LOOP_TUNE replies with, in the layout of words 2 and 3: KP, KI and KD alone (spec/07 R216, R223). -/
def gainWords (c : LoopCfg) : List Word := coefWords { c with modelKE := 0 }

/-- LOOP_TUNE_RES and LOOP_TUNE_TU (spec/07 R227). -/
def tuneWords (x : Loop) : List Word :=
  [wordOf [(0, 16, x.kuM), (16, 4, x.kuE), (20, 4, x.tuneStatus), (24, 4, x.upswitch)], wordOf [(0, 16, x.tu), (16, 16, x.amp)]]

/-- Status of a TUNE_STATUS code (spec/07 R227). -/
def tuneStatusOf (code : Nat) : Status :=
  match code with
  | 2 => .ok
  | 3 => .timeout
  | 4 => .aborted
  | 5 => .badParam
  | _ => .budget

/-- A relay test ends with a status: OPEN_OUT stays u0, the event is written, and LOOP_TUNE replies with the resulting
coefficients (spec/07 R206, R215, R223, R229). -/
def endTune (h n code : Nat) (result : LoopCfg) (s : State) : State :=
  let t := dropTune h n code s
  endHeldFor 0x0607 (h * 64 + n) (tuneStatusOf code) (tuneWords (loopAt t h n) ++ gainWords result) t

/-- The 7th up-switch: Ku and Tu, the gains, and the status of R215. -/
def tuneDone (h n : Nat) (t : Tune) (s : State) : State :=
  let x := loopAt s h n
  let c := x.cfg
  let (periods, swings) := tuneSums t
  let ku := if 0 < swings then encodeCoef (32 * (c.relayAmp : Int) * 2 ^ 96 * relaySign c) (piFix * swings.toNat) else none
  let gains := if 0 < swings then tuneGains c periods swings else ([], false)
  let enc := gains.1.map fun g => if g.1 = 0 then some (0, 0) else encodeCoef g.1 g.2
  let s1 := modLoop h n (fun l => { l with
    tu := satCount 16 periods, amp := (clampInt 0 65535 (roundDiv swings 8)).toNat
    kuM := (ku.map (·.1)).getD 0, kuE := (ku.map (·.2)).getD 0 }) s
  match ku, enc with
  | some _, [some kp, some ki, some kd] =>
    let c1 : LoopCfg := { c with kpM := kp.1, kpE := kp.2, kiM := ki.1, kiE := ki.2, kdM := kd.1, kdE := kd.2, dEn := c.dEn || gains.2 }
    if swings ≤ 8 * (c.relayHyst : Int) then endTune h n 5 c s1
    else if t.apply && decide (costBudget < costMax (cfgsWith s h n c1)) then endTune h n 6 c1 s1
    else if t.apply then endTune h n 2 c1 (modLoop h n (fun l => { l with cfg := c1 }) s1)
    else endTune h n 2 c1 s1
  | _, _ => endTune h n 5 c s1

/-! ### Loss, ramping and outputs -/

/-- Feedback is lost, or the duplicated computation disagrees: U = u_good, the slot's source and its event; the slot enters LOST at
the next boundary (spec/07 R211, R212, R228). -/
def loseSlot (h n cause : Nat) (s : State) : State :=
  let x := loopAt s h n
  let good := if cause = 2 then x.freezeU else x.uGood
  let t := modLoop h n (fun l => { l with
    lostDue := some cause, uGood := good, u := good, z := acc good, losses := incSat 8 l.losses, handover := false, handStart := false }) s
  let t := emit h 0x0611 ([n, cause] ++ bytesOf 2 good ++ bytesOf 2 (round16 (x.mf.getD (-2147483648))) ++ bytesOf 2 (round16 x.mHat)) t
  raiseSource h (320 + n) t

/-- LOST applies at the boundary that closes the running tick, unless a LOOP_OPEN has taken precedence (spec/07 R212). -/
def applyLost (h n : Nat) (s : State) : State :=
  match (loopAt s h n).lostDue with
  | none => s
  | some cause =>
    setLoop h n 3 (modLoop h n (fun l => { l with
      lostDue := none, lostCause := cause, lostTick := s.tbu.tick + 1, lostRamp := false, safeDone := false, atSafe := false }) s)

/-- The gain slots of a section start as it enters RAMPING (spec/07 R202, R203, R210). -/
def startSlots (h i : Nat) (s : State) : State :=
  each (gainSlots s h i) (fun g t => modLoop h g.1 (fun x =>
    if x.state = 3 then { x with ramping := true, rampDone := true }
    else
      let z := acc x.cfg.outMin
      let auto := x.state == 1 && x.mode == 0
      let sp := if auto then (match x.mf with | some m => softStart x m | none => x.spEff)
        else if x.state = 1 ∧ x.mode = 4 ∧ pinValid s.setpt x = true then acc (mappedPin s.setpt x) else x.spEff
      anchor { x with
        z := z, u := x.cfg.outMin, spEff := sp, spDue := auto && x.mf.isNone, rampDone := false, ramping := true
        integ := if x.state = 1 ∧ (x.mode = 0 ∨ x.mode = 4) then z else x.integ }) t) s

/-- A slot is bound to a section's direction and branch, or unbound: mf is unknown from then on (spec/07 R192, R650). -/
def bindSlot (h n : Nat) (b : Option (Nat × Nat)) (s : State) : State :=
  modLoop h n (fun x => { x with
    bound := b, cfg := { x.cfg with act := if b.isSome then 1 else 0 }, mf := none, anchored := false, ramping := false
    secIn := none, measSum := (0, 0), inSum := (0, 0) }) s

end Sys2Proof.Machine
end

