-- ==== Sys2Proof/Machine/Arrestor.lean ====
section
/-! DEFINITION. Machine/Arrestor.lean: the Spark Arrestor: transmit gates, quench, retry, the network ceiling, squelch and
donor proximity, with its commands and events (spec/06). -/

namespace Sys2Proof.Machine

/-- Changes the arrestor's record of a section. -/
def modSpa (h i : Nat) (f : Spa → Spa) (s : State) : State := modSec h i (fun x => { x with spa := f x.spa }) s

/-! ### Transmit gates -/

/-- What of R171 does not follow a TDD pattern: the transmit gate of a section's branch (spec/06 R171; spec/17 R513, R514; spec/19
R561). The gate of a section that does not transmit is closed (spec/08 R242, its example); through the tick of a 1-tick mute ramp it
stays as R171 otherwise allows (R177). -/
def gateCore (s : State) (h i k : Nat) : Bool :=
  let x := secAt s h i
  let sp := x.spa
  sendsIdx x k && lockedIdx s h k && (synFor s h k).any (fun n => (synAt s h n).lostAt.isNone) && !sp.quenchGate && !sp.waitGate && !sp.checkGate && !x.blockMuted
    && (transmits x.state || sp.muteRamp) && !s.thmPkg.tripGate && s.pkg != .doused && s.pkg != .kindling

/-- Whether the transmit gate of a section's branch is open (spec/06 R171). -/
def gateOpen (s : State) (h i k : Nat) : Bool :=
  let x := secAt s h i
  gateCore s h i k && x.defn.any fun d => !d.tdd || (x.spa.tddDir == k / 2 && !x.spa.dutyClosed.getD (k / 2) false)

/-- Evaluates the gates of a section at a DSP clock, and the duty counts of R176. -/
def updateGates (clk h i : Nat) (s : State) : State :=
  let now := (List.range 4).map (gateOpen s h i)
  modSpa h i (fun sp =>
    let step (d : Nat) : Nat × Option Nat :=
      let isOpen := now.getD (2 * d) false || now.getD (2 * d + 1) false
      match sp.gateSince.getD d none with
      | some c => if isOpen then (sp.dutyUsed.getD d 0, some c) else (sp.dutyUsed.getD d 0 + (clk - c), none)
      | none => (sp.dutyUsed.getD d 0, if isOpen then some clk else none)
    { sp with gateOpen := now, dutyUsed := [(step 0).1, (step 1).1], gateSince := [(step 0).2, (step 1).2] }) s

/-- Evaluates every gate at a DSP clock. -/
def evalGates (clk : Nat) (s : State) : State := each (allSections s) (fun g => updateGates clk g.1 g.2) s

/-- Holds the gates of a section closed from a DSP clock on, until it enters RAMPING (spec/06 R172, R177, R187). -/
def shutGate (clk h i : Nat) (s : State) : State :=
  modSpa h i (fun sp => { sp with checkGate := true, checkFrom := if sp.checkGate then min sp.checkFrom clk else clk }) s

/-- The duty counts restart at a frame boundary, which ends the closures before it (spec/06 R176). -/
def restartDuty (clk : Nat) (s : State) : State :=
  evalGates clk (each (allSections s) (fun g => modSpa g.1 g.2 fun sp => { sp with
    dutySpan := (List.range 2).map fun d => if sp.dutyClosed.getD d false then some (sp.dutyAt.getD d 0, clk) else none
    dutyUsed := [0, 0], dutyClosed := [false, false], gateSince := sp.gateSince.map (·.map fun _ => clk) }) s)

/-- Level of a TDD line of FES before POL: its direction's interval widened by LEAD and LAG, across frame boundaries; off while
FRAME_VALID is 0 (spec/08 R254). A line is still asserted for LAG clocks after its interval, and LEAD clocks before it. -/
def tddLineAt (s : State) (h : Nat) (g : Gpio) (clk : Nat) : Bool :=
  let hits (c : Nat) : Bool := patternDir s h g.pattern c == g.func - 2
  let near := (patternMarks s h g.pattern).filter fun m => decide (clk ≤ m + g.lag) && decide (m ≤ clk + g.lead)
  s.tbu.frameValid && (hits clk || hits (clk + g.lead) || (decide (g.lag ≤ clk) && hits (clk - g.lag)) || near.any hits)

/-- The TDD lines of a hearth. -/
def tddLines (f : Fes) : List Nat := (List.range 16).filter fun n => (f.gpio.getD n {}).func == 2 || (f.gpio.getD n {}).func == 3

/-- The line of the other direction of a TDD line's branch keeps it off at a DSP clock: it is asserted, or it was on the clock before; of two
lines that would rise on one clock, the lower pin does (spec/08 R254; log entry 142, DESIGN CHOICE). -/
def tddBlocked (s : State) (h n clk : Nat) : Bool :=
  let f := (hearthAt s h).fes
  let g := f.gpio.getD n {}
  !kgetD f.tddLine n false && (tddLines f).any fun m =>
    let o := f.gpio.getD m {}
    o.func == 5 - g.func && o.idx == g.idx && (if kgetD f.tddLine m false
      then tddLineAt s h o clk || (decide (0 < clk) && tddLineAt s h o (clk - 1)) else decide (m < n) && tddLineAt s h o clk)

/-- Level of TDD line `n` at a DSP clock of the running tick, before POL: the two lines of a branch are never asserted together, and
the later one waits for the earlier one (spec/08 R254). -/
def tddOut (s : State) (h n clk : Nat) : Bool := tddLineAt s h ((hearthAt s h).fes.gpio.getD n {}) clk && !tddBlocked s h n clk

/-- Drives the TDD lines of a hearth at a DSP clock; a line that has to wait counts in SW_CLIP (spec/08 R254). -/
def driveTdd (h clk : Nat) (s : State) : State :=
  each (tddLines (hearthAt s h).fes) (fun n t =>
    let g := (hearthAt s h).fes.gpio.getD n {}
    let clip := tddLineAt s h g clk && tddBlocked s h n clk && !(decide (0 < clk) && tddLineAt s h g (clk - 1))
    modHearth h (fun x => { x with fes := { x.fes with
      tddLine := kset x.fes.tddLine n (tddOut s h n clk)
      swClip := if clip then incSat 8 x.fes.swClip else x.fes.swClip } }) t) s

/-- DSP clocks of the running tick at which a TDD line of a hearth may change, rising: LEAD before and LAG after what its pattern
marks, and the clock after that (spec/08 R254). -/
def tddChanges (s : State) (h : Nat) : List Nat :=
  let f := (hearthAt s h).fes
  let all := s.tbu.clock :: (tddLines f).flatMap fun n =>
    let g := f.gpio.getD n {}
    (patternMarks s h g.pattern).flatMap fun m => [m - g.lead, m + g.lag, m + g.lag + 1]
  ((all.filter fun c => decide (s.tbu.clock ≤ c) && decide (c < s.tbu.clock + s.tbu.tickLen)).foldl (fun (m : KMap Unit) c => kset m c ()) []).map (·.1)

/-- The TDD lines of a hearth over the running tick (spec/08 R254). -/
def runTddLines (h : Nat) (s : State) : State :=
  if (tddLines (hearthAt s h).fes).isEmpty then s else each (tddChanges s h) (driveTdd h) s

/-- The gates of the TDD sections of a hearth follow the direction that pattern `n` gives at a DSP clock (spec/06 R171). -/
def followPattern (h n clk : Nat) (s : State) : State :=
  let d := patternDir s h n clk
  each (List.range 8) (fun i u =>
    if (secAt u h i).defn.any fun e => e.tdd && e.pattern == n then
      updateGates clk h i (modSpa h i (fun sp => { sp with tddDir := d }) u)
    else u) s

/-- Every pattern of every hearth at a DSP clock. -/
def followPatterns (clk : Nat) (s : State) : State :=
  each (hearthsOf s) (fun h => each (List.range 8) fun n => followPattern h n clk) s

/-- An edge of a pattern's active bank at a DSP clock of the running tick (spec/02 R51, spec/06 R171). -/
def execTddPatternEdge (h n clk : Nat) (s : State) : Out :=
  .next (if present s h && decide (n < 8) && inTick s clk then followPattern h n clk s else s)

/-! ### Quench -/

/-- Retry delay of a quench sequence number in ticks (spec/06 R179). -/
def retryDelay (q : Nat) : Nat :=
  match q with
  | 1 => 480000
  | 2 => 1920000
  | 3 => 7680000
  | _ => 30720000

/-- Ticks of the latch window of R180. -/
abbrev latchWindow : Nat := 288000000

/-- Whether a reason mutes with a 1-tick ramp (spec/06 R177). -/
def rampMute (reason detail : Nat) : Bool := reason == 1 || (reason == 4 && (detail == 0 || detail == 2 || detail == 4))

/-- Ends a direction's tone test without a result (spec/05 R148). -/
def dropTests (x : Dmp) : Dmp := { x with dir := x.dir.map fun d => { d with test := none, cTest := logMax } }

/-- Clears the recorded quenches and the retry; the latch stays until SECTION_START (spec/06 R179, R180). -/
def clearQuench (h i : Nat) (s : State) : State :=
  modSpa h i (fun sp => { sp with qSeq := 0, history := [], retryAt := none, lockWait := false }) s

/-- SECTION_STOP on a QUENCHED section: the retry is cancelled and the section is READY (spec/01 R37). -/
def stopQuenched (h i : Nat) (s : State) : State :=
  setSec h i .ready (modSec h i (fun x => { x with resume := false }) (clearQuench h i s))

/-- Level of a down-ramp at the end of a tick, as a fraction of the output (spec/01 R34, R36). -/
def downLevel (tick : Nat) (r : DownRamp) : Nat × Nat :=
  if r.start ≤ tick then ((r.endTick - tick) * r.fromNum, r.len * r.fromDen) else (r.fromNum, r.fromDen)

/-- A quench of a section in a transmitting state: a SECTION_STOP captured in the same tick meets the QUENCHED section (spec/01 R38;
log entry 68, DESIGN CHOICE). QUENCHED from the next boundary, muted in both directions, a mute ramp from the level that a down-ramp has reached, with a retry or, at the fourth quench within 600 s, the latch. `latch` latches at once. Event 0x0510 is written as the tick closes, with
every reason of the tick (spec/06 R177 to R180, R188; spec/11 R336). -/
def applyQuench (latch : Bool) (reason detail h i : Nat) (s : State) : State :=
  let sp := (secAt s h i).spa
  let bound := s.tbu.tick + 1
  let history := (bound :: sp.history).take 4
  let oldest := history.getLast?.getD bound
  let four := decide (history.length = 4) && decide (bound ≤ oldest + latchWindow)
  let stop := latch || four
  let q := min (sp.qSeq + 1) 4
  let delay := if stop then 0 else retryDelay q
  let ramp := rampMute reason detail
  let t := modSec h i (fun x => { x with
    dmp := dropTests x.dmp, fadeFrom := (x.downRamp.map (downLevel s.tbu.tick)).getD (1, 1)
    spa := { x.spa with
      quenchTick := bound, reason := reason, detail := detail, reasons := 2 ^ (reason - 1), qSeq := q, history := history, latched := stop
      retryAt := if stop then none else some (bound + delay), lockWait := false, okTicks := 0
      muteRamp := ramp, muteTick := bound, quenchGate := !ramp, quenchNote := some delay, quenches := incSat 8 x.spa.quenches
      latches := if stop then incSat 8 x.spa.latches else x.spa.latches } }) s
  let t := setSec h i .quenched t
  let t := if four then emit h 0x0512 ([globalOf h i] ++ bytesOf 4 (bound - oldest)) t else t
  let t := onlyIf ((secAt s h i).stopTick == some s.tbu.tick) (stopQuenched h i) t
  updateGates (s.tbu.clock + s.tbu.tickLen) h i t

/-- A quench trigger. For a section that is already QUENCHED it only adds to what was recorded, and the lowest code of one
tick is the reason; the fastest mute of one tick applies (spec/06 R178). -/
def quench (reason detail h i : Nat) (s : State) : State :=
  let x := secAt s h i
  if transmits x.state then applyQuench false reason detail h i s
  else if x.state = .quenched then
    let same := x.spa.quenchTick == s.tbu.tick + 1
    let fast := same && !rampMute reason detail
    updateGates (s.tbu.clock + s.tbu.tickLen) h i (modSpa h i (fun sp => { sp with
      reasons := sp.reasons ||| 2 ^ (reason - 1), detail := if same && decide (sp.reason ≤ reason) then sp.detail else detail
      reason := if same then min sp.reason reason else sp.reason
      muteRamp := sp.muteRamp && !fast, quenchGate := sp.quenchGate || fast }) s)
  else s

/-- A quench that latches (spec/11 R336). -/
def quenchLatched (reason detail h i : Nat) (s : State) : State :=
  if transmits (secAt s h i).state then applyQuench true reason detail h i s else s

/-! ### Entering RAMPING -/

/-- Limits a definition's pattern duty and slot limits meet (spec/06 R173): every used direction has a permitted range, a
TDD pattern's duty is within FB_DUTY, and no gain slot's OUT_MIN lies above FB_GAIN. -/
def firebrickOk (s : State) (h i : Nat) : Bool :=
  match (secAt s h i).defn with
  | none => false
  | some d =>
    [0, 1].all fun dir =>
      hasRange s h d dir
        && (!d.tdd || (activeBank (patternAt s h d.pattern)).all fun b => decide (dutyClocks (bankEdges b) dir ≤ fbDuty s h d dir * 9600))
        && (gainSlots s h i).all fun g => g.2 / 2 != dir || decide ((loopAt s h g.1).cfg.outMin ≤ fbGain s h d dir)

/-- A TX port of the section holds no valid table (spec/08 R247). -/
def tableMissing (s : State) (h i : Nat) : Bool := (idxOf (secAt s h i)).any fun k => sendsIdx (secAt s h i) k && !(portAt s h k).tableValid

/-- A section enters RAMPING (spec/01 R37; spec/03 R75; spec/06 R165, R166, R169; spec/07 R203). -/
def enterRamping (h i : Nat) (s : State) : State :=
  let t := modSec h i (fun x => { x with
    resume := false, rampTicks := 0, heldFalse := 0, ncoRunning := true, ncoStart := s.tbu.clock + s.tbu.tickLen
    spa := { x.spa with
      ulIdle := true, sqTick := [s.tbu.tick + 1, s.tbu.tick + 1], sqSum := [(0, 0), (0, 0)], txTicks := 0, subMins := [[], []], subTick := 0, noiseFloor := [x.spa.cfg.noiseIn, x.spa.cfg.noiseIn]
      noiseUse := [x.spa.cfg.noiseIn, x.spa.cfg.noiseIn], noiseRise := false, proxRun := false, cPwr := [logMax, logMax, logMax, logMax]
      quenchGate := false, waitGate := false, checkGate := false, muteRamp := false, latched := false, retryAt := none, lockWait := false, okTicks := 0 } }) s
  updateGates (s.tbu.clock + s.tbu.tickLen) h i (startSlots h i (setSec h i .ramping t))

/-- A section in QUENCHED goes to READY with RESUME set (spec/01 R37). -/
def quenchedToReady (h i : Nat) (s : State) : State :=
  setSec h i .ready (modSec h i (fun x => { x with resume := true, spa := { x.spa with retryAt := none, lockWait := false } }) s)

/-- Writes event 0x0511 (spec/06 R188). -/
def retryEvent (h i outcome : Nat) (s : State) : State := emit h 0x0511 [globalOf h i, outcome] s

/-- The end of a retry whose LOs are locked (spec/01 R37, spec/06 R181). -/
def retryRamp (h i : Nat) (note : Bool) (s : State) : State :=
  if tableMissing s h i || !firebrickOk s h i then
    modSpa h i (fun sp => { sp with
      latched := true, retryAt := none, lockWait := false, latches := if sp.latched then sp.latches else incSat 8 sp.latches }) s
  else enterRamping h i (if note then retryEvent h i 0 s else s)

/-- A retry falls due, or is looked at again (spec/01 R37; spec/06 R179, R181, R187, R188). -/
def retry (h i : Nat) (s : State) : State :=
  let x := secAt s h i
  if anyHold s || anyWait x then retryEvent h i 1 (quenchedToReady h i s)
  else if (hearthAt s h).fbCopyBad then s
  else if !losLocked s h i then
    retryEvent h i 2 (modSpa h i (fun sp => { sp with lockWait := true, retryAt := none }) s)
  else retryRamp h i true s

/-- A section whose retry delay has ended (spec/06 R179). -/
def retryDue (h i : Nat) (s : State) : State :=
  let x := secAt s h i
  if present s h && x.state == .quenched && !x.spa.latched && x.spa.retryAt.any (fun t => decide (t ≤ s.tbu.tick)) then retry h i s else s

/-- QUENCH_RETRY (spec/06 R179). -/
def execQuenchRetry (h i : Nat) (s : State) : Out := .next (retryDue h i s)

/-- A section that waits for lock after its retry is looked at again when a lock is captured, or when a hold or wait cause
arises; a retry also waits for the reload of the limit copy (spec/06 R181, R187). -/
def lockWaiters (h : Nat) (s : State) : State :=
  each (List.range 8) (fun i t =>
    let x := secAt t h i
    if x.state == .quenched && x.spa.lockWait then
      if anyHold t || anyWait x then quenchedToReady h i t
      else if losLocked t h i && !(hearthAt t h).fbCopyBad then retryRamp h i false t else t
    else t) s

/-- 600 s in LIVE or DAMPED return Q_SEQ to 0 (spec/06 R179). -/
def historyDue (h i : Nat) (s : State) : State :=
  if present s h && decide (latchWindow ≤ (secAt s h i).spa.okTicks) then modSpa h i (fun sp => { sp with qSeq := 0 }) s else s

/-- QUENCH_HISTORY_RESET (spec/06 R179). -/
def execQuenchHistoryReset (h i : Nat) (s : State) : Out := .next (historyDue h i s)

/-- The TDD sections of a hearth that use TX chain `c` (spec/06 R172). -/
def tddUsers (s : State) (h c : Nat) : List Nat :=
  (List.range 8).filter fun j => (secAt s h j).defn.any (·.tdd) && usesIdx (secAt s h j) c

/-- SPA captures a disagreement of 64 DSP clocks between a TDD switch line and the pattern: source 259, and every TDD section that
uses the chain is quenched (spec/06 R172). -/
def switchMismatch (h c : Nat) (s : State) : State := each (tddUsers s h c) (quench 4 3 h) (raiseSource h 259 s)

/-- Whether the pattern of a TDD line gives at every DSP clock from `clk − 63` to `clk` a level that the line may not have: the comparison of
R172. The LEAD clocks before the line's direction begins and the LAG clocks after it ends are excluded. `level` is the level before POL that
stands on the line (spec/06 R172, spec/08 R254). -/
def lineDisagrees (s : State) (h n clk : Nat) (level : Bool) : Bool :=
  let g := (hearthAt s h).fes.gpio.getD n {}
  let gives (c : Nat) : Bool := patternDir s h g.pattern c == g.func - 2
  let changes := (patternMarks s h g.pattern).filter fun m => decide (0 < m) && gives m != gives (m - 1)
  let calm (c : Nat) : Bool := changes.all fun m =>
    if gives m then decide (m ≤ c) || decide (c + g.lead < m) else decide (m + g.lag ≤ c) || decide (c < m)
  decide (63 ≤ clk) && (List.range 64).all fun j => calm (clk - j) && gives (clk - j) != level

/-- SWITCH_MISMATCH: a TDD switch line has had a level for 64 DSP clocks that its pattern does not give; the gates of the sections that it
quenches close at once, and the next tick captures it for the TX chain of the line's branch (spec/02 R43; spec/06 R172, R177). -/
def execSwitchMismatch (h : Nat) (x : PinChange) (s : State) : Out :=
  .next <|
    let g := (hearthAt s h).fes.gpio.getD x.pin {}
    if present s h && decide (x.pin < 16) && (g.func == 2 || g.func == 3) && inTick s x.clk && lineDisagrees s h x.pin x.clk x.level then
      let c := 2 * (g.func - 2) + g.idx % 2
      arrive (.mismatch h c) (each ((tddUsers s h c).filter fun i => transmits (secAt s h i).state) (fun i t =>
        updateGates x.clk h i (shutGate x.clk h i t)) s)
    else s

/-- DSP clocks that FB_DUTY allows a direction in a frame (spec/06 R176). -/
def dutyLimit (s : State) (h : Nat) (d : SecDef) (dir : Nat) : Nat := fbDuty s h d dir * 9600

/-- DSP clock at which the duty count of a direction whose gate is open reaches a limit (spec/06 R176). -/
def dutyClock (sp : Spa) (d limit : Nat) : Option Nat := (sp.gateSince.getD d none).map fun c => c + (limit - sp.dutyUsed.getD d 0)

/-- SPA captures a duty closure: its event, and the quench (spec/06 R176, R188). -/
def dutyGate (h i d count : Nat) (s : State) : State := quench 4 1 h i (emit h 0x0516 ([globalOf h i, d] ++ bytesOf 4 count) s)

/-- DUTY_LIMIT_REACHED: the count of open clocks reaches its limit in the running tick; the gate closes for the rest of the frame
on the next DSP clock, and the next tick captures the closure (spec/02 R43; spec/06 R176, R188). -/
def execDutyLimitReached (h i d : Nat) (s : State) : Out :=
  .next <|
    let x := secAt s h i
    match x.defn with
    | none => s
    | some e =>
      let limit := dutyLimit s h e d
      match dutyClock x.spa d limit with
      | none => s
      | some clk =>
        if present s h && decide (d < 2) && e.tdd && !x.spa.dutyClosed.getD d true && decide (clk ≤ s.tbu.clock + s.tbu.tickLen) then
          arrive (.dutyGate h i d limit)
            (updateGates (max clk s.tbu.clock) h i (modSpa h i (fun sp => { sp with
              dutyClosed := sp.dutyClosed.set d true, dutyAt := sp.dutyAt.set d clk }) s))
        else s

/-- The working copy of a hearth is reloaded from SEC (spec/06 R187). -/
def reloadLimits (h : Nat) (s : State) : State := modHearth h (fun x => { x with fbCopy := s.limits.inForce, fbCopyBad := false }) s

/-- LIMIT_COPY_RELOAD (spec/06 R187). -/
def execLimitCopyReload (h : Nat) (s : State) : Out :=
  .next (if present s h && (hearthAt s h).fbCopyBad then reloadLimits h s else s)

/-- The reload has come by the last of its 64 ticks (spec/06 R187). -/
def limitsDue (h : Nat) (s : State) : State :=
  let x := hearthAt s h
  if x.fbCopyBad && decide (x.fbCopyBy ≤ s.tbu.tick) then reloadLimits h s else s

/-! ### Squelch -/

/-- UL branches in use by a section. -/
def ulBranches (x : Section) : List Nat := ((x.defn.map usedBranches).getD [])

/-- N_floor of a UL branch (spec/06 R165): NOISE_IN until 480,000 ticks of transmitting state have passed. -/
def floorOf (sp : Spa) (b : Nat) : LogQ :=
  if sp.txTicks < ticksPerSecond then sp.cfg.noiseIn
  else
    let m := minLog (sp.subMins.getD b [])
    if m = logMax then sp.noiseFloor.getD b sp.cfg.noiseIn else m

/-- Recomputes N_floor, N_use and NOISE_RISE (spec/06 R165). -/
def updateFloor (h i : Nat) (s : State) : State :=
  let x := secAt s h i
  let f := [floorOf x.spa 0, floorOf x.spa 1]
  let hi := maxLog ((ulBranches x).map fun b => f.getD b logMin)
  let rise := if x.spa.noiseRise then decide (x.spa.cfg.noiseIn + 1280 < hi) else decide (x.spa.cfg.noiseIn + 1536 ≤ hi)
  let t := modSpa h i (fun sp => { sp with noiseFloor := f, noiseUse := f.map fun v => max sp.cfg.noiseIn v, noiseRise := rise }) s
  if rise && !x.spa.noiseRise then
    emit h 0x0515 ([globalOf h i] ++ bytesOf 2 hi ++ bytesOf 2 x.spa.cfg.noiseIn) t else t

/-- SQ_ATT of a UL branch (spec/06 R167). -/
def squelchAtt (sp : Spa) (b : Nat) (gain : LogQ) : LogQ :=
  max 0 (satLog (sp.noiseUse.getD b 0 + gain + sp.cfg.portOfsUl - sp.cfg.ulNoiseMax))

/-- The squelch that a section's uplink has from the next boundary on: attenuation per branch, 0x7FFF while muted
(spec/06 R167, R186). -/
def squelchNow (h i : Nat) (s : State) : State :=
  let x := secAt s h i
  let act := x.spa.ulIdle && x.spa.cfg.sqEn && transmits x.state
  let att (b : Nat) : Int :=
    if act && (ulBranches x).contains b then
      let a := squelchAtt x.spa b (x.applied.getD (2 + b) logMin)
      if x.spa.cfg.sqMute || decide (10240 < a) then logMax else a
    else 0
  modSpa h i (fun sp => { sp with
    sqAtt := [att 0, att 1], squelched := [act && (ulBranches x).contains 0, act && (ulBranches x).contains 1] }) s

/-- Changes the uplink between ACTIVE and IDLE, with the attenuation that follows and its event (spec/06 R166, R167, R188). -/
def setIdle (h i : Nat) (idle : Bool) (s : State) : State :=
  if (secAt s h i).spa.ulIdle = idle then s
  else
    let t := squelchNow h i (modSpa h i (fun y => { y with ulIdle := idle, squelches := if idle then incSat 16 y.squelches else y.squelches }) s)
    emit h 0x0513 ([globalOf h i, bitNat idle] ++ bytesOf 2 ((secAt t h i).spa.sqAtt.getD 0 0)) t

/-- The running minimum of a noise sub-window takes a value (spec/06 R165). -/
def minInto (v : Int) : List Int → List Int
  | [] => [v]
  | w :: r => min w v :: r

/-- W_sq of a definition: max(1, ceil(32 · 480,000 / Fp)) ticks (spec/06 R164). -/
def squelchTicks (d : SecDef) : Nat := max 1 (ceilDiv (32 * 480000 * 2 ^ 48) (rateOf d))

/-- N_w of a window power of a UL branch (spec/06 R164). -/
def windowDensity (x : Section) (d : SecDef) (b : Nat) (power : Int) : LogQ :=
  satLog (power - rxgUsed x (2 + b) - logRatio d.bandwidth 100000)

/-- SPA captures the end of a squelch window of a UL branch: with fewer than 32 valid samples it is not counted; otherwise N_floor
takes its N_w, and the uplink is ACTIVE when it lies high enough (spec/06 R164 to R166). -/
def takeWindow (h i b : Nat) (s : State) : State :=
  let x := secAt s h i
  let w := x.spa.sqSum.getD b (0, 0)
  let s := modSpa h i (fun sp => { sp with sqSum := sp.sqSum.set b (0, 0) }) s
  match x.defn with
  | none => s
  | some d =>
    if transmits x.state && decide (32 ≤ w.2) then
      let nw := windowDensity x d b (meanOf w)
      let t := updateFloor h i (modSpa h i (fun sp => { sp with subMins := sp.subMins.modify b (minInto nw) }) s)
      let sp := (secAt t h i).spa
      if sp.noiseUse.getD b logMax + 256 * (sp.cfg.actThresh : Int) ≤ nw then
        setIdle h i false (modSpa h i (fun y => { y with activeTick := s.tbu.tick }) t)
      else t
    else s

/-- The window of W_sq ticks of a UL branch that began with tick `first` ends with the running tick; the next tick captures it
(spec/02 R43, spec/06 R164). -/
def windowDue (h i b first : Nat) (s : State) : State :=
  let x := secAt s h i
  match x.defn with
  | none => s
  | some d =>
    if present s h && transmits x.state && decide (b < 2) && maskHas d.branchMask b
        && x.spa.sqTick.getD b 0 == first && decide (first + squelchTicks d ≤ s.tbu.tick + 1) then
      arrive (.squelch h i b) (modSpa h i (fun sp => { sp with sqTick := sp.sqTick.set b (s.tbu.tick + 1) }) s)
    else s

/-- SQUELCH_WINDOW: the end of the window that began with tick `first` (spec/06 R164; log entry 116, DESIGN CHOICE for a row that names
another window). -/
def execSquelchWindow (h i b first : Nat) (s : State) : Out := .next (windowDue h i b first s)

/-- HANG ticks have passed since the last tick that captured an active window (spec/06 R166). -/
def uplinkIdle (h i : Nat) (s : State) : State :=
  let x := secAt s h i
  if present s h && transmits x.state && !x.spa.ulIdle && decide (x.spa.activeTick < s.tbu.tick)
      && decide (x.spa.activeTick + x.spa.cfg.hang ≤ s.tbu.tick) then setIdle h i true s else s

/-- UPLINK_IDLE (spec/06 R166). -/
def execUplinkIdle (h i : Nat) (s : State) : Out := .next (uplinkIdle h i s)

/-- A sub-period of 30,000 ticks ends (spec/06 R165). -/
def endSubperiod (h i : Nat) (s : State) : State :=
  let x := secAt s h i
  if present s h && transmits x.state && decide (30000 ≤ x.spa.subTick) then
    updateFloor h i (modSpa h i (fun sp => { sp with
      subTick := sp.subTick - 30000, subMins := sp.subMins.map fun m => (logMax :: m).take 16 }) s)
  else s

/-- NOISE_FLOOR_SUBPERIOD (spec/06 R165). -/
def execNoiseFloorSubperiod (h i : Nat) (s : State) : Out := .next (endSubperiod h i s)

/-- The squelch of a section in phase 2: the noise floor by the configuration in force, the IDLE decision, and the attenuation
(spec/06 R165 to R167). -/
def squelchTick (h i : Nat) (s : State) : State :=
  squelchNow h i (uplinkIdle h i (onlyIf (transmits (secAt s h i).state) (updateFloor h i) s))

/-! ### Ceilings -/

/-- L_DL and whether the fall-back of R170 is in use. -/
def donorLevel (x : Section) : Option LogQ × Bool :=
  if x.spa.cfg.proxSrc then (x.spa.dlPower, false)
  else match x.spa.airLevel with
    | some l => (some l, false)
    | none => (x.spa.dlPower, true)

/-- C_prox of a tick (spec/06 R169): falls at once, rises by 1 LSB once in 192 ticks. -/
def proxTick (x : Section) : Spa :=
  let sp := x.spa
  if !sp.cfg.proxEn then { sp with proxCeil := logMax, proxRun := false, proxFallback := false }
  else
    let (l, fb) := donorLevel x
    match l with
    | none => { sp with proxFallback := fb }
    | some l =>
      let raw := satLog (sp.cfg.ulRefGain - (l - sp.cfg.dlRefLevel))
      let n := if sp.proxTick + 1 < 192 then sp.proxTick + 1 else 0
      let rise := if n = 0 then 1 else 0
      let c := if !sp.proxRun || decide (raw ≤ sp.proxCeil) then raw else min raw (sp.proxCeil + rise)
      { sp with proxLevel := l, proxCeil := c, proxTick := n, proxRun := true, proxFallback := fb }

/-- The Firebrick rows that govern a section on TX port `c`. -/
def rowsOn (s : State) (h i c : Nat) : List Nat :=
  match (secAt s h i).defn with
  | none => []
  | some d => (hearthAt s h).fbCopy.filter fun r => usesIdx (secAt s h i) c && rowHolds (rowAt s r) (c / 2) (centreOf d (c / 2)) d.bandwidth

/-- Linear power of a section entering the TX sum of a port in a tick, in units of 2^-96 of full scale. -/
def txPower (tx : List LevelIn) (h i c : Nat) : Nat :=
  match tx.find? fun e => e.h == h && e.i == i && e.k == c with
  | some e => powOf e.level
  | none => 0

/-- Powers at the reference plane of port `c` by Firebrick range, in units of 2^-96 mW (spec/06 R175). -/
def rangePowers (s : State) (tx : List LevelIn) (h c : Nat) : List (Nat × Nat) :=
  (hearthAt s h).fbCopy.filterMap fun r =>
    let on := (List.range 8).filter fun i => transmits (secAt s h i).state && (rowsOn s h i c).contains r
    if on.isEmpty then none
    else some (r, (on.map fun i => txPower tx h i c).foldl (· + ·) 0 * powOf (portAt s h c).fsDbm / 2 ^ 96)

/-- P16 of a range of a port, as a fraction of 16 (spec/06 R175). -/
def meanPower (win : List (List (Nat × Nat))) (r : Nat) : Nat := (win.map fun l => kgetD l r 0).foldl (· + ·) 0

/-- C_pwr of a section's branch after a tick (spec/06 R175). `excess` is the highest over the ranges that govern it. -/
def powerCeil (prev applied request excess : LogQ) : LogQ :=
  let up := satLog (prev + 1)
  let c := if 0 < excess then min (satLog (applied - excess)) up else up
  if satLog (request + 256) < c then logMax else c

/-- Port power of a hearth in a tick: C_pwr, P16, and the quench of a persistent excess (spec/06 R175, R185). -/
def portPower (tx : List LevelIn) (h : Nat) (s : State) : State :=
  each (List.range 4) (fun c t =>
    let now := rangePowers t tx h c
    let win := (now :: (portAt t h c).pWindow).take 16
    let limit (r : Nat) : LogQ := rowPower (rowAt t r) (c % 2)
    let levels := now.map fun e => (e.1, logRatio (meanPower win e.1) (16 * 2 ^ 96))
    let top := maxLog (levels.map (·.2))
    let t1 := each (List.range 8) (fun i u =>
      let x := secAt u h i
      if transmits x.state && usesIdx x c then
        let ex := maxLog ((rowsOn u h i c).map fun r => subLog (logRatio (kgetD now r 0) (2 ^ 96)) (limit r - 64))
        let v := powerCeil (x.spa.cPwr.getD c logMax) (x.applied.getD c logMin) (x.request.getD c logMin) ex
        modSpa h i (fun sp => { sp with cPwr := sp.cPwr.set c v }) u
      else u) t
    let capped := (List.range 8).any fun i =>
      decide ((secAt t1 h i).spa.cPwr.getD c logMax < logMax) && transmits (secAt t1 h i).state
    let range := ((levels.find? fun e => e.2 == top).map (·.1)).getD 0
    let t2 := modPort h c (fun p => { p with pWindow := win, pwr := top, pwrRange := range, pwrCeil := capped }) t1
    let loud := levels.filter fun e => decide (limit e.1 + 256 < e.2)
    each loud (fun e u => each ((List.range 8).filter fun i => (rowsOn t h i c).contains e.1) (quench 4 0 h) u) t2) s

/-- C_spa of every direction and branch of a section (spec/06 R163). -/
def networkCeil (h i : Nat) (s : State) : State :=
  let x := secAt s h i
  let sp := if transmits x.state then proxTick x
    else { x.spa with cPwr := [logMax, logMax, logMax, logMax], proxCeil := logMax, proxRun := false }
  let one (k : Nat) : LogQ :=
    if !usesIdx x k then logMax
    else if k < 2 then sp.cPwr.getD k logMax else min sp.proxCeil (sp.cPwr.getD k logMax)
  modSpa h i (fun _ => { sp with ceil := (List.range 4).map one }) s

/-! ### Commands -/

/-- On a group member, a command for a group-scoped section is the leader's alone (spec/05, spec/06). -/
def groupRule (p : Packet) (s : State) : Bool :=
  p.src == 0x41 || !(s.flu.acting == 1 || s.flu.acting == 3) || !((secAt s p.hearth p.sect).defn.any (·.group))

/-- SPA_CONFIG of a payload (spec/06 R182). -/
def spaCfgOf (ws : List Word) : SpaCfg :=
  let w (k : Nat) : Word := wordAt ws k
  { ulNoiseMax := sfld (w 0) 0 16, noiseIn := sfld (w 0) 16 16, portOfsUl := sfld (w 1) 0 16, actThresh := fld (w 1) 16 5
    sqEn := bitOf (w 1) 24, sqMute := bitOf (w 1) 25, proxEn := bitOf (w 1) 26, proxSrc := bitOf (w 1) 27
    hang := fld (w 2) 0 16, ulRefGain := sfld (w 3) 0 16, dlRefLevel := sfld (w 3) 16 16 }

/-- The ranges and 0-bits of R182. -/
def spaCfgOk (ws : List Word) : Bool :=
  let c := spaCfgOf ws
  decide (c.ulNoiseMax ≤ 0) && decide (c.noiseIn ≤ 0) && decide (-16384 ≤ c.portOfsUl) && decide (c.portOfsUl ≤ 16384)
    && decide (3 ≤ c.actThresh) && decide (c.actThresh ≤ 30) && decide (c.hang ≤ 48000) && decide (0 ≤ c.ulRefGain)
    && decide (c.ulRefGain ≤ 25600) && decide (c.dlRefLevel ≤ 0)
    && zeroAt (wordAt ws 1) 21 3 && zeroAt (wordAt ws 1) 28 4 && zeroAt (wordAt ws 2) 16 16 && wordAt ws 4 == 0

/-- Words 0 to 3 of SPA_CONFIG as registers show them (spec/06 R186). -/
def spaCfgWords (c : SpaCfg) : List Word :=
  [wordOf [(0, 16, c.ulNoiseMax), (16, 16, c.noiseIn)],
   wordOf [(0, 16, c.portOfsUl), (16, 5, c.actThresh), (24, 1, bit c.sqEn), (25, 1, bit c.sqMute), (26, 1, bit c.proxEn), (27, 1, bit c.proxSrc)],
   wordOf [(0, 16, c.hang)], wordOf [(0, 16, c.ulRefGain), (16, 16, c.dlRefLevel)]]

/-- Handling of SPA_CONFIG (spec/06 R182). -/
def spaConfig (p : Packet) (s : State) : Done :=
  check (groupRule p s) .notPermitted s <|
  check ((secAt s p.hearth p.sect).state != .cold) .state s <|
  check (spaCfgOk p.payload) .badParam s <|
  .reply .ok [] (modSpa p.hearth p.sect (fun sp => { sp with cfg := spaCfgOf p.payload }) s)

/-- SPA_CONFIG (spec/06 R182). -/
def execSpaConfig (p : Packet) (s : State) : Out := .next (runCommand infoSpaConfig spaConfig p s)

/-- Quenches of the last 600 s (spec/06 R186). -/
def inWindow (s : State) (sp : Spa) : Nat := (sp.history.filter fun b => decide (s.tbu.tick ≤ b + latchWindow)).length

/-- Flags per direction and branch as a field, in the order of R94. -/
def flags4 (bs : List Bool) : Nat := maskOf ((List.range 4).filter fun k => bs.getD k false)

/-- The 13 registers of a section's SPA group (spec/06 R186). -/
def spaWords (s : State) (h i : Nat) : List Word :=
  let x := secAt s h i
  let sp := x.spa
  let ub := (ulBranches x).foldl (fun a b => if sp.noiseFloor.getD a logMin < sp.noiseFloor.getD b logMin then b else a) ((ulBranches x).headD 0)
  let left := (sp.retryAt.map fun t => t - s.tbu.tick).getD 0
  let idx (f : Nat → Int) : List Word := [wordOf [(0, 16, f 0), (16, 16, f 1)], wordOf [(0, 16, f 2), (16, 16, f 3)]]
  spaCfgWords sp.cfg ++ idx (fun k => sp.ceil.getD k logMax) ++
  [wordOf [(0, 16, sp.proxLevel), (16, 16, sp.proxCeil)],
   wordOf [(0, 16, sp.noiseFloor.getD ub logMin), (16, 16, sp.noiseUse.getD ub logMin)],
   wordOf [(0, 16, sp.sqAtt.getD 0 0), (16, 16, sp.sqAtt.getD 1 0)],
   wordOf [(0, 1, bit sp.ulIdle), (1, 1, bit (sp.squelched.getD 0 false)), (2, 1, bit (sp.squelched.getD 1 false)),
     (3, 1, bit sp.proxFallback), (4, 4, flags4 (sp.cPwr.map fun c => decide (c < logMax))), (8, 4, flags4 sp.gateShown), (12, 1, bit sp.noiseRise)],
   wordOf [(0, 3, sp.reason), (3, 5, sp.detail), (8, 4, sp.reasons), (12, 3, sp.qSeq), (15, 3, inWindow s sp),
     (18, 1, bit sp.retryAt.isSome), (19, 1, bit sp.lockWait)],
   wordOf [(0, 25, left)], wordOf [(0, 8, sp.quenches), (8, 8, sp.latches), (16, 16, sp.squelches)]]

/-- A query of a section's registers, refused while it is COLD. -/
def sectionQuery (words : State → Nat → Nat → List Word) (p : Packet) (s : State) : Done :=
  check ((secAt s p.hearth p.sect).state != .cold) .state s <| .reply .ok (words s p.hearth p.sect) s

/-- SPA_QUERY (spec/06 R183). -/
def execSpaQuery (p : Packet) (s : State) : Out := .next (runCommand infoSpaQuery (sectionQuery spaWords) p s)

/-- Handling of SPA_HISTORY_CLEAR (spec/06 R184). -/
def spaHistoryClear (p : Packet) (s : State) : Done :=
  check (groupRule p s) .notPermitted s <|
  check ((secAt s p.hearth p.sect).state != .cold) .state s <|
  .reply .ok [] (modSpa p.hearth p.sect (fun sp => { sp with qSeq := 0, history := [] }) s)

/-- SPA_HISTORY_CLEAR (spec/06 R184). -/
def execSpaHistoryClear (p : Packet) (s : State) : Out := .next (runCommand infoSpaHistoryClear spaHistoryClear p s)

/-- SPA_CNT_CLR (spec/06 R185). -/
def execSpaCntClr (h : Nat) (s : State) : Out :=
  .next (if present s h && writable s then
    each (List.range 8) (fun i => modSec h i fun x => { x with
      spa := { x.spa with quenches := 0, latches := 0, squelches := 0 }, spaShown := x.spaShown.set 12 0 }) s else s)

end Sys2Proof.Machine
end

