-- ==== Sys2Proof/Machine/AirMonitor.lean ====
section
/-! DEFINITION. Machine/AirMonitor.lean: visits and scan dwells, pattern watch, and the commands of the Air Monitor
(spec/10). -/

namespace Sys2Proof.Machine

/-! ### Detections -/

/-- The event of a cell that enters DETECTED from FREE (spec/10 R307, R327). -/
def newCellEvent (h n : Nat) (c : Cell) : State → State :=
  emit h 0x0910 (bytesOf 2 n ++ [c.rat] ++ bytesOf 2 c.pci ++ bytesOf 4 c.freq ++ bytesOf 2 c.level)

/-- Sync symbol in the half frame at which SSB `n` of an NR case begins: Case A, B or C (spec/10 R301). -/
def ssbSymbol (rat : Nat) (caseC : Bool) (n : Nat) : Nat :=
  if rat = 2 ∧ caseC = false then [4, 8, 16, 20, 32, 36, 44, 48].getD n 0 else [2, 8, 16, 22, 30, 36, 44, 50].getD n 0

/-- Offset in the cell's frame of the PSS symbol of an LTE cell or the SSB of an NR cell, from the SSS subframe, or from the SSB
index, half-frame and case (spec/02 R51, spec/10 R311; log entry 120, PRESUMED). -/
def syncPosition (caseC : Bool) (r : CellIn) : Nat :=
  if r.rat = 0 then symbolClock 0 (70 * bitNat r.sub5 + if r.tdd then 16 else 6)
  else
    let mu := r.rat - 1
    symbolClock mu (70 * 2 ^ mu * bitNat r.half + ssbSymbol r.rat caseC r.ssbIdx)

/-- The SFN of a decoded MIB: NR with the 4 SFN bits of the PBCH payload, LTE with the 2 bits of the PBCH position (spec/10 R304;
log entry 120, PRESUMED). -/
def mibSfn (rat bits extra : Nat) : Nat :=
  if rat = 0 then bits / 2 ^ 10 % 256 * 4 + extra % 4 else bits / 2 ^ 17 % 64 * 16 + extra % 16

/-- cellBarred of an NR MIB: barred is the value 0 (spec/10 R304; log entry 120, PRESUMED). -/
def mibBarred (rat bits : Nat) : Bool := rat != 0 && bits / 4 % 2 == 0

/-- dl-Bandwidth of an LTE MIB in resource blocks; 0 of NR (spec/10 R304, R305; log entry 120, PRESUMED). -/
def mibBandwidth (rat bits : Nat) : Nat :=
  let code := bits / 2 ^ 21 % 8
  if rat ≠ 0 then 0 else [6, 15, 25, 50, 75, 100].getD code (Config.spareBandwidth code % 256)

/-- LEVEL of each chain after a measurement; a cell tracked by a two-branch section keeps both (spec/10 R304, R309). -/
def newLevels (s : State) (h chain : Nat) (c : Cell) (new : Int) : List (Option Int) :=
  let both := (maskBits 8 c.trackedBy).any fun i => (secAt s h i).defn.any fun d => d.branchMask == 3
  let prev := if both then c.levels.getD chain none else (c.levels.find? Option.isSome).getD none
  let v := match prev with
    | none => new
    | some l =>
      let k := (hearthAt s h).air.levelK
      satLog (roundDiv (l * 2 ^ k + (new - l)) (2 ^ k))
  if both then c.levels.set chain (some v) else if chain = 0 then [some v, none] else [none, some v]

/-- LEVEL of a detection at the DRX pin: its power less RXG of the chain at the cell's frequency (spec/10 R304). -/
def cellLevel (s : State) (h : Nat) (v : VisitIn) (r : CellIn) : LogQ := satLog (r.power - rxgAt s h v.chain v.freq)

/-- An entry takes a detection, for which CASE is known (spec/10 R304, R305, R307, R308, R311). -/
def takeDetection (s : State) (h : Nat) (visit caseC : Bool) (v : VisitIn) (r : CellIn) (c : Cell) : Cell :=
  let ls := newLevels s h v.chain c (cellLevel s h v r)
  let top := maxLog (ls.map fun l => l.getD logMin)
  let offset : Int := r.start - syncPosition caseC r
  let clk : Int := s.tbu.frameStart + offset
  let y : Cell := { c with
    levels := ls, level := top, chain := if ls.getD v.chain none = some top then v.chain else 1 - v.chain
    sinr := r.sinr, framePos := (offset % frameClocks).toNat, ssbIdx := r.ssbIdx, half := r.half, tdd := r.tdd, caseC := caseC, fofs := r.fofs, period := r.period
    lastSeen := s.tbu.tick % 2 ^ 32, misses := 0, visits := if visit then incSat 16 c.visits else c.visits
    clock := clk, state := if c.state = 3 then 1 else c.state, lostRun := 0 }
  match r.mib with
  | some (bits, extra) =>
    { y with
      state := 2, mib := bits % 2 ^ 24, sfn := mibSfn r.rat bits extra, barred := mibBarred r.rat bits, bw := mibBandwidth r.rat bits }
  | none =>
    if c.state = 2 then { y with sfn := ((c.sfn + roundDiv (clk - c.clock) frameClocks) % 1024).toNat } else y

/-- The entry that a new detection takes: the lowest FREE one, the LOST one seen longest ago, or the weakest untracked
one below the new level (spec/10 R306). -/
def entryFor (s : State) (h : Nat) (level : Int) : Option Nat :=
  let cs := (hearthAt s h).air.cells
  let age (c : Cell) : Nat := (s.tbu.tick + 2 ^ 32 - c.lastSeen % 2 ^ 32) % 2 ^ 32
  match (List.range 1024).find? fun n => (kget cs n).isNone with
  | some n => some n
  | none =>
    let lost := cs.filter fun e => e.2.state == 3
    match lost.head? with
    | some e0 => some (lost.foldl (fun (a : Nat × Nat) e => if a.2 < age e.2 then (e.1, age e.2) else a) (e0.1, age e0.2)).1
    | none =>
      match weakest ((cs.filter fun e => !e.2.tracked).map fun e => (e.1, e.2.level)) with
      | some w => if w.2 < level then some w.1 else none
      | none => none

/-- A detection enters the cell table (spec/10 R306). -/
def enterCell (h : Nat) (visit caseC : Bool) (v : VisitIn) (r : CellIn) (s : State) : State :=
  match (hearthAt s h).air.cells.find? fun e => e.2.rat == r.rat && e.2.pci == r.pci && e.2.freq == v.freq with
  | some (n, c) => modAir h (fun a => { a with cells := kset a.cells n (takeDetection s h visit caseC v r c) }) s
  | none =>
    match entryFor s h (cellLevel s h v r) with
    | none => emit h 0x0914 (bytesOf 4 v.freq) (modAir h (fun a => { a with tableFull := true }) s)
    | some n =>
      let c := takeDetection s h visit caseC v r { rat := r.rat, pci := r.pci, freq := v.freq }
      newCellEvent h n c (modAir h (fun a => { a with cells := kset a.cells n c }) s)

/-- Entries on a frequency that a visit or dwell did not detect: a visit counts a miss of a tracked cell, and N_LOST of
them lose it; a LOST entry is freed after 64 visits or passes (spec/10 R307). -/
def missCells (h : Nat) (visit : Bool) (v : VisitIn) (rats : Nat → Bool) (s : State) : State :=
  let a := (hearthAt s h).air
  let missed := a.cells.filter fun e =>
    e.2.freq == v.freq && rats e.2.rat && !v.found.any fun r => r.rat == e.2.rat && r.pci == e.2.pci
  each missed (fun e t =>
    let c := e.2
    let y : Cell := if visit then { c with visits := incSat 16 c.visits, misses := incSat 8 c.misses } else c
    if c.state = 3 then
      modAir h (fun b => { b with cells := if 64 ≤ c.lostRun + 1 then kerase b.cells e.1 else kset b.cells e.1 { y with lostRun := c.lostRun + 1 } }) t
    else if visit && c.tracked then
      let u := modAir h (fun b => { b with cells := kset b.cells e.1 y }) t
      if a.nLost ≤ y.misses then loseCell h e.1 u else u
    else t) s

/-- Whether AIR can measure a frequency on a DL chain (spec/10 R299). -/
def airHears (s : State) (h : Nat) (v : VisitIn) : Bool :=
  present s h && (hearthAt s h).air.enabled && decide (v.chain < 2) && inBand ((hearthAt s h).rfc.lo.getD v.chain 0) v.freq 0

/-- The tracked cell of highest LEVEL that FRAME_SOURCE names (spec/10 R312). -/
def namedCell (s : State) (h : Nat) : Option Cell :=
  if s.tbu.srcSection / 8 = h then cellNamed s s.tbu.srcSection s.tbu.srcPci else none

/-- A detection of the named cell with an SS-SINR of at least −3.0 dB goes to the TBU, which captures it in the next tick: the
clock of the cell's frame boundary, with its SFN once that is decoded (spec/02 R43, R53; spec/10 R312). -/
def passCell (h : Nat) (v : VisitIn) (s : State) : State :=
  match namedCell s h with
  | some c =>
    if s.tbu.source = some 2 && c.freq == v.freq && v.found.any (fun r => r.rat == c.rat && r.pci == c.pci && decide (-768 ≤ r.sinr)) then
      modTbu (fun x => { x with airAlign := some (c.clock, if c.state = 2 then some c.sfn else none), airAge := 0 }) s
    else s
  | none => s

/-- CASE of the section whose tracked cells a visit measures (spec/10 R321). -/
def visitCase (s : State) (h : Nat) (v : VisitIn) : Bool :=
  match (hearthAt s h).air.cells.find? fun e => e.2.tracked && e.2.freq == v.freq with
  | some e => (secAt s h e.2.sect).air.caseC
  | none => true

/-- A component at least 10.0 dB above the mean of the 8 on each side, on a DL branch of a section with TRACK_EN, within its DL
passband and outside the sync block of every tracked cell (spec/10 R318). -/
def lineStands (s : State) (h chain : Nat) (l : LineIn) : Bool :=
  let x := secAt s h l.sect
  l.branch == chain && x.air.trackEn && decide (l.sides.length = 16) && decide (10 * (l.sides.foldl (· + ·) 0) ≤ 16 * l.power)
    && (x.defn.any fun d => maskHas d.branchMask l.branch
      && decide (2 * d.dlCentre ≤ 2 * l.freq + d.bandwidth) && decide (2 * l.freq ≤ 2 * d.dlCentre + d.bandwidth))
    && !(hearthAt s h).air.cells.any fun e =>
      e.2.tracked && decide (2 * e.2.freq ≤ 2 * l.freq + syncWidth e.2.rat) && decide (2 * l.freq ≤ 2 * e.2.freq + syncWidth e.2.rat)

/-- Level of a component at the RX pin, LogQ dBm. -/
def lineLevel (s : State) (h : Nat) (l : LineIn) : LogQ := satLog (logRatio l.power (2 ^ 30) - rxgAt s h l.branch l.freq)

/-- A detection that R301 allows: a RAT of the table, its PCI, and an SSB index of its case and frequency (spec/10 R301, R305; log entry
120, PRESUMED). -/
def detectable (freq : Nat) (caseC : Bool) (r : CellIn) : Bool :=
  decide (r.rat ≤ 2) && decide (r.pci < if r.rat = 0 then 504 else 1008)
    && (r.rat == 0 || decide (r.ssbIdx < if freq ≤ 300000000 ∧ !(r.rat = 2 ∧ caseC = true ∧ r.tdd = true) then 4 else 8))

/-- What a visit or dwell found that counts. -/
def onlyDetectable (v : VisitIn) (caseC : Nat → Bool) : VisitIn := { v with found := v.found.filter fun r => detectable v.freq (caseC r.rat) r }

/-- The sync signals of a tracked cell on a frequency fall into the running frame, by the period observed (spec/10 R301, R310). -/
def syncFalls (s : State) (h freq : Nat) : Bool :=
  (hearthAt s h).air.cells.any fun e => e.2.tracked && e.2.freq == freq
    && roundDiv ((s.tbu.frameStart : Int) + e.2.framePos - e.2.clock) frameClocks % (max 1 (e.2.period / 2) : Nat) == 0

/-- Visits that AIR has made in the running frame. -/
def visitsNow (s : State) (h : Nat) : Nat := let a := (hearthAt s h).air; if a.visitAt = s.tbu.frameStart then a.visitN else 0

/-- The frequency of the cell that FRAME_SOURCE names, on a DL chain of its section, is visited in addition (spec/10 R310). -/
def sourceVisit (s : State) (h : Nat) (v : VisitIn) : Bool :=
  s.tbu.source == some 2 && (namedCell s h).any (fun c => c.freq == v.freq) && (roundVisits s h).contains (v.freq, v.chain)

/-- AIR takes a visit: it is the next of its round or one of the frame source's cell, a channel frame is left in the running frame, and the
sync signals fall into it (spec/10 R310). -/
def visitTaken (s : State) (h : Nat) (v : VisitIn) : Bool :=
  airHears s h v && ((visitsLeft s h).head? == some (v.freq, v.chain) || sourceVisit s h v)
    && decide (visitsNow s h < (hearthAt s h).air.channels) && syncFalls s h v.freq

/-- k of the channel decimation of a RAT (spec/03 R83; spec/10 R301). -/
def ratK (rat : Nat) : Nat := if rat = 0 then 9 else if rat = 1 then 8 else 7

/-- The `n`-th measurement channel of AIR reads a chain at a frequency with the decimation of a RAT, from its next output boundary on
(spec/03 R83; spec/10 R301, R310; log entry 144, DESIGN CHOICE). -/
def tuneAir (h n chain freq rat : Nat) (s : State) : State :=
  let inc := ncoInc freq ((hearthAt s h).rfc.lo.getD chain 0)
  modChannels h (fun xs => (xs.foldl (fun (a : Nat × List MeasCh) x =>
    if x.owner = 1 then (a.1 + 1, a.2 ++ [if a.1 = n then retune chain inc (ratK rat) s.tbu.clock x else x]) else (a.1, a.2 ++ [x])) (0, [])).2) s

/-- Lowest RAT of the tracked cells on a frequency. -/
def visitRat (s : State) (h freq : Nat) : Nat :=
  (((hearthAt s h).air.cells.filter fun e => e.2.tracked && e.2.freq == freq).map fun e => e.2.rat).min?.getD 0

/-- A visit goes on in the round: what is left of it, and the channel that it takes (spec/10 R310). -/
def startVisit (h : Nat) (v : VisitIn) (s : State) : State :=
  let left := visitsLeft s h
  let n := visitsNow s h
  tuneAir h n v.chain v.freq (visitRat s h v.freq) (modAir h (fun a => { a with
    round := if left.head? = some (v.freq, v.chain) then left.tail else left, visitAt := s.tbu.frameStart, visitN := n + 1 }) s)

/-- AIR_VISIT: every tracked cell on one frequency and chain is measured; the results of a visit whose correlator has failed its check
are discarded (spec/10 R310, R312, R313, R318, R326). -/
def execAirVisit (h : Nat) (x : VisitIn) (s : State) : Out :=
  .next <|
    let v := onlyDetectable x fun _ => visitCase s h x
    if !visitTaken s h v then s
    else
      let t := startVisit h v s
      if (hearthAt s h).air.visitBad then modAir h (fun a => { a with visitBad := false }) t
      else
        let t := each v.found (enterCell h true (visitCase s h v) v) (missCells h true v (fun _ => true) t)
        let t := passCell h v (retrack h t)
        each (v.lines.filter (lineStands t h v.chain))
          (fun l => reportStranger h l.sect l.branch false l.freq l.bin (lineLevel t h l)) t

/-- Whether a frequency lies on the raster of a RAT (spec/10 R302). -/
def onRaster (rat f : Nat) : Bool :=
  if rat = 0 then f % 10000 == 0
  else if 300000000 ≤ f then (f - 300000000) % 144000 == 0
  else [5000, 15000, 25000].any fun m => decide (m ≤ f) && (f - m) % 120000 == 0

/-- CASE and SSB_PERIOD of the first scan range, or implicit range of a tracked section, that visits a frequency on a chain for a RAT
(spec/10 R302, R320, R321). -/
def scanOf (s : State) (h : Nat) (v : VisitIn) (rat : Nat) : Option (Bool × Nat) :=
  let ranges := (hearthAt s h).air.ranges.filter fun r => r.enable && r.chain == v.chain && maskHas r.rats rat && decide (r.start ≤ v.freq)
    && decide (v.freq ≤ r.stop) && (if r.step = 0 then onRaster rat v.freq else (v.freq - r.start) % r.step == 0)
  let tracks := (List.range 8).filter fun i =>
    let x := secAt s h i
    x.air.trackEn && maskHas x.air.rats rat && onRaster rat v.freq && x.defn.any fun d =>
      maskHas d.branchMask v.chain && decide (2 * d.dlCentre ≤ 2 * v.freq + d.bandwidth) && decide (2 * v.freq ≤ 2 * d.dlCentre + d.bandwidth)
  (ranges.map (fun r => (r.caseC, r.ssbPeriod)) ++ tracks.map fun i => ((secAt s h i).air.caseC, (secAt s h i).air.ssbPeriod)).head?

/-- Ticks of a search dwell: 10 ms for LTE, SSB_PERIOD for NR (spec/10 R301, R320). -/
def dwellTicks (rat period : Nat) : Nat := if rat = 0 then 4800 else 9600 * 2 ^ period

/-- Whether a dwell searches for a RAT: a range visits its frequency, and it has lasted long enough (spec/10 R301, R302). -/
def scanVisits (s : State) (h : Nat) (v : VisitIn) (rat : Nat) : Bool :=
  (scanOf s h v rat).any fun r => decide (v.first + dwellTicks rat r.2 ≤ s.tbu.tick + 1)

/-- AIR_SCAN_DWELL: a dwell at a raster point ends, in channel frames that tracking leaves free, and its detections enter the cell
table; those of the frame source's cell go to the TBU (spec/10 R301, R302, R306, R310, R312, R326). -/
def execAirScanDwell (h : Nat) (x : DwellIn) (s : State) : Out :=
  .next <|
    let case (rat : Nat) : Bool := ((scanOf s h x rat).map (·.1)).getD true
    let v := onlyDetectable x case
    let rats := [0, 1, 2].filter (scanVisits s h v)
    if airHears s h v && !(hearthAt s h).air.starved && !rats.isEmpty then
      let t := tuneAir h ((hearthAt s h).air.channels - 1) v.chain v.freq (rats.headD 0) s
      if (hearthAt s h).air.visitBad then modAir h (fun a => { a with visitBad := false }) t
      else
        let t := missCells h false v (scanVisits s h v) t
        passCell h v (retrack h (each (v.found.filter fun r => scanVisits s h v r.rat) (fun r => enterCell h false (case r.rat) v r) t))
    else s

/-! ### Pattern watch -/

/-- DSP clock at which the frame that has ended began (spec/10 R315). -/
def endedFrame (s : State) : Nat := if s.tbu.inGap then s.tbu.frameStart else s.tbu.lastFrame

/-- What the intervals of a kind gave of a branch in the frame that has ended; U intervals count where no UL sample that entered a TX sum
was other than 0 (spec/10 R314). -/
def watchSums (s : State) (a : AirSec) (kind b : Nat) : List WatchSum :=
  a.sums.filter fun w => w.frame == endedFrame s && w.kind == kind && w.branch == b && w.n != 0
    && (kind != 1 || !a.sums.any fun v => v.kind == 1 && v.loud && v.since == w.since)

/-- The mean power of d_B of a branch over the intervals of a kind, in LogQ dBm at the DRX pin; none without a sample (spec/10 R314). -/
def watchPower (s : State) (x : Section) (kind b : Nat) : Option LogQ :=
  let ws := watchSums s x.air kind b
  let n := (ws.map (·.n)).foldl (· + ·) 0
  if n = 0 then none else some (satLog (logRatio ((ws.map (·.energy)).foldl (· + ·) 0) (n * 2 ^ 30) - rxgUsed x b))

/-- The higher of the DL branches in use (spec/10 R314). -/
def watchLevel (s : State) (x : Section) (kind : Nat) : Option LogQ :=
  let vs := ([0, 1].filter (usesIdx x)).filterMap (watchPower s x kind)
  if vs.isEmpty then none else some (maxLog vs)

/-- E_D, E_G and E_U of a frame (spec/10 R314). -/
def watchLevels (s : State) (x : Section) : Option LogQ × Option LogQ × Option LogQ :=
  (watchLevel s x 0, watchLevel s x 2, if x.air.pwUlRx then watchLevel s x 1 else none)

/-- The PSS, SSS or SSB symbols of a cell as offsets and lengths in its frame (spec/02 R51; spec/10 R301, R315; log entry 120,
PRESUMED). -/
def syncSymbols (c : Cell) : List (Nat × Nat) :=
  let mu := c.rat - 1
  let span (k n : Nat) : Nat × Nat := (symbolClock mu k, symbolClock mu (k + n) - symbolClock mu k)
  if c.rat ≠ 0 then [span (70 * 2 ^ mu * bitNat c.half + ssbSymbol c.rat c.caseC c.ssbIdx) 4]
  else if c.tdd then [span 13 1, span 16 1, span 83 1, span 86 1]
  else [span 5 2, span 75 2]

/-- The latest detection of a cell tracked for the section placed symbols outside a D interval, at the timing of the frame that has ended
(spec/10 R315; log entry 99, DEDUCED). -/
def ssbOutside (s : State) (h i n : Nat) : Bool :=
  let kind := patternKind s h n
  let marks := patternMarks s h n
  (hearthAt s h).air.cells.any fun e => maskHas e.2.trackedBy i && (syncSymbols e.2).any fun y =>
    let a := endedFrame s + (e.2.framePos + y.1) % frameClocks
    let b := a + y.2 - 1
    kind a != 0 || kind b != 0 || spanAt kind marks a != spanAt kind marks b

/-- The lowest contradiction of a frame (spec/10 R315). -/
def contradiction (a : AirSec) (out : Bool) (ed : LogQ) (eg eu : Option LogQ) : Option Nat :=
  if out then some 0
  else if eg.any fun g => decide (ed - a.pwMargin ≤ g) then some 1
  else if eu.any fun u => decide (ed - a.pwMargin ≤ u) then some 2
  else none

/-- Pattern watch judges the frame that has ended for a section, against the bank that was active during it (spec/10 R315, R317,
R327). -/
def judgeFrame (h i : Nat) (d : SecDef) (s : State) : State :=
  let x := secAt s h i
  let a := x.air
  let (e, eg, eu) := watchLevels s x
  let ed := e.getD logMin
  if !(a.pwEn && d.tdd) || a.skip || s.tbu.endedInvalid || decide (ed < a.pwFloor) then s
  else
    let c := contradiction a (ssbOutside s h i d.pattern) ed eg eu
    let t := modAirSec h i (fun b => { b with
      results := (c.isSome :: a.results).take 16, ed := ed, frames := incSat 16 b.frames, lastDetail := c.getD b.lastDetail }) s
    match c with
    | none => t
    | some k => emit h 0x0912 ([globalOf h i, k] ++ bytesOf 2 ed ++ bytesOf 2 (eg.getD logMin) ++ bytesOf 2 (eu.getD logMin)) t

/-- The frame that has ended is over for pattern watch: its sums go, but for UL intervals that reach into the next frame (spec/10 R314). -/
def dropFrame (h i : Nat) (s : State) : State :=
  modAirSec h i (fun a => { a with
    skip := false, sums := a.sums.filter fun w => decide (endedFrame s < w.frame) || (w.loud && w.frame == endedFrame s) }) s

/-- A frame of a section ends for pattern watch; AIR that is not enabled watches nothing (spec/10 R315, R319). -/
def watchFrame (h i : Nat) (s : State) : State :=
  dropFrame h i <|
    match (secAt s h i).defn with
    | none => s
    | some d => onlyIf (hearthAt s h).air.enabled (judgeFrame h i d) s

/-- PW_N contradicting frames of a section that transmits: AIR passes the contradiction with the detail of the newest, and SPA quenches in
the same tick (spec/10 R316). -/
def watchDue (h i : Nat) (s : State) : State :=
  let x := secAt s h i
  let a := x.air
  if (hearthAt s h).air.enabled && a.pwEn && transmits x.state && decide (a.pwN ≤ (a.results.filter id).length) && x.defn.any (·.tdd) then
    quench 3 a.lastDetail h i (modAirSec h i (fun b => { b with quenches := incSat 8 b.quenches }) s)
  else s

/-! ### Commands -/

/-- Measurement channels of a hearth that AIR does not hold. -/
def otherChannels (s : State) (h : Nat) : Nat := channelsOf s h (· != 1)

/-- Handling of AIR_CONFIG (spec/10 R300, R319). -/
def airConfig (p : Packet) (s : State) : Done :=
  let w := wordAt p.payload 0
  let on := bitOf w 0
  let n := fld w 4 4
  let period := fld w 8 8
  let lost := fld w 16 5
  let k := fld w 24 3
  check (zeroAt w 2 2 && zeroAt w 21 3 && zeroAt w 27 5 && wordAt p.payload 1 == 0 && decide (1 ≤ n) && decide (n ≤ 8)
    && decide (1 ≤ period) && decide (period ≤ 100) && decide (1 ≤ lost) && decide (lost ≤ 16) && decide (k ≤ 4)) .badParam s <|
  check (!on || (targets p s).all fun h => decide (otherChannels s h + n ≤ 16)) .busy s <|
  .reply .ok [] (each (targets p s) (fun h t =>
    let keep := if on then n else 0
    let t := modHearth h (fun x => { x with
      grt := { x.grt with meas := giveChannels { owner := 1 } (keep - channelsOf s h (· == 1)) (dropChannels 1 keep x.grt.meas) }
      air := { x.air with
        enabled := on, channels := n, trackPeriod := period, nLost := lost, levelK := k
        cells := if bitOf w 1 then [] else x.air.cells, strangers := if bitOf w 1 then [] else x.air.strangers
        tableFull := x.air.tableFull && !bitOf w 1 } }) t
    retrack h t) s)

/-- AIR_CONFIG (spec/10 R319). -/
def execAirConfig (p : Packet) (s : State) : Out := .next (runCommand infoAirConfig airConfig p s)

/-- Handling of AIR_SCAN_RANGE (spec/10 R320). -/
def airScanRange (p : Packet) (s : State) : Done :=
  let w := wordAt p.payload 0
  let start := (wordAt p.payload 1).toNat
  let stop := (wordAt p.payload 2).toNat
  let step := (wordAt p.payload 3).toNat
  let r : ScanRange := { enable := bitOf w 4, chain := fld w 5 1, rats := fld w 8 3, caseC := bitOf w 12, ssbPeriod := fld w 14 2
                         start := start, stop := stop, step := step }
  check (zeroAt w 6 2 && zeroAt w 11 1 && zeroAt w 13 1 && zeroAt w 16 16 && decide (41000000 ≤ start) && decide (start ≤ stop)
    && decide (stop ≤ 712500000) && (!r.enable || r.rats != 0) && (step == 0 || decide (1000 ≤ step))) .badParam s <|
  .reply .ok [] (each (targets p s) (fun h => modAir h fun a => { a with ranges := a.ranges.set (fld w 0 4) r }) s)

/-- AIR_SCAN_RANGE (spec/10 R320). -/
def execAirScanRange (p : Packet) (s : State) : Out := .next (runCommand infoAirScanRange airScanRange p s)

/-- Handling of AIR_SECTION_CONFIG (spec/10 R321; log entry 29, DEDUCED). -/
def airSectionConfig (p : Packet) (s : State) : Done :=
  let w := wordAt p.payload 0
  let w1 := wordAt p.payload 1
  let d := ((secAt s p.hearth p.sect).defn).getD {}
  let n := fld w 12 4
  let margin := sfld w 16 16
  let fl := sfld w1 0 16
  check (groupRule p s) .notPermitted s <|
  check ((secAt s p.hearth p.sect).state != .cold) .state s <|
  check (zeroAt w 7 1 && zeroAt w 10 2 && zeroAt w1 16 16 && decide (1 ≤ n) && decide (768 ≤ margin) && decide (margin ≤ 7680)
    && decide (fl ≤ 0) && (d.tdd || !bitOf w 8)) .badParam s <|
  .reply .ok [] (retrack p.hearth (modAirSec p.hearth p.sect (fun a => { a with
    trackEn := bitOf w 0, rats := fld w 1 3, caseC := bitOf w 4, ssbPeriod := fld w 5 2, pwEn := bitOf w 8, pwUlRx := bitOf w 9
    pwN := n, pwMargin := margin, pwFloor := fl, results := [] }) s))

/-- AIR_SECTION_CONFIG (spec/10 R321). -/
def execAirSectionConfig (p : Packet) (s : State) : Out := .next (runCommand infoAirSectionConfig airSectionConfig p s)

/-- The 8 words of a cell entry (spec/10 R305). -/
def cellWords : Option Cell → List Word
  | none => List.replicate 8 0
  | some c =>
    [wordOf [(0, 2, c.state), (2, 2, c.rat), (4, 1, bit c.tracked), (5, 1, bit c.barred), (6, 10, c.pci), (16, 3, c.sect),
       (19, 1, bit c.inSection), (20, 1, c.chain), (21, 3, c.ssbIdx), (24, 1, bit c.half)],
     BitVec.ofNat 32 c.freq, wordOf [(0, 16, c.level), (16, 16, c.sinr)], wordOf [(0, 24, c.framePos)],
     wordOf [(0, 10, c.sfn), (16, 16, c.fofs)], wordOf [(0, 24, c.mib), (24, 8, c.bw)], BitVec.ofNat 32 c.lastSeen,
     wordOf [(0, 16, c.visits), (16, 8, c.misses), (24, 8, c.period)]]

/-- Handling of AIR_CELL_READ (spec/10 R322). -/
def airCellRead (p : Packet) (s : State) : Done :=
  let w := wordAt p.payload 0
  let first := fld w 0 10
  let n := fld w 16 7
  let cs := (hearthAt s p.hearth).air.cells
  check (zeroAt w 10 6 && zeroAt w 23 1 && zeroAt w 25 7 && decide (1 ≤ n) && decide (n ≤ 64) && decide (first + n ≤ 1024)) .badParam s <|
  if bitOf w 24 then
    let used := (cs.filter fun e => decide (first ≤ e.1)).take n
    .reply .ok ([BitVec.ofNat 32 used.length] ++ used.flatMap fun e => cellWords (some e.2)) s
  else .reply .ok ((List.range n).flatMap fun j => cellWords (kget cs (first + j))) s

/-- AIR_CELL_READ (spec/10 R322). -/
def execAirCellRead (p : Packet) (s : State) : Out := .next (runCommand infoAirCellRead airCellRead p s)

/-- The 4 words of a stranger record (spec/10 R318). -/
def strangerWords : Option Stranger → List Word
  | none => [0, 0, 0, 0]
  | some r =>
    [wordOf [(0, 3, r.sect), (3, 2, r.dirbr), (5, 1, bit r.dmp), (6, 1, 1), (8, 8, r.count), (16, 16, r.level)],
     BitVec.ofNat 32 r.freq, BitVec.ofNat 32 r.first, BitVec.ofNat 32 r.last]

/-- Handling of AIR_STRANGER_READ (spec/10 R323). -/
def airStrangerRead (p : Packet) (s : State) : Done :=
  let w := wordAt p.payload 0
  let xs := (hearthAt s p.hearth).air.strangers
  check (zeroAt w 1 31) .badParam s <|
  .reply .ok ((List.range 64).flatMap fun n => strangerWords (kget xs n))
    (onlyIf (bitOf w 0) (modAir p.hearth fun a => { a with strangers := [] }) s)

/-- AIR_STRANGER_READ (spec/10 R323). -/
def execAirStrangerRead (p : Packet) (s : State) : Out := .next (runCommand infoAirStrangerRead airStrangerRead p s)

/-- AIR_CNT_CLR (spec/10 R324). -/
def execAirCntClr (h : Nat) (s : State) : Out :=
  .next (if present s h && writable s then
    each (List.range 8) (fun i => modAirSec h i fun a => { a with frames := 0, quenches := 0 }) s else s)

end Sys2Proof.Machine
end

