-- ==== Sys2Proof/Machine/EventCodes.lean ====
section
/-! DEFINITION. Machine/EventCodes.lean: the event codes of the Ash Log with their default BURST and REFILL, as each
chapter of the spec gives them (spec/18 R538). Code 0x0C40 has no bucket (spec/18 R539). -/

namespace Sys2Proof.Machine

/-- Part 1 of the event codes: code, BURST, REFILL in ticks. -/
def eventCodes1 : List (Nat × Nat × Nat) :=
  [(0x0110, 255, 480), (0x0120, 16, 4800), (0x0121, 8, 4800), (0x0122, 16, 4800),
   (0x0123, 16, 4800), (0x0124, 255, 480), (0x0125, 16, 4800), (0x0126, 64, 480),
   (0x0127, 16, 4800), (0x0128, 4, 48000), (0x0129, 4, 48000), (0x0130, 4, 48000),
   (0x0131, 16, 4800), (0x0132, 8, 48000), (0x0133, 8, 48000), (0x0210, 255, 480),
   (0x0211, 16, 4800), (0x0212, 4, 48000), (0x0310, 16, 4800), (0x0311, 8, 4800)]

/-- Part 2 of the event codes: code, BURST, REFILL in ticks. -/
def eventCodes2 : List (Nat × Nat × Nat) :=
  [(0x0312, 4, 48000), (0x0313, 64, 480), (0x0314, 64, 480), (0x0315, 16, 4800),
   (0x0316, 16, 4800), (0x0410, 64, 480), (0x0411, 16, 4800), (0x0412, 16, 4800),
   (0x0413, 16, 4800), (0x0414, 16, 4800), (0x0415, 8, 48000), (0x0510, 64, 480),
   (0x0511, 64, 480), (0x0512, 16, 4800), (0x0513, 4, 48000), (0x0514, 16, 4800),
   (0x0515, 8, 48000), (0x0516, 16, 4800), (0x0610, 64, 480), (0x0611, 16, 4800)]

/-- Part 3 of the event codes: code, BURST, REFILL in ticks. -/
def eventCodes3 : List (Nat × Nat × Nat) :=
  [(0x0612, 64, 480), (0x0613, 16, 4800), (0x0614, 8, 48000), (0x0615, 16, 4800),
   (0x0710, 64, 480), (0x0711, 16, 4800), (0x0712, 16, 4800), (0x0713, 8, 48000),
   (0x0714, 4, 48000), (0x0715, 16, 4800), (0x0810, 4, 4800), (0x0811, 16, 4800),
   (0x0812, 8, 48000), (0x0813, 8, 48000), (0x0814, 8, 48000), (0x0910, 32, 4800),
   (0x0911, 32, 4800), (0x0912, 8, 4800), (0x0913, 16, 4800), (0x0914, 4, 48000)]

/-- Part 4 of the event codes: code, BURST, REFILL in ticks. -/
def eventCodes4 : List (Nat × Nat × Nat) :=
  [(0x0915, 4, 48000), (0x0A10, 16, 4800), (0x0A11, 16, 4800), (0x0A12, 16, 4800),
   (0x0A13, 8, 48000), (0x0A14, 16, 4800), (0x0A15, 16, 4800), (0x0A16, 16, 4800),
   (0x0A17, 4, 48000), (0x0A18, 16, 4800), (0x0B10, 64, 480), (0x0B11, 8, 4800),
   (0x0B12, 8, 4800), (0x0B13, 16, 4800), (0x0C10, 16, 4800), (0x0C11, 16, 4800),
   (0x0C12, 16, 4800), (0x0C13, 255, 480), (0x0C14, 16, 4800), (0x0C30, 16, 4800)]

/-- Part 5 of the event codes: code, BURST, REFILL in ticks. -/
def eventCodes5 : List (Nat × Nat × Nat) :=
  [(0x0C31, 64, 480), (0x0C32, 255, 480), (0x0C33, 4, 48000), (0x0C34, 64, 480),
   (0x0C35, 16, 4800), (0x0C41, 16, 480), (0x0C42, 255, 480), (0x0C43, 4, 48000),
   (0x0C44, 16, 4800), (0x0D10, 16, 4800), (0x0D11, 64, 480), (0x0D12, 64, 480),
   (0x0D13, 16, 4800), (0x0D14, 4, 48000), (0x0D15, 64, 480), (0x0D16, 16, 4800),
   (0x0D17, 16, 4800), (0x0D18, 16, 4800), (0x0D19, 16, 4800), (0x0D1A, 16, 4800)]

/-- Part 6 of the event codes: code, BURST, REFILL in ticks. -/
def eventCodes6 : List (Nat × Nat × Nat) :=
  [(0x0E10, 16, 4800), (0x0E11, 16, 4800), (0x0E20, 64, 480), (0x0E21, 8, 48000)]

/-- Every event code that has a bucket (spec/18 R538). -/
def eventCodes : List (Nat × Nat × Nat) :=
  eventCodes1 ++ eventCodes2 ++ eventCodes3 ++ eventCodes4 ++ eventCodes5 ++ eventCodes6

/-- Default BURST and REFILL of a code; none for a code without a bucket. -/
def codeDefaults (code : Nat) : Option (Nat × Nat) := (eventCodes.find? fun e => e.1 == code).map (·.2)

/-- The bucket of a code, full and without suppressed events until something changes it; none for a code without one
(spec/18 R537, R538). -/
def bucketOf (s : State) (code : Nat) : Option Bucket :=
  match kget s.alog.buckets code with
  | some b => some b
  | none => (codeDefaults code).map fun d => { burst := d.1, refill := d.2, refillNow := d.2, tokens := d.1 }

end Sys2Proof.Machine
end

