-- ==== Sys2Proof/Machine/AshLog.lean ====
section
/-! DEFINITION. Machine/AshLog.lean: the Ash Log: admission, the ring and its mirror, embers and the log commands
(spec/18). -/

namespace Sys2Proof.Machine

/-- Entries of the ring (spec/18 R535). -/
abbrev ringSize : Nat := 16384

/-- The 8 words of an entry (spec/18 R534). -/
def entryWords (e : LogEntry) : List Word :=
  let bytes := (List.range 20).map fun k => e.data.getD k 0
  wordsOf 2 e.time ++ [wordOf [(0, 16, e.code), (16, 4, e.hearth), (20, 9, e.source), (29, 1, bit e.ember)]] ++
  (List.range 5).map fun k => wordOf ((List.range 4).map fun j => (8 * j, 8, (bytes.getD (4 * k + j) 0 : Nat)))

/-- Writes an entry into the ring and its mirror (spec/18 R535). -/
def writeEntry (e : LogEntry) (s : State) : State :=
  modAlog (fun a =>
    let k := a.seq % ringSize
    { a with
      ring := kset a.ring k e, mirror := kset a.mirror k e, seq := incWrap 32 a.seq
      written := min ringSize (a.written + 1)
      ovw := if a.written = ringSize then incSat 32 a.ovw else a.ovw }) s

/-- Changes the bucket of a code. -/
def setBucket (code : Nat) (b : Bucket) (s : State) : State := modAlog (fun a => { a with buckets := kset a.buckets code b }) s

/-- The summary entry of suppressed events (spec/18 R539). -/
def suppressedEntry (e : LogEntry) (b : Bucket) : LogEntry :=
  { time := e.time, code := 0x0C40, hearth := e.hearth, data := bytesOf 2 e.code ++ bytesOf 2 b.suppCount ++ bytesOf 8 b.suppFirst }

/-- An event reaches ALOG: admitted by its token bucket, or suppressed and counted (spec/18 R538, R539). -/
def acceptEvent (e : LogEntry) (s : State) : State :=
  match bucketOf s e.code with
  | none => writeEntry e s
  | some b =>
    if 1 ≤ b.tokens then
      let t := if b.suppCount = 0 then s else writeEntry (suppressedEntry e b) s
      writeEntry e (setBucket e.code { b with tokens := b.tokens - 1, suppCount := 0 } t)
    else
      let t := setBucket e.code { b with
        suppFirst := if b.suppCount = 0 then e.time else b.suppFirst
        suppCount := incSat 16 b.suppCount } s
      modAlog (fun a => { a with supp := incSat 32 a.supp }) t

/-- Admits LOG_OVERFLOW ahead of the first entry after a run of drops (spec/16 R508). -/
def acceptOverflow (h : Nat) (s : State) : State :=
  let n := s.alog.dropRun.getD h 0
  if n = 0 then s
  else
    let t := raiseSys (sysCauses 0x0130) (modAlog (fun a => { a with dropRun := a.dropRun.modify h fun _ => 0 }) s)
    acceptEvent { time := openTime s, code := 0x0130, hearth := h, data := [h] ++ bytesOf 2 n } t

/-- The oldest entry of a hearth's LOG queue reaches ALOG (spec/16 R491, spec/18 R536, R538). -/
def execLogEntryArrival (h : Nat) (s : State) : Out :=
  .next <|
    match (hearthAt s h).dfb.logQ with
    | [] => s
    | e :: rest => acceptEvent e (acceptOverflow h (modHearth h (fun x => { x with dfb := { x.dfb with logQ := rest } }) s))

/-- An entry that finds its hearth's LOG queue full is dropped and counted; its package causes are set all the same
(spec/16 R491, spec/21 R612). -/
def execLogDrop (h : Nat) (e : LogIn) (s : State) : Out :=
  .next (if 1024 ≤ (hearthAt s h).dfb.logQ.length then emit h e.code e.data s else s)

/-- A refill counter that has reached REFILL: the bucket gains a token, and the next refill takes the REFILL in force (spec/18 R538,
R540). -/
def refillBucket (b : Bucket) : Bucket :=
  if b.tokens < b.burst ∧ b.refillNow ≤ b.counter then { b with tokens := b.tokens + 1, counter := 0, refillNow := b.refill } else b

/-- BUCKET_REFILL: what phase 1 of the tick has left due (spec/18 R538, R540; log entry 68, DESIGN CHOICE). -/
def execBucketRefill (code : Nat) (s : State) : Out :=
  .next <|
    match kget s.alog.buckets code with
    | none => s
    | some b => if refillBucket b = b then s else setBucket code (refillBucket b) s

/-- Phase 1 of a bucket: the refill counter of one that is not full steps, and a full one's is held at 0 (spec/18 R538). -/
def countBucket (b : Bucket) : Bucket :=
  if b.tokens < b.burst then refillBucket { b with counter := b.counter + 1 } else { b with counter := 0 }

/-- Phase 1 of every bucket (spec/18 R538). -/
def countBuckets (a : Alog) : Alog := { a with buckets := a.buckets.map fun e => (e.1, countBucket e.2) }

/-! ### Embers -/

/-- The entries of the log from entry number `n` on, at most `k`, oldest first. -/
def entriesFrom (ring : KMap LogEntry) (n k : Nat) : List LogEntry :=
  (List.range k).map fun j => kgetD ring ((n + j) % ringSize) {}

/-- The area that does not hold the newest valid set (spec/18 R542, R544). -/
def spareArea (s : State) : Nat := match s.alog.loaded with | some 0 => 1 | _ => 0

/-- Words 0–5 of an ember area that holds a set (spec/18 R541). -/
def emberHeader (e : EmberSet) : List Word :=
  [wordOf [(0, 16, 1), (16, 16, e.entries.length)], BitVec.ofNat 32 e.generation, wordOf [(0, 2, e.cause)]] ++
    wordsOf 2 e.time ++ [BitVec.ofNat 32 e.firstSeq]

/-- CRC of an ember set: over words 0–5 and every entry (spec/18 R541, spec/00 R649). -/
def emberCrc (e : EmberSet) : Word := crc32Words (emberHeader e ++ e.entries.flatMap entryWords)

/-- The words of an ember area that holds a set: the header of 64 bytes, then the entries (spec/18 R541). -/
def emberWords (e : EmberSet) : List Word :=
  emberHeader e ++ [e.crc] ++ List.replicate 9 0 ++ e.entries.flatMap entryWords

/-- Starts an ember write on the first trigger of a boot, once the spare area is erased: event 0x0C42 is written first,
then the newest 1,024 entries are taken (spec/18 R542, R544, R551). -/
def triggerEmbers (cause : Nat) (s : State) : State :=
  if s.alog.emberDone || s.alog.emberWriting || !s.alog.emberReady then s
  else
    let gen := incWrap 32 s.alog.loadedSet.generation
    let e : LogEntry := { time := openTime s, code := 0x0C42, data := [cause] ++ bytesOf 4 gen }
    let t := acceptEvent e (eventTrigger 0x0C42 (raiseSys (sysCauses 0x0C42) s))
    let n := min 1024 t.alog.written
    let first := (t.alog.seq + 2 ^ 32 - n) % 2 ^ 32
    let set : EmberSet := { generation := gen, cause := cause, time := openTime s, firstSeq := first, entries := entriesFrom t.alog.ring first n }
    modAlog (fun a => { a with emberWriting := true, writing := some { set with crc := emberCrc set } }) t

/-- The power-fail GPIO that the Kindling record names reads low, where it has the warning in use (spec/18 R542, spec/20 R579). -/
def powerFail (s : State) : State :=
  if bitOf (recordWord s 6) 3 && !maskHas (hearthAt s 0).fes.gpioIn (fld (recordWord s 6) 4 4) then
    triggerEmbers 1 (modAlog (fun a => { a with pfWarned := true }) s)
  else s

/-- POWER_FAIL_WARNING: what phase 0 of each tick does by itself (spec/18 R542; log entry 68, DESIGN CHOICE). -/
def execPowerFailWarning (s : State) : Out := .next (powerFail s)

/-- A write of ALOG_CTRL.EMBER_NOW by a privileged master (spec/18 R549). -/
def execEmberNow (m : Nat) (s : State) : Out :=
  .next (if masterPriv s m && s.pkg != .doused then triggerEmbers 3 s else s)

/-- The ember set and its header are written, or the flash program fails and the earlier set is kept
(spec/18 R542, R550; spec/21 R612). -/
def emberWritten (ok : Bool) (s : State) : State :=
  match s.alog.writing with
  | none => s
  | some set =>
    if ok then
      raiseSys 32 (modAlog (fun a => { a with
        emberWriting := false, emberDone := true, emberReady := false, writing := none
        areas := a.areas.modify (spareArea s) fun _ => .held set }) s)
    else
      raiseSource 0 505 (modAlog (fun a => { a with
        emberWriting := false, emberDone := false, emberReady := false, writing := none
        areas := a.areas.modify (spareArea s) fun _ => .corrupt }) s)

/-- The ember set held by an ember area, when its CRC is right (spec/18 R541, R544). -/
def emberSet (e : Ember) : Option EmberSet :=
  match e with
  | .held x => if x.crc = emberCrc x then some x else none
  | _ => none

/-- Whether an ember area is neither valid nor fully erased (spec/18 R544). -/
def emberBad (e : Ember) : Bool := e != .erased && (emberSet e).isNone

/-- ALOG reads both ember areas, takes the valid set with the higher GENERATION and starts erasing the other area; an
area that is neither valid nor erased raises source 506 (spec/18 R544, R551). -/
def loadEmbers (s : State) : State :=
  let a := s.alog.areas.getD 0 .erased
  let b := s.alog.areas.getD 1 .erased
  let pick : Option (Nat × EmberSet) :=
    match emberSet a, emberSet b with
    | none, none => none
    | some x, none => some (0, x)
    | none, some y => some (1, y)
    | some x, some y => if serialGt y.generation x.generation then some (1, y) else some (0, x)
  let t := onlyIf (emberBad a || emberBad b) (raiseSource 0 506) s
  let u := modAlog (fun x => { x with
    loaded := pick.map (·.1), loadedSet := (pick.map (·.2)).getD {}, emberValid := pick.isSome
    emberReady := false, emberWriting := false, emberDone := false, erasing := true, writing := none
    emberRead := true }) t
  let d := match pick with
    | some (_, x) => [x.cause] ++ bytesOf 4 x.generation ++ bytesOf 2 x.entries.length
    | none => [0xFF, 0, 0, 0, 0, 0, 0]
  emit 0 0x0C43 d u

/-- The background erase of the spare ember area completes, or fails (spec/18 R544, R550). -/
def execEmberEraseDone (ok : Bool) (s : State) : Out :=
  .next <|
    if !s.alog.erasing then s
    else if ok then
      modAlog (fun a => { a with erasing := false, emberReady := true, areas := a.areas.modify (spareArea s) fun _ => .erased }) s
    else raiseSource 0 505 (modAlog (fun a => { a with erasing := false }) s)

/-! ### Log commands -/

/-- Number of the entry at a ring index: the newest one with it (spec/18 R535, R545). -/
def entryNumber (a : Alog) (index : Nat) : Nat :=
  let newest := a.seq + 2 ^ 32 - 1
  (newest - (newest - index) % ringSize) % 2 ^ 32

/-- INDEX, COUNT and the zero bits of the log reads (spec/18 R545, R546). -/
def logReadOk (w : Word) : Bool :=
  zeroAt w 14 2 && zeroAt w 24 8 && decide (1 ≤ fld w 16 8) && decide (fld w 16 8 ≤ 128)

/-- Handling of ALOG_READ (spec/18 R545). -/
def alogRead (p : Packet) (s : State) : Done :=
  let w := wordAt p.payload 0
  let index := fld w 0 14
  let n := entryNumber s.alog index
  let newest := (s.alog.seq + 2 ^ 32 - n) % 2 ^ 32
  check (logReadOk w && (kget s.alog.ring index).isSome) .badParam s <|
  .reply .ok ([BitVec.ofNat 32 n] ++ (entriesFrom s.alog.mirror n (min (fld w 16 8) newest)).flatMap entryWords) s

/-- ALOG_READ (spec/18 R545). -/
def execAlogRead (p : Packet) (s : State) : Out := .next (runCommand infoAlogRead alogRead p s)

/-- Handling of EMBERS_READ (spec/18 R546). -/
def embersRead (p : Packet) (s : State) : Done :=
  let w := wordAt p.payload 0
  let index := fld w 0 14
  let set := s.alog.loadedSet
  check (logReadOk w && decide (index < 1024)) .badParam s <|
  check s.alog.emberValid .state s <|
  check (decide (index < set.entries.length)) .badParam s <|
  let es := (set.entries.drop index).take (fld w 16 8)
  .reply .ok ([BitVec.ofNat 32 (set.firstSeq + index)] ++ es.flatMap fun e => entryWords { e with ember := true }) s

/-- EMBERS_READ (spec/18 R546). -/
def execEmbersRead (p : Packet) (s : State) : Out := .next (runCommand infoEmbersRead embersRead p s)

/-- A bucket with a new BURST and REFILL: it keeps at most BURST tokens, and the running count still meets the old REFILL
(spec/18 R540; log entry 20, DEDUCED). -/
def rebucket (burst refill : Nat) (b : Bucket) : Bucket :=
  { b with
    burst := burst, refill := refill, tokens := min b.tokens burst
    refillNow := if b.tokens < b.burst ∧ b.tokens < burst then b.refillNow else refill
    counter := if min b.tokens burst < burst then b.counter else 0 }

/-- BURST and REFILL of a code apply (spec/18 R547). -/
def applyRate (code burst refill : Nat) (s : State) : State :=
  match bucketOf s code with
  | some b => setBucket code (rebucket burst refill b) s
  | none => s

/-- Handling of ALOG_RATE_CONFIG: the values apply at the boundary after capture (spec/18 R547, R551). -/
def alogRateConfig (p : Packet) (s : State) : Done :=
  let w0 := wordAt p.payload 0
  let w1 := wordAt p.payload 1
  let code := fld w0 0 16
  let dflt := bitOf w0 24
  match codeDefaults code with
  | some d =>
    let burst := if dflt then d.1 else fld w0 16 8
    let refill := if dflt then d.2 else fld w1 0 16
    check ((bucketOf s code).isSome && zeroAt w0 25 7 && zeroAt w1 16 16 && burst != 0 && refill != 0) .badParam s <|
    .reply .ok [] (emit 0 0x0C44 (bytesOf 2 code ++ [burst] ++ bytesOf 2 refill) (modAlog (fun a => { a with rateNext := a.rateNext ++ [(code, burst, refill)] }) s))
  | none => .reply .badParam [] s

/-- ALOG_RATE_CONFIG (spec/18 R547). -/
def execAlogRateConfig (p : Packet) (s : State) : Out := .next (runCommand infoAlogRateConfig alogRateConfig p s)

/-- ALOG_MARK writes event 0x0C41 with the payload (spec/18 R548). -/
def execAlogMark (p : Packet) (s : State) : Out :=
  .next (runCommand infoAlogMark (fun p t => .reply .ok [] (emit 0 0x0C41 ((wordBytes p.payload).map BitVec.toNat) t)) p s)

/-- ALOG_CTRL.CNT_CLR clears ALOG_OVW and ALOG_SUPP (spec/18 R549); in DOUSED the write has no effect (R433, R603). -/
def execAlogCntClr (s : State) : Out :=
  .next <| if s.pkg != .doused then modAlog (fun a => { a with ovw := 0, supp := 0 }) s else s

/-- What every reset does to the buckets: defaults, full, refill counters 0; a warm reset keeps the suppressed counts
(spec/18 R537). -/
def resetBuckets (warm : Bool) (a : Alog) : Alog :=
  if warm then
    { a with buckets := a.buckets.filterMap fun e =>
        match codeDefaults e.1 with
        | some d => if e.2.suppCount = 0 then none
            else some (e.1, { burst := d.1, refill := d.2, refillNow := d.2, tokens := d.1, suppCount := e.2.suppCount, suppFirst := e.2.suppFirst })
        | none => none }
  else { a with buckets := [] }

end Sys2Proof.Machine
end

