-- ==== Sys2Proof/Machine/Canceller.lean ====
section
/-! DEFINITION. Machine/Canceller.lean: the Backdraught Canceller: budget and tap store, adaptation, measurement,
rotation, snapshots, and its commands and events (spec/04). -/

namespace Sys2Proof.Machine

/-- Changes the BDC block of a hearth. -/
def modBdc (h : Nat) (f : Bdc → Bdc) (s : State) : State := modHearth h (fun x => { x with bdc := f x.bdc }) s

/-- Definition of the section that owns a path. -/
def pathDef (s : State) (h p : Nat) : SecDef := ((secAt s h (p / 8)).defn).getD {}

/-! ### Budget -/

/-- L × Fp of a path, in units of 2^-48 per second. -/
def pathLoad (s : State) (h p : Nat) : Nat := (pathAt s h p).len * rateOf (pathDef s h p)

/-- Sum of L × Fp over the enabled paths (spec/04 R108). -/
def hearthLoad (s : State) (h : Nat) : Nat := ((enabledPaths s h).map (pathLoad s h)).foldl (· + ·) 0

/-- Sum of L over the enabled paths. -/
def tapsUsed (s : State) (h : Nat) : Nat := ((enabledPaths s h).map fun p => (pathAt s h p).len).foldl (· + ·) 0

/-- Budget of R108 in units of 2^-48 per second. -/
abbrev loadBudget : Nat := 8053063680000 * 2 ^ 48

/-- Gradient divider m of R108: at least 1. -/
def gradDivOf (load : Nat) : Nat := max 1 (ceilDiv load (2013265920000 * 2 ^ 48))

/-- STEP_MAX of a length and rate under a gradient divider (spec/04 R110). -/
def stepMax (m len fp : Nat) : Nat := 2 ^ 24 * fp / (960000 * m * len * 2 ^ 48)

/-- STEP of a TRACK in 0.1 ms (spec/04 R112). -/
def stepOf (track : Nat) : Nat := (roundDiv (2 ^ 24) (48 * track)).toNat

/-- log2 of W: the smallest power of two, 8 to 4,096, with W × N′ ≥ 64 × L (spec/04 R119). -/
def measLog (m len fp : Nat) : Nat :=
  ((List.range 10).map (· + 3)).find? (fun w => decide (64 * len * 480000 * m * 2 ^ 48 ≤ 2 ^ w * fp)) |>.getD 12

/-- The load and the tap count of a configuration as two words, in the units of BDC_LOAD and TAPS_USED; those of a refused one may
lie above the fields of these registers (spec/04 R108, R129, R135). -/
def loadWords (s : State) (h : Nat) : List Word :=
  [BitVec.ofNat 32 (hearthLoad s h * 65536 / loadBudget), BitVec.ofNat 32 (tapsUsed s h)]

/-- The configuration of a hearth passes R108. -/
def budgetOk (s : State) (h : Nat) : Bool :=
  let load := hearthLoad s h
  let m := gradDivOf load
  decide (tapsUsed s h ≤ 65536) && decide (load ≤ loadBudget) &&
    (enabledPaths s h).all fun p => let x := pathAt s h p; decide (x.step ≤ stepMax m x.len (rateOf (pathDef s h p)))

/-- The gradient divider and every window length follow the configuration (spec/04 R108, R119). -/
def refreshBudget (h : Nat) (s : State) : State :=
  let m := gradDivOf (hearthLoad s h)
  each (enabledPaths s h) (fun p => modPath h p fun x => { x with measLog2 := measLog m x.len (rateOf (pathDef s h p)) })
    (modBdc h (fun b => { b with gradDiv := m }) s)

/-! ### Tap store -/

/-- Runs of the placed paths in units of 16 taps, by rising address: base, length, path. -/
def runs (s : State) (h : Nat) : List (Nat × Nat × Nat) :=
  (((enabledPaths s h).filter fun p => (pathAt s h p).placed).map fun p =>
    ((pathAt s h p).base, (pathAt s h p).len / 16, p)).mergeSort fun a b => decide (a.1 ≤ b.1)

/-- First-fit address for `n` units among runs, from an address on (spec/04 R107). -/
def firstFit (n : Nat) : List (Nat × Nat × Nat) → Nat → Option Nat
  | [], at_ => if at_ + n ≤ 4096 then some at_ else none
  | r :: rest, at_ => if at_ + n ≤ r.1 then some at_ else firstFit n rest (max at_ (r.1 + r.2.1))

/-- Allocates the enabled paths that have no run, in rising order; those that find none stay unplaced. -/
def placePaths (h : Nat) (s : State) : State :=
  each ((enabledPaths s h).filter fun p => !(pathAt s h p).placed) (fun p t =>
    match firstFit ((pathAt t h p).len / 16) (runs t h) 0 with
    | some b => modPath h p (fun x => { x with base := b, placed := true }) t
    | none => t) s

/-- Whether every enabled path has a run. -/
def allPlaced (s : State) (h : Nat) : Bool := (enabledPaths s h).all fun p => (pathAt s h p).placed

/-- Sets FROZEN of a path, with its event (spec/04 R118, R140). -/
def setFrozen (h p : Nat) (v : Bool) (reason : Nat) (s : State) : State :=
  if (pathAt s h p).frozen = v then s
  else emit h 0x0310 [p, bitNat v, reason] (modPath h p (fun x => { x with frozen := v }) s)

/-- A branch's measurement history ends when a path into it is enabled, released or reset (spec/05 R141). -/
def clearLast (h p : Nat) (s : State) : State := modBr h (p / 8) (pathRx p) (fun b => { b with suppLast := none }) s

/-- LAG_MIN and FILT_SPAN of a path, computed when SECTION_DEFINE is accepted and when its REF changes (spec/04 R103). -/
def refreshLag (h p : Nat) (s : State) : State :=
  let d := pathDef s h p
  modPath h p (fun x =>
    let f := if d.swift then 1 else 0
    { x with
      lagMin := Config.lagMinOf d.rate f d.bandwidth d.ratio x.orx % 8192
      filtSpan := Config.filtSpanOf d.rate f d.bandwidth d.ratio x.orx % 8192 }) s

/-- Releases a path: its cumulative rotation, its counters and PATH_LAG stay, and its other registers read their reset values
(spec/04 R103, R123, R129; log entry 105, DESIGN CHOICE). -/
def releasePath (h p : Nat) (s : State) : State :=
  let x := pathAt s h p
  if x.enabled then
    let t := clearLast h p (modPath h p (fun _ =>
      { rot := x.rot, skip := x.skip, tapSat := x.tapSat, lagMin := x.lagMin, filtSpan := x.filtSpan, run := x.run }) (setFrozen h p false 0 s))
    if x.orx then refreshLag h p t else t
  else s

/-- SUPP_sec of a section's direction and RX branch: a path that has published nothing yet is in neither sum (spec/04 R120;
log entry 106, DESIGN CHOICE). -/
def suppSec (s : State) (h i k : Nat) : LogQ :=
  let ps := (enabledPaths s h).filter fun p => p / 8 == i && pathRx p == k && (pathAt s h p).published
  let den := (ps.map fun p => (pathAt s h p).ehEd.2.2).foldl (· * ·) 1
  let sum (f : Path → Nat) : Nat := (ps.map fun p => let x := pathAt s h p; f x * (den / max x.ehEd.2.2 1)).foldl (· + ·) 0
  if ps.isEmpty then 0 else logRatio (sum fun x => x.ehEd.1) (sum fun x => x.ehEd.2.1)

/-- Publishes SUPP_sec, with event 0x0311 for a drop of 10 dB against 480 ticks earlier; before its first value it read 0 (spec/04 R120,
R138, R140). -/
def publishSupp (h i k : Nat) (s : State) : State :=
  let x := (secAt s h i).bdc
  let v := suppSec s h i k
  let now := s.tbu.tick
  let old := (((x.suppOld.getD k []).find? fun e => decide (e.1 + 480 ≤ now)).map (·.2)).getD 0
  let keep := ((x.suppOld.getD k []).takeWhile fun e => decide (now < e.1 + 480))
    ++ ((x.suppOld.getD k []).find? fun e => decide (e.1 + 480 ≤ now)).toList
  let t := modSec h i (fun y => { y with bdc := { y.bdc with supp := y.bdc.supp.set k v, suppOld := y.bdc.suppOld.set k ((now, v) :: keep) } }) s
  if v + 2560 ≤ old then emit h 0x0311 ([i, k] ++ bytesOf 2 old ++ bytesOf 2 v) t else t

/-- Frozen as DMP sees it: an enabled path into the direction and RX branch is FROZEN (spec/04 R118). -/
def branchFrozen (s : State) (h i k : Nat) : Bool :=
  (enabledPaths s h).any fun p => p / 8 == i && pathRx p == k && (pathAt s h p).frozen

/-- No enabled path into a direction and RX branch that the section's definition uses (spec/04 R138; log entry 100, DEDUCED). -/
def branchBare (s : State) (h i k : Nat) : Bool :=
  usesIdx (secAt s h i) k && !(enabledPaths s h).any fun p => p / 8 == i && pathRx p == k

/-- SUPP_sec is 0 where no path into the branch is enabled, and its history with it (spec/04 R120, R140). -/
def zeroBare (h i : Nat) (s : State) : State :=
  let on (k : Nat) : Bool := (enabledPaths s h).any fun p => p / 8 == i && pathRx p == k
  modSec h i (fun x => { x with bdc := { x.bdc with
    supp := x.bdc.supp.mapIdx fun k v => if on k then v else 0
    suppOld := x.bdc.suppOld.mapIdx fun k l => if on k || x.bdc.supp.getD k 0 == 0 then l else (s.tbu.tick, 0) :: l } }) s

/-! ### Adaptation -/

/-- Saturation of a 32-bit tap value. -/
def satTap (x : Int) : Int := clampInt (-2147483648) 2147483647 x

/-- Mantissa of a 32-bit tap component: its upper 16 bits, rounded (spec/04 R106). -/
def mantOf (v : Int) : Int := clampInt (-32768) 32767 (roundDiv v 65536)

/-- The step of a tick: 8 × STEP up to STEP_MAX in acquisition (spec/04 R111, R114). -/
def stepNow (m fp : Nat) (x : Path) : Nat := if x.run.acq then min (8 * x.run.step) (stepMax m x.len fp) else x.run.step

/-- One component of a tap after an update (spec/04 R111). -/
def tapUpdate (leak a e power : Nat) (v g : Int) : Int :=
  roundDiv ((2 ^ 24 - (leak : Int)) * v * power + (a : Int) * g * 2 ^ (27 + e)) (2 ^ 24 * max power 1)

/-- Whether a value saturates at E = 0, in the 32-bit value or as it rounds to Frac16, as TAP_SAT counts it (spec/04 R106; log entry 107,
DEDUCED). -/
def overTap (e : Nat) (v : Int) : Bool := e == 0 && (satTap v != v || mantOf v != roundDiv v 65536)

/-- The taps after a tick's update, and whether a value saturated (spec/04 R106, R111). -/
def updateTaps (m fp : Nat) (x : Path) (v : PathIn) : List Tap × Bool :=
  let a := stepNow m fp x
  let one (u g : Int) : Int := tapUpdate x.run.leak a x.exp v.power u g
  let raw := x.taps.zipIdx.map fun t => let g := v.g.getD t.2 (0, 0); (one t.1.i g.1, one t.1.q g.2)
  (raw.map fun r => { i := satTap r.1, q := satTap r.2 }, raw.any fun r => overTap x.exp r.1 || overTap x.exp r.2)

/-- Renormalisation by the mantissas: at most one step per boundary, after the updates, restores and rotations that apply there
(spec/04 R106, R125). -/
def renorm (x : Path) : Path :=
  let big := x.taps.any fun t => decide (16384 ≤ (mantOf t.i).natAbs) || decide (16384 ≤ (mantOf t.q).natAbs)
  let small := x.taps.all fun t => decide ((mantOf t.i).natAbs < 4096) && decide ((mantOf t.q).natAbs < 4096)
  let some_ := x.taps.any fun t => mantOf t.i != 0 || mantOf t.q != 0
  if big && decide (0 < x.exp) then
    { x with exp := x.exp - 1, taps := x.taps.map fun t => { i := roundDiv t.i 2, q := roundDiv t.q 2 } }
  else if !big && small && some_ && decide (x.exp < 15) then
    { x with exp := x.exp + 1, taps := x.taps.map fun t => { i := 2 * t.i, q := 2 * t.q } }
  else x

/-- Suspension reasons of a tick as bits: REF 1, SAT 2, BIAS 4, OTHER 8 (spec/04 R116). A tick with an OTHER condition records OTHER alone,
whatever else holds in it, and SKIP does not count it (spec/04 R137; log entry 127, DESIGN CHOICE). -/
def suspension (other sat : Bool) (x : Path) (v : PathIn) : Nat :=
  if other || v.n == 0 then 8
  else
    (if v.power * 100000 < v.n * 2 ^ 30 then 1 else 0) + (if sat || v.sat then 2 else 0)
      + (if x.run.rhoMax ≠ 0 ∧ (x.run.rhoMax * v.base) ^ 2 < v.rho * 2 ^ 32 then 4 else 0)

/-- Adds a tick to the running sub-block (spec/04 R119). -/
def addTick (v : PathIn) (b : SubBlock) : SubBlock :=
  { g := if b.g.isEmpty then v.g else (b.g.zip v.g).map fun e => (e.1.1 + e.2.1, e.1.2 + e.2.2)
    p := b.p + v.power, pe := b.pe + v.error, n := b.n + v.n, ticks := b.ticks + 1 }

/-- A control tick of a path that was enabled when it opened, by the mode and the parameters that governed it (spec/04 R111 to
R119, R125). `other` is a SUSP_OTHER condition, `adc` an overload flag of its RX chain. A tick in FREEZE does not count towards the
ticks of a sub-block, a suspended one does (log entry 108, DESIGN CHOICE). -/
def adaptPath (h p : Nat) (other adc : Bool) (v : PathIn) (s : State) : State :=
  let x := pathAt s h p
  let m := x.run.gradDiv
  let susp := suspension (other || !x.placed || x.moveTo.isSome) adc x v
  let counts := susp ≠ 0 ∧ susp ≠ 8
  let live := susp == 0
  let upd := updateTaps m (rateOf (pathDef s h p)) x v
  let run := live && x.run.mode == 0
  let t := modPath h p (fun y => { y with
    susp := susp, taps := if run then upd.1 else y.taps, overNow := y.overNow || (run && upd.2)
    skip := if counts then incSat 16 y.skip else y.skip
    suspRun := if y.run.mode ≠ 0 ∨ susp = 8 then y.suspRun else if live then 0 else min 480 (y.suspRun + 1)
    cur := if y.run.mode = 2 then y.cur else if live then addTick v y.cur else { y.cur with ticks := y.cur.ticks + 1 } }) s
  if run && x.mode == 0 then setFrozen h p false 0 t else t

/-- TAP_SAT counts a tick in which taps of the path saturated, with its event while it does (spec/04 R106, R140). -/
def countTapSat (h p : Nat) (s : State) : State :=
  let x := pathAt s h p
  if x.overNow then
    let t := modPath h p (fun y => { y with overNow := false, tapSat := incSat 16 y.tapSat }) s
    if x.tapSat < 65535 then emit h 0x0312 [p] t else t
  else s

/-- The modes and parameters that govern a hearth's paths in the tick that opens (spec/04 R117, R125). -/
def armPaths (h : Nat) (s : State) : State :=
  modHearth h (fun x => { x with paths := x.paths.map fun y =>
    { y with run := {
      on := y.enabled, mode := y.mode, acq := y.acq, step := y.step, leak := y.leak, rhoMax := y.rhoMax, orx := y.orx, decor := y.decor
      exp := y.exp, gradDiv := x.bdc.gradDiv, taps := y.taps } } }) s

/-- The last 480 counted ticks of a path were all suspended with a counting reason (spec/04 R118). -/
def freezeDue (h n : Nat) (s : State) : State :=
  let x := pathAt s h n
  if present s h && x.enabled && x.mode == 0 && !x.frozen && decide (480 ≤ x.suspRun) then
    setFrozen h n true (if x.susp % 2 = 1 then 1 else if x.susp / 2 % 2 = 1 then 2 else 3) s
  else s

/-- PATH_FREEZE (spec/04 R118). -/
def execPathFreeze (h n : Nat) (s : State) : Out := .next (freezeDue h n s)

/-- 2 × TRACK have elapsed since entry to acquisition (spec/04 R114). -/
def acquisitionDue (h n : Nat) (s : State) : State :=
  let x := pathAt s h n
  if present s h && x.enabled && x.acq && decide (x.acqTick + 96 * x.track ≤ s.tbu.tick) then modPath h n (fun y => { y with acq := false }) s
  else s

/-- ACQUISITION_END (spec/04 R114). -/
def execAcquisitionEnd (h n : Nat) (s : State) : Out := .next (acquisitionDue h n s)

/-! ### Measurement -/

/-- Energy of the taps as numerator and denominator (spec/04 R119). -/
def tapEnergy (x : Path) : Nat × Nat :=
  (((x.taps.map fun t => (t.i * t.i + t.q * t.q).toNat).foldl (· + ·) 0), 2 ^ (54 + 2 * x.exp))

/-- The sum of sub-blocks. -/
def sumBlocks (bs : List SubBlock) : SubBlock :=
  bs.foldl (fun a b => { g := if a.g.isEmpty then b.g else if b.g.isEmpty then a.g else (a.g.zip b.g).map fun e => (e.1.1 + e.2.1, e.1.2 + e.2.2)
                         p := a.p + b.p, pe := a.pe + b.pe, n := a.n + b.n, ticks := a.ticks + b.ticks }) {}

/-- Ed of sub-blocks as numerator and denominator; none without a contributing tick (spec/04 R119). -/
def residualEnergy (len : Nat) (eh : Nat × Nat) (bs : List SubBlock) : Option (Nat × Nat) :=
  let b := sumBlocks bs
  if b.p = 0 ∨ b.n = 0 then none
  else
    let gg := (b.g.map fun e => (e.1 * e.1 + e.2 * e.2).toNat).foldl (· + ·) 0
    let noise := len * b.pe * b.p
    let n1 := 4 * (gg * b.n - noise)
    let den := 4 * b.p * b.p * b.n
    let top := max n1 noise
    if top * (eh.2 * 100000000) < eh.1 * den then some (eh.1, eh.2 * 100000000) else some (top, den)

/-- The tap of largest magnitude. -/
def peakTap (ts : List Tap) : Nat :=
  let mag (t : Tap) : Nat := (t.i * t.i + t.q * t.q).toNat
  (ts.zipIdx.foldl (fun a e => if a.1 < mag e.1 then (mag e.1, e.2) else a) (0, 0)).2

/-- A sub-block of W / 8 ticks ends: the path publishes what its window measured, and nothing where no tick of the window contributed
(spec/04 R114, R119, R120; log entry 128, DESIGN CHOICE). -/
def publishDue (h n : Nat) (s : State) : State :=
  let x := pathAt s h n
  if !(present s h && x.enabled && decide (2 ^ (x.measLog2 - 3) ≤ x.cur.ticks)) then s
  else
    let bs := (x.cur :: x.blocks).take 8
    let eh := tapEnergy x
    let shut := modPath h n (fun y => { y with cur := {}, blocks := bs }) s
    match residualEnergy x.len eh bs with
    | none => shut
    | some all =>
      let ed := match residualEnergy x.len eh [x.cur] with
        | some one => if 1536 ≤ logRatio (one.1 * all.2) (one.2 * all.1) then one else all
        | none => all
      let coupling := logRatio eh.1 eh.2
      let residual := logRatio ed.1 ed.2
      let supp := clampInt 0 20480 (coupling - residual)
      let t := modPath h n (fun y => { y with
        coupling := coupling, residual := residual, supp := supp, published := true, pubTick := s.tbu.tick + 1, stale := false
        ehEd := (eh.1 * ed.2, ed.1 * eh.2, eh.2 * ed.2), peakLag := y.decor + peakTap y.taps
        acq := y.acq && decide (supp < 7680) }) shut
      publishSupp h (n / 8) (pathRx n) t

/-- BDC_MEAS_PUBLISH (spec/04 R119). -/
def execBdcMeasPublish (h n : Nat) (s : State) : Out := .next (publishDue h n s)

/-! ### Rotation -/

/-- Adds changes of gain, phase and delay; phases wrap (spec/04 R122, R126). -/
def addRot (a b : Rot) : Rot :=
  { gain := satLog (a.gain + b.gain), phase := signedOf 16 (patternOf 16 (a.phase + b.phase)), delay := clampInt (-2147483648) 2147483647 (a.delay + b.delay) }

/-- A change referred to a path's section: its gain in LogQ, its phase in units of π / (2^16 · 98,304,000), and its delay in
2^-16 DSP clock (spec/04 R122). -/
structure Turn where
  gain : Int := 0
  angle : Int := 0
  delay : Int := 0
  deriving DecidableEq, Repr

/-- A turn as ROT adds it: its phase in Frac16 of π (spec/04 R126). -/
def turnRot (r : Turn) : Rot := { gain := r.gain, phase := roundDiv r.angle 196608000, delay := r.delay }

/-- A turn of a rotation that is not referred again (spec/04 R127). -/
def rotTurn (r : Rot) : Turn := { gain := r.gain, angle := r.phase * 196608000, delay := r.delay }

/-- A turn of nothing. -/
def noTurn (r : Turn) : Bool := r.gain == 0 && r.angle % 12884901888000 == 0 && r.delay == 0

/-- δ = τ × Fp of a delay, in units of 2^-30 sample (spec/04 R122). -/
def delaySteps (fp : Nat) (delay : Int) : Int := roundDiv (delay * fp) (983040000 * 2 ^ 34)

/-- Component of the rotated taps before c, at tap `k`: the fractional delay of taps that are shifted by whole samples; taps
outside read as 0. In units of 2^-30 of the taps' (spec/04 R123, R127). -/
def delayedTap (ts : List Tap) (shift : Int) (frac : Int) (k : Nat) (q : Bool) : Int :=
  ((List.range 8).map fun (i : Nat) =>
    let j : Int := (k : Int) - shift - ((i : Int) - 3)
    let t : Tap := if j < 0 then {} else ts.getD j.toNat {}
    Config.delayTap frac i * (if q then t.q else t.i)).foldl (· + ·) 0

/-- Tap `k` after a turn, as exact values: c times the delayed taps, rounded once (spec/04 R123). -/
def turnTap (fp : Nat) (r : Turn) (ts : List Tap) (k : Nat) : Int × Int :=
  let d := delaySteps fp r.delay
  let shift := roundDiv d (2 ^ 30)
  let frac := d - shift * 2 ^ 30
  let part (q : Bool) : Int := if frac = 0 then (let j : Int := (k : Int) - shift
    let t : Tap := if j < 0 then {} else ts.getD j.toNat {}
    (if q then t.q else t.i) * 2 ^ 30) else delayedTap ts shift frac k q
  let a : Int := ampOf r.gain
  let c := cosPi r.angle 6442450944000
  let e := cosPi (r.angle - 3221225472000) 6442450944000
  let re := part false
  let im := part true
  (roundDiv (a * (c * re - e * im)) (2 ^ 222), roundDiv (a * (e * re + c * im)) (2 ^ 222))

/-- Taps rotated by a turn, and whether a value saturated at a block exponent (spec/04 R106, R123); a turn of nothing leaves
them. -/
def rotateTaps (e fp : Nat) (r : Turn) (ts : List Tap) : List Tap × Bool :=
  if noTurn r then (ts, false)
  else
    let vs := (List.range ts.length).map (turnTap fp r ts)
    (vs.map fun v => { i := satTap v.1, q := satTap v.2 }, vs.any fun v => overTap e v.1 || overTap e v.2)

/-- A path takes a change: its taps rotate, the linear energies it published follow the gain, and ROT accumulates
(spec/04 R123; log entry 26, DEDUCED). -/
def rotatePath (h p : Nat) (r : Turn) (s : State) : State :=
  modPath h p (fun x =>
    let y : Path := { x with rot := addRot x.rot (turnRot r) }
    if x.enabled then
      let v := rotateTaps x.exp (rateOf (pathDef s h p)) r x.taps
      { y with
        taps := v.1, overNow := x.overNow || v.2
        ehEd := (x.ehEd.1 * powOf r.gain, x.ehEd.2.1 * powOf r.gain, x.ehEd.2.2 * 2 ^ 96) }
    else y) s

/-- δ of a change in samples exceeds a bound of num/den samples (spec/04 R122, R124, R127). -/
def delayOver (fp num den : Nat) (delay : Int) : Bool :=
  decide (num * 2 ^ 16 * 983040000 * 2 ^ 48 < delay.natAbs * fp * den)

/-- Reason for which an enabled path cannot absorb a change at the next boundary: 0 none, 1 size, 2 snapshot or restore,
3 relocation (spec/04 R124). -/
def declineReason (s : State) (h p : Nat) (r : Turn) : Nat :=
  let x := pathAt s h p
  let busy := (hearthAt s h).bdc.stage.any fun g => g.tick == s.tbu.tick + 1 && g.items.any fun e => e.1 == p
  if 1536 < r.gain.natAbs ∨ delayOver (rateOf (pathDef s h p)) 1 2 r.delay then 1
  else if busy then 2
  else if x.moveTo.isSome then 3 else 0

/-! ### Path commands -/

/-- Paths of a section that a mask names. -/
def maskPaths (sect mask : Nat) : List Nat := (maskBits 8 mask).map fun j => 8 * sect + j

/-- The mask names paths that R97 allows: both branches in use. A COLD section has no branches to compare with. -/
def maskOk (s : State) (h sect mask : Nat) : Bool :=
  mask != 0 && match (secAt s h sect).defn with
    | none => true
    | some d => (maskBits 8 mask).all fun j => maskHas d.branchMask (j % 4 / 2) && maskHas d.branchMask (j % 2)

/-- Ranges of an enabling BDC_PATH_CONFIG (spec/04 R128). -/
def pathFieldsOk (ws : List Word) : Bool :=
  let len := fld (wordAt ws 1) 0 13
  let track := fld (wordAt ws 2) 0 11
  decide (16 ≤ len) && decide (len ≤ 4096) && len % 16 == 0 && decide (20 ≤ track) && decide (track ≤ 2000)
    && zeroAt (wordAt ws 1) 13 3 && zeroAt (wordAt ws 1) 28 4 && zeroAt (wordAt ws 2) 11 5 && zeroAt (wordAt ws 3) 16 16

/-- The configuration of a path after an accepted BDC_PATH_CONFIG. -/
def configurePath (ws : List Word) (h p : Nat) (s : State) : State :=
  let x := pathAt s h p
  let orx := bitOf (wordAt ws 0) 9
  let len := fld (wordAt ws 1) 0 13
  let decor := fld (wordAt ws 1) 16 12
  let track := fld (wordAt ws 2) 0 11
  let new := !x.enabled || x.len != len || x.decor != decor || x.orx != orx
  let set (y : Path) : Path := { y with
    enabled := true, orx := orx, len := len, decor := decor, track := track, leak := fld (wordAt ws 2) 16 16
    rhoMax := fld (wordAt ws 3) 0 16, step := stepOf track }
  if new then
    let y := set x
    let z : Path := { y with
      pubTick := s.tbu.tick + 1, stale := false
      taps := List.replicate len {}, exp := 15, acq := true, acqTick := s.tbu.tick + 1, published := false, cur := {}, blocks := []
      frozen := x.frozen, mode := if x.enabled then x.mode else 0, suspRun := 0, placed := x.placed && x.len == len }
    let t := clearLast h p (modPath h p (fun _ => z) s)
    if x.orx != orx then refreshLag h p t else t
  else modPath h p set s

/-- ORX of a path's TX branch. -/
def pathOrx (p : Nat) : Nat := p % 4 / 2

/-- Moves an ORX to a port: its LO source and its ORX_SEL change, and its corrections are loaded for the new LO
(spec/08 R234, spec/09 R290). -/
def moveOrx (h o port : Nat) (s : State) : State :=
  let r := (hearthAt s h).rfc
  if r.orxTo.getD o 0 = port then s
  else
    let t := modRfc h (fun x => { x with orxTo := x.orxTo.set o port, orxTurn := x.orxTurn.set o (s.tbu.tick + 1) }) s
    if r.lo.getD o 0 = r.lo.getD (2 + o) 0 then refreshGains h t else reloadChain h (8 + o) t

/-- Enabled paths outside a list that reference an ORX on a port other than `port` (spec/04 R101). -/
def orxHeldElse (s : State) (h o port : Nat) (but : List Nat) : Bool :=
  (enabledPaths s h).any fun p => !but.contains p && (pathAt s h p).orx && pathOrx p == o && pathDir p != port

/-- The masked paths with ORX reference find their ORX free for their port (spec/04 R129, check 5). -/
def orxFree (s : State) (h : Nat) (ps : List Nat) : Bool :=
  ps.all fun p => !orxHeldElse s h (pathOrx p) (pathDir p) ps
    && ps.all fun q => pathOrx q != pathOrx p || pathDir q == pathDir p

/-- Handling of BDC_PATH_CONFIG (spec/04 R107, R128, R129; spec/15 R468). -/
def bdcPathConfig (p : Packet) (s : State) : Done :=
  let ws := p.payload
  let w := wordAt ws 0
  let h := p.hearth
  let i := p.sect
  let ps := maskPaths i (fld w 0 8)
  let on := bitOf w 8
  let orx := bitOf w 9
  let d := ((secAt s h i).defn).getD {}
  let st := secNow (secAt s h i)
  let idle := st == .ready || st == .quenched
  let changes := ps.any fun q =>
    let x := pathAt s h q
    if on then !x.enabled || x.len != fld (wordAt ws 1) 0 13 || x.decor != fld (wordAt ws 1) 16 12 || x.orx != orx else x.enabled
  check (maskOk s h i (fld w 0 8) && zeroAt w 10 22 && (!on || pathFieldsOk ws) && !(on && (secAt s h i).split.role != 0)) .badParam s <|
  check (st != .cold) .state s <|
  check (idle || !changes) .state s <|
  if !on then
    let t := zeroBare h i (refreshBudget h (each ps (releasePath h) s))
    .reply .ok (loadWords t h) t
  else
    check (!orx || orxFree s h ps) .busy s <|
    check (decide (stepOf (fld (wordAt ws 2) 0 11) ≤ stepMax (hearthAt s h).bdc.gradDiv (fld (wordAt ws 1) 0 13) (rateOf d))) .badParam s <|
    let t := each ps (configurePath ws h) s
    if !budgetOk t h then .reply .budget (loadWords t h) s
    else
      let t := if orx then each ps (fun q => moveOrx h (pathOrx q) (pathDir q)) t else t
      let t := refreshBudget h (if (hearthAt s h).bdc.reloc then t else placePaths h t)
      if allPlaced t h then .reply .ok (loadWords t h) t
      else
        .hold h none (if (hearthAt s h).bdc.reloc then t
          else modBdc h (fun b => { b with reloc := true, relocStart := s.tbu.tick + 1, relocMoved := 0 }) t)

/-- BDC_PATH_CONFIG (spec/04 R128). -/
def execBdcPathConfig (p : Packet) (s : State) : Out := .next (runCommand infoBdcPathConfig bdcPathConfig p s)

/-- Where compaction puts each run: packed from address 0 in rising order; the first run that moves. -/
def nextMove : List (Nat × Nat × Nat) → Nat → Option (Nat × Nat)
  | [], _ => none
  | r :: rest, at_ => if at_ < r.1 then some (r.2.2, at_) else nextMove rest (r.1 + r.2.1)

/-- BDC_COMPACTION_STEP: one path is copied to lower addresses and switches at the next boundary; when nothing is left to
move, the allocation applies and the held commands reply (spec/04 R107, R129, R140). -/
def execBdcCompactionStep (h : Nat) (s : State) : Out :=
  .next <|
    let b := (hearthAt s h).bdc
    if !(present s h && b.reloc) || (enabledPaths s h).any (fun p => (pathAt s h p).moveTo.isSome) then s
    else match nextMove (runs s h) 0 with
      | some (p, slot) =>
        modPath h p (fun x => { x with moveTo := some slot }) (modBdc h (fun y => { y with relocMoved := y.relocMoved + 1 }) s)
      | none =>
        let t := modBdc h (fun y => { y with reloc := false }) (placePaths h s)
        let t := emit h 0x0315 (bytesOf 2 b.relocMoved ++ bytesOf 2 (s.tbu.tick - b.relocStart)) t
        endHeldFor 0x0301 h .ok (loadWords t h) t

/-- The 8 registers of a path (spec/04 R137). -/
def pathWords (x : Path) : List Word :=
  [wordOf [(0, 12, x.base), (12, 9, (x.len / 16 : Nat)), (21, 1, bit x.orx), (22, 1, bit x.enabled)],
   wordOf [(0, 16, x.leak), (16, 11, x.track)],
   wordOf [(0, 12, x.decor), (12, 4, x.exp), (16, 16, x.rhoMax)],
   wordOf [(0, 18, x.step), (18, 2, x.mode), (20, 1, bit x.acq), (21, 1, bit x.frozen), (22, 4, x.susp), (28, 4, x.measLog2)],
   wordOf [(0, 16, x.supp), (16, 16, x.coupling)],
   wordOf [(0, 16, x.residual), (16, 13, x.peakLag)],
   wordOf [(0, 13, x.lagMin), (16, 13, x.filtSpan)],
   wordOf [(0, 16, x.skip), (16, 16, x.tapSat)]]

/-- Handling of BDC_PATH_QUERY (spec/04 R130). -/
def bdcPathQuery (p : Packet) (s : State) : Done :=
  let w := wordAt p.payload 0
  check (zeroAt w 3 29) .badParam s <|
  check ((secAt s p.hearth p.sect).state != .cold) .state s <|
  .reply .ok (pathWords (pathAt s p.hearth (8 * p.sect + fld w 0 3))) s

/-- BDC_PATH_QUERY (spec/04 R130). -/
def execBdcPathQuery (p : Packet) (s : State) : Out := .next (runCommand infoBdcPathQuery bdcPathQuery p s)

/-- A path takes a MODE (spec/04 R117, R118). -/
def setMode (mode h p : Nat) (s : State) : State :=
  let x := pathAt s h p
  if x.mode = mode then s
  else setFrozen h p (mode == 2) 0 (modPath h p (fun y => { y with mode := mode, suspRun := 0 }) s)

/-- Handling of BDC_PATH_MODE (spec/04 R131). -/
def bdcPathMode (p : Packet) (s : State) : Done :=
  let w := wordAt p.payload 0
  let ps := maskPaths p.sect (fld w 0 8)
  check (maskOk s p.hearth p.sect (fld w 0 8) && zeroAt w 10 22 && fld w 8 2 != 3) .badParam s <|
  check ((secAt s p.hearth p.sect).state != .cold) .state s <|
  check (ps.all fun q => (pathAt s p.hearth q).enabled) .badParam s <|
  .reply .ok [] (each ps (setMode (fld w 8 2) p.hearth) s)

/-- BDC_PATH_MODE (spec/04 R131). -/
def execBdcPathMode (p : Packet) (s : State) : Out := .next (runCommand infoBdcPathMode bdcPathMode p s)

/-- Handling of BDC_TAP_RESET (spec/04 R132). -/
def bdcTapReset (p : Packet) (s : State) : Done :=
  let w := wordAt p.payload 0
  check (maskOk s p.hearth p.sect (fld w 0 8) && zeroAt w 8 24) .badParam s <|
  check ((secAt s p.hearth p.sect).state != .cold) .state s <|
  .reply .ok [] (each (maskPaths p.sect (fld w 0 8)) (resetTaps p.hearth) s)

/-- BDC_TAP_RESET (spec/04 R132). -/
def execBdcTapReset (p : Packet) (s : State) : Out := .next (runCommand infoBdcTapReset bdcTapReset p s)

/-! ### Snapshots -/

/-- Paths and slots of a BDC_SNAPSHOT or BDC_RESTORE word (spec/04 R133). -/
def slotPairs (sect : Nat) (w : Word) : List (Nat × Nat) :=
  (maskPaths sect (fld w 0 8)).zipIdx.map fun e => (e.1, fld w 16 10 + e.2)

/-- The snapshot of a path at the next boundary (spec/04 R126). -/
def snapshotOf (s : State) (h p : Nat) : Snapshot :=
  let x := pathAt s h p
  let d := pathDef s h p
  { path := p, orx := x.orx, exp := x.exp, rate := d.rate, defCount := (secAt s h (p / 8)).bdc.defCount, len := x.len, decor := x.decor
    ratio := d.ratio, rot := x.rot, time := nextTime s, supp := x.supp
    taps := x.taps.map fun t => { i := mantOf t.i, q := mantOf t.q } }

/-- The difference of rotation that a restore applies (spec/04 R127). -/
def restoreRot (x : Path) (g : Snapshot) : Rot :=
  { gain := x.rot.gain - g.rot.gain, phase := signedOf 16 (patternOf 16 (x.rot.phase - g.rot.phase)), delay := x.rot.delay - g.rot.delay }

/-- A slot restores to a path (spec/04 R127, R133). -/
def restorable (s : State) (h p slot : Nat) : Bool :=
  let x := pathAt s h p
  let d := pathDef s h p
  match kget (hearthAt s h).bdc.slots slot with
  | none => false
  | some g =>
    let r := restoreRot x g
    g.path == p && g.len == x.len && g.decor == x.decor && g.orx == x.orx && g.rate == d.rate && g.ratio == d.ratio
      && g.defCount == (secAt s h (p / 8)).bdc.defCount && decide (r.gain.natAbs ≤ 5120) && !delayOver (rateOf d) 16 1 r.delay

/-- Takes the staging buffer for a snapshot or a restore (spec/04 R133). -/
def stageFor (restore : Bool) (h sect : Nat) (w : Word) (s : State) : State :=
  let items := (slotPairs sect w).map fun e =>
    (e.1, e.2, if restore then (kget (hearthAt s h).bdc.slots e.2).getD {} else snapshotOf s h e.1)
  modBdc h (fun b => { b with stage := some { restore := restore, sect := sect, tick := if restore then 0 else s.tbu.tick + 1, items := items } }) s

/-- Writes event 0x0314 for every path of a restore (spec/04 R140). -/
def restoreEvents (h sect : Nat) (w : Word) (st : Status) (s : State) : State :=
  each (slotPairs sect w) (fun e => emit h 0x0314 ([e.1] ++ bytesOf 2 e.2 ++ [statusCode st])) s

/-- Handling of BDC_SNAPSHOT and BDC_RESTORE: held until the staging buffer is free and the operation ends
(spec/04 R133); a restore refused BUSY for want of room among the held commands (spec/12 R368) writes its events too (log entry 148, DEDUCED). A
path that is not enabled returns BAD_PARAM (log entry 25, DEDUCED). -/
def stageCommand (restore : Bool) (p : Packet) (s : State) : Done :=
  let w := wordAt p.payload 0
  let h := p.hearth
  let key := h * 8 + p.sect
  let refused (st : Status) : State := if restore then restoreEvents h p.sect w st s else s
  let held (t : State) : Done := if 256 ≤ s.cpx.held.length then .reply .busy [] (refused .busy) else .hold key none t
  check (maskOk s h p.sect (fld w 0 8) && zeroAt w 8 8 && zeroAt w 26 6 && (slotPairs p.sect w).all (fun e => decide (e.2 ≤ 1023)))
    .badParam (refused .badParam) <|
  check ((secAt s h p.sect).state != .cold) .state (refused .state) <|
  check ((slotPairs p.sect w).all fun e => (pathAt s h e.1).enabled) .badParam (refused .badParam) <|
  if (hearthAt s h).bdc.stage.isSome then held s
  else if restore && !(slotPairs p.sect w).all (fun e => restorable s h e.1 e.2) then
    .reply .badParam [] (refused .badParam)
  else held (stageFor restore h p.sect w s)

/-- BDC_SNAPSHOT (spec/04 R133). -/
def execBdcSnapshot (p : Packet) (s : State) : Out := .next (runCommand infoBdcSnapshot (stageCommand false) p s)

/-- BDC_RESTORE (spec/04 R133). -/
def execBdcRestore (p : Packet) (s : State) : Out := .next (runCommand infoBdcRestore (stageCommand true) p s)

/-- Held snapshots and restores of a hearth, oldest first. -/
def stageQueue (s : State) (h : Nat) : List Held :=
  s.cpx.held.filter fun c => (c.op == 0x0305 || c.op == 0x0306) && c.key / 8 == h

/-- The next held snapshot or restore takes the free staging buffer; a restore that R133 refuses replies and the one after
it is looked at. -/
def nextStage (h : Nat) : List Held → State → State
  | [], s => s
  | c :: rest, s =>
    if (hearthAt s h).bdc.stage.isSome then s
    else
      let w := wordAt c.words 0
      let sect := c.key % 8
      let restore := c.op == 0x0306
      if restore && !(slotPairs sect w).all (fun e => restorable s h e.1 e.2) then
        nextStage h rest (endHeld c .badParam [] (restoreEvents h sect w .badParam s))
      else stageFor restore h sect w s

/-- The staging buffer is free again. -/
def freeStage (h : Nat) (s : State) : State :=
  let t := modBdc h (fun b => { b with stage := none }) s
  nextStage h (stageQueue t h) t

/-- The oldest held command of the operation that uses the staging buffer. -/
def stageOwner (s : State) (h : Nat) (g : Stage) : Option Held :=
  (heldFor s (if g.restore then 0x0306 else 0x0305) (h * 8 + g.sect)).head?

/-- SNAPSHOT_DRAM_DONE: the slots are written and BDC_SNAPSHOT replies with the time of the copy (spec/04 R133, R140). -/
def execSnapshotDramDone (h i : Nat) (s : State) : Out :=
  .next <|
    match (hearthAt s h).bdc.stage with
    | none => s
    | some g =>
      if !present s h || g.restore || g.sect ≠ i then s
      else
        let t := modBdc h (fun b => { b with slots := g.items.foldl (fun m e => kset m e.2.1 e.2.2) b.slots }) s
        let t := each g.items (fun e => emit h 0x0313 ([e.1] ++ bytesOf 2 e.2.1)) t
        let time := (g.items.head?.map fun e => e.2.2.time).getD (nextTime s)
        let t := match stageOwner t h g with | some c => endHeldAt (some time) c .ok [] t | none => t
        freeStage h t

/-- Restores the taps of a path: the rotation since the snapshot applies to them, the extensions are 0, acquisition ends and the
measurement window starts again (spec/04 R127); a path that was released or configured again while its slot was read takes them too
(log entry 129, DESIGN CHOICE). -/
def restorePath (h p : Nat) (g : Snapshot) (s : State) : State :=
  modPath h p (fun x =>
    let v := rotateTaps g.exp (rateOf (pathDef s h p)) (rotTurn (restoreRot x g)) (g.taps.map fun t => { i := t.i * 65536, q := t.q * 65536 })
    { x with
      exp := g.exp, acq := false, cur := {}, blocks := [], overNow := x.overNow || v.2
      taps := v.1.map fun t => { i := mantOf t.i * 65536, q := mantOf t.q * 65536 } }) s

/-- A snapshot that takes the staging buffer as a restore applies is taken at the next boundary: the buffer is in use up to the one at
which the restore applies (spec/04 R133; log entry 130, DEDUCED). -/
def laterStage (h : Nat) (s : State) : State :=
  modBdc h (fun b => { b with stage := b.stage.map fun g => if g.restore then g else { g with tick := s.tbu.tick + 2 } }) s

/-- A restore whose slots have been read applies at the boundary that closes the running tick: every masked path at once, before the
tick's updates (spec/04 R125, R127, R133, R140). -/
def applyRestore (h : Nat) (s : State) : State :=
  match (hearthAt s h).bdc.stage with
  | none => s
  | some g =>
    if !g.restore || g.tick ≠ s.tbu.tick + 1 then s
    else
      let t := each g.items (fun e => restorePath h e.1 e.2.2) s
      let t := each g.items (fun e => emit h 0x0314 ([e.1] ++ bytesOf 2 e.2.1 ++ [0])) t
      let t := match stageOwner t h g with | some c => endHeld c .ok [] t | none => t
      laterStage h (freeStage h t)

/-- RESTORE_APPLY: the slots of a restore have been read, and the taps apply at the boundary that closes the running tick
(spec/04 R124, R125, R127). -/
def execRestoreApply (h i : Nat) (s : State) : Out :=
  .next <|
    match (hearthAt s h).bdc.stage with
    | none => s
    | some g =>
      if !present s h || !g.restore || g.sect ≠ i then s
      else modBdc h (fun b => { b with stage := some { g with tick := s.tbu.tick + 1 } }) s

/-- BDC_CNT_CLR (spec/04 R135). -/
def execBdcCntClr (h : Nat) (s : State) : Out :=
  .next (if present s h && writable s then
    let t := each (List.range 64) (fun p => modPath h p fun x => { x with skip := 0, tapSat := 0, shown := x.shown.set 7 0 }) (modBdc h (fun b => { b with deferCount := 0 }) s)
    each (List.range 8) (fun i => modSec h i fun x => { x with bdc := { x.bdc with esat := 0 } }) t
  else s)

end Sys2Proof.Machine
end

