-- ==== Sys2Proof/Machine/Probe.lean ====
section
/-! DEFINITION. Machine/Probe.lean: the Smoke Probe that a probe window adds to the gain-stage output: its Gold codes, its amplitude
and its chips (spec/15 R473, R474). -/

namespace Sys2Proof.Machine

/-! ### Gold codes -/

/-- Parity of the 11 stages of a register. -/
def parity11 (x : Nat) : Bool := (List.range 11).foldl (fun a k => a ^^ x.testBit k) false

/-- One chip of an 11-stage register whose stage j holds chip n + j: the next chip is the parity of the stages of a mask
(spec/15 R474). -/
def shiftStep (mask x : Nat) : Nat := x / 2 + 1024 * bitNat (parity11 (x &&& mask))

/-- The register after n chips from the all-ones state (spec/15 R474). -/
def shiftState (mask : Nat) : Nat → Nat
  | 0 => 2047
  | n + 1 => shiftStep mask (shiftState mask n)

/-- Chip n of the sequence of a polynomial, x^11 and the powers of a mask: chip n + 11 is the sum of the chips n + j for the powers j
(spec/15 R474; log entry 117, DEDUCED). -/
def mChip (mask n : Nat) : Bool := (shiftState mask (n % 2047)).testBit 0

/-- Chip n of code k: m1 by x^11 + x^2 + 1, with m2 by x^11 + x^8 + x^5 + x^2 + 1 advanced by k chips (spec/15 R474). -/
def goldChip (k n : Nat) : Bool := mChip 0x005 n ^^ mChip 0x125 (n + k)

/-- A chip value: 0 is sent as +A (spec/15 R474). -/
def chipSign (c : Bool) : Int := if c then -1 else 1

/-- Chip n of a device's probe on a branch, I and Q: code k = device index on I and k + 1,024 on Q; branch 1 sends the same codes 1,024
chips later, which is 1,023 chips ahead in their period (spec/15 R473, R474). -/
def probeChip (index b n : Nat) : Int × Int :=
  let m := if b = 1 then n + 1023 else n
  (chipSign (goldChip index m), chipSign (goldChip (index + 1024) m))

/-! ### Amplitude -/

/-- The tick that opens lies in the 10 ms before a window's START (spec/15 R473). -/
def averages (s : State) (w : ProbeWindow) : Bool :=
  !w.running && decide (openTime s < w.start) && decide (w.start ≤ openTime s + milliTime 10)

/-- Power of the probe of a direction and branch, by 4 × global section + branch number: PROBE_REL below its SEC_OUT averaged over the
10 ms before START; no probe where nothing was sent (spec/15 R473; log entry 117, DEDUCED). -/
def probeLevel (w : ProbeWindow) (key : Nat) : LogQ :=
  match kget w.mean key with
  | some e => if e.1 = 0 ∨ e.2 = 0 then logMin else satLog (meanOf e - 256 * w.rel)
  | none => logMin

/-- Numbers of a section's directions and branches that a window's probe goes to. -/
def probeKeys (s : State) (w : ProbeWindow) (g : Nat) : List Nat :=
  ((secAt s (g / 8) (g % 8)).defn.map fun d => (usedBranches d).map fun b => 2 * bitNat w.dir + b).getD []

/-- A window as START finds it: the sections that send, the power of each branch's probe, which is held, and its power over the
branches at the reference plane (spec/15 R473, R476). -/
def openWindow (s : State) (gs : List Nat) (w : ProbeWindow) : ProbeWindow :=
  let level (g k : Nat) : LogQ := probeLevel w (4 * g + k)
  { w with
    running := true, sending := gs, stayed := gs
    level := gs.flatMap fun g => (probeKeys s w g).map fun k => (4 * g + k, level g k)
    dbm := gs.map fun g => (g, powerSum ((probeKeys s w g).filterMap fun k =>
      if level g k = logMin then none else some (satLog (level g k + (portAt s (g / 8) k).fsDbm)))) }

/-- A of a power in units of 2^-96: the power is that of an I and a Q chip (spec/15 R473; log entry 117, DEDUCED). -/
def chipAmp (level : LogQ) : Int := if level = logMin then 0 else ampOf level * 46341 / 65536

/-! ### Chips -/

/-- Chip numbers of a section's sample instants, from number n on: chips run from the first sample at or after START to the end of the
window (spec/15 R473). -/
def chipNumbers (s : State) (w : ProbeWindow) : Nat → List Nat → List (Option Nat)
  | _, [] => []
  | n, c :: cs =>
    if w.start ≤ timeAtClock s c ∧ timeAtClock s c < w.start + milliTime w.duration then some n :: chipNumbers s w (n + 1) cs
    else none :: chipNumbers s w n cs

/-- What a probe window adds to the gain-stage output of a section's direction, for each sample instant and branch, in units of 2^-96
(spec/15 R473). -/
def probeSamples (s : State) (g dir : Nat) (clks : List Nat) : List (List (Int × Int)) :=
  match s.flu.windows.find? fun w => w.running && w.sending.contains g && w.dir == (dir == 1) with
  | none => []
  | some w => (chipNumbers s w (kgetD w.chips g 0) clks).map fun c => match c with
    | none => []
    | some n => (List.range 2).map fun b =>
        let a := chipAmp (kgetD w.level (4 * g + 2 * dir + b) logMin)
        let v := probeChip s.flu.deviceIndex b n
        (a * v.1, a * v.2)

/-- A device time lies in a probe window (spec/15 R473). -/
def inProbe (w : ProbeWindow) (t : Nat) : Bool := decide (w.start ≤ t) && decide (t < w.start + milliTime w.duration)

/-- A tick of a group-scoped section as a running window hears it: e_B of the branches of its direction (spec/15 R475). -/
def hearTick (s : State) (g : Nat) (errs : List (Nat × List (Nat × (Int × Int)))) (w : ProbeWindow) : ProbeWindow :=
  if ((secAt s (g / 8) (g % 8)).defn.any (·.group)) then
    { w with heard := (errs.filter fun e => e.1 / 2 == bitNat w.dir).foldl (fun m e =>
        kset m (4 * g + e.1) (((e.2.filter fun v => inProbe w (timeAtClock s v.1)).map (·.2)).reverse ++ kgetD m (4 * g + e.1) [])) w.heard }
  else w

/-- A tick of a section passes over the probe windows: chips sent are counted and what is heard is kept, and before START its powers
are averaged (spec/15 R473, R475). `clks` are the sample instants of DL and UL, `errs` e_B with its clocks and `sent` the energies at the TX sum by
branch number. -/
def passWindows (g : Nat) (clks : List (List Nat)) (errs : List (Nat × List (Nat × (Int × Int)))) (sent : List (Nat × Nat × Nat)) (s : State) : State :=
  let pass (w : ProbeWindow) : ProbeWindow :=
    if w.running then
      let v := hearTick s g errs w
      if w.sending.contains g then
        let n := kgetD w.chips g 0
        { v with chips := kset w.chips g (n + ((chipNumbers s w n (clks.getD (bitNat w.dir) [])).filter Option.isSome).length) }
      else v
    else if averages s w then
      { w with mean := (sent.filter fun e => e.1 / 2 == bitNat w.dir).foldl (fun m e =>
          let old := kgetD m (4 * g + e.1) (0, 0)
          kset m (4 * g + e.1) (old.1 + e.2.1, old.2 + e.2.2)) w.mean }
    else w
  { s with flu := { s.flu with windows := s.flu.windows.map pass } }

end Sys2Proof.Machine
end

