-- ==== Sys2Proof/Machine/Grate.lean ====
section
/-! DEFINITION. Machine/Grate.lean: the Grate filter chain on samples: NCO mixers, half-band stages, the fractional resampler,
channel filters, the gain stage and the sum per TX chain, the references and outputs of the canceller, and the measurement
channels (spec/03 R74 to R79, R83, R84; spec/04 R98 to R100, R111, R115, R116). Filter coefficients are the device's own, within
R78 and R79 (log entry 101, DESIGN CHOICE). A history holds the newest sample first. -/

namespace Sys2Proof.Machine

/-! ### Words -/

/-- A complex sample, I and Q. -/
abbrev Smp := Int × Int

/-- Saturation to a signed word of `w` bits (spec/00 R12). -/
def satWord (w : Nat) (x : Int) : Int := clampInt (-2 ^ (w - 1)) (2 ^ (w - 1) - 1) x

/-- A reduction of `x / d` to `w` bits: rounded to nearest with ties to even, then saturated (spec/03 R76). -/
def reduceTo (w d : Nat) (x : Int) : Int := satWord w (roundDiv x d)

/-- A complex reduction. -/
def reduceSmp (w d : Nat) (z : Smp) : Smp := (reduceTo w d z.1, reduceTo w d z.2)

/-- Whether a complex reduction saturates. -/
def clips (w d : Nat) (z : Smp) : Bool := reduceTo w d z.1 != roundDiv z.1 d || reduceTo w d z.2 != roundDiv z.2 d

/-- The product of complex numbers. -/
def mulSmp (a b : Smp) : Smp := (a.1 * b.1 - a.2 * b.2, a.1 * b.2 + a.2 * b.1)

/-- The complex conjugate. -/
def conjSmp (a : Smp) : Smp := (a.1, -a.2)

/-- The sum of complex numbers. -/
def sumSmp (zs : List Smp) : Smp := zs.foldl (fun a b => (a.1 + b.1, a.2 + b.2)) (0, 0)

/-- |z|². -/
def normSmp (z : Smp) : Nat := (z.1 * z.1 + z.2 * z.2).toNat

/-! ### NCO -/

/-- Value of the 32-bit phase accumulator of an NCO that started at 0 on a DSP clock (spec/03 R75). -/
def ncoPhase (inc start clk : Nat) : Nat := inc * (clk - start) % 2 ^ 32

/-- exp(j2π · phase / 2^32) in units of 2^-96. -/
def ncoWave (phase : Nat) : Smp := (cosPi phase (2 ^ 31), cosPi ((phase : Int) - 2 ^ 30) (2 ^ 31))

/-- Mixes a sample down by an accumulator value, from 14 bits to 18 (spec/03 R74, R76). -/
def mixDown (phase : Nat) (z : Smp) : Smp := reduceSmp 18 (2 ^ 92) (mulSmp z (conjSmp (ncoWave phase)))

/-- Mixes an 18-bit sample up by an accumulator value: the TX side has the opposite sign (spec/03 R75, R76). -/
def mixUp (phase : Nat) (z : Smp) : Smp := reduceSmp 18 (2 ^ 96) (mulSmp z (ncoWave phase))

/-! ### Phase counters -/

/-- DSP clock of the phase reset from which the counters of a hearth run at a DSP clock (spec/03 R84). -/
def resetBefore (s : State) (h clk : Nat) : Nat :=
  let g := (hearthAt s h).grt
  ((g.lastClock :: g.prevClocks).find? (decide <| · ≤ clk)).getD 0

/-- Value of a hearth's half-band phase counter at a DSP clock: its low RATE bits are those of a section of that rate. It is 0 at
every phase reset and runs on from there (spec/03 R84). -/
def phaseCount (s : State) (h clk : Nat) : Nat := (clk - resetBefore s h clk) % 1024

/-- INC of a RATIO (spec/03 R79). -/
def rsInc (c : Nat) : Nat := (roundDiv (2 ^ 64) c).toNat

/-- Value of a 64-bit resampler accumulator at its output n since the phase reset that set it to 0 (spec/03 R79, R84). -/
def rsAcc (inc n : Nat) : Nat := n * inc % 2 ^ 64

/-- The first output of the resampler whose accumulator has reached input sample `q`. -/
def rsFirst (inc q : Nat) : Nat := ceilDiv (q * 2 ^ 32) inc

/-! ### Filters -/

/-- A FIR sum over a history with coefficients in units of 2^-30. -/
def firSum (c : List Int) (hist : List Smp) : Smp := sumSmp ((c.zip hist).map fun e => (e.1 * e.2.1, e.1 * e.2.2))

/-- A history takes a sample; what no filter or reference reads is dropped. -/
def push (z : Smp) (hist : List Smp) : List Smp := (z :: hist).take 10256

/-- A half-band decimator: it takes every input sample and gives one output for every second one, by its phase counter
(spec/03 R74, R76, R84). Stage `j` works at 983.04 MSPS / 2^j. -/
def decimate (last : Nat → Nat) (j : Nat) (hist : List Smp) (zs : List (Nat × Smp)) : List Smp × List (Nat × Smp) :=
  zs.foldl (fun a e =>
    let hs := push e.2 a.1
    (hs, if (e.1 - last e.1) % 2 ^ (j + 1) = 0 then a.2 ++ [(e.1, reduceSmp 18 (2 ^ 30) (firSum Config.halfBandTaps hs))] else a.2))
    (hist, [])

/-- A half-band interpolator from stage `j` to stage `j − 1`: a sample and a zero between samples (spec/03 R74, R76). -/
def interpolate (j : Nat) (hist : List Smp) (zs : List (Nat × Smp)) : List Smp × List (Nat × Smp) :=
  zs.foldl (fun a e =>
    let h1 := push e.2 a.1
    let h2 := push (0, 0) h1
    let out (hs : List Smp) : Smp := reduceSmp 18 (2 ^ 29) (firSum Config.halfBandTaps hs)
    (h2, a.2 ++ [(e.1, out h1), (e.1 + 2 ^ (j - 1), out h2)])) (hist, [])

/-- The resampler at a fraction of 32 bits between two samples: bits 31:22 select the phase, bits 21:0 weigh it against the next,
rounded and saturated to Frac16 (spec/00 R12; spec/03 R79). The newest of the 8 samples is the fourth after the instant. -/
def resampleAt (frac : Nat) (hist : List Smp) : Smp :=
  let ph := frac / 2 ^ 22
  let w := reduceTo 16 (2 ^ 7) (frac % 2 ^ 22 : Nat)
  let c := ((Config.polyphaseTaps ph).zip (Config.polyphaseTaps (ph + 1))).map fun e => e.1 * (32768 - w) + e.2 * w
  reduceSmp 18 (2 ^ 45) (firSum c (hist.take 8))

/-- The RX-side resampler: Fs samples in, with their number since the phase reset; output n is taken at A = n × INC
(spec/03 R79). -/
def resampleRx (inc : Nat) (last : Nat → Nat) (shift : Nat) (hist : List Smp) (zs : List (Nat × Smp)) : List Smp × List (Nat × Smp) :=
  zs.foldl (fun a e =>
    let hs := push e.2 a.1
    let q := (e.1 - last e.1) / 2 ^ shift
    let n := rsFirst inc (q - 4)
    (hs, if 4 ≤ q ∧ n * inc < (q - 3) * 2 ^ 32 then a.2 ++ [(e.1, resampleAt (n * inc % 2 ^ 32) hs)] else a.2)) (hist, [])

/-- The outputs of the TX-side resampler that a processing-rate sample lets it form: output m lies at m · 2^32 / INC
processing-rate samples, and the sample `n` is the fourth after it (spec/03 R79; log entry 102, DEDUCED). -/
def txInstants (inc n : Nat) : List Nat :=
  let first := ceilDiv ((n - 4) * inc) (2 ^ 32)
  if n < 4 then [] else (List.range 5).filterMap fun k => if (first + k) * 2 ^ 32 < (n - 3) * inc then some (first + k) else none

/-- The TX-side resampler: processing-rate samples in, Fs samples out, with a constant delay of 13 of them over the round trip
(spec/03 R79; log entry 102, DEDUCED). -/
def resampleTx (inc : Nat) (last : Nat → Nat) (shift : Nat) (hist : List Smp) (zs : List (Nat × Smp)) : List Smp × List (Nat × Smp) :=
  zs.foldl (fun a e =>
    let hs := push e.2 a.1
    let n := rsFirst inc ((e.1 - last e.1) / 2 ^ shift - 4)
    (hs, a.2 ++ (txInstants inc n).map fun m =>
      (last e.1 + (m + 13) * 2 ^ shift, resampleAt ((m * 2 ^ 32 - (n - 4) * inc) * 2 ^ 32 / inc) hs))) (hist, [])

/-- A channel filter at the processing rate, from 18 bits to `w`; whether an output saturated (spec/03 R76, R78). The RX side gives
Frac16 from the top 16 of its 18 bits. -/
def channelFilter (w d : Nat) (c : List Int) (hist : List Smp) (zs : List (Nat × Smp)) : List Smp × List (Nat × Smp) × Bool :=
  zs.foldl (fun a e =>
    let hs := push e.2 a.1
    let y := firSum c hs
    (hs, a.2.1 ++ [(e.1, reduceSmp w d y)], a.2.2 || clips w d y)) (hist, [], false)

/-- Coefficients of the channel filter of a definition (spec/03 R78). -/
def channelTaps (d : SecDef) : List Int := Config.channelTaps d.rate (bitNat d.swift) d.bandwidth d.ratio

/-! ### The sides of a section -/

/-- The half-band stages of the RX side, from stage 0 on. -/
def decimateAll (last : Nat → Nat) : Nat → Nat → List (List Smp) → List (Nat × Smp) → List (List Smp) × List (Nat × Smp)
  | 0, _, _, zs => ([], zs)
  | n + 1, j, hists, zs =>
    let r := decimate last j (hists.headD []) zs
    let rest := decimateAll last n (j + 1) hists.tail r.2
    (r.1 :: rest.1, rest.2)

/-- The half-band stages of the TX side, down to stage 0. -/
def interpolateAll : Nat → List (List Smp) → List (Nat × Smp) → List (List Smp) × List (Nat × Smp)
  | 0, _, zs => ([], zs)
  | n + 1, hists, zs =>
    let r := interpolate (n + 1) (hists.headD []) zs
    let rest := interpolateAll n hists.tail r.2
    (r.1 :: rest.1, rest.2)

/-- The RX side of a section: mixer, decimators, resampler and channel filter; its histories, the samples that BDC receives with
their clocks, and whether the channel filter saturated (spec/03 R74). -/
def rxSide (d : SecDef) (inc start : Nat) (last : Nat → Nat) (x : RxLane) (zs : List (Nat × Smp)) : RxLane × List (Nat × Smp) × Bool :=
  let mixed := zs.map fun e => (e.1, mixDown (ncoPhase inc start e.1) e.2)
  let hb := decimateAll last d.rate 0 x.hb mixed
  let rs := if d.ratio = 0 then ([], hb.2) else resampleRx (rsInc d.ratio) last d.rate x.rs hb.2
  let ch := channelFilter 16 (2 ^ 32) (channelTaps d) x.ch rs.2
  ({ hb := hb.1, rs := rs.1, ch := ch.1 }, ch.2)

/-- The TX side of a section: channel filter, resampler, interpolators and mixer; its histories and the 18-bit samples that it
sends to the sum (spec/03 R74). -/
def txSide (d : SecDef) (inc start : Nat) (last : Nat → Nat) (x : TxLane) (zs : List (Nat × Smp)) : TxLane × List (Nat × Smp) :=
  let ch := channelFilter 18 (2 ^ 30) (channelTaps d) x.ch zs
  let rs := if d.ratio = 0 then ([], ch.2.1) else resampleTx (rsInc d.ratio) last d.rate x.rs ch.2.1
  let hb := interpolateAll d.rate x.hb rs.2
  ({ x with ch := ch.1, rs := rs.1, hb := hb.1 }, hb.2.map fun e => (e.1, mixUp (ncoPhase inc start e.1) e.2))

/-! ### The gain stage -/

/-- A BLOCK_RESET, or a device action, mutes a section at a DSP clock (spec/17 R514). -/
def mutedAt (x : Section) (clk : Nat) : Bool := decide (x.muteFrom ≤ clk) && (x.blockMuted || decide (clk < x.muteTo))

/-- What a section's output is multiplied by besides its digital gain, at a DSP clock of the running tick: 0 while it does not
transmit or is muted or blanked, a linear ramp over a down-ramp, a mute ramp, the tick after a blank and the one in which its gates
reopen (spec/01 R34, R36; spec/03 R77, R85; spec/06 R177; spec/17 R514). -/
def outFactor (s : State) (x : Section) (clk : Nat) : Nat × Nat :=
  let pos := (clk - s.tbu.clock) * 2048 / s.tbu.tickLen
  if !x.runs || mutedAt x clk then (0, 1)
  else if x.muteTo == s.tbu.clock && decide (x.muteFrom < x.muteTo) then (pos, 2048)
  else if x.syncSettle && decide (x.blankFrom ≤ clk) then
    if x.blankEnd ≤ s.tbu.tick + 1 then (pos, 2048) else (0, 1)
  else if x.fading then ((2048 - pos) * x.fadeFrom.1, 2048 * x.fadeFrom.2)
  else match x.downRamp with
    | some r =>
      if r.start ≤ s.tbu.tick then (((r.endTick - s.tbu.tick) * 2048 + 2048 - pos) * r.fromNum, r.len * 2048 * r.fromDen)
      else if r.fromNum < r.fromDen then (r.fromNum * 2048 + 2048 - pos, r.fromDen * 2048)
      else (1, 1)
    | none => (1, 1)

/-- The squelch of a direction and branch at a DSP clock of the running tick: its attenuation, in over one linear ramp when it
engages (spec/06 R166, R167). -/
def squelchFactor (s : State) (x : Section) (k clk : Nat) : Nat × Nat :=
  let pos := (clk - s.tbu.clock) * 2048 / s.tbu.tickLen
  let att := x.sqRun.getD (k - 2) 0
  if k < 2 ∨ att = 0 then (1, 1)
  else
    let a := if att = logMax then 0 else ampOf (-att)
    if x.sqFade then (2 ^ 96 * (2048 - pos) + a * pos, 2 ^ 96 * 2048) else (a, 2 ^ 96)

/-- Mutes, ramps and squelch of a direction and branch together: what multiplies a sample besides its gain. -/
def stageFactor (s : State) (x : Section) (k clk : Nat) : Nat × Nat :=
  let a := outFactor s x clk
  let b := squelchFactor s x k clk
  (a.1 * b.1, a.2 * b.2)

/-- The gain stage on a Frac16 sample, before its reduction to 18 bits, as a value over a denominator; a digital part below
−64.0 dB mutes (spec/03 R76, R77). -/
def gainStage (dg : LogQ) (f : Nat × Nat) (z : Smp) : Smp × Nat :=
  if dg = logMin then ((0, 0), 1)
  else
    let g : Int := ampOf dg * f.1
    ((z.1 * g, z.2 * g), 2 ^ 96 * f.2)

/-- F of R422 besides mutes, ramps and squelch: 10^(min(0, applied − request) / 20). -/
def importGain (x : Section) (k : Nat) : LogQ := min 0 (x.applied.getD k logMin - x.request.getD k logMin)

/-! ### The canceller on samples -/

/-- y_AB of a path: the taps in force on a reference history (spec/04 R98). -/
def pathModel (x : PathRun) (ref : List Smp) : Smp :=
  let w := (x.taps.zip (ref.drop x.decor)).map fun e => mulSmp (mantOf e.1.i, mantOf e.1.q) e.2
  let y := sumSmp w
  (y.1 * 2 ^ 4, y.2 * 2 ^ 4)

/-- e_B: d_B less the models of the paths into it, over one denominator, rounded once to Frac16; whether it saturated
(spec/04 R98). A model is in units of 2^-(30 + E). -/
def errorOf (ps : List PathRun) (refs : List (List Smp)) (d : Smp) : Smp × Bool :=
  let z := (ps.zip refs).foldl (fun (a : Smp) e =>
    let y := pathModel e.1 e.2
    (a.1 - y.1 * 2 ^ (15 - e.1.exp), a.2 - y.2 * 2 ^ (15 - e.1.exp))) (d.1 * 2 ^ 30, d.2 * 2 ^ 30)
  (reduceSmp 16 (2 ^ 30) z, clips 16 (2 ^ 30) z)

/-- One direction of a section while its samples run: the reference histories of its TX branches (digital and ORX), e_B and the
gain-stage output of each branch with their clocks, and the saturations of e_B of each branch and of the gain stage. -/
structure Lanes where
  ref : List (List Smp) := [[], []]
  orx : List (List Smp) := [[], []]
  err : List (List (Nat × Smp)) := [[], []]
  out : List (List (Nat × Smp)) := [[], []]
  satE : List Bool := [false, false]
  satX : Bool := false
  deriving DecidableEq, Repr

/-- The reference history of a path: it was filtered while it was enabled as the tick opened (spec/04 R98, R100). -/
def refOf (x : PathRun) (p : Nat) (a : Lanes) : List Smp := (if x.orx then a.orx else a.ref).getD (pathOrx p) []

/-- Paths into a direction and RX branch of a section that filter in the running tick (spec/04 R98, R99). -/
def runPaths (s : State) (h i k : Nat) : List Nat :=
  (List.range 64).filter fun p => (pathAt s h p).run.on && p / 8 == i && pathRx p == k

/-- What a section's direction is given besides its own samples: the ORX copies, and the samples that stream import feeds, one for each
sample instant, with the branches whose gain-stage output they replace from an instant on, and the chips of a probe window in units of
2^-96 (spec/04 R100, spec/14 R422, spec/15 R473). -/
structure LaneIn where
  orx : List (List Smp) := [[], []]
  fed : List (List Smp) := []
  replaced : List Nat := []
  probe : List (List Smp) := []
  deriving DecidableEq, Repr

/-- One sample instant of a direction: the ORX references take their sample, e_B of each branch follows from the references as they
stand, then the gain stage of each branch, with the sample that stream import feeds and the chip of a probe window, gives the newest
digital reference. A chip falls with the section's mutes and ramps (spec/04 R98, R100; spec/14 R422; spec/15 R473; log entries 103 and
117, DEDUCED). -/
def laneStep (s : State) (h i dir : Nat) (g : LaneIn) (n clk : Nat) (d : List Smp) (a : Lanes) : Lanes :=
  let x := secAt s h i
  let a := { a with orx := (List.range 2).map fun b => push ((g.orx.getD b []).getD n (0, 0)) (a.orx.getD b []) }
  let one (b : Nat) : (Smp × Bool) × (Smp × Bool) :=
    let k := 2 * dir + b
    let ps := runPaths s h i k
    let e := errorOf (ps.map fun p => (pathAt s h p).run) (ps.map fun p => refOf (pathAt s h p).run p a) (d.getD b (0, 0))
    let f := stageFactor s x k clk
    let own := if maskHas (g.replaced.getD n 0) b then ((0, 0), 1) else gainStage (x.dgRun.getD k logMin) f e.1
    let muted := x.dgRun.getD k logMin == logMin
    let imp := if muted then ((0, 0), 1) else gainStage (importGain x k) f ((g.fed.getD n []).getD b (0, 0))
    let o := outFactor s x clk
    let pr := if muted then (0, 0) else (g.probe.getD n []).getD b (0, 0)
    let den := own.2 * imp.2
    let w : Smp := ((own.1.1 * imp.2 + imp.1.1 * own.2) * (2 ^ 81 * o.2) + pr.1 * o.1 * den,
      (own.1.2 * imp.2 + imp.1.2 * own.2) * (2 ^ 81 * o.2) + pr.2 * o.1 * den)
    (e, (reduceSmp 18 (den * (2 ^ 81 * o.2)) w, clips 18 (den * (2 ^ 81 * o.2)) w))
  let r := [one 0, one 1]
  let at_ (b : Nat) : (Smp × Bool) × (Smp × Bool) := r.getD b default
  { ref := (List.range 2).map fun b => push (at_ b).2.1 (a.ref.getD b [])
    orx := a.orx
    err := (List.range 2).map fun b => a.err.getD b [] ++ [(clk, (at_ b).1.1)]
    out := (List.range 2).map fun b => a.out.getD b [] ++ [(clk, (at_ b).2.1)]
    satE := (List.range 2).map fun b => a.satE.getD b false || (at_ b).1.2
    satX := a.satX || r.any fun e => e.2.2 }

/-- The sample instants of a direction in turn, from number `n` on. -/
def laneRun (s : State) (h i dir : Nat) (g : LaneIn) : Nat → List (Nat × List Smp) → Lanes → Lanes
  | _, [], a => a
  | n, e :: rest, a => laneRun s h i dir g (n + 1) rest (laneStep s h i dir g n e.1 e.2 a)

/-! ### Sums of a path -/

/-- Number of a processing-rate sample since the last phase reset. -/
def sampleIndex (s : State) (h : Nat) (d : SecDef) (clk : Nat) : Nat :=
  let q := (clk - resetBefore s h clk) / 2 ^ d.rate
  if d.ratio = 0 then q else rsFirst (rsInc d.ratio) (q - 4)

/-- S of a path under the gradient divider m in force: positions in the tick's samples with n mod m = 0 that lie in its valid window (spec/04 R111, R115;
log entry 104, DEDUCED). -/
def gradSet (m : Nat) (s : State) (h : Nat) (d : SecDef) (dir : Nat) (err : List (Nat × Smp)) : List Nat :=
  (List.range err.length).filter fun n =>
    let clk := (err.getD n (0, (0, 0))).1
    sampleIndex s h d clk % m == 0 && validClock s h d dir clk

/-- What one tick of a path gives its adaptation: |S|, P, the sum of |e_B|², G[k], and ρ's two sums, in units of 2^-30
(spec/04 R111, R116, R119). `ref` holds the reference up to the last sample of the tick; the digital one is a sample ahead. -/
def pathSums (x : Path) (ss : List Nat) (err : List (Nat × Smp)) (ref : List Smp) (sat : Bool) : PathIn :=
  let at_ (n lag : Nat) : Smp := ref.getD (err.length - n - bitNat x.run.orx + lag) (0, 0)
  let e (n : Nat) : Smp := (err.getD n (0, (0, 0))).2
  let tot (f : Nat → Nat) : Nat := (ss.map f).foldl (· + ·) 0
  let self := sumSmp (ss.map fun n => mulSmp (at_ n 0) (conjSmp (at_ n (max x.run.decor 1))))
  { n := ss.length, power := tot fun n => normSmp (at_ n x.run.decor), error := tot fun n => normSmp (e n)
    g := (List.range x.len).map fun k => sumSmp (ss.map fun n => mulSmp (e n) (conjSmp (at_ n (x.run.decor + k))))
    rho := normSmp self, base := tot fun n => normSmp (at_ n 0), sat := sat }

/-! ### A tick of a section -/

/-- What a direction and branch of a section gave in a tick: energy in units of 2^-30 and number of its valid samples of d_B and of
e_B, its valid samples of e_B, and its samples at the TX sum with their DSP clocks, an open gate apart as 0. -/
structure BranchRun where
  k : Nat := 0
  inSum : Nat × Nat := (0, 0)
  errSum : Nat × Nat := (0, 0)
  err : List Smp := []
  sent : List (Nat × Smp) := []
  deriving DecidableEq, Repr

/-- A tick of a direction of a section: the lanes as they stand after it, d_B, e_B and the gain-stage output, what its branches
gave, the sums of its paths, and its saturations; of a direction that frames feed, what is left of the equalisation buffer and
whether they fed some (1) or every (2) instant. -/
structure DirRun where
  rx : List RxLane := []
  orx : List RxLane := []
  tx : List TxLane := []
  d : List (List Smp) := []
  lanes : Lanes := {}
  branches : List BranchRun := []
  paths : List (Nat × PathIn) := []
  satRx : Bool := false
  eq : List EqSample := []
  fed : Nat := 0
  deriving DecidableEq, Repr

/-- The ADC samples of a chain in the running tick (spec/08 R230). -/
def adcIn (xs : List SampleIn) (s : State) (h c : Nat) : List Smp :=
  match xs.find? fun e => e.h == h && e.c == c with
  | some e => e.v.take (2 * s.tbu.tickLen)
  | none => []

/-- The digital front over the ADC samples of a tick, from a DSP clock on: two ADC samples give one 14-bit sample (spec/08 R230). -/
def frontRun (corr : List Word) (tail : List Smp) (clk : Nat) : List Smp → List (Nat × Smp)
  | a :: b :: rest =>
    let kept := (b :: a :: tail).take 64
    let y := Config.digitalFront corr kept
    (clk, (clampInt (-8192) 8191 y.1, clampInt (-8192) 8191 y.2)) :: frontRun corr kept (clk + 1) rest
  | _ => []

/-- The samples of a chain in the running tick with their DSP clocks, as its digital front gives them (spec/08 R230). -/
def chainIn (xs : List SampleIn) (s : State) (h c : Nat) : List (Nat × Smp) :=
  frontRun (lcalAt s h (if c < 4 then c else c + 4)).corr ((hearthAt s h).grt.frontTail.getD c []) s.tbu.clock (adcIn xs s h c)

/-- The digital back end over the DAC words of a tick: each gives two converter samples (spec/08 R233). -/
def backRun (corr : List Word) (tail : List Smp) : List Smp → List Smp
  | [] => []
  | a :: rest =>
    let kept := (a :: tail).take 64
    let y := Config.digitalBack corr kept
    y.1 :: y.2 :: backRun corr kept rest

/-- Increment of the NCO of a section's direction and branch: where the chains of its branches keep different LOs, each branch has an
increment and so a phase of its own (spec/03 R75; log entry 131, DESIGN CHOICE). -/
def sectionInc (s : State) (h : Nat) (d : SecDef) (k : Nat) : Nat := ncoInc (centreOf d (k / 2)) ((hearthAt s h).rfc.lo.getD k 0)

/-- Whether the transmit gate of a direction and branch is open at a DSP clock of the running tick: what its boundary left of R171,
what has closed it at once since, and of a TDD section the direction of its pattern and its duty closure at that clock (spec/01 R28; spec/06 R171; spec/17 R514;
spec/19 R561). -/
def gateAt (s : State) (h i k clk : Nat) : Bool :=
  let x := secAt s h i
  x.spa.gateRun.getD k false && !mutedAt x clk && lockedAt s h k clk && !(x.spa.checkGate && decide (x.spa.checkFrom ≤ clk)) && !s.thmPkg.tripGate && s.pkg != .doused
    && x.defRun.any fun d => !d.tdd || (patternDir s h d.pattern clk == k / 2
      && !(x.spa.dutyClosed.getD (k / 2) false && decide (x.spa.dutyAt.getD (k / 2) 0 ≤ clk))
      && (x.spa.dutySpan.getD (k / 2) none).all fun e => decide (clk < e.1) || decide (e.2 ≤ clk))

/-- Energy, in units of 2^-30, and number of samples. -/
def energyOf (zs : List Smp) : Nat × Nat := ((zs.map normSmp).foldl (· + ·) 0, zs.length)

/-- Adds energies and numbers. -/
def addEnergy (a b : Nat × Nat) : Nat × Nat := (a.1 + b.1, a.2 + b.2)

/-- An import plays into a direction at a DSP clock of the running tick (spec/14 R422, R425). -/
def importRuns (s : State) (x : Stream) (dir clk : Nat) : Bool := x.dir == dir && streamRuns x clk (timeAtClock s clk)

/-- Waiting samples handed to the instants at which an import plays; the others have none. -/
def feed : List Bool → List (List Smp) → List (List Smp)
  | [], _ => []
  | true :: ps, v :: vs => v :: feed ps vs
  | _ :: ps, vs => [] :: feed ps vs

/-- Samples of an equalisation buffer handed to sample instants: each is fed at the first instant at or after T + EQ_DELAY, the newest
where several meet, and an instant without one has none (spec/15 R470; log entry 123, DESIGN CHOICE). -/
def eqFeed (s : State) : List Nat → List EqSample → List (Option (List Smp)) × List EqSample
  | [], q => ([], q)
  | clk :: rest, q =>
    let due (e : EqSample) : Bool := decide (e.due ≤ timeAfter s (clk - s.tbu.clock))
    let r := eqFeed s rest (q.filter fun e => !due e)
    (((q.filter due).getLast?.map (·.v)) :: r.1, r.2)

/-- The samples of a branch that frames feed, at its sample instants: an instant without a sample is fed 0 (spec/15 R470). -/
def fedBranch (vs : List (Option (List Smp))) (b : Nat) (x : RxLane × List (Nat × Smp) × Bool) : RxLane × List (Nat × Smp) × Bool :=
  (x.1, (x.2.1.zip vs).map (fun e => (e.1.1, (e.2.getD []).getD b (0, 0))), false)

/-- A tick of a section's direction; of a split section, the direction that the device transmits takes its samples from the frames of
its peer and reads no chain (spec/03 R74 to R77; spec/04 R98 to R100; spec/14 R422; spec/15 R467, R470). -/
def runDir (xs : List SampleIn) (s : State) (h i dir : Nat) (d : SecDef) : DirRun :=
  let x := secAt s h i
  let last := resetBefore s h
  let frames := fromFrames x dir
  let chain (c : Nat) : List (Nat × Smp) :=
    if frames then (List.range s.tbu.tickLen).map fun n => (s.tbu.clock + n, ((0, 0) : Smp)) else chainIn xs s h c
  let branch (b : Nat) : RxLane × List (Nat × Smp) × Bool :=
    let k := 2 * dir + b
    if maskHas d.branchMask b then rxSide d (sectionInc s h d k) x.ncoRun last (x.rx.getD k {}) (chain k)
    else ({}, [], false)
  let copy (b : Nat) : RxLane × List (Nat × Smp) × Bool :=
    let used := (hearthAt s h).rfc.orxRun.getD b 0 == dir
      && (List.range 64).any fun p => (pathAt s h p).run.on && (pathAt s h p).run.orx && p / 8 == i && pathTx p == 2 * dir + b
    if used then rxSide d (sectionInc s h d (2 * dir + b)) x.ncoRun last (x.rx.getD (4 + 2 * dir + b) {}) (chainIn xs s h (4 + b))
    else ({}, [], false)
  let raw := [branch 0, branch 1]
  let clks := (raw.foldl (fun (a : List (Nat × Smp)) e => if a.length < e.2.1.length then e.2.1 else a) []).map (·.1)
  let eq := if frames then eqFeed s clks x.split.eq else ([], x.split.eq)
  let rx := if frames then raw.mapIdx (fedBranch eq.1) else raw
  let orx := [copy 0, copy 1]
  let d0 := (rx.getD 0 ({}, [], false)).2.1
  let d1 := (rx.getD 1 ({}, [], false)).2.1
  let longer := if d0.length < d1.length then d1 else d0
  let ins := longer.zipIdx.map fun e => (e.1.1, [(d0.getD e.2 default).2, (d1.getD e.2 default).2])
  let plays := ins.map fun e => importRuns s x.importS dir e.1
  let g : LaneIn := { orx := orx.map fun e => e.2.1.map (·.2), fed := feed plays (x.importS.entries.map (·.v))
                      replaced := plays.map fun p => if p && x.importS.replace then x.importS.branchMask else 0
                      probe := probeSamples s (globalOf h i) dir (ins.map (·.1)) }
  let start : Lanes := { ref := (List.range 2).map fun b => (x.tx.getD (2 * dir + b) {}).ref, orx := (List.range 2).map fun b => (x.tx.getD (2 * dir + b) {}).orx }
  let lanes := laneRun s h i dir g 0 ins start
  let satRx := rx.any (·.2.2)
  let tx := (List.range 2).map fun b => txSide d (sectionInc s h d (2 * dir + b)) x.ncoRun last (x.tx.getD (2 * dir + b) {}) (lanes.out.getD b [])
  let waiting (b : Nat) : List (Nat × Smp) := (x.tx.getD (2 * dir + b) {}).out ++ (tx.getD b ({}, [])).2
  let stop := s.tbu.clock + s.tbu.tickLen
  let ok (clk : Nat) : Bool := validClock s h d dir clk
  let branches := (usedBranches d).map fun b =>
    let k := 2 * dir + b
    let es := ((lanes.err.getD b []).filter fun e => ok e.1).map (·.2)
    { k := k, inSum := energyOf ((((rx.getD b ({}, [], false)).2.1).filter fun e => ok e.1).map (·.2)), errSum := energyOf es, err := es
      sent := if sendsIdx x k then (waiting b).filter fun e => decide (e.1 < stop) && gateAt s h i k e.1 else [] : BranchRun }
  let paths := ((List.range 64).filter fun p => (pathAt s h p).run.on && p / 8 == i && pathDir p == dir).map fun p =>
    let y := pathAt s h p
    let err := lanes.err.getD (p % 2) []
    (p, pathSums y (gradSet y.run.gradDiv s h d dir err) err (refOf y.run p lanes) (satRx || lanes.satE.getD (p % 2) false))
  { rx := rx.map (·.1), orx := orx.map (·.1)
    tx := (List.range 2).map fun b => { (tx.getD b ({}, [])).1 with
      ref := lanes.ref.getD b [], orx := lanes.orx.getD b [], out := (waiting b).filter fun e => decide (stop ≤ e.1) }
    d := [d0.map (·.2), d1.map (·.2)], lanes := lanes, branches := branches, paths := paths, satRx := satRx, eq := eq.2
    fed := if eq.1.all (·.isNone) then 0 else if eq.1.all (·.isSome) then 2 else 1 }

/-! ### Streams -/

/-- An exported sample by POINT (spec/14 R418). -/
def pointSample (point : Nat) (d e w : Smp) : Smp := if point = 0 then d else if point = 1 then e else reduceSmp 16 4 w

/-- Samples that an export stream takes from a direction's tick, with their time and the applied gains in force (spec/14 R418, R419; log
entry 115, DEDUCED). -/
def exportEntries (s : State) (y : Section) (r : DirRun) : List StreamSample :=
  let x := y.exportS
  ((List.range (r.lanes.err.getD 0 []).length).map fun n =>
    let clk := ((r.lanes.err.getD 0 []).getD n default).1
    (clk, ({ time := timeAtClock s clk, applied := (y.applied.drop (2 * x.dir)).take 2, v := (maskBits 2 x.branchMask).map fun b =>
      pointSample x.point ((r.d.getD b []).getD n (0, 0)) (((r.lanes.err.getD b []).getD n default).2) (((r.lanes.out.getD b []).getD n default).2) }
        : StreamSample))).filterMap fun e => if streamRuns x e.1 e.2.time then some e.2 else none

/-- Streams of a section over a direction's tick: export takes samples while it runs, import's are used up, one per processing-rate
sample (spec/14 R418, R422). -/
def runStreams (s : State) (dir : Nat) (r : DirRun) (x : Section) : Section :=
  let n := ((r.lanes.err.getD 0 []).filter fun e => importRuns s x.importS dir e.1).length
  { x with
    exportS := if x.exportS.dir == dir then { x.exportS with entries := x.exportS.entries ++ exportEntries s x r } else x.exportS
    importS := { x.importS with entries := x.importS.entries.drop n } }

/-- A split section over a direction's tick: the direction received is kept for the next blocks, and the equalisation buffer gives
up what was fed (spec/15 R467, R469, R470; log entry 115, DEDUCED). -/
def runSplit (s : State) (dir : Nat) (r : DirRun) (x : Section) : Section :=
  if x.split.role = 0 then x
  else if fromFrames x dir then { x with split := { x.split with eq := r.eq } }
  else
    let es := (List.range (r.lanes.err.getD 0 []).length).map fun n =>
      ({ time := timeAtClock s ((r.lanes.err.getD 0 []).getD n default).1, v := (maskBits 2 ((x.defRun.getD {}).branchMask)).map fun b =>
        ((r.lanes.err.getD b []).getD n default).2 } : StreamSample)
    { x with split := { x.split with out := x.split.out ++ es } }

/-! ### A tick of a hearth -/

/-- What the samples of a tick gave, for the tick that captures it: sections whose RX channel filter or gain stage saturated, TX sums,
the power of each section's direction and branch at its sum, the sums of paths, and the split sections that frames fed, at some
(1) or every (2) instant (spec/02 R42, R43). -/
structure TickOut where
  satRx : List (Nat × Nat) := []
  satTx : List (Nat × Nat) := []
  sums : List SumIn := []
  tx : List LevelIn := []
  paths : List (Nat × Nat × PathIn) := []
  fed : List (Nat × Nat × Nat) := []
  deriving DecidableEq, Repr

/-- Adds what two parts of a tick gave. -/
def joinOut (a b : TickOut) : TickOut :=
  { satRx := a.satRx ++ b.satRx, satTx := a.satTx ++ b.satTx, sums := a.sums ++ b.sums, tx := a.tx ++ b.tx, paths := a.paths ++ b.paths, fed := a.fed ++ b.fed }

/-- Takes a branch's tick into the running windows of its supervisors: the squelch window of an uplink branch, the 480-tick window of
a downlink branch, and the detector's last 64 valid samples (spec/05 R146; spec/06 R164, R170). -/
def takeBranch (tick : Nat) (b : BranchRun) (x : Section) : Section :=
  let sp := x.spa
  let on := x.runs && !x.fading
  let br := x.dmp.br.modify b.k fun y =>
    if on then { y with buf := (b.err.reverse ++ y.buf).take 64, fresh := y.fresh + b.err.length }
    else { y with buf := [], fresh := 0, winTick := tick + 1 }
  let spa := if b.k < 2 then { sp with dlSum := sp.dlSum.modify b.k (addEnergy b.inSum) }
    else if transmits x.stateRun then { sp with sqSum := sp.sqSum.modify (b.k - 2) (addEnergy b.errSum) }
    else sp
  { x with dmp := { x.dmp with br := br }, spa := spa }

/-- Power of a branch's samples entering the TX sum, as a mean over the tick (spec/06 R175). -/
def sentLevel (s : State) (h i : Nat) (b : BranchRun) : LevelIn :=
  { h := h, i := i, k := b.k, level := logRatio (energyOf (b.sent.map (·.2))).1 (s.tbu.tickLen * 2 ^ 30) }

/-- Energy and number of the samples that entered the TX sum: over every DSP clock of the tick, once one passed an open gate
(spec/07 R191; spec/06 R175). -/
def sentSum (s : State) (b : BranchRun) : Nat × Nat := if b.sent.isEmpty then (0, 0) else ((energyOf (b.sent.map (·.2))).1, s.tbu.tickLen)

/-- Adds samples to what pattern watch holds of an interval (spec/10 R314). -/
def addWatch (k : WatchSum) : List WatchSum → List WatchSum
  | [] => [k]
  | w :: rest =>
    if w.frame = k.frame ∧ w.kind = k.kind ∧ w.branch = k.branch ∧ w.since = k.since then
      { w with energy := w.energy + k.energy, n := w.n + k.n, loud := w.loud || k.loud } :: rest
    else w :: addWatch k rest

/-- Pattern watch takes a sample of d_B, or notes an UL sample that entered a TX sum, at a DSP clock: in the interval of its kind around it,
X slots and what lies in no frame apart, and the first and last 1,024 clocks of each apart (spec/10 R314). -/
def watchSample (s : State) (h : Nat) (d : SecDef) (b : Nat) (loud : Bool) (e : Nat × Smp) (ws : List WatchSum) : List WatchSum :=
  let kind := patternKind s h d.pattern
  let marks := patternMarks s h d.pattern
  match placeAt s d.pattern (patternAt s h d.pattern) e.1 with
  | none => ws
  | some p =>
    let w : WatchSum := { frame := e.1 - p.2, kind := kind e.1, branch := b, since := (spanAt kind marks e.1).1 }
    if loud then addWatch { w with loud := true } ws
    else if w.kind < 3 ∧ innerClock kind marks 1024 e.1 = true then addWatch { w with energy := normSmp e.2, n := 1 } ws
    else ws

/-- Pattern watch of a TDD section over a tick (spec/10 R314, R319). -/
def watchTick (s : State) (h : Nat) (d : SecDef) (dl ul : DirRun) (a : AirSec) : AirSec :=
  if !((hearthAt s h).air.enabled && a.pwEn && d.tdd) then { a with sums := [] }
  else
    let clks := (dl.lanes.err.getD 0 []).map (·.1)
    let ins := (usedBranches d).flatMap fun b => (clks.zip (dl.d.getD b [])).map fun e => (b, false, e)
    let outs := ul.branches.flatMap fun r => (r.sent.filter fun e => e.2 != (0, 0)).map fun e => (0, true, e)
    { a with sums := (ins ++ outs).foldl (fun ws e => watchSample s h d e.1 e.2.1 e.2.2 ws) a.sums }

/-- A tick of a section: its lanes, streams and windows, and what its branches sent (spec/03 R74). -/
def runSection (xs : List SampleIn) (h i : Nat) (s : State) : (TickOut × List BranchRun) × State :=
  let x := secAt s h i
  match x.defRun with
  | none => (({}, []), modSec h i (fun y => { y with bdc := { y.bdc with satNow := [false, false] } }) s)
  | some d =>
    let dl := runDir xs s h i 0 d
    let ul := runDir xs s h i 1 d
    let bs := dl.branches ++ ul.branches
    let t := modSec h i (fun y =>
      let z := runSplit s 1 ul <| runSplit s 0 dl <| runStreams s 1 ul (runStreams s 0 dl { y with
        rx := dl.rx ++ ul.rx ++ dl.orx ++ ul.orx, tx := dl.tx ++ ul.tx, bdc := { y.bdc with satNow := [dl.lanes.satE.any id, ul.lanes.satE.any id] } })
      bs.foldl (fun a b => takeBranch s.tbu.tick b a) { z with air := watchTick s h d dl ul z.air }) s
    let t := passWindows (globalOf h i) ([dl, ul].map fun r => (r.lanes.err.getD 0 []).map (·.1))
      ((usedIdx d).map fun k => (k, (if k < 2 then dl else ul).lanes.err.getD (k % 2) [])) (bs.map fun b => (b.k, sentSum s b)) t
    (({ satRx := if dl.satRx || ul.satRx then [(h, i)] else [], satTx := if dl.lanes.satX || ul.lanes.satX then [(h, i)] else []
        tx := (bs.filter fun b => !b.sent.isEmpty).map (sentLevel s h i)
        paths := (dl.paths ++ ul.paths).map fun e => (h, e.1, e.2)
        fed := if x.split.role = 0 then [] else [(h, i, if fromFrames x 0 then dl.fed else ul.fed)] }, bs), t)

/-! ### The sum per TX chain -/

/-- The sum of a TX chain at a DSP clock (spec/03 R74). -/
def sumAt (sent : List (List (Nat × Smp))) (clk : Nat) : Smp := sumSmp (sent.filterMap fun l => (l.find? fun y => y.1 == clk).map (·.2))

/-- A port multiplier, in units of 2^-96, on a TX sum before its reduction to the 16-bit DAC word (spec/03 R76, spec/08 R233). -/
def portScale (g : Nat) (z : Smp) : Smp := (z.1 * g, z.2 * g)

/-- The DAC words of a TX chain in the running tick, by the port multiplier in force in it, and its sum as FES follows it: the mean power of the sum, whether a sample of
non-zero value entered through an open gate, and whether its reduction after the port multiplier saturated (spec/03 R76, R93; spec/08
R233, R251). A chain that nothing enters sends 0. -/
def runSum (s : State) (h c : Nat) (sent : List (List (Nat × Smp))) : SumIn × List Smp :=
  if sent.all (·.isEmpty) then ({ h := h, c := c, level := logMin }, [])
  else
    let vs := (List.range s.tbu.tickLen).map fun n => sumAt sent (s.tbu.clock + n)
    let ws := vs.map (portScale (ampOf (portAt s h c).multRun))
    ({ h := h, c := c, level := meanOf (energyOf vs), counted := sent.any fun l => l.any fun e => e.2 != (0, 0)
       sat := ws.any (clips 16 (2 ^ 96)) }, ws.map (reduceSmp 16 (2 ^ 96)))

/-! ### Measurement channels -/

/-- A measurement channel over a sample of its chain: it shifts, integrates and dumps over D = 2^k samples; a change of its NCO or
chain takes effect at the next output boundary. The answer holds an output whose integration period the gate left clean
(spec/03 R83, spec/07 R191). What the NCO has shifted is reduced to 16 bits before it is summed (log entry 132, DESIGN CHOICE). -/
def measStep (gate : Nat → Bool) (x : MeasCh) (e : Nat × Smp) : MeasCh × Option Smp :=
  let z := reduceSmp 16 (2 ^ 94) (mulSmp e.2 (conjSmp (ncoWave (ncoPhase x.inc x.start e.1))))
  let acc := (x.acc.1 + z.1, x.acc.2 + z.2)
  let clean := (x.clean || x.count == 0) && gate e.1
  if x.count + 1 < 2 ^ x.k then ({ x with acc := acc, count := x.count + 1, clean := clean }, none)
  else
    let y := reduceSmp 16 (2 ^ x.k) acc
    let out := if clean then some y else none
    match x.next with
    | some n => ({ x with acc := (0, 0), count := 0, out := y, chain := n.1, inc := n.2.1, k := n.2.2, start := e.1 + 1, next := none }, out)
    | none => ({ x with acc := (0, 0), count := 0, out := y }, out)

/-- A measurement channel over the samples of a tick, of the chain that it reads at each DSP clock; its clean outputs. -/
def measRun (gate : Nat → Bool) (x : MeasCh) (inp : Nat → List (Nat × Smp)) : MeasCh × List Smp :=
  let run (a : MeasCh × List Smp) (zs : List (Nat × Smp)) : MeasCh × List Smp :=
    zs.foldl (fun b e =>
      if b.1.chain = a.1.chain then let r := measStep gate b.1 e; (r.1, b.2 ++ r.2.toList) else b) a
  let r := run (x, []) (inp x.chain)
  if r.1.chain = x.chain then r else run r ((inp r.1.chain).filter fun e => decide (r.1.start ≤ e.1))

/-! ### Measurements of the loop slots -/

/-- What the branches of a section gave in a tick, for a direction and branch. -/
def branchRun (runs : List (Nat × List BranchRun)) (i k : Nat) : BranchRun :=
  (((runs.find? fun e => e.1 == i).bind fun e => e.2.find? fun b => b.k == k)).getD { k := k }

/-- A slot's measurement takes a tick: `orx` are the clean outputs of its channel (spec/07 R191, R210; spec/08 R250). -/
def takeMeasure (s : State) (runs : List (Nat × List BranchRun)) (orx : List Smp) (x : Loop) : Loop :=
  let g := measOf x
  let b := branchRun runs g.1 g.2
  let other := branchRun runs g.1 ((g.2 + 2) % 4)
  let m := if x.cfg.measSrc = 1 then sentSum s b else if x.cfg.measSrc = 2 then b.inSum else if x.cfg.measSrc = 3 then other.inSum
    else if x.cfg.measSrc = 4 then energyOf orx else (0, 0)
  { x with measSum := addEnergy x.measSum m, inSum := addEnergy x.inSum (if x.bound.isSome then b.inSum else sentSum s b) }

/-- Samples of a tick on a hearth: its sections, TX sums, measurement channels and what its slots measure. -/
def runHearth (xs : List SampleIn) (h : Nat) (s : State) : TickOut × State :=
  let r := (List.range 8).foldl (fun (a : (TickOut × List (Nat × List BranchRun)) × State) i =>
    let q := runSection xs h i a.2
    ((joinOut a.1.1 q.1.1, a.1.2 ++ [(i, q.1.2)]), q.2)) (({}, []), s)
  let runs := r.1.2
  let sums := (List.range 4).map fun c => runSum s h c (runs.map fun e => (branchRun runs e.1 c).sent)
  let gate (owner : Nat) (clk : Nat) : Bool :=
    if owner < 100 then true else let g := measOf ((hearthAt s h).loops.getD (owner - 100) {}); gateAt s h g.1 g.2 clk
  let chans := (hearthAt s h).grt.meas.map fun m => if m.owner = 0 then (m, []) else measRun (gate m.owner) m (chainIn xs s h)
  let corr (n : Nat) : List Word := (lcalAt s h n).corr
  let orx (n : Nat) : List Smp := ((chans.find? fun e => e.1.owner == 100 + n).map (·.2)).getD []
  let t := modHearth h (fun x => { x with
    grt := { x.grt with
      meas := chans.map (·.1), dac := sums.map (·.2)
      frontTail := x.grt.frontTail.mapIdx fun c l => ((adcIn xs s h c).reverse ++ l).take 64
      dacOut := sums.mapIdx fun c e => backRun (corr (4 + c)) (x.grt.backTail.getD c []) e.2
      backTail := x.grt.backTail.mapIdx fun c l => (((sums.map (·.2)).getD c []).reverse ++ l).take 64 }
    loops := x.loops.mapIdx fun n y => takeMeasure s runs (orx n) y }) r.2
  ({ r.1.1 with sums := sums.map (·.1) }, t)

/-! ### Capture -/

/-- The samples of a capture source in the running tick: the 14-bit value of an RX chain or an ORX in bits 15:2, the DAC word of a TX
chain (spec/14 R427). -/
def sourceIn (xs : List SampleIn) (s : State) (h n : Nat) : List Smp :=
  let whole (zs : List Smp) : List Smp := (zs ++ List.replicate s.tbu.tickLen (0, 0)).take s.tbu.tickLen
  if 4 ≤ n ∧ n < 8 then whole ((hearthAt s h).grt.dac.getD (n - 4) [])
  else whole ((chainIn xs s h (if n < 4 then n else n - 4)).map fun e => (4 * e.2.1, 4 * e.2.2))

/-- The capture engine of a hearth over the running tick: once armed it records continuously, of which it keeps what the trigger may
need (spec/14 R428). -/
def recordTick (xs : List SampleIn) (h : Nat) (s : State) : State :=
  let c := (hearthAt s h).cap
  let cfg := c.cfg.getD {}
  let stop := s.tbu.clock + s.tbu.tickLen
  if (c.state = 1 ∨ c.state = 2) ∧ c.bufClk < stop then
    let old := if c.buf.isEmpty then cfg.srcs.map fun _ => [] else c.buf
    let all := old.zipWith (fun l n => l ++ (sourceIn xs s h n).drop (c.bufClk - s.tbu.clock)) cfg.srcs
    let keep := if c.state = 2 then 0 else if cfg.spectrum then stop - c.bufClk else stop - c.bufClk - cfg.pre * 1024
    modHearth h (fun x => { x with cap := { x.cap with buf := all.map fun l => l.drop keep, bufClk := c.bufClk + keep } }) s
  else s

/-- The samples of the running tick on every hearth: filtering runs in every package state except DOUSED, with what was in force as
the tick opened (spec/03 R74, spec/04 R99). -/
def runSamples (xs : List SampleIn) (s : State) : TickOut × State :=
  (hearthsOf s).foldl (fun (a : TickOut × State) h => let r := runHearth xs h a.2; (joinOut a.1 r.1, recordTick xs h r.2)) ({}, s)

end Sys2Proof.Machine
end

