-- ==== Sys2Proof/Machine/Damper.lean ====
section
/-! DEFINITION. Machine/Damper.lean: the stability ceiling, oscillation onset, line detection and the tone test, with the
Damper's commands and events (spec/05). -/

namespace Sys2Proof.Machine

/-- Changes the damper's record of a section. -/
def modDmp (h i : Nat) (f : Dmp → Dmp) (s : State) : State := modSec h i (fun x => { x with dmp := f x.dmp }) s

/-- Changes the damper's record of a direction. -/
def modDir (h i d : Nat) (f : DmpDir → DmpDir) (s : State) : State := modDmp h i (fun x => { x with dir := x.dir.modify d f }) s

/-- The damper's record of a direction. -/
def dirOf (s : State) (h i d : Nat) : DmpDir := (secAt s h i).dmp.dir.getD d {}

/-- The damper's record of a direction and RX branch. -/
def brOf (s : State) (h i k : Nat) : DmpBr := (secAt s h i).dmp.br.getD k {}

/-! ### The ceiling -/

/-- Enabled paths into a direction and RX branch that have published. -/
def measuredPaths (s : State) (h i k : Nat) : List Nat :=
  (enabledPaths s h).filter fun p => p / 8 == i && pathRx p == k && (pathAt s h p).published

/-- Ih and Id of a direction and RX branch over one denominator, in units of 2^-96 (spec/05 R141). -/
def loopEnergies (s : State) (h i k : Nat) : Nat × Nat × Nat :=
  (measuredPaths s h i k).foldl (fun a p =>
    let x := (pathAt s h p).ehEd
    let w := powOf (satLog (-(ofsOf s h i (pathTx p))))
    (a.1 * x.2.2 + w * x.1 * a.2.2, a.2.1 * x.2.2 + w * x.2.1 * a.2.2, a.2.2 * x.2.2)) (0, 0, 1)

/-- −10 log10 of an energy in units of 2^-96, before it saturates (spec/05 R141; spec/00 R12). -/
def lossOf (num den : Nat) : Int := logWide (2 ^ 96 * den) num

/-- What a direction and RX branch gives in a tick: its record, ISO_B + SUPP_B before saturation, and the cause of its ceiling. -/
structure BranchCeil where
  br : DmpBr
  loss : Int
  cause : Nat
  deriving DecidableEq, Repr

/-- ISO_B and SUPP_B of a direction and RX branch (spec/05 R141, R144, R159). -/
def branchCeil (s : State) (h i k : Nat) : BranchCeil :=
  let b := brOf s h i k
  let d := dirOf s h i (k / 2)
  let frozen := branchFrozen s h i k
  let stale := (enabledPaths s h).any fun p => p / 8 == i && pathRx p == k && (pathAt s h p).stale
  if (measuredPaths s h i k).isEmpty || stale || (frozen && b.suppLast.isNone) then
    { br := { b with noMeas := true, frozenUsed := false, iso := d.isoCfg, isoLow := false }, loss := d.isoCfg, cause := 2 }
  else
    let e := loopEnergies s h i k
    let iso := lossOf e.1 e.2.2
    let own := lossOf e.2.1 e.2.2
    let last := b.suppLast.getD (1, 1)
    let loss := if frozen then min own (lossOf (e.1 * last.2) (e.2.2 * last.1) - 1536) else own
    let low := if b.isoLow then decide (iso < d.isoCfg - 1280) else decide (iso < d.isoCfg - 1536)
    { br := { b with noMeas := false, frozenUsed := frozen, iso := satLog iso, isoLow := low
                     suppLast := if frozen then b.suppLast else some (e.1, e.2.1) }
      loss := loss, cause := if frozen then 1 else 0 }

/-- DMP declares oscillation onset, once for a direction in a tick: it is counted, written, and quenches the section with reason
OSCILLATION; an onset of a direction ends its test (spec/05 R145, R160). -/
def onset (criterion h i k : Nat) (pk : Int) (s : State) : State :=
  if (dirOf s h i (k / 2)).onsetTick = some s.tbu.tick then s
  else
    let t := modDir h i (k / 2) (fun y => { y with onsetTick := some s.tbu.tick }) s
    let t := modDmp h i (fun x => { x with onsets := incSat 8 x.onsets, lastOnset := criterion }) t
    quench 1 criterion h i
      (emitVf 3 h i 0x0410 ([globalOf h i, k, criterion] ++ bytesOf 2 (dirOf t h i (k / 2)).lg ++ bytesOf 2 pk) t)

/-- Directions that a section's definition gives RX branches, with their numbers. -/
def dirIdx (d : SecDef) (dir : Nat) : List Nat := (usedBranches d).map fun b => 2 * dir + b

/-- Whether a section transmits in the running tick, whatever a supervisor has decided in it (spec/01 R37, spec/05 R141). -/
def transmitsNow (x : Section) : Bool := x.runs && !x.fading

/-- The estimates of a direction in a tick, ISO_LOW, and criterion 1 (spec/05 R141, R142, R144, R145). -/
def estimateDir (vs : List (Nat × BranchCeil)) (h i dir : Nat) (s : State) : State :=
  let t := each vs (fun v t =>
    let t1 := modBr h i v.1 (fun _ => v.2.br) t
    if v.2.br.isoLow && !(brOf t h i v.1).isoLow then
      emit h 0x0415 ([globalOf h i, v.1] ++ bytesOf 2 v.2.br.iso ++ bytesOf 2 (dirOf t h i dir).isoCfg) t1
    else t1) s
  let top := maxLog (vs.map fun v => (secAt t h i).applied.getD v.1 logMin)
  let lgs := vs.map fun v => (v.1, satLog (top - v.2.loss))
  let lg := maxLog (lgs.map (·.2))
  let t := modDir h i dir (fun y => { y with lg := lg }) t
  if -(dirOf t h i dir).margin < 2 * lg then
    onset 1 h i (((lgs.find? fun v => v.2 == lg).map (·.1)).getD (2 * dir)) logMin t
  else t

/-- C_dmp of a direction from its branches, with what bounds it (spec/05 R142, R160). -/
def stageCeil (vs : List (Nat × BranchCeil)) (h i dir : Nat) (s : State) : State :=
  let x := dirOf s h i dir
  let ceil (v : Nat × BranchCeil) : LogQ := satLog (v.2.loss - x.margin)
  let cDir := minLog (vs.map ceil)
  let c := min cDir (min x.cTest x.grp)
  let cause := if x.cTest = c ∧ x.cTest < logMax then 4 else if x.grp = c ∧ x.grp < logMax then 3
    else ((vs.find? fun v => ceil v == cDir).map (·.2.cause)).getD 0
  modDir h i dir (fun y => { y with ceil := c, cause := cause }) s

/-- An enabled path has not published for 2 × W ticks (spec/05 R159). -/
def staleDue (h n : Nat) (s : State) : State :=
  let x := pathAt s h n
  if present s h && x.enabled && x.mode != 2 && !x.stale && decide (x.pubTick + 2 * 2 ^ x.measLog2 ≤ s.tbu.tick) then
    raiseSource h 226 (modPath h n (fun y => { y with stale := true }) s)
  else s

/-- INPUT_STALE (spec/05 R159). -/
def execInputStale (h n : Nat) (s : State) : Out := .next (staleDue h n s)

/-! ### Line detection -/

/-- Ticks of a detector window (spec/05 R146). -/
def windowTicks (d : SecDef) : Nat :=
  if 30720000 * 2 ^ 48 ≤ rateOf d then 1 else ceilDiv (64 * 480000 * 2 ^ 48) (rateOf d)

/-- Level of bin `k` of the 64 last valid samples, newest first: a full-scale carrier at the bin reads 0 dBFS
(spec/05 R146; log entry 110, DEDUCED). -/
def binLevel (buf : List Smp) (k : Nat) : LogQ := logRatio (binNorm buf.reverse k) (fullNorm buf.length)

/-- The 64-point spectrum of a branch (spec/05 R146). -/
def spectrumOf (buf : List Smp) : List Int := (List.range 64).map (binLevel buf)

/-- Level of a bin of a spectrum. -/
def binAt (p : List Int) (k : Nat) : Int := p.getD k logMin

/-- The highest of a bin and its neighbours. -/
def around (p : List Int) (k : Nat) : Int := maxLog ((List.range 64).filterMap fun j =>
  if j = k ∨ j + 1 = k ∨ j = k + 1 then some (binAt p j) else none)

/-- A bin of the newest counted window is a growing line: on a masked bin, only 6.0 dB above the level when masked
(spec/05 R147, R151; log entry 27, DEDUCED). -/
def growing (b : DmpBr) (k : Nat) : Bool :=
  match b.spectra with
  | p :: _ :: _ :: _ :: old :: _ =>
    let v := binAt p k
    let others := (p.foldl (· + ·) 0) - v
    decide (-12800 ≤ v) && decide (others + 63 * 2560 ≤ 63 * v) && decide (around old k + 1536 ≤ v)
      && b.masks.all fun m => if m.bin ≤ k + 1 ∧ k ≤ m.bin + 1 then decide (m.level + 1536 ≤ v) else true
  | _ => false

/-- A tone test starts, or starts again (spec/05 R149, R160; log entry 31, DEDUCED). -/
def startTest (second : Bool) (h i dir b bin : Nat) (p0 : Int) (s : State) : State :=
  let x := secAt s h i
  let a0 := maxLog ((((x.defn.map fun d => dirIdx d dir).getD [])).map fun k => x.applied.getD k logMin)
  let t := modDir h i dir (fun y => { y with
    cTest := if second then y.cTest else satLog (a0 - 256 * (x.dmp.backoff : Int))
    test := some { branch := b, bin := bin, p0 := p0, a0 := a0, start := s.tbu.tick, second := second } }) s
  emit h 0x0412 ([globalOf h i, 2 * dir + b, bin] ++ bytesOf 2 p0) (modDmp h i (fun y => { y with tests := incSat 16 y.tests }) t)

/-- A test ends without OWN: C_TEST clears at the following boundary. -/
def clearTest (h i dir : Nat) (s : State) : State := modDir h i dir (fun y => { y with test := none, cTest := logMax }) s

/-- The line has vanished: the second time within 480,000 ticks is an onset (spec/05 R145, R149). -/
def vanish (h i dir k : Nat) (pk : Int) (s : State) : State :=
  let t := clearTest h i dir s
  let again := (dirOf s h i dir).vanished.any fun v => decide (s.tbu.tick ≤ v + ticksPerSecond)
  let t := modDir h i dir (fun y => { y with vanished := some s.tbu.tick }) t
  if again then onset 4 h i k pk t else t

/-- A counted window during a test of its direction and branch (spec/05 R149, R150). -/
def testWindow (h i dir : Nat) (d : SecDef) (g : ToneTest) (pk : Int) (s : State) : State :=
  let k := 2 * dir + g.branch
  let w := windowTicks d
  let first := (brOf s h i k).winFrom
  let last := s.tbu.tick - 1
  if g.p0 + 1536 ≤ pk then onset 3 h i k pk s
  else if pk < -12800 then vanish h i dir k pk s
  else if g.start < first ∧ (first - g.start - 1) / (2 * w) = g.half ∧ (last - g.start - 1) / (2 * w) = g.half then
    modDir h i dir (fun y => { y with test := some { g with acc := g.acc + pk, accN := g.accN + 1 } }) s
  else s

/-- The end of a detector window is captured: the spectrum of the last 64 valid samples is a counted window when as many are new, and
otherwise the previous spectrum is carried forward; masks age with counted windows (spec/05 R146, R151). -/
def captureSpectrum (h i k : Nat) (s : State) : State :=
  modBr h i k (fun y =>
    if y.fresh < 64 then { y with fresh := 0, winTick := s.tbu.tick }
    else
      let sp := spectrumOf y.buf
      let age (m : Mask) : Mask := { m with quiet := if binAt sp m.bin < -12800 then min 480 (m.quiet + 1) else 0 }
      { y with masks := (y.masks.map age).filter (·.quiet < 480), spectra := (sp :: y.spectra).take 5, fresh := 0
               winFrom := y.winTick, winTick := s.tbu.tick, due := true }) s

/-- A captured counted window of a branch in phase 2: a running test of its direction takes it, otherwise the strongest growing line
starts a test; during a down-ramp none starts (spec/05 R147, R148). -/
def judgeWindow (d : SecDef) (h i k : Nat) (s : State) : State :=
  let x := secAt s h i
  let b := brOf s h i k
  let t := modBr h i k (fun y => { y with due := false }) s
  if !b.due || !transmits x.state then t
  else
    let sp := b.spectra.headD []
    match (dirOf t h i (k / 2)).test with
    | some g => if g.branch = k % 2 then testWindow h i (k / 2) d g (binAt sp g.bin) t else t
    | none =>
      let hits := (List.range 64).filter (growing b)
      let top := maxLog (hits.map (binAt sp))
      match hits.find? fun j => binAt sp j == top with
      | some j => if x.downRamp.isSome then t else startTest false h i (k / 2) (k % 2) j top t
      | none => t

/-- The detector window of a direction and RX branch, from tick `first` to tick `last`, ends with the running tick; the next tick
captures its spectrum (spec/02 R43; spec/05 R146 to R148). -/
def lineDue (h i d b first last : Nat) (s : State) : State :=
  let x := secAt s h i
  match x.defn with
  | none => s
  | some e =>
    if present s h && transmits x.state && decide (d < 2) && decide (b < 2) && maskHas e.branchMask b
        && (brOf s h i (2 * d + b)).winTick == first && last == s.tbu.tick && decide (first + windowTicks e ≤ last + 1)
        && !s.arrivals.contains (.spectrum h i (2 * d + b)) then
      arrive (.spectrum h i (2 * d + b)) s
    else s

/-- LINE_DETECT: the end of the window from tick `first` to tick `last` (spec/05 R146 to R148; log entry 116, DESIGN CHOICE for a row
that names another window). -/
def execLineDetect (h i d b first last : Nat) (s : State) : Out := .next (lineDue h i d b first last s)

/-- STRANGER_MASK_EXPIRY: 480 counted windows below −50 dBFS (spec/05 R151). -/
def execStrangerMaskExpiry (h i d b bin : Nat) (s : State) : Out :=
  .next (if present s h then
    modBr h i (2 * d + b) (fun y => { y with masks := y.masks.filter fun m => !(m.bin == bin && decide (480 ≤ m.quiet)) }) s else s)

/-- A STRANGER result: bins masked, the stranger passed to AIR, and the test ended (spec/05 R149, R151, R160). -/
def stranger (h i dir : Nat) (d : SecDef) (g : ToneTest) (pk dd : Int) (s : State) : State :=
  let k := 2 * dir + g.branch
  let off := roundDiv (((g.bin : Int) - 32) * rateOf d) (640 * 2 ^ 48)
  let m : Mask := { bin := g.bin, level := pk }
  let t := modBr h i k (fun y => { y with masks := (y.masks ++ [m]).drop (y.masks.length + 1 - 4) }) (clearTest h i dir s)
  let t := modDmp h i (fun y => { y with strangers := incSat 8 y.strangers }) t
  let t := emitVf 3 h i 0x0411 ([globalOf h i, k, g.bin] ++ bytesOf 2 dd ++ bytesOf 2 pk ++ bytesOf 4 off) t
  reportStranger h i k true ((centreOf d dir : Int) + off).toNat (rateOf d / (640 * 2 ^ 48)) (satLog (pk - (secAt s h i).rxg.getD k 0)) t

/-- Six times twice D of R149 from M_0 to M_7. -/
def swing (ms : List Int) : Int :=
  ((List.range 6).map fun j =>
    let t := 2 * ms.getD (j + 1) 0 - ms.getD j 0 - ms.getD (j + 2) 0
    if j % 2 = 0 then -t else t).foldl (· + ·) 0

/-- M_7 is complete: the test concludes (spec/05 R149). -/
def concludeTest (h i dir : Nat) (d : SecDef) (g : ToneTest) (ms : List Int) (s : State) : State :=
  let k := 2 * dir + g.branch
  let pk := binAt ((brOf s h i k).spectra.headD []) g.bin
  let v := swing ms
  if 64 * 65536 * 12 ≤ v then onset 2 h i k pk s
  else if 5 * v < 128 * 65536 * 12 then stranger h i dir d g pk (satLog (roundDiv v (12 * 65536))) s
  else if g.second then onset 2 h i k pk s
  else startTest true h i dir g.branch g.bin pk s

/-- The end of a half period of a tone test: M_h is recorded, and the dither of R149 reverses. The mean of a half period without a
counted window is a free value (log entry 6, DESIGN CHOICE). -/
def endHalf (h i d : Nat) (s : State) : State :=
  match (secAt s h i).defn, (dirOf s h i d).test with
  | some e, some g =>
    if !(transmits (secAt s h i).state && decide (g.start + 1 + (g.half + 1) * (2 * windowTicks e) ≤ s.tbu.tick)) then s
    else
      let f := takeFree s
      let m : Int := if g.accN = 0 then signedOf 16 (f.1.toNat % 65536) * 65536 else roundDiv (g.acc * 65536) g.accN
      let t := if g.accN = 0 then f.2 else s
      let ms := g.means ++ [m]
      if 8 ≤ ms.length then concludeTest h i d e g ms t
      else modDir h i d (fun y => { y with test := some { g with half := g.half + 1, means := ms, acc := 0, accN := 0 } }) t
  | _, _ => s

/-- TONE_TEST_HALF_PERIOD (spec/05 R149). -/
def execToneTestHalfPeriod (h i d : Nat) (s : State) : Out :=
  .next (if present s h && decide (d < 2) then endHalf h i d s else s)

/-- A tick of DMP for a direction of a section that transmits in it: the estimates, the escalation of a running test by a saturation
of e_B, the captured windows and the half period of a test, and the ceiling (spec/05 R141 to R150). -/
def dirTick (d : SecDef) (h i dir : Nat) (s : State) : State :=
  let vs := (dirIdx d dir).map fun k => (k, branchCeil s h i k)
  let t := estimateDir vs h i dir s
  let t := match (dirOf t h i dir).test with
    | some g => if (secAt t h i).bdc.satNow.getD dir false then onset 3 h i (2 * dir + g.branch) logMin t else t
    | none => t
  stageCeil vs h i dir (endHalf h i dir (each (dirIdx d dir) (judgeWindow d h i) t))

/-- A tick of DMP for a section: outside the transmitting states only the group term bounds the ceiling. A down-ramp ends a test
(spec/05 R141, R142, R148). -/
def dmpTick (h i : Nat) (s : State) : State :=
  let x := secAt s h i
  match x.defn with
  | none => s
  | some d =>
    if !transmitsNow x then
      modDmp h i (fun y => { y with
        dir := y.dir.map fun z => { z with ceil := z.grp, test := none, cTest := logMax }, br := y.br.map fun z => { z with due := false } }) s
    else each [0, 1] (dirTick d h i) (if x.downRamp.isSome then modDmp h i dropTests s else s)

/-- Dither of the applied gain in the tick that opens next, in LogQ below min(R24 value, C_TEST): 0.5 dB in odd half
periods (spec/05 R149). -/
def ditherOf (s : State) (h i k : Nat) : Int :=
  match (secAt s h i).defn, (dirOf s h i (k / 2)).test with
  | some d, some g =>
    let n := (s.tbu.tick - g.start) / (2 * windowTicks d)
    if n < 8 ∧ n % 2 = 1 then 128 else 0
  | _, _ => 0

/-! ### Definitions, resets and commands -/

/-- Changes C_GRP of a section, with its event (spec/05 R152, R160). -/
def setGroupCeil (h i : Nat) (dl ul : Int) (s : State) : State :=
  if (dirOf s h i 0).grp = dl ∧ (dirOf s h i 1).grp = ul then s
  else emit h 0x0414 ([globalOf h i] ++ bytesOf 2 dl ++ bytesOf 2 ul)
    (modDir h i 1 (fun y => { y with grp := ul }) (modDir h i 0 (fun y => { y with grp := dl }) s))

/-- C_GRP as a definition leaves it (spec/05 R152). -/
def resetGroupCeil (group : Bool) (h i : Nat) (s : State) : State :=
  let v := if group then logMin else logMax
  setGroupCeil h i v v s

/-- DMP of a section after SECTION_DEFINE or SECTION_DELETE: masks end; the defaults of R143 on the first definition of a
COLD section and on deletion; `group` is the new C_GRP reset, if any (spec/05 R143, R151, R152). -/
def redefineDmp (fresh : Bool) (group : Option Bool) (h i : Nat) (s : State) : State :=
  let t := modDmp h i (fun x =>
    let y : Dmp := { x with br := [{}, {}, {}, {}], dir := x.dir.map fun z => { z with test := none, cTest := logMax, vanished := none, onsetTick := none } }
    if fresh then { y with backoff := 3, dir := y.dir.map fun z => { z with margin := 3840, isoCfg := 0 } } else y) s
  match group with
  | some g => resetGroupCeil g h i t
  | none => t

/-- BLOCK_RESET of DMP: every branch has no measurement until its paths publish again (spec/05 R159). -/
def resetDamper (h : Nat) (s : State) : State :=
  let t := each (List.range 64) (fun p => modPath h p fun x => { x with published := false }) s
  each (List.range 8) (fun i => modDmp h i fun x => { x with
    dir := x.dir.map fun z => { z with test := none, cTest := logMax, vanished := none, lg := logMin }
    br := x.br.map fun _ => { noMeas := true } }) t

/-- Handling of DMP_CONFIG (spec/05 R153). -/
def dmpConfig (p : Packet) (s : State) : Done :=
  let w (k : Nat) : Word := wordAt p.payload k
  let backoff := fld (w 2) 0 4
  let marginOk (lo : Nat) : Bool := decide (0x600 ≤ fld (w 0) lo 16) && decide (fld (w 0) lo 16 ≤ 0x2800)
  let isoOk (lo : Nat) : Bool := decide (fld (w 1) lo 16 ≤ 0x7800)
  check (groupRule p s) .notPermitted s <|
  check ((secAt s p.hearth p.sect).state != .cold) .state s <|
  check (marginOk 0 && marginOk 16 && isoOk 0 && isoOk 16 && decide (1 ≤ backoff) && decide (backoff ≤ 12) && zeroAt (w 2) 4 28) .badParam s <|
  let set (lo : Nat) (y : DmpDir) : DmpDir := { y with margin := fld (w 0) lo 16, isoCfg := fld (w 1) lo 16 }
  .reply .ok [] (modDir p.hearth p.sect 1 (set 16) (modDir p.hearth p.sect 0 (set 0)
    (modDmp p.hearth p.sect (fun x => { x with backoff := backoff }) s)))

/-- DMP_CONFIG (spec/05 R153). -/
def execDmpConfig (p : Packet) (s : State) : Out := .next (runCommand infoDmpConfig dmpConfig p s)

/-- The 7 registers of a section's DMP group (spec/05 R158). -/
def dmpWords (s : State) (h i : Nat) : List Word :=
  let x := (secAt s h i).dmp
  let two (f : DmpDir → Int) : Word := wordOf [(0, 16, f (x.dir.getD 0 {})), (16, 16, f (x.dir.getD 1 {}))]
  let masks := (x.br.map (·.masks.length)).foldl (· + ·) 0
  [two (·.margin), two (·.isoCfg), two (·.ceil), two (·.grp), two (·.lg),
   wordOf [(0, 4, flags4 (x.br.map (·.noMeas))), (4, 4, flags4 (x.br.map (·.frozenUsed))), (8, 4, flags4 (x.br.map (·.isoLow))),
     (12, 1, bit (x.dir.getD 0 {}).test.isSome), (13, 1, bit (x.dir.getD 1 {}).test.isSome), (16, 3, (min 7 masks : Nat)), (20, 3, x.lastOnset),
     (24, 4, x.backoff)],
   wordOf [(0, 8, x.onsets), (8, 8, x.strangers), (16, 16, x.tests)]]

/-- DMP_QUERY (spec/05 R154). -/
def execDmpQuery (p : Packet) (s : State) : Out := .next (runCommand infoDmpQuery (sectionQuery dmpWords) p s)

/-- Handling of DMP_STRANGER_CLEAR (spec/05 R155). -/
def dmpStrangerClear (p : Packet) (s : State) : Done :=
  check (groupRule p s) .notPermitted s <|
  check ((secAt s p.hearth p.sect).state != .cold) .state s <|
  .reply .ok [] (modDmp p.hearth p.sect (fun x => { x with br := x.br.map fun y => { y with masks := [] } }) s)

/-- DMP_STRANGER_CLEAR (spec/05 R155). -/
def execDmpStrangerClear (p : Packet) (s : State) : Out := .next (runCommand infoDmpStrangerClear dmpStrangerClear p s)

/-- Handling of DMP_GROUP_CEIL (spec/05 R156). -/
def dmpGroupCeil (p : Packet) (s : State) : Done :=
  let w := wordAt p.payload 0
  check ((secAt s p.hearth p.sect).defn.any (·.group)) .badParam s <|
  .reply .ok [] (setGroupCeil p.hearth p.sect (sfld w 0 16) (sfld w 16 16) s)

/-- DMP_GROUP_CEIL (spec/05 R156). -/
def execDmpGroupCeil (p : Packet) (s : State) : Out := .next (runCommand infoDmpGroupCeil dmpGroupCeil p s)

/-- DMP_CNT_CLR (spec/05 R157). -/
def execDmpCntClr (h : Nat) (s : State) : Out :=
  .next (if present s h && writable s then
    each (List.range 8) (fun i => modSec h i fun x => { x with
      dmp := { x.dmp with onsets := 0, strangers := 0, tests := 0 }, dmpShown := x.dmpShown.set 6 0 }) s else s)

end Sys2Proof.Machine
end

