-- ==== Sys2Proof/Machine/Sequences.lean ====
section
/-! DEFINITION. Machine/Sequences.lean: the sequences of the front-end sequencer: entries, costs, limits and what they
drive (spec/08 R253 to R261). -/

namespace Sys2Proof.Machine

/-- A sequence entry (spec/08 R257). -/
abbrev SeqEntry := Word × Word

/-- Changes the front-end sequencer of a hearth. -/
def modFes (h : Nat) (f : Fes → Fes) (s : State) : State := modHearth h (fun x => { x with fes := f x.fes }) s

/-- OP of an entry. -/
def opOf (e : SeqEntry) : Nat := fld e.1 0 4

/-- BND of an entry. -/
def bndOf (e : SeqEntry) : Bool := bitOf e.1 4

/-- RFFE byte count of an entry. -/
def bytesIn (e : SeqEntry) : Nat := fld e.1 7 2 + 1

/-- An entry's fields are in range (spec/08 R257). -/
def entryOk (e : SeqEntry) : Bool :=
  let op := opOf e
  let adr := fld e.1 16 16
  decide (op < 8) && zeroAt e.1 15 1
    && (!(op == 1 || op == 7) || fld e.1 9 4 != 0)
    && (!(op == 2 || op == 6) || decide (fld e.1 5 2 < 2))
    && (op != 2 || (decide (8 ≤ fld e.1 16 6) && decide (fld e.1 16 6 ≤ 32)))
    && (op != 4 || adr != 0) && (op != 7 || decide (adr ≤ 0xFF))

/-- Cost of an operation in DSP clocks (spec/08 R258). -/
def opCost (rffe spi : List Nat) (e : SeqEntry) : Nat :=
  let n := bytesIn e
  let adr := fld e.1 16 16
  let r := 2 * rffe.getD (fld e.1 5 2) 38
  match opOf e with
  | 1 => if adr ≤ 0x1F ∧ n = 1 then 25 * r else if adr ≤ 0xFF then (25 + 9 * n) * r else (34 + 9 * n) * r
  | 2 => (fld e.1 16 6 + 4) * (2 * spi.getD (fld e.1 5 2) 20)
  | 3 => 1
  | 4 => adr
  | 5 => 25 * r
  | 6 => 1
  | _ => 0

/-- An entry of the sequence memory; one not written reads 0, END. -/
def entryAt (m : KMap (BitVec 32 × BitVec 32)) (k : Nat) : SeqEntry := kgetD m k (0, 0)

/-- The operations of a sequence from an entry up to END, and the entry of its END, if it lies before entry 1,023. -/
def sequenceFrom (m : KMap (BitVec 32 × BitVec 32)) : Nat → Nat → List SeqEntry × Option Nat
  | 0, _ => ([], none)
  | fuel + 1, k =>
    if 1023 ≤ k then ([], none)
    else
      let e := entryAt m k
      if opOf e = 0 then ([], some k)
      else
        let r := sequenceFrom m fuel (k + 1)
        (e :: r.1, r.2)

/-- The sequence mapped to an event. -/
def mapped (f : Fes) (event : Nat) : Option (List SeqEntry) :=
  (kget f.map event).map fun k => (sequenceFrom f.seqs 1024 k).1

/-- A mapped sequence has an END and holds only what R257 allows for its event. -/
def sequenceOk (f : Fes) (event start : Nat) : Bool :=
  let r := sequenceFrom f.seqs 1024 start
  r.2.isSome && r.1.all fun e => entryOk e && opOf e != 7 && (decide (event ≤ 4) || !bndOf e)

/-- Limits of a STEP sequence (spec/08 R258). -/
def stepLimits (f : Fes) (rffe spi : List Nat) (event : Nat) : Bool :=
  match mapped f event with
  | none => true
  | some es =>
    let cost (b : Bool) : Nat := ((es.filter fun e => bndOf e == b).map (opCost rffe spi)).foldl (· + ·) 0
    decide (cost false ≤ 2048) && decide (cost true ≤ 1024) && es.all fun e => !(opOf e == 3 || opOf e == 6) || bndOf e

/-- Every mapped STEP sequence meets its limits. -/
def limitsOk (f : Fes) (rffe spi : List Nat) : Bool := [1, 2, 3, 4].all (stepLimits f rffe spi)

/-- DATA of an entry with the event's value substituted (spec/08 R257). -/
def substData (value : Nat) (e : SeqEntry) : Nat :=
  let d := e.2.toNat
  match fld e.1 13 2 with
  | 1 => d / 256 * 256 + value % 256
  | 2 => d / 256 * 256 + value / 256 % 256
  | 3 => d / 65536 * 65536 + value % 65536
  | _ => d

/-- A GPIO operation drives the masked SEQ_OUT pins at a DSP clock (spec/08 R253, R257). -/
def driveGpio (value clk : Nat) (e : SeqEntry) (f : Fes) : Fes :=
  if opOf e = 3 then
    let mask := fld e.1 16 16
    let lv := substData value e
    { f with gpio := f.gpio.zipIdx.map fun g =>
        if maskHas mask g.2 then { g.1 with drivenOld := g.1.driven, driven := some (maskHas lv g.2), drivenAt := clk } else g.1 }
  else f

/-- The external bus of an operation: 0 to 3 RFFE0 to RFFE3, 4 and 5 SPI0 and SPI1 (spec/08 R255, R257). -/
def opBus (e : SeqEntry) : Option Nat :=
  let b := fld e.1 5 2
  if opOf e = 1 ∨ opOf e = 5 ∨ opOf e = 7 then some b else if opOf e = 2 ∨ opOf e = 6 then some (4 + b % 2) else none

/-- DSP clocks that an RFFE read may take: its command frame, then 64 SCLK periods for the data frames (spec/08 R261; log entry 112,
DESIGN CHOICE). -/
def readClocks (rffe : List Nat) (e : SeqEntry) : Nat := Config.readCommand e.1 + 64 * (2 * rffe.getD (fld e.1 5 2) 38)

/-- DSP clocks for which an operation occupies its sequence (spec/08 R258, R261). -/
def opClocks (f : Fes) (e : SeqEntry) : Nat := if opOf e = 7 then readClocks f.rffeDiv e else opCost f.rffeDiv f.spiDiv e

/-- Issues an operation at a DSP clock: what it drives, the pulse of a LATCH, what goes out on the bus that it occupies, and until when
(spec/08 R253, R255, R257, R258). -/
def issueOp (value clk : Nat) (e : SeqEntry) (f : Fes) : Fes :=
  let g := driveGpio value clk e f
  let g := match opBus e with
    | some b => { g with
        busFree := g.busFree.set b (clk + opClocks f e), busOut := g.busOut ++ [(b, clk, e.1, BitVec.ofNat 32 (substData value e))] }
    | none => g
  if opOf e = 6 then { g with latchAt := g.latchAt.set (fld e.1 5 2) (some clk) } else g

/-- First DSP clock from `free` on at which an operation may be issued: its bus is free, and no STEP sequence keeps it off; `block`
gives the clock up to which one does (spec/08 R258). -/
def opStart (f : Fes) (block : Nat → Nat) (free : Nat) (e : SeqEntry) : Nat :=
  match opBus e with
  | some b => max free (max (f.busFree.getD b 0) (block b))
  | none => free

/-- Issues operations one after another from a DSP clock; the clock at which the last of them ends (spec/08 R258). -/
def issueAll (value : Nat) (es : List SeqEntry) (free : Nat) (f : Fes) : Nat × Fes :=
  es.foldl (fun a e => let c := opStart a.2 (fun _ => 0) a.1 e; (c + opClocks a.2 e, issueOp value c e a.2)) (free, f)

/-- Issues the operations of an ACT sequence that may start before a DSP clock (spec/08 R258, R260). -/
def issueUntil (block : Nat → Nat) (value stop : Nat) : List SeqEntry → Nat → Fes → SeqRun × Fes
  | [], free, f => ({ ops := [], value := value, free := free }, f)
  | e :: es, free, f =>
    let c := opStart f block free e
    if stop ≤ c then ({ ops := e :: es, value := value, free := free }, f)
    else issueUntil block value stop es (c + opClocks f e) (issueOp value c e f)

/-- STEP_SEQ of a port: the BND operations of its STEP sequence run, or the sequence is pending with a step change (spec/08 R256, R258,
R273). -/
def stepRuns (s : State) (h c : Nat) : Bool :=
  let f := (hearthAt s h).fes
  f.stepSeq.getD c 0 != 0 || ((portAt s h c).change.isSome && (mapped f (1 + c)).isSome)

/-- Whether any sequence of a hearth runs or is pending. -/
def sequencesRun (s : State) (h : Nat) : Bool := (List.range 4).any (stepRuns s h) || !(hearthAt s h).fes.actRun.isEmpty

/-- Whether the sequence of an event runs or is pending. -/
def eventRuns (s : State) (h event : Nat) : Bool :=
  if event ≤ 4 then stepRuns s h (event - 1) else (kget (hearthAt s h).fes.actRun (event - 5)).isSome

/-- A port's step change is to be offered at the coming boundary: its tick was staged before the running one (spec/08 R252). -/
def changeRipe (s : State) (h c : Nat) : Bool := (portAt s h c).change.any fun x => decide (x.tick < s.tbu.tick)

/-- DSP clock up to which STEP sequences keep other operations off a bus: through the tick before a commit, and during their BND
operations (spec/08 R258). -/
def stepBlock (s : State) (h b : Nat) : Nat :=
  let f := (hearthAt s h).fes
  ((List.range 4).map fun c =>
    if ((mapped f (1 + c)).getD []).any fun e => opBus e == some b then
      (if changeRipe s h c then s.tbu.clock + s.tbu.tickLen else if f.stepSeq.getD c 0 = 2 then f.bndEnd.getD c 0 else 0)
    else 0).foldl max 0

/-- An ACT sequence runs through the running tick (spec/08 R258, R260). -/
def runAct (h ch : Nat) (s : State) : State :=
  match kget (hearthAt s h).fes.actRun ch with
  | some r =>
    let q := issueUntil (stepBlock s h) r.value (s.tbu.clock + s.tbu.tickLen) r.ops r.free (hearthAt s h).fes
    modFes h (fun _ => { q.2 with actRun := kset q.2.actRun ch q.1 }) s
  | none => s

/-- EXT_ATT and PA_BIAS of a step as the value of its STEP event (spec/08 R256). -/
def stepValue (x : Port) (step : Nat) : Nat := ((kget x.table step).map fun e => fld e.1 16 16).getD 0

/-- The value of an FES channel changes: its sequence starts at the boundary at which it takes effect, or waits as the newest value
while one runs (spec/08 R256, R260). -/
def setActuator (h ch value : Nat) (s : State) : State :=
  let f := (hearthAt s h).fes
  if kgetD f.actVal ch 0 = value then s
  else
    let t := modFes h (fun g => { g with actVal := kset g.actVal ch value }) s
    match mapped f (5 + ch) with
    | none => t
    | some es =>
      if (kget f.actRun ch).isSome then
        modFes h (fun g => { g with
          actDrop := if (kget g.actNext ch).isSome then incSat 16 g.actDrop else g.actDrop, actNext := kset g.actNext ch value }) t
      else modFes h (fun g => { g with actRun := kset g.actRun ch { ops := es, value := value, free := s.tbu.clock + s.tbu.tickLen } }) t

/-- An ACT sequence has ended in the running tick or before it (spec/08 R258, R260). -/
def actDone (s : State) (h ch : Nat) : Bool :=
  (kget (hearthAt s h).fes.actRun ch).any fun r => r.ops.isEmpty && decide (r.free ≤ s.tbu.clock + s.tbu.tickLen)

/-- ACT_SEQUENCE_END: the newest waiting value's sequence starts (spec/08 R260). -/
def actEnded (h ch : Nat) (s : State) : State :=
  let f := (hearthAt s h).fes
  match kget f.actRun ch with
  | none => s
  | some r =>
    match kget f.actNext ch, mapped f (5 + ch) with
    | some v, some es =>
      runAct h ch (modFes h (fun g => { g with actNext := kerase g.actNext ch, actRun := kset g.actRun ch { ops := es, value := v, free := r.free } }) s)
    | _, _ => modFes h (fun g => { g with actNext := kerase g.actNext ch, actRun := kerase g.actRun ch }) s

/-- The running FES_BUS_ACCESS operation is issued once its bus is free and no STEP sequence keeps it off (spec/08 R258, R268). -/
def runAccess (h : Nat) (s : State) : State :=
  let f := (hearthAt s h).fes
  match f.bus, f.busEnd with
  | some e, none =>
    let c := opStart f (stepBlock s h) s.tbu.clock e
    if c < s.tbu.clock + s.tbu.tickLen then modFes h (fun g => { issueOp 0 c e g with busEnd := some (c + opClocks f e) }) s else s
  | _, _ => s

/-- Level that a pin function gives at a DSP clock of the running tick before POL, or none for an input (spec/08 R253, R254). -/
def pinLevel (s : State) (h n clk : Nat) : Option Bool :=
  let f := (hearthAt s h).fes
  let g := f.gpio.getD n {}
  let on (i : Nat) : Bool :=
    let x := secAt s h i
    usesIdx x g.idx && transmits x.state && x.defn.any fun d =>
      !d.tdd || tddLineAt s h { g with func := 2 + g.idx / 2, pattern := d.pattern } clk
  match g.func with
  | 0 => none
  | 1 => some ((if g.drivenAt ≤ clk then g.driven else g.drivenOld).getD g.init)
  | 2 | 3 => some (tddOut s h n clk)
  | 4 => some ((List.range 8).any on)
  | 5 => some ((hearthAt s h).rfc.orxTo.getD g.idx 0 == 1)
  | _ => some ((f.latchAt.getD g.idx none).any fun c => decide (c ≤ clk) && decide (clk < c + 64))

/-- Level of an output pin at a DSP clock of the running tick, none for an input: POL inverts every output (spec/08 R253). -/
def pinOut (s : State) (h n clk : Nat) : Option Bool := (pinLevel s h n clk).map (· != ((hearthAt s h).fes.gpio.getD n {}).pol)

end Sys2Proof.Machine
end

