-- ==== Sys2Proof/Machine/Commit.lean ====
section
/-! DEFINITION. Machine/Commit.lean: the joint commit of calibration deltas and port step changes with the canceller
(spec/01 R27; spec/04 R122 to R124; spec/08 R245, R249, R252; spec/09 R282 to R289). A change is numbered 0 to 9 for the
delta of a chain (R277) and 16 to 19 for a TX port. -/

namespace Sys2Proof.Machine

/-! ### Port step changes -/

/-- One commit moves a step by at most 24 (spec/08 R245). -/
def stepTowards (cur target : Nat) : Nat := if cur ≤ target then min target (cur + 24) else max target (cur - 24)

/-- The step and TRIM that a port takes at its next commit, from what was staged before the running tick and has issued its
pre-boundary operations (spec/08 R249, R252, R274). -/
def portNext (s : State) (h c : Nat) : Nat × Int :=
  let x := portAt s h c
  let st := match x.change with
    | some ch =>
      if ch.tick < s.tbu.tick ∧ ch.issued.any (fun c => decide (c ≤ s.tbu.clock + s.tbu.tickLen)) = true then stepTowards x.step ch.target else x.step
    | none => x.step
  (st, if x.trimDue then x.trimWant else x.trim)

/-- A port offers a change. -/
def portOffers (s : State) (h c : Nat) : Bool :=
  let n := portNext s h c
  n.1 != (portAt s h c).step || n.2 != (portAt s h c).trim

/-- g of a port step change (spec/08 R245). -/
def portGain (s : State) (h c : Nat) : Int :=
  let x := portAt s h c
  let n := portNext s h c
  fsAt x n.1 - fsAt x x.step + (n.2 - x.trim)

/-- A change of a port that is staged behind the running chunk, or takes its place while nothing of it has been issued
(spec/08 R245, R252). -/
def mergeStep (now step target cause : Nat) (old : Option StepChange) : Option StepChange :=
  match old with
  | some ch =>
    if ch.tick < now then some { ch with target := stepTowards step ch.target, next := some (target, cause) }
    else if step = target then none else some { ch with target := target, cause := cause, next := none }
  | none => if step = target then none else some { target := target, cause := cause, tick := now }

/-- Stages a step change; a port that is there already has none (spec/08 R252). -/
def stageStep (h c target cause : Nat) (s : State) : State :=
  let x := portAt s h c
  modPort h c (fun y => { y with change := mergeStep s.tbu.tick x.step target cause x.change }) s

/-- Issues the pre-boundary operations of a port's step change in the tick before its first offer, once: the operations of its STEP
sequence without BND, with the value of the new step (spec/08 R252, R256, R258). -/
def issueStep (h c : Nat) (s : State) : State :=
  let x := portAt s h c
  match x.change with
  | some ch =>
    if changeRipe s h c && ch.issued.isNone then
      let f := (hearthAt s h).fes
      let q := issueAll (stepValue x (stepTowards x.step ch.target)) (((mapped f (1 + c)).getD []).filter (!bndOf ·)) s.tbu.clock f
      modPort h c (fun y => { y with change := some { ch with issued := some q.1 } }) (modFes h (fun _ => q.2) s)
    else s
  | none => s

/-- The external buses of a hearth in the tick that has opened: STEP sequences first, then ACT sequences and FES_BUS_ACCESS
(spec/08 R252, R258, R260, R268). -/
def fesTick (h : Nat) (s : State) : State :=
  let t := each (List.range 4) (issueStep h) (modFes h (fun f => { f with busOut := f.busOut.filter fun e => decide (s.tbu.clock ≤ e.2.1) }) s)
  runAccess h (each ((hearthAt t h).fes.actRun.map (·.1)) (runAct h) t)

/-- SEQ_OVERRUN: pre-boundary operations are unfinished at the boundary that closes the running tick (spec/08 R274). -/
def stepOverruns (s : State) (h : Nat) : Bool :=
  (List.range 4).any fun c => changeRipe s h c
    && (portAt s h c).change.any fun x => x.issued.any fun e => decide (s.tbu.clock + s.tbu.tickLen < e)

/-- What is left of a step change once a commit has taken the port to a step: the next change is staged in the tick that the
commit opens (spec/08 R245; log entry 69, DEDUCED). -/
def changeLeft (now step : Nat) (moved : Bool) (ch : StepChange) : Option StepChange :=
  if ch.target = step then
    match ch.next with
    | some n => if n.1 = step then none else some { target := n.1, cause := n.2, tick := now + 1 }
    | none => none
  else some (if moved then { ch with tick := now + 1, issued := none } else ch)

/-! ### Deltas -/

/-- The part of a change that one delta carries (spec/09 R282). -/
def deltaPart (x : Delta) : Delta :=
  let p : Delta := { x with gain := clampInt (-64) 64 x.gain, phase := clampInt (-364) 364 x.phase, delay := clampInt (-257) 257 x.delay }
  { p with part := p.gain != x.gain || p.phase != x.phase || p.delay != x.delay }

/-- What a delta leaves for later deltas, if anything. -/
def deltaRest (x : Delta) : Option Delta :=
  let p := deltaPart x
  let r : Delta := { x with gain := x.gain - p.gain, phase := x.phase - p.phase, delay := x.delay - p.delay }
  if r.gain = 0 ∧ r.phase = 0 ∧ r.delay = 0 then none else some r

/-- Changes of one chain combine by adding gains, phases and delays (spec/09 R282). -/
def addDelta (a b : Delta) : Delta :=
  { a with items := a.items ||| b.items, runs := a.runs ||| b.runs, gain := a.gain + b.gain, phase := a.phase + b.phase, delay := a.delay + b.delay, corr := b.corr }

/-- LCAL stages a change of a chain: a delta that is already staged in this tick combines with it, one that is offered waits
first (spec/09 R282, R285). -/
def stageDelta (h n : Nat) (x : Delta) (s : State) : State :=
  modLcal h n (fun c =>
    match c.delta with
    | none =>
      let all := match c.rest with | some r => addDelta r x | none => x
      { c with delta := some { deltaPart all with tick := s.tbu.tick }, rest := deltaRest all }
    | some d =>
      if d.tick = s.tbu.tick then
        let all := addDelta (match c.rest with | some r => addDelta d r | none => d) x
        { c with delta := some { deltaPart all with tick := d.tick }, rest := deltaRest all }
      else { c with rest := some (match c.rest with | some r => addDelta r x | none => x) }) s

/-! ### Commit units -/

/-- Whether a change affects a path (spec/04 R122). -/
def changeTurns (x : Path) (p id : Nat) : Bool :=
  if id < 4 then pathRx p == id
  else if id < 8 then !x.orx && pathTx p + 4 == id
  else if id < 10 then x.orx && p % 4 / 2 + 8 == id
  else !x.orx && pathTx p + 16 == id

/-- The affected enabled paths of a change. -/
def affected (s : State) (h id : Nat) : List Nat := (enabledPaths s h).filter fun p => changeTurns (pathAt s h p) p id

/-- The response change of a change (spec/04 R122). -/
def changeRot (s : State) (h id : Nat) : Rot :=
  if id < 10 then
    match (lcalAt s h id).delta with
    | some d => { gain := d.gain, phase := d.phase, delay := d.delay }
    | none => {}
  else { gain := portGain s h (id - 16) }

/-- LO of the chain or port of a change: an RX or TX chain and a TX port have that of their direction and branch, an ORX that of the
TX chain it observes (spec/08 R234, R235). -/
def changeLo (s : State) (h id : Nat) : Nat :=
  let k := if id < 8 then id % 4 else if id < 10 then id - 8 + 2 * (hearthAt s h).rfc.orxTo.getD (id - 8) 0 else id - 16
  (hearthAt s h).rfc.lo.getD k 0

/-- A change of a chain referred to a path's section: φ = θ − 2π · (centre − LO) · τ with the chain's own LO; an ORX chain counts
negative (spec/04 R122). -/
def referred (s : State) (h p id : Nat) : Turn :=
  let r := changeRot s h id
  let f : Int := (centreOf (pathDef s h p) (pathDir p) : Int) - changeLo s h id
  let t : Turn := { gain := r.gain, angle := r.phase * 196608000 - 2 * f * r.delay, delay := r.delay }
  if 8 ≤ id ∧ id < 10 then { gain := -t.gain, angle := -t.angle, delay := -t.delay } else t

/-- The combined change of a path from the changes of a unit (spec/04 R122). -/
def pathChange (s : State) (h : Nat) (unit : List Nat) (p : Nat) : Turn :=
  (unit.filter fun id => changeTurns (pathAt s h p) p id).foldl (fun a id =>
    let r := referred s h p id
    { gain := a.gain + r.gain, angle := a.angle + r.angle, delay := a.delay + r.delay }) {}

/-- Two changes share an affected path. -/
def sharePath (s : State) (h a b : Nat) : Bool := (affected s h a).any fun p => (affected s h b).contains p

/-- A delta is withheld while a port step change that shares a path with it is pending (spec/09 R287). -/
def withheldNow (s : State) (h n : Nat) : Bool :=
  (lcalAt s h n).delta.any (·.withheld) && [16, 17, 18, 19].any fun id => portOffers s h (id - 16) && sharePath s h n id

/-- Deltas staged before the running tick. -/
def ripeDeltas (s : State) (h : Nat) : List Nat :=
  (List.range 10).filter fun n => (lcalAt s h n).delta.any fun d => decide (d.tick < s.tbu.tick)

/-- The changes offered for the next boundary (spec/09 R285, R287). -/
def offeredChanges (s : State) (h : Nat) : List Nat :=
  (ripeDeltas s h).filter (fun n => !withheldNow s h n) ++ [16, 17, 18, 19].filter fun id => portOffers s h (id - 16)

/-- Adds a change to commit units: units whose paths overlap it join (spec/09 R286). -/
def joinUnits (s : State) (h : Nat) (units : List (List Nat)) (id : Nat) : List (List Nat) :=
  let near (u : List Nat) : Bool := u.any fun j => sharePath s h id j
  (units.filter fun u => !near u) ++ [(units.filter near).flatten ++ [id]]

/-- What BDC decides on a commit unit: none absorbs it, otherwise the first path that declines and its reason. -/
structure Decision where
  unit : List Nat := []
  decline : Option (Nat × Nat) := none
  deriving DecidableEq, Repr

/-- The decisions of a hearth for the next boundary: a declined unit names its first affected path and the first of the reasons
that its paths give, in the order of R124 (spec/04 R124, R140; spec/09 R286). -/
def decisions (s : State) (h : Nat) : List Decision :=
  ((offeredChanges s h).foldl (joinUnits s h) []).map fun u =>
    let paths := (enabledPaths s h).filter fun p => u.any fun id => changeTurns (pathAt s h p) p id
    let reasons := (paths.map fun p => declineReason s h p (pathChange s h u p)).filter (· != 0)
    { unit := u, decline := reasons.min?.map fun r => (paths.headD 0, r) }

/-- Paths that rotate at the next boundary: their tick performs no update. A change of nothing stages no rotation
(spec/04 R123, spec/09 R283). -/
def rotatingPaths (s : State) (h : Nat) (ds : List Decision) : List Nat :=
  (enabledPaths s h).filter fun p => ds.any fun d =>
    d.decline.isNone && d.unit.any (fun id => changeTurns (pathAt s h p) p id) && !noTurn (pathChange s h d.unit p)

/-! ### Outcomes -/

/-- LCAL_CH_DGAIN, LCAL_CH_DDELAY and LCAL_CH_QUAL (spec/09 R296). -/
def deltaWords (x : LcalCh) : List Word := [wordOf [(0, 16, x.dGain), (16, 16, x.dPhase)], wordOf [(0, 32, x.dDelay)]]

/-- LCAL_CH_QUAL (spec/09 R296). -/
def qualWord (x : LcalCh) : Word := wordOf [(0, 16, x.image), (16, 16, x.leak)]

/-- A delta applies on its chain: the new correction, the accumulated values, and the commands that waited for it. Of a part of a larger
change the spec states no correction values (spec/09 R284, R292, R298; log entry 32, DESIGN CHOICE). -/
def commitDelta (h n : Nat) (s : State) : State :=
  match (lcalAt s h n).delta with
  | none => s
  | some d =>
    let more := (lcalAt s h n).rest
    let t := modLcal h n (fun c => { c with
      dGain := d.gain, dPhase := d.phase, dDelay := d.delay, accGain := satLog (c.accGain + d.gain)
      accPhase := signedOf 16 (patternOf 16 (c.accPhase + d.phase)), accDelay := clampInt (-2147483648) 2147483647 (c.accDelay + d.delay)
      commits := incSat 16 c.commits, age := 0
      corr := if d.part then Config.partCorrection c.corr d.corr d.gain d.phase d.delay else d.corr
      delta := more.map fun r => { deltaPart r with tick := s.tbu.tick, offers := 0, withheld := false }
      rest := more.bind deltaRest }) s
    let t := emit h 0x0810 ([n] ++ bytesOf 2 d.items ++ bytesOf 2 d.gain ++ bytesOf 2 d.phase ++ bytesOf 4 d.delay) t
    let c := lcalAt t h n
    each ((maskBits 9 d.runs).filter fun item => !maskHas (runsStaged c) item) (fun item =>
      endHeldFor 0x0802 (runKey h n item) .ok ([BitVec.ofNat 32 d.items] ++ deltaWords c ++ [qualWord c])) t

/-- A port step change applies: step, TRIM, its event and the BND operations of its sequence; SUM_PK counts the ticks from the commit of
a step on (spec/08 R245, R249, R251, R252, R258). -/
def commitPort (h c : Nat) (s : State) : State :=
  let x := portAt s h c
  let n := portNext s h c
  let moved := n.1 != x.step
  let cause := (x.change.map (·.cause)).getD 0
  let t := modPort h c (fun y => { y with
    step := n.1, trim := n.2, trimDue := y.trimDue && n.2 != y.trimWant, trimSince := if n.2 = y.trimWant then none else y.trimSince
    pkNow := if moved then none else y.pkNow, pkFrom := if moved then s.tbu.tick + 1 else y.pkFrom
    change := y.change.bind (changeLeft s.tbu.tick n.1 moved) }) s
  let t := each (List.range 10) (fun k u => if sharePath s h k (16 + c) then
    modLcal h k (fun y => { y with delta := y.delta.map fun d => { d with withheld := false } }) u else u) t
  if moved then
    let t := emit h 0x0712 [c, x.step, n.1, cause] t
    match mapped (hearthAt t h).fes (1 + c) with
    | some es =>
      modFes h (fun f =>
        let q := issueAll (stepValue x n.1) (es.filter bndOf) (s.tbu.clock + s.tbu.tickLen) f
        { q.2 with stepSeq := f.stepSeq.set c 2, bndEnd := f.bndEnd.set c q.1 }) t
    | none => t
  else t

/-- A unit applies: rotations of every path it reaches, enabled or not, then its changes (spec/04 R123, spec/09 R284). A path that is not
enabled takes the change of its TX chain, as with REF 0, and at the centre of a COLD section of 0 Hz (log entry 141, DESIGN CHOICE). -/
def applyUnit (h : Nat) (u : List Nat) (s : State) : State :=
  let rots := (List.range 64).filterMap fun p =>
    if u.any fun id => changeTurns (pathAt s h p) p id then some (p, pathChange s h u p) else none
  each u (fun id => if id < 10 then commitDelta h id else commitPort h (id - 16)) (each rots (fun r => rotatePath h r.1 r.2) s)

/-- A delta that is offered again takes in what its chain's other items have made ready for that boundary (spec/09 R282, R285). -/
def reoffer (c : LcalCh) : LcalCh :=
  match c.delta, c.rest with
  | some d, some r => { c with delta := some (deltaPart (addDelta d r)), rest := deltaRest (addDelta d r) }
  | _, _ => c

/-- A delta does not apply at a boundary (spec/09 R285, R287, R295, R298). -/
def deferDelta (reason : Nat) (hold : Bool) (h n : Nat) (s : State) : State :=
  let t := modLcal h n (fun c => reoffer { c with
    defers := incSat 8 c.defers, delta := c.delta.map fun d => { d with offers := incSat 9 d.offers, withheld := d.withheld || hold } }) s
  let t := modHearth h (fun x => { x with lcal := { x.lcal with lastReason := reason, lastChain := n } }) t
  emit h 0x0811 ([n, reason] ++ bytesOf 2 (((lcalAt t h n).delta.map (·.offers)).getD 0)) t

/-- A unit waits: BDC_DEFER, the event, and its deltas; for reason 1 those that share a path with a port step of the unit are
withheld from the next boundary on (spec/04 R124, spec/09 R287). -/
def deferUnit (h : Nat) (u : List Nat) (p reason : Nat) (s : State) : State :=
  let t := emit h 0x0316 [p, reason] (modBdc h (fun b => { b with deferReason := reason }) s)
  each (u.filter fun id => decide (id < 10)) (fun n =>
    deferDelta reason (reason == 1 && u.any fun id => decide (16 ≤ id) && sharePath s h n id) h n) t

/-- The commits of a hearth at the boundary that closes the running tick (spec/09 R285 to R287). -/
def commitHearth (h : Nat) (ds : List Decision) (s : State) : State :=
  let kept := (ripeDeltas s h).filter (withheldNow s h)
  let t := each ds (fun d u => match d.decline with
    | none => applyUnit h d.unit u
    | some e => deferUnit h d.unit e.1 e.2 u) (each kept (deferDelta 4 true h) s)
  let t := onlyIf (stepOverruns s h) (raiseSource h 78) t
  let late := ds.any fun d => d.decline.isSome && d.unit.any fun id => decide (id < 10)
  let t := onlyIf (late || !kept.isEmpty) (modHearth h fun x => { x with lcal := { x.lcal with deferCount := incSat 24 x.lcal.deferCount } }) t
  onlyIf (ds.any (·.decline.isSome)) (modBdc h fun b => { b with deferCount := incSat 24 b.deferCount }) t

end Sys2Proof.Machine
end

