-- ==== Sys2Proof/Machine/LiveCal.lean ====
section
/-! DEFINITION. Machine/LiveCal.lean: the live calibration engine: estimates, the deltas they stage, and its commands
(spec/09). -/

namespace Sys2Proof.Machine

/-- Changes the live calibration of a hearth. -/
def modLcalH (h : Nat) (f : Lcal → Lcal) (s : State) : State := modHearth h (fun x => { x with lcal := f x.lcal }) s

/-- Chains to which an item applies (spec/09 R276, R277). -/
def itemChains (item : Nat) : Nat :=
  if item < 3 then 0x30F else if item < 6 then 0x0F0 else if item < 8 then 0x3FF else if item = 8 then 0x300 else 0

/-- Windows that an item supports; items 6 and 7 ignore theirs (spec/09 R276, R291). -/
def itemWindows (item : Nat) : Nat := if item = 4 ∨ item = 5 then 4 else if item = 8 then 1 else 7

/-- PERIOD of an item in ticks (spec/09 R276). -/
def itemPeriod (s : State) (h item : Nat) : Nat := 4800 * (hearthAt s h).lcal.period.getD item 1

/-- Direction and branch whose synthesiser gives a chain its LO (spec/08 R234). -/
def chainIdx (s : State) (h n : Nat) : Nat := if n < 8 then n % 4 else n - 8 + 2 * (hearthAt s h).rfc.orxRun.getD (n - 8) 0

/-! ### Windows -/

/-- Samples of an estimate (spec/09 R276). -/
def itemSamples (item : Nat) : Nat := 2 ^ [20, 23, 26, 20, 23, 26, 16, 16, 18].getD item 20

/-- Sections of a hearth that use a chain in the running tick: those of an RX or TX chain's direction and branch, and those whose enabled
paths reference an ORX (spec/09 R278). -/
def chainSections (s : State) (h n : Nat) : List Nat :=
  if n < 8 then (List.range 8).filter fun i => (secAt s h i).defRun.isSome && usesIdx (secAt s h i) (n % 4)
  else (List.range 8).filter fun i => (enabledPaths s h).any fun p => (pathAt s h p).orx && pathOrx p + 8 == n && p / 8 == i

/-- Every transmit gate of a TX chain is closed at a DSP clock of the running tick. -/
def gatesClosed (s : State) (h c clk : Nat) : Bool := (List.range 8).all fun i => !gateAt s h i c clk

/-- The GAP condition of a chain at a DSP clock of the running tick (spec/09 R278). -/
def gapAt (s : State) (h n clk : Nat) : Bool :=
  if 4 ≤ n ∧ n < 8 then gatesClosed s h (n - 4) clk
  else
    (chainSections s h n).all (fun i => !((secAt s h i).defRun.any fun d => validClock s h d (chainIdx s h n / 2) clk))
      && ((enabledPaths s h).filter fun p => pathRx p == n).all fun p => gatesClosed s h (pathTx p) clk

/-- The IDLE condition of a chain in the running tick: SRX and DTX chains whose sections are all FDD, with an idle uplink and every UL
branch muted by the squelch (spec/09 R278). -/
def idleNow (s : State) (h n : Nat) : Bool :=
  (n == 2 || n == 3 || n == 6 || n == 7) && (chainSections s h n).all fun i =>
    let x := secAt s h i
    x.defRun.any fun d => !d.tdd && x.spa.ulIdle && (usedBranches d).all fun b => x.sqRun.getD b 0 == logMax

/-- First DSP clock of the running turn of an ORX that an estimate may use: the move to a port costs the first 64 (spec/09 R280). -/
def turnFrom (s : State) (h o : Nat) : Nat := (hearthAt s h).rfc.orxSince.getD o 0 + 64

/-- The BLIND condition of a TX chain at a DSP clock of the running tick: its ORX observes it, and a sample passed an open transmit gate
(spec/09 R278, R280). -/
def blindAt (s : State) (h n clk : Nat) : Bool :=
  (hearthAt s h).rfc.orxRun.getD (n % 2) 0 == (n - 4) / 2 && decide (turnFrom s h (n % 2) ≤ clk) && (List.range 8).any fun i => (secAt s h i).runs && gateAt s h i (n - 4) clk

/-- Conditions of a chain at a DSP clock: GAP, IDLE, BLIND of a TX chain, and closed gates of the port that an ORX observes
(spec/09 R278). -/
def windowAt (s : State) (h n kind clk : Nat) : Bool :=
  match kind with
  | 0 => gapAt s h n clk
  | 1 => idleNow s h n
  | 2 => decide (4 ≤ n) && decide (n < 8) && blindAt s h n clk
  | _ => decide (8 ≤ n) && gatesClosed s h (chainIdx s h n) clk

/-- DSP clocks of the running tick at which a condition of R278 may change, rising: what the patterns of TDD sections mark, 1,024 clocks
after and before it, and duty closures (spec/04 R115; spec/06 R171, R176). -/
def windowMarks (s : State) (h : Nat) : List Nat :=
  let marks := (List.range 8).flatMap fun i =>
    match (secAt s h i).defRun with
    | some d => if d.tdd then (secAt s h i).spa.dutyAt ++ (patternMarks s h d.pattern).flatMap fun m => [m - 1024, m, m + 1024] else []
    | none => []
  let all := (marks ++ [turnFrom s h 0, turnFrom s h 1]).filter fun c => decide (s.tbu.clock < c) && decide (c < s.tbu.clock + s.tbu.tickLen)
  s.tbu.clock :: ((all.foldl (fun (m : KMap Unit) c => kset m c ()) []).map (·.1))

/-- The intervals of a condition over the running tick: the one that runs at its end, if any, and those that ended in it. -/
def runIntervals (cond : Nat → Bool) (marks : List Nat) (start : Option Nat) : Option Nat × List (Nat × Nat) :=
  marks.foldl (fun a c =>
    match a.1, cond c with
    | some b, false => (none, a.2 ++ [(b, c)])
    | none, true => (some c, a.2)
    | _, _ => a) (start, [])

/-- The part of the qualifying intervals of a condition that counts, by the end of the running tick: those of `least` clocks or more,
the first and last 1,024 clocks apart (spec/09 R278). -/
def counted (least stop : Nat) (r : Option Nat × List (Nat × Nat)) : List (Nat × Nat) :=
  ((r.2 ++ (r.1.map fun b => (b, stop)).toList).filter fun e => decide (e.1 + least ≤ e.2)).map fun e => (e.1 + 1024, e.2 - 1024)

/-- The spans common to two lists of spans. -/
def common (a b : List (Nat × Nat)) : List (Nat × Nat) := a.flatMap fun x => b.map fun y => (max x.1 y.1, min x.2 y.2)

/-- Clocks of spans from a DSP clock on. -/
def clocksFrom (c : Nat) (spans : List (Nat × Nat)) : Nat := (spans.map fun e => e.2 - max c e.1).foldl (· + ·) 0

/-- Spans that an item may take from a window by the end of the running tick: `runs` are the intervals of the conditions of
`windowAt`, and `flagged` tells a tick of ADC overload (spec/09 R278; log entry 113, DEDUCED). -/
def windowSpans (n item win start stop : Nat) (flagged : Bool) (runs : Nat → Option Nat × List (Nat × Nat)) : List (Nat × Nat) :=
  if win = 1 then
    let gap := counted 4096 stop (runs 0)
    if item = 8 then common gap (counted 8192 stop (runs 3)) else gap
  else if win = 2 then counted 0 stop (runs 1)
  else if 4 ≤ n ∧ n < 8 then counted 0 stop (runs 2)
  else if flagged && (item == 1 || item == 2) then [] else [(start, stop)]

/-- An estimate takes the samples of the running tick: of the window it has begun with, and otherwise of the highest-ranked one that its
WINDOWS allow and that holds a sample; items 6 and 7 count every DSP clock (spec/09 R276, R279). -/
def takeSamples (start stop item mask : Nat) (spans : Nat → List (Nat × Nat)) (e : Est) : Est :=
  let until_ := itemSamples item
  if item = 6 ∨ item = 7 then { e with got := min until_ (e.got + (stop - max start e.upto)), upto := stop }
  else
    let win := if e.win ≠ 0 then e.win else ([1, 2, 3].find? fun w => maskHas mask (w - 1) && decide (0 < clocksFrom e.upto (spans w))).getD 0
    if win = 0 then e
    else { e with
      win := win, got := min until_ (e.got + clocksFrom e.upto (spans win)), upto := ((spans win).map (·.2)).foldl max e.upto }

/-- The estimates of a chain over the running tick (spec/09 R278, R279). -/
def lcalSamples (flagged : Nat → Bool) (marks : List Nat) (h n : Nat) (s : State) : State :=
  let l := (hearthAt s h).lcal
  let c := lcalAt s h n
  let runs := (List.range 4).map fun k => runIntervals (windowAt s h n k) marks (c.runs.getD k none)
  let stop := s.tbu.clock + s.tbu.tickLen
  let one (item : Nat) (e : Est) : Est :=
    if item = 8 ∧ e.chan = false then e
    else takeSamples s.tbu.clock stop item (l.windows.getD item 0)
      (fun w => (windowSpans n item w s.tbu.clock stop (flagged n) (fun k => runs.getD k (none, []))).map fun e =>
        if 8 ≤ n then (max e.1 (turnFrom s h (n - 8)), e.2) else e) e
  modLcal h n (fun x => { x with runs := runs.map (·.1), est := x.est.map fun e => (e.1, one e.1 e.2) }) s

/-! ### Estimates -/

/-- ORX_GAIN takes a measurement channel: D = 1,024, its NCO at the reference tone, which the spec places nowhere (spec/03 R83,
spec/09 R280; log entry 8, DESIGN CHOICE). -/
def takeLcal (h n : Nat) (s : State) : State :=
  modChannels h (giveChannels { owner := n - 6, chain := n - 4, k := 10, inc := Config.toneInc, start := s.tbu.clock + s.tbu.tickLen } 1) s

/-- Starts an estimate; ORX_GAIN takes a measurement channel when one is free, and otherwise waits (spec/09 R276, R280). -/
def startEst (forced : Bool) (h n item : Nat) (s : State) : State :=
  let free := decide (channelsOf s h (fun _ => true) < 16)
  let e : Est := { start := s.tbu.tick, forced := forced, chan := item == 8 && free, upto := s.tbu.clock + s.tbu.tickLen }
  let t := modLcal h n (fun c => { c with est := kset c.est item e, last := kset c.last item s.tbu.tick }) s
  if e.chan then takeLcal h n t else t

/-- An item runs in the background on a chain (spec/09 R276, R290, R294, R297). -/
def itemOn (s : State) (h n item : Nat) : Bool :=
  let c := lcalAt s h n
  let l := (hearthAt s h).lcal
  maskHas (itemChains item) n && maskHas c.enabled item && !maskHas l.hold n && !maskHas c.stopped item
    && !(l.detStop && (item == 6 || item == 7))

/-- LCAL_ESTIMATE_START: the item's period has elapsed, and but for items 6 and 7 the chain's synthesiser is LOCKED
(spec/09 R276, R290). -/
def execLcalEstimateStart (h c item : Nat) (s : State) : Out :=
  .next <|
    let x := lcalAt s h c
    let due : Bool := match kget x.last item with
      | none => true
      | some t => decide (t + itemPeriod s h item ≤ s.tbu.tick)
    let lock := item == 6 || item == 7 || lockedIdx s h (chainIdx s h c)
    if present s h && (s.pkg == .ember || s.pkg == .alight) && itemOn s h c item && due && lock && (kget x.est item).isNone then
      startEst false h c item s
    else s

/-- A change below the threshold of R282: 0.01 dB, 0.05° and 0.5 ps. DC and TX_LOL change no response and are always
staged (spec/09 R282, R283). -/
def belowThreshold (item : Nat) (r : LcalResult) : Bool :=
  item != 0 && item != 3 && decide (r.gain.natAbs ≤ 2) && decide (r.phase.natAbs ≤ 9) && decide (r.delay.natAbs ≤ 32)

/-- The change that an item's estimate makes: only the components that R276 gives the item (spec/09 R276, R283). -/
def itemChange (item : Nat) (r : LcalResult) : Delta :=
  { items := 2 ^ item, corr := r.corr
    gain := if [1, 2, 4, 5, 8].contains item then r.gain else 0
    phase := if [1, 2, 4, 5, 6].contains item then r.phase else 0
    delay := if [2, 5, 7].contains item then r.delay else 0 }

/-- A completed estimate stages its change, or nothing below the threshold; a held LCAL_RUN that waits on the estimate goes with it
(spec/09 R282, R292, R296). -/
def completeEst (h n item win : Nat) (r : LcalResult) (s : State) : State :=
  let d := itemChange item r
  let waits := !maskHas (runsStaged (lcalAt s h n)) item && !(heldFor s 0x0802 (runKey h n item)).isEmpty
  let t := modLcal h n (fun c => { c with
    lastItem := item, lastWindow := win, noWindow := c.noWindow &&& (511 - 2 ^ item)
    image := if item = 1 ∨ item = 4 then satLog r.image else c.image
    leak := if item = 0 ∨ item = 3 then satLog r.leak else c.leak }) (endEst h n item s)
  if belowThreshold item { r with gain := d.gain, phase := d.phase, delay := d.delay } then
    if waits then endHeldFor 0x0802 (runKey h n item) .ok [0x10000, 0, 0, qualWord (lcalAt t h n)] t else t
  else stageDelta h n { d with runs := if waits then 2 ^ item else 0 } t

/-- LCAL_ESTIMATE_COMPLETE of an estimate that has its samples. One that fails its consistency check is discarded without a delta and
counts as incomplete: it takes its samples anew; a stopped detector gives no result (spec/09 R276, R279, R281, R282, R297). -/
def execLcalEstimateComplete (h c item : Nat) (r : LcalResult) (s : State) : Out :=
  .next <|
    match kget (lcalAt s h c).est item with
    | none => s
    | some e =>
      let dead := (item == 6 || item == 7) && (hearthAt s h).lcal.detStop
      if present s h && decide (c < 10) && decide (item < 9) && decide (itemSamples item ≤ e.got) && !dead then
        if r.good then completeEst h c item e.win r s
        else modLcal h c (fun x => { x with est := kset x.est item { e with win := 0, got := 0 } }) s
      else s

/-- An estimate that is not complete within 2 × PERIOD is abandoned and the item starts again
(spec/09 R279, R292, R298). -/
def abandonDue (h c item : Nat) (s : State) : State :=
  match kget (lcalAt s h c).est item with
  | none => s
  | some e =>
    if present s h && decide (e.start + 2 * itemPeriod s h item ≤ s.tbu.tick) then
      let t := modLcal h c (fun x => { x with noWindow := x.noWindow ||| 2 ^ item }) (endEst h c item s)
      let t := emit h 0x0813 [c, item] t
      let t := onlyIf (!maskHas (runsStaged (lcalAt t h c)) item) (endHeldFor 0x0802 (runKey h c item) .timeout []) t
      if itemOn t h c item then startEst false h c item t else t
    else s

/-- LCAL_ESTIMATE_ABANDON (spec/09 R279). -/
def execLcalEstimateAbandon (h c item : Nat) (s : State) : Out := .next (abandonDue h c item s)

/-- A delta pending for 480 ticks is discarded with what was to follow it, and its items' estimates start
again (spec/09 R288, R292, R298; log entry 35, DEDUCED). -/
def withdrawDue (h c : Nat) (s : State) : State :=
  let x := lcalAt s h c
  match x.delta with
  | none => s
  | some d =>
    if present s h && decide (d.tick + 480 ≤ s.tbu.tick) then
      let items := d.items ||| (x.rest.map (·.items)).getD 0
      each (maskBits 9 items) (fun item u =>
        if itemOn u h c item && (kget (lcalAt u h c).est item).isNone then startEst false h c item u else u) (withdrawDelta h c s)
    else s

/-- DELTA_WITHDRAW (spec/09 R288). -/
def execDeltaWithdraw (h c : Nat) (s : State) : Out := .next (withdrawDue h c s)

/-- A BDC path references an ORX, or a loop slot reads it by ORX_SEC (spec/09 R280). -/
def orxInUse (s : State) (h o : Nat) : Bool :=
  (enabledPaths s h).any (fun p => (pathAt s h p).orx && pathOrx p == o)
    || (List.range 64).any fun n => (loopAt s h n).cfg.measSrc == 4 && (measOf (loopAt s h n)).2 % 2 == o

/-- In the last tick of a turn: an ORX that nothing holds moves at its end to the other port of its pair, in turns of 480
ticks (spec/09 R280). -/
def alternateDue (h n : Nat) (s : State) : State :=
  let r := (hearthAt s h).rfc
  if present s h && decide (n < 2) && !orxInUse s h n && decide (r.orxTurn.getD n 0 + 480 ≤ s.tbu.tick + 1) then
    moveOrx h n (1 - r.orxTo.getD n 0) s
  else s

/-- ORX_ALTERNATE (spec/09 R280). -/
def execOrxAlternate (h n : Nat) (s : State) : Out := .next (alternateDue h n s)

/-- What a control tick does in LCAL of a hearth: ages, the ORX of TX chains, and channels for estimates that wait for one
(spec/09 R280, R296). -/
def lcalTick (h : Nat) (s : State) : State :=
  let t := each (List.range 10) (fun n u => modLcal h n (fun c => { c with
    age := incSat 32 c.age
    orxAbsent := decide (4 ≤ n) && decide (n < 8) && orxInUse u h (n % 2) && (hearthAt u h).rfc.orxTo.getD (n % 2) 0 != (n - 4) / 2 }) u) s
  each [8, 9] (fun n u =>
    match kget (lcalAt u h n).est 8 with
    | none => u
    | some e =>
      if !e.chan && decide (channelsOf u h (fun _ => true) < 16) then
        takeLcal h n (modLcal h n (fun c => { c with est := kset c.est 8 { e with chan := true } }) u)
      else u) t

/-! ### Commands -/

/-- An estimate is abandoned and an LCAL_RUN that waits on it replies ABORTED (spec/09 R291, R294; log entry 34, DEDUCED). -/
def abortEst (h n item : Nat) (s : State) : State :=
  if (kget (lcalAt s h n).est item).isSome then
    onlyIf (!maskHas (runsStaged (lcalAt s h n)) item) (endHeldFor 0x0802 (runKey h n item) .aborted []) (endEst h n item s)
  else s

/-- Sets or clears an item's ENABLE on a chain (spec/09 R291). -/
def enableItem (on : Bool) (h n item : Nat) (s : State) : State :=
  let was := maskHas (lcalAt s h n).enabled item
  let t := modLcal h n (fun c => { c with enabled := if on then c.enabled ||| 2 ^ item else c.enabled &&& (511 - 2 ^ item) }) s
  if was && !on then abortEst h n item t else t

/-- Handling of LCAL_CONFIG (spec/09 R291). -/
def lcalConfig (p : Packet) (s : State) : Done :=
  let w0 := wordAt p.payload 0
  let w1 := wordAt p.payload 1
  let mask := fld w0 0 10
  let item := fld w0 16 4
  let period := fld w1 0 13
  let win := fld w1 16 3
  check (decide (item ≤ 8) && decide (period ≤ 6000) && zeroAt w0 10 6 && zeroAt w0 21 11 && zeroAt w1 13 3 && zeroAt w1 19 13
    && mask &&& (1023 - itemChains item) == 0 && win &&& (7 - itemWindows item) == 0) .badParam s <|
  let apply (h : Nat) (t : State) : State :=
    let u := modLcalH h (fun l => { l with
      period := if period = 0 then l.period else l.period.set item period
      windows := if win = 0 ∨ item = 6 ∨ item = 7 then l.windows else l.windows.set item win }) t
    each (maskBits 10 mask) (fun n => enableItem (bitOf w0 20) h n item) u
  .reply .ok [] (each (targets p s) apply s)

/-- LCAL_CONFIG (spec/09 R291). -/
def execLcalConfig (p : Packet) (s : State) : Out := .next (runCommand infoLcalConfig lcalConfig p s)

/-- Handling of LCAL_RUN: a running estimate of the item is used, otherwise one starts at once; the reply is held
(spec/09 R292). -/
def lcalRun (p : Packet) (s : State) : Done :=
  let w := wordAt p.payload 0
  let n := fld w 0 4
  let item := fld w 8 4
  let h := p.hearth
  check (decide (n ≤ 9) && zeroAt w 4 4 && zeroAt w 12 20 && maskHas (itemChains item) n) .badParam s <|
  check (!maskHas (hearthAt s h).lcal.hold n) .state s <|
  check ((heldFor s 0x0802 (runKey h n item)).isEmpty) .busy s <|
  .hold (runKey h n item) none <|
    if (kget (lcalAt s h n).est item).isSome then
      modLcal h n (fun c => { c with est := c.est.map fun e => if e.1 = item then (item, { e.2 with forced := true }) else e }) s
    else startEst true h n item s

/-- LCAL_RUN (spec/09 R292). -/
def execLcalRun (p : Packet) (s : State) : Out := .next (runCommand infoLcalRun lcalRun p s)

/-- The registers of a chain's group, in offset order (spec/09 R296). -/
def chainWords (s : State) (h n : Nat) : List Word :=
  let c := lcalAt s h n
  [wordOf [(0, 9, c.enabled), (9, 1, bit c.delta.isSome), (10, 1, bit (maskHas (hearthAt s h).lcal.hold n)), (11, 1, bit c.orxAbsent),
     (12, 4, c.lastItem), (16, 2, c.lastWindow), (18, 9, c.noWindow)]]
    ++ deltaWords c ++ [wordOf [(0, 16, c.accGain), (16, 16, c.accPhase)], wordOf [(0, 32, c.accDelay)], qualWord c,
     wordOf [(0, 16, c.commits), (16, 8, c.defers), (24, 8, c.discards)], BitVec.ofNat 32 c.age]

/-- Handling of LCAL_QUERY (spec/09 R293). -/
def lcalQuery (p : Packet) (s : State) : Done :=
  let w := wordAt p.payload 0
  check (decide (fld w 0 4 ≤ 9) && zeroAt w 4 28) .badParam s <|
  .reply .ok (chainWords s p.hearth (fld w 0 4)) s

/-- LCAL_QUERY (spec/09 R293). -/
def execLcalQuery (p : Packet) (s : State) : Out := .next (runCommand infoLcalQuery lcalQuery p s)

/-- A chain comes under LCAL_HOLD: its estimates are abandoned and its held LCAL_RUN commands reply ABORTED; staged deltas
still commit (spec/09 R294). -/
def holdChain (h n : Nat) (s : State) : State :=
  let t := each (List.range 9) (fun item t => endHeldFor 0x0802 (runKey h n item) .aborted [] (endEst h n item t)) s
  modLcal h n (fun c => { c with delta := c.delta.map fun d => { d with runs := 0 }, rest := c.rest.map fun d => { d with runs := 0 } }) t

/-- Handling of LCAL_HOLD (spec/09 R294). -/
def lcalHold (p : Packet) (s : State) : Done :=
  let w := wordAt p.payload 0
  let mask := fld w 0 10
  let on := bitOf w 16
  check (zeroAt w 10 6 && zeroAt w 17 15) .badParam s <|
  let apply (h : Nat) (t : State) : State :=
    let u := modLcalH h (fun l => { l with hold := if on then l.hold ||| mask else l.hold &&& (1023 - mask) }) t
    if on then each (maskBits 10 mask) (holdChain h) u else u
  .reply .ok [] (each (targets p s) apply s)

/-- LCAL_HOLD (spec/09 R294). -/
def execLcalHold (p : Packet) (s : State) : Out := .next (runCommand infoLcalHold lcalHold p s)

/-- LCAL_CTRL.CNT_CLR (spec/09 R295). -/
def execLcalCntClr (h : Nat) (s : State) : Out :=
  .next (if present s h && writable s then
    modLcalH h (fun l => { l with deferCount := 0, ch := l.ch.map fun c => { c with commits := 0, defers := 0, discards := 0, shown := c.shown.set 6 0 } }) s
  else s)

end Sys2Proof.Machine
end

