-- ==== Sys2Proof/Machine/Thermal.lean ====
section
/-! DEFINITION. Machine/Thermal.lean: temperature sensing, derating, shedding, the orderly stop and the resume, with THM's
commands and events (spec/19). -/

namespace Sys2Proof.Machine

/-- Changes the thermal management of a hearth. -/
def modThm (h : Nat) (f : Thm → Thm) (s : State) : State := modHearth h (fun x => { x with thm := f x.thm }) s

/-- Changes the thermal state of the package. -/
def modThmPkg (f : ThmPkg → ThmPkg) (s : State) : State := { s with thmPkg := f s.thmPkg }

/-- T_h and its zone; the lowest zone of those that tie (spec/19 R553). -/
def hottest (t : Thm) : Int × Nat :=
  (List.range 8).foldl (fun a z => if a.1 < zoneTemp t z then (zoneTemp t z, z) else a) (zoneTemp t 0, 0)

/-- THM_STATUS of a hearth (spec/19 R565). -/
def thmStatus (s : State) (h : Nat) : Word :=
  let t := (hearthAt s h).thm
  wordOf [(0, 1, bit t.warn), (1, 1, bit t.derating), (2, 1, bit (!t.shed.isEmpty)), (3, 1, bit (s.thmPkg.stop != 0)),
    (4, 1, bit t.trip), (5, 1, bit t.rfOff), (6, 1, bit s.thmPkg.resumeOk)]

/-- Writes event 0x0C10 when WARN, DERATING or SHEDDING differs from before (spec/19 R567). -/
def levelEvent (h : Nat) (before : Word) (s : State) : State :=
  let now := thmStatus s h
  if fld before 0 3 = fld now 0 3 then s
  else
    let t := hottest (hearthAt s h).thm
    emit h 0x0C10 ([h, fld now 0 8] ++ bytesOf 2 t.1 ++ [t.2]) s

/-! ### Orderly stop, trip and resume -/

/-- THM powers down the chains and every synthesiser of every hearth (spec/19 R560, step 3). -/
def powerDownRf (s : State) : State :=
  let t := each (hearthsOf s) (fun h u => each (List.range 4) (synOff h) (modThm h (fun x => { x with rfOff := true }) u)) s
  evalGates (t.tbu.clock + t.tbu.tickLen) (modThmPkg (fun x => { x with stop := 3 }) t)

/-- Step 2 of the orderly stop: once no section transmits or ramps down, the ember write starts, or the power-down takes
place (spec/19 R560). -/
def thermalDrain (s : State) : State :=
  if s.thmPkg.stop = 1 ∧ transmitting s = 0 then
    let t := triggerEmbers 0 s
    if t.alog.emberWriting then modThmPkg (fun x => { x with stop := 2 }) t else powerDownRf t
  else s

/-- What waits for the sections to end their down-ramps goes on (spec/01 R34; spec/13 R403; spec/19 R560). -/
def drain (s : State) : State := thermalDrain (drainCommands s)

/-- Step 1 of the orderly stop; one that is running is not begun again (spec/19 R560, R561, R565). -/
def beginStop (cause h zone : Nat) (s : State) : State :=
  if s.thmPkg.stop ≠ 0 then s
  else
    let t := modThmPkg (fun x => { x with stop := 1, hearth := h, zone := zone, cause := cause, lastTick := (s.tbu.tick + 1) % 2 ^ 32 }) s
    let t := modThm h (fun x => { x with stops := incSat 8 x.stops }) t
    let t := emit h 0x0C13 ([cause, h, zone] ++ bytesOf 2 (zoneTemp (hearthAt s h).thm zone)) t
    thermalDrain (setHolds (fun x => { x with thermal := true }) t)

/-- A trip: every transmit gate of the package closes at once, source 465, and the orderly stop (spec/19 R561, R565). -/
def trip (h zone : Nat) (s : State) : State :=
  if (hearthAt s h).thm.trip then s
  else
    let t := modThm h (fun x => { x with trip := true, trips := incSat 8 x.trips }) s
    let t := evalGates s.tbu.clock (modThmPkg (fun x => { x with tripGate := true, resumeOk := false, resumeTicks := 0 }) t)
    beginStop 1 h zone (raiseSource h 465 t)

/-- THERMAL_TRIP (spec/19 R561). -/
def execThermalTrip (h zone : Nat) (s : State) : Out :=
  .next (if present s h && decide (zone < 8) && s.pkg != .doused then trip h zone s else s)

/-- The THERMAL hold clears: chains and synthesisers power up, and every chain with an LO starts a channel change at its LO
(spec/19 R562). -/
def thermalRelease (cause : Nat) (s : State) : State :=
  let t := modThmPkg (fun x => { x with stop := 0, tripGate := false }) (setHolds (fun x => { x with thermal := false }) s)
  let t := each (hearthsOf t) (fun h u =>
    let v := modThm h (fun x => { x with rfOff := false }) u
    each (List.range 4) (fun n w => repeatSyn h n w) v) t
  emit 0 0x0C14 [cause] (evalGates (t.tbu.clock + t.tbu.tickLen) t)

/-- 480,000 ticks with every sensor below RESUME_T have passed; with AUTO_RESUME the hold clears (spec/19 R562). -/
def resumeDue (s : State) : State :=
  if !s.thmPkg.resumeOk && decide (480000 ≤ s.thmPkg.resumeTicks) && s.pkg != .doused then
    let t := modThmPkg (fun x => { x with resumeOk := true }) s
    if bitOf (recordWord s 6) 1 && s.holds.thermal then thermalRelease 0 t else t
  else s

/-- RESUME_OK_SET (spec/19 R562). -/
def execResumeOkSet (s : State) : Out := .next (resumeDue s)

/-- A hearth's sensors all read below RESUME_T and no comparator is active (spec/19 R562). -/
def coolHearth (t : Thm) : Bool :=
  !t.temps.isEmpty && !t.trip && t.temps.all fun v => decide (v < t.cfg.resumeT * 64)

/-- The resume count of a tick (spec/19 R562). -/
def resumeTick (s : State) : State :=
  let ok := (hearthsOf s).all fun h => coolHearth (hearthAt s h).thm
  modThmPkg (fun x => { x with resumeTicks := if ok then min 480000 (x.resumeTicks + 1) else 0, resumeOk := x.resumeOk && ok }) s

/-! ### Conversions -/

/-- A sensor is judged broken: it reads 0x7FFF, its source and its event (spec/19 R555, R567). -/
def breakSensor (h i test : Nat) (s : State) : State :=
  if (hearthAt s h).thm.broken.contains i then s
  else note h 0x0C12 [h, i, test] (raiseSource h (448 + i)
    (modThm h (fun x => { x with broken := x.broken ++ [i], temps := x.temps.set i 32767 }) s))

/-- Raw code of a sensor in a conversion. -/
def codeAt (raw : List Int) (i : Nat) : Int := raw.getD i (-32768)

/-- Test that a raw code fails: range or stuck (spec/19 R555). -/
def failedTest (raw : List Int) (same : List Nat) (i : Nat) : Option Nat :=
  if codeAt raw i < -3840 ∨ 12800 < codeAt raw i then some 0
  else if 1024 ≤ same.getD i 0 then some 1 else none

/-- P of R557: the priorities of sections that transmit, ramp down, or are shed. -/
def thermalPriorities (s : State) (h : Nat) : List Nat :=
  (List.range 8).filter fun p => (List.range 8).any fun i =>
    let x := secAt s h i
    (x.defn.any fun d => d.priority == p) && (transmits x.state || x.waits.shed)

/-- Depth D of a hearth (spec/19 R557). -/
def derateDepth (t : Thm) : Int :=
  if t.temps.isEmpty then 0 else satLog (roundDiv (max 0 ((hottest t).1 - (t.cfg.derate : Int) * 64) * t.cfg.slope) 64)

/-- c_p of R557 for a priority of P; 0 for one outside P. -/
def cutOf (t : Thm) (ps : List Nat) (d : Int) (p : Nat) : Int :=
  if ps.contains p then clampInt 0 t.cfg.maxCut (d - ((ps.filter fun q => decide (q < p)).length * t.cfg.maxCut : Nat)) else 0

/-- The lowest priority of P that is not shed. -/
def lowestUnshed (s : State) (h : Nat) : Option Nat :=
  (thermalPriorities s h).find? fun p => !(hearthAt s h).thm.shed.contains p

/-- THM's derating: depth, cuts, and A_ref of the sections whose cut rises above 0 (spec/19 R557, R558). -/
def derate (h : Nat) (s : State) : State :=
  let x := (hearthAt s h).thm
  let d := derateDepth x
  let cuts := (List.range 8).map (cutOf x (thermalPriorities s h) d)
  let t := each (List.range 8) (fun i u => modSec h i (fun y =>
    match y.defn with
    | some e => if x.cuts.getD e.priority 0 = 0 ∧ 0 < cuts.getD e.priority 0 then { y with aRef := y.applied } else y
    | none => y) u) s
  modThm h (fun y => { y with depth := d, cuts := cuts, derating := decide (0 < d) }) t

/-- A conversion completes on a hearth: its values, its broken sensors, and the trip, at once; the next tick captures it
(spec/19 R553, R555, R561). -/
def convert (h : Nat) (raw : List Int) (s : State) : State :=
  let old := (hearthAt s h).thm
  let same := (List.range 16).map fun i =>
    if !old.raw.isEmpty && codeAt old.raw i == codeAt raw i then satCount 11 (old.same.getD i 0 + 1) else 1
  let t := modThm h (fun x => { x with
    raw := (List.range 16).map (codeAt raw), same := same, convTick := s.tbu.tick + 1, convDue := true
    temps := (List.range 16).map fun i => if x.broken.contains i then 32767 else codeAt raw i }) s
  let t := each (List.range 16) (fun i u => match failedTest raw same i with | some k => breakSensor h i k u | none => u) t
  let t := modThm h (fun y => { y with trip := y.trip && y.temps.any fun v => decide (9600 ≤ v) }) t
  match (List.range 16).find? fun i => decide (9600 ≤ (hearthAt t h).thm.temps.getD i 0) with
    | some i => trip h (i / 2) t
    | none => t

/-- THM_CONVERSION: a conversion completes in a tick with TBU_TICK mod 48 = 47 (spec/19 R553). -/
def execThmConversion (h : Nat) (temps : List Int) (s : State) : Out :=
  .next (if present s h && s.tbu.tick % 48 == 47 && s.pkg != .doused then convert h temps s else s)

/-- Phase 2 of a tick that captures a conversion: WARN with its source, and ORDERLY (spec/19 R556, R560). -/
def evalConversion (h : Nat) (s : State) : State :=
  let x := (hearthAt s h).thm
  if !x.convDue then s
  else
    let top := hottest x
    let hot := !x.temps.isEmpty && decide ((x.cfg.warn : Int) * 64 ≤ top.1)
    let warn := if x.warn then decide (((x.cfg.warn : Int) - x.cfg.hyst) * 64 ≤ top.1) else hot
    let t := modThm h (fun y => { y with warn := warn, convDue := false }) s
    let t := if warn && !x.warn then holdSource h 464 t else if !warn && x.warn then clearSource h 464 t else t
    if !x.temps.isEmpty && decide ((x.cfg.orderly : Int) * 64 ≤ top.1) then beginStop 0 h top.2 t else t

/-! ### Derating and shedding -/

/-- THM of a hearth in a tick: the thresholds after a conversion, derating, and the timers of shedding (spec/19 R556 to R559). -/
def derateTick (h : Nat) (s : State) : State :=
  let before := thmStatus s h
  let t := derate h (evalConversion h s)
  let x := (hearthAt t h).thm
  let lowest := lowestUnshed s h
  let full := lowest.any fun p => x.cuts.getD p 0 == (x.cfg.maxCut : Int)
  let cool := !x.temps.isEmpty && decide ((hottest x).1 < ((x.cfg.derate : Int) - x.cfg.hyst) * 64)
  levelEvent h before (modThm h (fun y => { y with
    fullRun := if full then (if y.fullOf = lowest then y.fullRun + 1 else 1) else 0, fullOf := lowest, coolRun := if cool && !y.shed.isEmpty then y.coolRun + 1 else 0 }) t)

/-- L_thm of a direction and branch (spec/19 R558). -/
def thermalLimit (s : State) (h i k : Nat) : LogQ :=
  let x := secAt s h i
  let c := (hearthAt s h).thm.cuts.getD ((x.defn.map (·.priority)).getD 0) 0
  if c ≤ 0 ∨ (x.state ≠ .live ∧ x.state ≠ .damped) then logMax else satLog (x.aRef.getD k logMax - c)

/-- Sections of a priority. -/
def sectionsOf (s : State) (h p : Nat) : List Nat := (List.range 8).filter fun i => (secAt s h i).defn.any fun d => d.priority == p

/-- Changes the shedding wait cause of a section (spec/01 R36). -/
def setShed (on : Bool) (h i : Nat) (s : State) : State :=
  let t := modSec h i (fun x => { x with waits := { x.waits with shed := on } }) s
  if on then startDown 256 true h i t else t

/-- Sheds or releases a priority (spec/19 R559, R565, R567). -/
def shedLevel (on : Bool) (h p : Nat) (s : State) : State :=
  let before := thmStatus s h
  let t := modThm h (fun x => { x with
    shed := if on then x.shed ++ [p] else x.shed.erase p, sheds := if on then incSat 8 x.sheds else x.sheds, fullRun := 0, coolRun := 0 }) s
  let t := emit h 0x0C11 [h, p, bitNat on] t
  levelEvent h before (each (sectionsOf t h p) (setShed on h) t)

/-- SHED_TIME has passed with the lowest unshed priority fully cut, or with the hearth below DERATE − HYST (spec/19 R559). -/
def shedDue (h : Nat) (s : State) : State :=
  let x := (hearthAt s h).thm
  let n := x.cfg.shedTime * 480
  if !present s h then s
  else if n ≤ x.fullRun then
    match lowestUnshed s h with
    | some p => shedLevel true h p s
    | none => s
  else if !x.shed.isEmpty && decide (n ≤ x.coolRun) then shedLevel false h (x.shed.foldl max 0) s
  else s

/-- SHED_TIMER (spec/19 R559). -/
def execShedTimer (h : Nat) (s : State) : Out := .next (shedDue h s)

/-! ### Commands -/

/-- THERMAL_CONFIG of a payload (spec/19 R563). -/
def thmCfgOf (ws : List Word) : ThmCfg :=
  let w (k : Nat) : Word := wordAt ws k
  { warn := fld (w 0) 0 8, derate := fld (w 0) 8 8, orderly := fld (w 0) 16 8, resumeT := sfld (w 0) 24 8
    hyst := fld (w 1) 0 4, slope := fld (w 1) 16 16, maxCut := fld (w 2) 0 16, shedTime := fld (w 2) 16 16 }

/-- The ranges and 0-bits of R563. -/
def thmCfgOk (ws : List Word) : Bool :=
  let c := thmCfgOf ws
  decide (-40 < c.resumeT) && decide (c.resumeT + 10 ≤ c.orderly) && decide (c.resumeT < c.warn) && decide (c.warn < c.derate)
    && decide (c.derate < c.orderly) && decide (c.orderly < 150) && decide (1 ≤ c.hyst) && zeroAt (wordAt ws 1) 4 12
    && decide (0x40 ≤ c.slope ∧ c.slope ≤ 0x800) && decide (0x100 ≤ c.maxCut ∧ c.maxCut ≤ 0x1E00)
    && decide (100 ≤ c.shedTime ∧ c.shedTime ≤ 60000) && wordAt ws 3 == 0

/-- Handling of THERMAL_CONFIG (spec/19 R563). -/
def thermalConfig (p : Packet) (s : State) : Done :=
  check (thmCfgOk p.payload) .badParam s <|
  .reply .ok [] (each (targets p s) (fun h => modThm h fun x => { x with cfg := thmCfgOf p.payload }) s)

/-- THERMAL_CONFIG (spec/19 R563). -/
def execThermalConfig (p : Packet) (s : State) : Out := .next (runCommand infoThermalConfig thermalConfig p s)

/-- Handling of THERMAL_RESUME (spec/19 R562, R564). -/
def thermalResume (_p : Packet) (s : State) : Done :=
  check (s.holds.thermal && s.thmPkg.resumeOk) .state s (.reply .ok [] (thermalRelease 1 s))

/-- THERMAL_RESUME (spec/19 R562, R564). -/
def execThermalResume (p : Packet) (s : State) : Out := .next (runCommand infoThermalResume thermalResume p s)

/-- The 20 registers of THERMAL_QUERY (spec/19 R564, R565). -/
def thermalWords (s : State) (h : Nat) : List Word :=
  let t := (hearthAt s h).thm
  let top := hottest t
  let full := maskOf ((List.range 8).filter fun p => t.cuts.getD p 0 == (t.cfg.maxCut : Int))
  [thmStatus s h, 0, wordOf [(0, 8, t.cfg.warn), (8, 8, t.cfg.derate), (16, 8, t.cfg.orderly), (24, 8, t.cfg.resumeT)],
   wordOf [(0, 4, t.cfg.hyst), (16, 16, t.cfg.slope)], wordOf [(0, 16, t.cfg.maxCut), (16, 16, t.cfg.shedTime)],
   wordOf [(0, 16, t.depth), (16, 8, (maskOf t.shed : Nat)), (24, 8, full)], wordOf [(0, 16, top.1), (16, 3, top.2)],
   wordOf [(0, 20, s.thmPkg.resumeTicks)]]
    ++ (List.range 8).map (fun z => wordOf [(0, 16, zoneTemp t z)])
    ++ [wordOf [(0, 16, (maskOf t.broken : Nat))], wordOf [(0, 8, t.sheds), (8, 8, t.stops), (16, 8, t.trips)],
        wordOf [(0, 3, s.thmPkg.hearth), (3, 3, s.thmPkg.zone), (6, 1, s.thmPkg.cause)], BitVec.ofNat 32 s.thmPkg.lastTick]

/-- Handling of THERMAL_QUERY (spec/19 R564). -/
def thermalQuery (p : Packet) (s : State) : Done := .reply .ok (thermalWords s p.hearth) s

/-- THERMAL_QUERY (spec/19 R564). -/
def execThermalQuery (p : Packet) (s : State) : Out :=
  .next (runCommand infoThermalQuery thermalQuery p s)

/-- THM_CTRL.CNT_CLR (spec/19 R565). -/
def execThmCntClr (h : Nat) (s : State) : Out :=
  .next (if present s h && writable s then modThm h (fun x => { x with sheds := 0, stops := 0, trips := 0 }) s else s)

end Sys2Proof.Machine
end

