-- ==== Sys2Proof/Machine/Sections.lean ====
section
/-! DEFINITION. Machine/Sections.lean: section definitions, starts, stops, down-ramps and resumes (spec/01 R34 to R38;
spec/03 R69 to R73, R80 to R94; spec/08 R240 to R242). -/

namespace Sys2Proof.Machine

/-! ### Definitions -/

/-- The definition of a SECTION_DEFINE payload (spec/03 R71). -/
def defOf (ws : List Word) : SecDef :=
  let w (k : Nat) : Word := wordAt ws k
  { tdd := bitOf (w 0) 0, branchMask := fld (w 0) 1 2, rate := fld (w 0) 3 4, swift := bitOf (w 0) 8, priority := fld (w 0) 12 3
    tenant := fld (w 0) 16 5, pattern := fld (w 0) 21 3, group := bitOf (w 0) 24, dlCentre := (w 1).toNat, ulCentre := (w 2).toNat
    bandwidth := (w 3).toNat, ratio := (w 4).toNat, dlLo := (w 5).toNat, ulLo := (w 6).toNat, slotDl0 := fld (w 7) 0 6
    slotDl1 := fld (w 7) 8 6, slotUl0 := fld (w 7) 16 6, slotUl1 := fld (w 7) 24 6 }

/-- Gain slot of a direction and branch. -/
def slotOfIdx (d : SecDef) (k : Nat) : Nat :=
  match k with
  | 0 => d.slotDl0
  | 1 => d.slotDl1
  | 2 => d.slotUl0
  | _ => d.slotUl1

/-- LO field of a direction; 0 keeps the current LO. -/
def loField (d : SecDef) (dir : Nat) : Nat := if dir = 0 then d.dlLo else d.ulLo

/-- A LO lies in the range of R236, or is kept. -/
def loInRange (f : Nat) : Bool := f == 0 || (decide (41000000 ≤ f) && decide (f ≤ 712500000))

/-- Check 5 of R72: ranges and 0-bits. -/
def defFieldsOk (ws : List Word) : Bool :=
  let w0 := wordAt ws 0
  let w7 := wordAt ws 7
  let d := defOf ws
  d.branchMask != 0 && decide (d.rate ≤ 10) && decide (fld w0 8 2 ≤ 1) && decide (d.tenant ≤ 30)
    && zeroAt w0 7 1 && zeroAt w0 10 2 && zeroAt w0 15 1 && zeroAt w0 25 7
    && decide (18000 ≤ d.bandwidth) && decide (d.bandwidth ≤ 80000000) && loInRange d.dlLo && loInRange d.ulLo
    && zeroAt w7 6 2 && zeroAt w7 14 2 && zeroAt w7 22 2 && zeroAt w7 30 2

/-- Check 6 of R72. -/
def ratioOk (d : SecDef) : Bool := d.ratio == 0 || (decide (2 ^ 31 ≤ d.ratio) && d.rate != 10)

/-- A passband lies within 410 MHz to 7,125 MHz. -/
def bandOk (centre bandwidth : Nat) : Bool :=
  decide (82000000 + bandwidth ≤ 2 * centre) && decide (2 * centre + bandwidth ≤ 1425000000)

/-- Passbands share an interval of positive width (spec/03 R70). -/
def overlap (c1 b1 c2 b2 : Nat) : Bool := decide (2 * ((c1 : Int) - c2).natAbs < b1 + b2)

/-- Check 7 of R72. -/
def passbandsOk (d : SecDef) : Bool :=
  bandOk d.dlCentre d.bandwidth && bandOk d.ulCentre d.bandwidth
    && (if d.tdd then d.dlCentre == d.ulCentre else !overlap d.dlCentre d.bandwidth d.ulCentre d.bandwidth)

/-- Check 8 of R72: the profile's maximum bandwidth (spec/03 R78). -/
def profileOk (d : SecDef) : Bool :=
  decide (d.bandwidth * 1000 * 2 ^ 48 ≤ (if d.swift then 76 else 92) * rateOf d)

/-- LOs of a hearth under a definition (spec/03 R69, R73). -/
def losWith (s : State) (h : Nat) (d : SecDef) : List Nat :=
  (List.range 4).map fun k =>
    if maskHas d.branchMask (k % 2) && loField d (k / 2) != 0 then loField d (k / 2) else (hearthAt s h).rfc.lo.getD k 0

/-- Whether a definition fits the LOs of a hearth (spec/01 R21, spec/03 R70). -/
def fitsLos (lo : List Nat) (d : SecDef) : Bool := (usedIdx d).all fun k => inBand (lo.getD k 0) (centreOf d (k / 2)) d.bandwidth

/-- Definitions of the other sections of a hearth. -/
def otherDefs (s : State) (h i : Nat) : List (Nat × SecDef) :=
  (List.range 8).filterMap fun j => if j = i then none else (secAt s h j).defn.map fun d => (j, d)

/-- Check 9 of R72. -/
def bandsFit (s : State) (h i : Nat) (d : SecDef) : Bool :=
  let lo := losWith s h d
  fitsLos lo d && (otherDefs s h i).all fun e => fitsLos lo e.2

/-- Check 10 of R72: no overlap on an RX chain. -/
def bandsClear (s : State) (h i : Nat) (d : SecDef) : Bool :=
  (otherDefs s h i).all fun e => (usedIdx d).all fun k =>
    !maskHas e.2.branchMask (k % 2) || !overlap (centreOf d (k / 2)) d.bandwidth (centreOf e.2 (k / 2)) e.2.bandwidth

/-- Directions and branches whose LO or synthesiser changes (spec/08 R235). -/
def changedIdx (s : State) (h : Nat) (lo : List Nat) : List Nat :=
  let r := (hearthAt s h).rfc
  (List.range 4).filter fun k => lo.getD k 0 != r.lo.getD k 0 || (assignSyn lo).getD k none != r.synOf.getD k none

/-- Check 11 of R72: no changed LO on a chain of another section that is not COLD or READY. -/
def losFree (s : State) (h i : Nat) (d : SecDef) : Bool :=
  (changedIdx s h (losWith s h d)).all fun k => (usersOf s h k).all fun j =>
    j == i || secNow (secAt s h j) == .cold || secNow (secAt s h j) == .ready

/-- Named gain slots with their direction and branch. -/
def namedSlots (d : SecDef) : List (Nat × Nat) := (usedIdx d).map fun k => (slotOfIdx d k, k)

/-- Check 13 of R72. -/
def slotsFree (s : State) (h i : Nat) (d : SecDef) : Bool :=
  ((namedSlots d).map (·.1)).Nodup && (namedSlots d).all fun e => (loopAt s h e.1).bound.all fun b => b.1 == i

/-- Check 14 of R72. -/
def slotsOpen (s : State) (h i : Nat) (d : SecDef) : Bool :=
  (namedSlots d).all fun e => (loopAt s h e.1).bound.any (fun b => b.1 == i) || (loopAt s h e.1).state == 0

/-- Latency bounds of R80 in nanoseconds, by RATE: SWIFT and STEEP. -/
def latencyTable : List (Nat × Nat) :=
  [(1000, 1600), (1100, 1900), (1200, 2400), (1200, 3200), (1800, 4600), (2400, 5600), (3000, 6400), (3800, 7400), (4600, 8200),
   (5400, 9200), (6000, 10000)]

/-- Latency bound of a definition in DSP clocks (spec/03 R80, R81). -/
def latencyBound (d : SecDef) : Nat :=
  let at_ (r : Nat) : Nat := let e := latencyTable.getD r (0, 0); (if d.swift then e.1 else e.2) * 98304 / 100000
  if d.ratio = 0 then at_ d.rate else at_ (d.rate + 1) + 8 * 2 ^ d.rate

/-- Latency of a definition in DSP clocks, never above its bound (spec/03 R82; log entry 8, DESIGN CHOICE). -/
def latencyFor (d : SecDef) : Nat :=
  min (Config.latencyOf d.rate (if d.swift then 1 else 0) d.bandwidth d.ratio) (latencyBound d)

/-- The latency that a split section reports for the direction it transmits: EQ_DELAY plus its TX-side part, which is no more
than the latency bound of the section (spec/03 R81, R82; spec/15 R470; log entry 8, DESIGN CHOICE). -/
def splitLatency (d : SecDef) (x : Split) : Nat :=
  (roundDiv (x.eqDelay * 98304 : Nat) 100000).toNat
    + min (Config.txLatencyOf d.rate (bitNat d.swift) d.bandwidth d.ratio) (latencyBound d)

/-- SEC_LAT_DL and SEC_LAT_UL of a definition with a split (spec/03 R82, spec/15 R470). -/
def latenciesOf (d : SecDef) (x : Split) : Nat × Nat :=
  (if x.role = 2 then splitLatency d x else latencyFor d, if x.role = 1 then splitLatency d x else latencyFor d)

/-! ### Wait causes -/

/-- The device follows an acting leader (spec/15 R448, R460). -/
def followsLeader (s : State) : Bool := s.flu.acting == 1 || s.flu.acting == 3

/-- Wait causes that a definition has now (spec/01 R36; spec/02 R56; spec/15 R460; spec/19 R559). -/
def waitsFor (s : State) (h : Nat) (d : SecDef) : Waits :=
  { digest := d.group && s.flu.digestWait, timing := d.tdd && followsLeader s && !s.flu.timeAgree
    frame := d.tdd && !s.tbu.frameValid, shed := (hearthAt s h).thm.shed.contains d.priority }

/-! ### Starting -/

/-- Key of a held SECTION_START. -/
def startHeld (s : State) (h i : Nat) : List Held := heldFor s 0x0204 (globalOf h i)

/-- The synthesisers that feed a section and are not LOCKED. -/
def unlockedSyns (s : State) (h i : Nat) : List Nat := (synsOf s h i).filter fun n => (synAt s h n).state != 3

/-- What keeps a READY or QUENCHED section from RAMPING, LO lock apart: the status of R37 (spec/01 R37; spec/08 R240,
R247). -/
def startBar (s : State) (h i : Nat) : Option Status :=
  if anyHold s || anyWait (secAt s h i) then some .state
  else if tableMissing s h i || !firebrickOk s h i then some .firebrickLimit
  else if (synsOf s h i).any (fun n => (synAt s h n).state == 4) then some .synthNotReady
  else none

/-- SECTION_START takes its effect: the latch, the recorded quenches and Q_SEQ are cleared, and the section enters RAMPING
(spec/01 R37; spec/06 R179, R180). -/
def startSection (h i : Nat) (s : State) : State := enterRamping h i (clearQuench h i s)

/-- A SECTION_START of the running tick takes its effect, before a SECTION_STOP of the tick or as the tick closes (spec/01 R37, R38). -/
def settleStart (h i : Nat) (s : State) : State :=
  if (secAt s h i).startDue then startSection h i (modSec h i (fun x => { x with startDue := false }) s) else s

/-- As the tick closes, a SECTION_START of it takes its effect; one that finds a hold or a wait cause of the tick replies STATE and changes
nothing (spec/01 R37, R38). -/
def closeStart (h i : Nat) (s : State) : State :=
  let x := secAt s h i
  if x.startDue && (anyHold s || anyWait x) then
    let mine (d : Due) : Bool := d.cmd.op == 0x0204 && d.cmd.hearth == h && d.cmd.sect == i && d.status == .ok
    modCpx (fun c => { c with due := c.due.map fun d => if mine d then { d with status := .state } else d })
      (modSec h i (fun y => { y with startDue := false }) s)
  else settleStart h i s

/-- Writes event 0x0715 for a start that finds no lock (spec/08 R240, R275). -/
def noLockEvent (h i : Nat) (s : State) : State := emit h 0x0715 [globalOf h i, (unlockedSyns s h i).headD 0] s

/-- A held SECTION_START is evaluated again once its LOs are locked (spec/08 R240). -/
def retryStart (h i : Nat) (c : Held) (s : State) : State :=
  let st := (secAt s h i).state
  if transmits st then endHeld c .ok [] s
  else if st = .cold then endHeld c .aborted [] s
  else match startBar s h i with
    | some r => endHeld c r [] (if r = .synthNotReady then noLockEvent h i s else s)
    | none => if losLocked s h i then let t := startSection h i s; endHeld c .ok [] t else s

/-- A lock is captured: held starts and sections that wait for lock are looked at again (spec/06 R181, spec/08 R240). -/
def locksArrived (h : Nat) (s : State) : State :=
  let t := each (List.range 8) (fun i u => if losLocked u h i then each (startHeld u h i) (retryStart h i) u else u) s
  lockWaiters h t

/-- Ends the held SECTION_START of a section with ABORTED (spec/08 R241). -/
def abortStart (h i : Nat) (s : State) : State := endHeldFor 0x0204 (globalOf h i) .aborted [] s

/-! ### SECTION_DEFINE and SECTION_DELETE -/

/-- On a group member, only the leader defines group-scoped sections (spec/03 R72, check 3): a device that acts as one
(log entry 40, DEDUCED). -/
def defineRule (p : Packet) (d : SecDef) (s : State) : Bool :=
  p.src == 0x41 || !followsLeader s || !(d.group || (secAt s p.hearth p.sect).defn.any (·.group))

/-- Unbinds every gain slot of a section. -/
def unbindSlots (h i : Nat) (s : State) : State := each (gainSlots s h i) (fun g => bindSlot h g.1 none) s

/-- Paths of a section. -/
def sectionPaths (i : Nat) : List Nat := (List.range 8).map fun j => 8 * i + j

/-- What acceptance of SECTION_DEFINE does; a split of the section stays, and with it EQ_DELAY (log entry 98, DESIGN CHOICE) (spec/03 R73, R82; spec/04 R126; spec/05 R143, R152; spec/06 R179, R182;
spec/10 R316, R321; spec/14 R426). -/
def applyDefine (h i : Nat) (ws : List Word) (s : State) : State :=
  let d := defOf ws
  let x := secAt s h i
  let fresh := x.state == .cold
  let regroup := (x.defn.any (·.group)) != d.group
  let t := abortStart h i s
  let t := dropStream 2 h i 1 (dropStream 2 h i 0 t)
  let t := refreshBudget h (each (sectionPaths i) (releasePath h) t)
  let t := each ((namedSlots d)) (fun e => bindSlot h e.1 (some (i, e.2))) (unbindSlots h i t)
  let t := modSec h i (fun y => { y with
    defn := some d, raw := ws, resume := false, waits := waitsFor s h d, latDl := (latenciesOf d y.split).1, latUl := (latenciesOf d y.split).2
    dg := [logMin, logMin, logMin, logMin], applied := [logMin, logMin, logMin, logMin], next := {}
    bdc := { y.bdc with defCount := incWrap 16 y.bdc.defCount, supp := [0, 0, 0, 0], suppOld := [[], [], [], []] }
    spa := { y.spa with
      cfg := if fresh then {} else y.spa.cfg, qSeq := 0, tddDir := if d.tdd then patternDir s h d.pattern (s.tbu.clock + s.tbu.tickLen) else 2 }
    air := if fresh then {} else { y.air with results := [] } }) t
  let t := each (sectionPaths i) (refreshLag h) t
  let t := redefineDmp fresh (if regroup then some d.group else none) h i t
  let t := applyLos h (losWith s h d) t
  let t := retrack h (refreshDg h (refreshGains h t))
  updateGates (s.tbu.clock + s.tbu.tickLen) h i (setSec h i .ready t)

/-- Handling of SECTION_DEFINE: the checks of R72 in order (spec/03 R72, R73). -/
def sectionDefine (p : Packet) (s : State) : Done :=
  let h := p.hearth
  let i := p.sect
  let d := defOf p.payload
  let st := secNow (secAt s h i)
  check (defineRule p d s) .notPermitted s <|
  check (st == .cold || st == .ready) .state s <|
  check (defFieldsOk p.payload) .badParam s <|
  check (ratioOk d) .badParam s <|
  check (passbandsOk d) .badParam s <|
  check (profileOk d) .badParam s <|
  check (bandsFit s h i d) .badParam s <|
  check (bandsClear s h i d) .badParam s <|
  check (losFree s h i d) .busy s <|
  check (!d.tdd || (activeBank (patternAt s h d.pattern)).isSome) .badParam s <|
  check (slotsFree s h i d) .badParam s <|
  check (slotsOpen s h i d) .loopClosed s <|
  .reply .ok [] (applyDefine h i p.payload s)

/-- SECTION_DEFINE (spec/03 R71). -/
def execSectionDefine (p : Packet) (s : State) : Out := .next (runCommand infoSectionDefine sectionDefine p s)

/-- On ROLE MEMBER or BACKUP, starting, stopping and deleting a group-scoped section belong to the leader and the autonomous
service (spec/15 R458). -/
def roleRule (p : Packet) (s : State) : Bool :=
  p.src == 0x41 || p.src == 0x42 || !(s.flu.role == 1 || s.flu.role == 3) || !((secAt s p.hearth p.sect).defn.any (·.group))

/-- What SECTION_DELETE does: resources are released, defaults return, chain LOs stay (spec/03 R87; spec/04 R126;
spec/05 R143, R152; spec/06 R180, R182; spec/10 R321; spec/14 R426). -/
def applyDelete (h i : Nat) (s : State) : State :=
  let t := abortStart h i s
  let t := dropStream 2 h i 1 (dropStream 2 h i 0 t)
  let t := refreshBudget h (each (sectionPaths i) (releasePath h) t)
  let t := redefineDmp true (some false) h i (clearQuench h i (unbindSlots h i t))
  let t := modSec h i (fun y => { y with
    defn := none, raw := [], resume := false, waits := {}, latDl := 0, latUl := 0, syncSettle := false, ncoRunning := false
    rxg := [0, 0, 0, 0], dg := [logMin, logMin, logMin, logMin], applied := [logMin, logMin, logMin, logMin]
    request := [logMin, logMin, logMin, logMin], next := {}
    bdc := { y.bdc with defCount := incWrap 16 y.bdc.defCount, supp := [0, 0, 0, 0], suppOld := [[], [], [], []] }
    spa := { y.spa with cfg := {}, waitGate := false, quenchGate := false, checkGate := false, muteRamp := false }
    air := {}, split := {} }) t
  retrack h (refreshDg h (updateGates (s.tbu.clock + s.tbu.tickLen) h i (setSec h i .cold t)))

/-- Handling of SECTION_DELETE (spec/01 R37, spec/03 R87, spec/15 R458). -/
def sectionDelete (p : Packet) (s : State) : Done :=
  let st := secNow (secAt s p.hearth p.sect)
  check (roleRule p s) .notPermitted s <|
  check (st == .ready || st == .quenched) .state s <|
  .reply .ok [] (applyDelete p.hearth p.sect s)

/-- SECTION_DELETE (spec/03 R87). -/
def execSectionDelete (p : Packet) (s : State) : Out := .next (runCommand infoSectionDelete sectionDelete p s)

/-- SEC_STATUS of a section (spec/03 R94). -/
def secStatus (s : State) (h i : Nat) : Word :=
  let x := secAt s h i
  wordOf [(0, 3, secCode x.state), (3, 1, bit x.resume), (4, 1, bit x.spa.latched), (5, 1, bit x.downRamp.isSome), (6, 1, bit x.syncSettle),
    (8, 4, (flags4 x.fbClip : Nat)), (12, 4, (flags4 x.held : Nat)), (16, 1, bit (anyHold s)), (17, 1, bit x.waits.digest),
    (18, 1, bit (x.waits.timing || x.waits.frame)), (19, 1, bit x.waits.shed)]

/-- Handling of SECTION_QUERY (spec/03 R88). -/
def querySection (p : Packet) (s : State) : Done :=
  let x := secAt s p.hearth p.sect
  .reply .ok ((List.range 8).map (wordAt x.raw) ++ [secStatus s p.hearth p.sect, wordOf [(0, 24, x.latDl)], wordOf [(0, 24, x.latUl)]]) s

/-- SECTION_QUERY (spec/03 R88). -/
def execSectionQuery (p : Packet) (s : State) : Out := .next (runCommand infoSectionQuery querySection p s)

/-! ### SECTION_START and SECTION_STOP -/

/-- Handling of SECTION_START: the section enters RAMPING as the tick closes, unless a hold or a wait cause of the tick comes before it
(spec/01 R37, R38; spec/03 R89; spec/08 R240, R241). -/
def sectionStart (p : Packet) (s : State) : Done :=
  let h := p.hearth
  let i := p.sect
  let st := secNow (secAt s h i)
  check (roleRule p s) .notPermitted s <|
  check (st != .cold) .state s <|
  if transmits st then .reply .ok [] s
  else
    check ((startHeld s h i).isEmpty) .busy s <|
    match startBar s h i with
    | some r => .reply r [] (if r = .synthNotReady then noLockEvent h i s else s)
    | none =>
      if losLocked s h i then .reply .ok [] (modSec h i (fun x => { x with startDue := true }) s)
      else .hold (globalOf h i) (some (s.tbu.tick + (hearthAt s h).rfc.synthWait)) s

/-- SECTION_START (spec/03 R89). -/
def execSectionStart (p : Packet) (s : State) : Out := .next (runCommand infoSectionStart sectionStart p s)

/-- What SECTION_STOP does in each state (spec/01 R37; spec/06 R180; spec/08 R241). -/
def applyStop (h i : Nat) (s : State) : State :=
  let x := secAt s h i
  let t := modSec h i (fun y => { y with stopTick := some s.tbu.tick }) (clearQuench h i (abortStart h i s))
  match x.state with
  | .quenched => stopQuenched h i t
  | .ready => modSec h i (fun y => { y with resume := false }) t
  | .cold => s
  | _ => modSec h i (fun y => { y with downRamp := y.downRamp.map fun r => { r with resume := false } }) (startDown 256 false h i t)

/-- Handling of SECTION_STOP (spec/01 R37; spec/03 R89). A stop from any source but the autonomous service ends the automatic
restart of a split section (spec/15 R471). -/
def sectionStop (p : Packet) (s : State) : Done :=
  let h := p.hearth
  let i := p.sect
  check (roleRule p s) .notPermitted s <|
  check ((secAt s h i).state != .cold) .state s <|
  let t := if p.src = 0x42 then s else modSec h i (fun x => { x with split := { x.split with stoppedByLoss := false } }) s
  .reply .ok [] (applyStop h i (settleStart h i t))

/-- SECTION_STOP (spec/03 R89). -/
def execSectionStop (p : Packet) (s : State) : Out := .next (runCommand infoSectionStop sectionStop p s)

/-! ### Events of sections -/

/-- LIVE or DAMPED, as held decides; A_ref of thermal derating is taken as the section leaves RAMPING
(spec/01 R37, spec/19 R558; log entry 37, DEDUCED). -/
def enterLive (h i : Nat) (s : State) : State :=
  let x := secAt s h i
  let t := modSec h i (fun y => { y with heldFalse := 0, aRef := if y.state = .ramping then y.applied else y.aRef }) s
  setSec h i (if x.next.held.any id then .damped else .live) t

/-- Every gain slot of a section is ramp-done (spec/07 R203). -/
def rampDone (s : State) (h i : Nat) : Bool := (gainSlots s h i).all fun g => !sendsIdx (secAt s h i) g.2 || (loopAt s h g.1).rampDone

/-- A section whose ramp is complete leaves RAMPING (spec/01 R37, spec/07 R203). -/
def endRamp (h i : Nat) (s : State) : State :=
  let x := secAt s h i
  if present s h && x.state == .ramping && x.downRamp.isNone && decide (0 < x.rampTicks) && rampDone s h i then
    each (gainSlots s h i) (fun g => modLoop h g.1 fun l => { l with ramping := false }) (enterLive h i s)
  else s

/-- SECTION_RAMP_DONE (spec/01 R37, spec/07 R203). -/
def execSectionRampDone (h i : Nat) (s : State) : Out := .next (endRamp h i s)

/-- Held has been false in 480 consecutive ticks (spec/01 R37). -/
def undamp (h i : Nat) (s : State) : State :=
  let x := secAt s h i
  if present s h && x.state == .damped && x.downRamp.isNone && !x.next.held.any id && decide (480 ≤ x.heldFalse) then setSec h i .live s else s

/-- SECTION_UNDAMP (spec/01 R37). -/
def execSectionUndamp (h i : Nat) (s : State) : Out := .next (undamp h i s)

/-- A down-ramp ends: READY, with RESUME as the ramp leaves it. A ramp of 1 tick holds the gates of a TDD section closed
until the section leaves READY (spec/01 R34, R36; spec/06 R172). -/
def endDown (h i : Nat) (r : DownRamp) (s : State) : State :=
  let t := modSec h i (fun x => { x with
    resume := r.resume, downRamp := none
    spa := { x.spa with waitGate := decide (r.len = 1), muteRamp := false, okTicks := 0 } }) s
  let t := each (gainSlots t h i) (fun g => modLoop h g.1 fun l => { l with ramping := false }) t
  drain (updateGates (s.tbu.clock + s.tbu.tickLen) h i (setSec h i .ready t))

/-- A down-ramp whose last tick is running ends with it (spec/01 R34, R36). -/
def downRampTick (h i : Nat) (s : State) : State :=
  match (secAt s h i).downRamp with
  | some r => if present s h && decide (r.endTick ≤ s.tbu.tick) then endDown h i r s else s
  | none => s

/-- DOWN_RAMP_END (spec/01 R34, R36). -/
def execDownRampEnd (h i : Nat) (s : State) : Out := .next (downRampTick h i s)

/-- A READY section with RESUME set, without hold or wait cause, is checked in the tick in which it would enter RAMPING
(spec/01 R37; spec/08 R240, R242). -/
def resumeSection (h i : Nat) (s : State) : State :=
  let x := secAt s h i
  if present s h && x.state == .ready && x.resume && !anyHold s && !anyWait x && (s.pkg == .ember || s.pkg == .alight)
      && !(hearthAt s h).fbCopyBad && losLocked s h i then
    if tableMissing s h i || !firebrickOk s h i then modSec h i (fun y => { y with resume := false }) s else enterRamping h i s
  else s

/-- SECTION_RESUME (spec/01 R37). -/
def execSectionResume (h i : Nat) (s : State) : Out := .next (resumeSection h i s)

/-- GRT_CTRL.TXSAT_CLR (spec/03 R92). -/
def execGrtTxsatClr (h : Nat) (s : State) : Out :=
  .next (if present s h && writable s then modHearth h (fun x => { x with grt := { x.grt with txSat := [0, 0, 0, 0] } }) s else s)

/-- SEC_CTRL.SAT_CLR (spec/03 R94). -/
def execSecSatClr (h i : Nat) (s : State) : Out :=
  .next (if present s h && writable s then modSec h i (fun x => { x with satRx := 0, satTx := 0, grtShown := x.grtShown.set 5 0 }) s else s)

end Sys2Proof.Machine
end

