-- ==== Sys2Proof/Machine/Radio.lean ====
section
/-! DEFINITION. Machine/Radio.lean: synthesiser events, port power, the front-end sequencer's commands and events
(spec/08 R237 to R268). -/

namespace Sys2Proof.Machine

/-! ### Synthesisers -/

/-- Evaluates the gates of a hearth for the boundary that closes the running tick (spec/06 R171). -/
def hearthGates (h : Nat) (s : State) : State :=
  each (List.range 8) (updateGates (s.tbu.clock + s.tbu.tickLen) h) s

/-- A synthesiser is in a channel change. -/
def tuning (x : Syn) : Bool := x.state == 1 || x.state == 2

/-- A lock is captured: the channel change has completed after `ns` nanoseconds, and held starts and sections that wait for it are looked
at again (spec/02 R43; spec/08 R237, R238, R240, R242, R275). -/
def synLocked (h n ns : Nat) (s : State) : State :=
  if tuning (synAt s h n) then
    let time := satCount 8 (ceilDiv ns 250)
    let t := clearSource h (64 + n) (modSyn h n (fun x => { x with changes := incSat 16 x.changes, time := time, tries := 0 }) s)
    let t := emit h 0x0711 ([n] ++ bytesOf 4 (synAt t h n).freq ++ [time]) (setSyn h n 3 t)
    locksArrived h (hearthGates h t)
  else s

/-- SYN_LOCKED: the next tick captures the lock (spec/02 R43; spec/08 R237). -/
def execSynLocked (h n ns : Nat) (s : State) : Out :=
  .next (if present s h && decide (n < 4) && tuning (synAt s h n) then arrive (.synLocked h n ns) s else s)

/-- A failed attempt is captured: a further one begins, or the third failure in a row leads to FAULT (spec/02 R43; spec/08 R238). -/
def synFailed (h n : Nat) (s : State) : State :=
  if tuning (synAt s h n) then
    let t := modSyn h n (fun x => { x with fails := incSat 8 x.fails, tries := x.tries + 1 }) s
    if 3 ≤ (synAt t h n).tries then holdSource h (68 + n) (clearSource h (64 + n) (setSyn h n 4 t)) else setSyn h n 1 t
  else s

/-- SYN_ATTEMPT_FAIL: the next tick captures the failure (spec/02 R43; spec/08 R238). -/
def execSynAttemptFail (h n : Nat) (s : State) : Out :=
  .next (if present s h && decide (n < 4) && tuning (synAt s h n) then arrive (.synFailed h n) s else s)

/-- A loss of lock is captured: sections that transmit through the synthesiser are quenched, and the channel change is repeated
(spec/02 R43; spec/06 R177; spec/08 R238). -/
def synLost (h n : Nat) (s : State) : State :=
  if (synAt s h n).state == 3 && (synAt s h n).lostAt.isSome then
    let users := (List.range 8).filter fun i => (synsOf s h i).contains n
    let t := holdSource h (64 + n) (modSyn h n (fun x => { x with lockLoss := incSat 8 x.lockLoss }) s)
    hearthGates h (repeatSyn h n (each users (quench 2 n h) t))
  else s

/-- SYN_LOCK_LOST: the gates that need the synthesiser close at its DSP clock, and the next tick captures the loss (spec/02 R43; spec/06
R171, R177; spec/08 R238). -/
def execSynLockLost (h : Nat) (x : LockLoss) (s : State) : Out :=
  .next <|
    if present s h && decide (x.n < 4) && inTick s x.clk && (synAt s h x.n).state == 3 && (synAt s h x.n).lostAt.isNone then
      arrive (.synLost h x.n) (each (List.range 8) (updateGates x.clk h) (modSyn h x.n (fun y => { y with lostAt := some x.clk }) s))
    else s

/-- A held SECTION_START whose locks have not all been captured by its SYNTH_WAIT replies SYNTH_NOT_READY (spec/08 R240). -/
def synthWaitDue (h i : Nat) (s : State) : State :=
  if present s h then
    each ((startHeld s h i).filter fun c => c.deadline.any fun d => decide (d ≤ s.tbu.tick)) (fun c t =>
      if losLocked t h i then retryStart h i c t
      else endHeld c .synthNotReady [] (noLockEvent h i t)) s
  else s

/-- SYNTH_WAIT_EXPIRY (spec/08 R240). -/
def execSynthWaitExpiry (h i : Nat) (s : State) : Out := .next (synthWaitDue h i s)

/-! ### Gains follow a port -/

/-- Publishes the gains and the digital gains of a hearth again (spec/08 R243, R248). -/
def refreshPort (h : Nat) (s : State) : State := refreshDg h (refreshGains h s)

/-- The digital-gain range holds for an x of R243. -/
def splitMiss (x : Int) : Nat := if x < -16384 then (-16384 - x).toNat else if 12288 < x then (x - 12288).toNat else 0

/-- Sections that transmit on a port. -/
def portUsers (s : State) (h c : Nat) : List Nat := (usersOf s h c).filter fun i => transmits (secAt s h i).state && sendsIdx (secAt s h i) c

/-- FS_DBM of a step moved by `d`, within the table (spec/08 R251). -/
def fsMoved (x : Port) (d : Int) : LogQ := fsAt x (clampInt 0 255 ((x.step : Int) + d)).toNat

/-- The largest distance of an x of the port from the range, with the step moved by `d` (spec/08 R251). -/
def missAt (s : State) (h c : Nat) (d : Int) : Nat :=
  let x := portAt s h c
  ((portUsers s h c).map fun i => splitMiss (splitOf s h i c + x.fsDbm - fsMoved x d)).foldl max 0

/-- Changes of a step by magnitude, the lower step first among equals. -/
def stepMoves : List Int := 0 :: (List.range 24).flatMap fun (k : Nat) => [-((k : Int) + 1), (k : Int) + 1]

/-- The change that an evaluation of a port out of range chooses: the smallest that brings every x into the range, or the
one that comes nearest (spec/08 R251). -/
def rangeMove (s : State) (h c : Nat) : Int :=
  match stepMoves.find? fun d => missAt s h c d == 0 with
  | some d => d
  | none =>
    let all := (List.range 49).map fun (k : Nat) => (k : Int) - 24
    let best := (all.map (missAt s h c)).foldl min (missAt s h c 0)
    (all.find? fun d => missAt s h c d == best).getD 0

/-- The largest part of a change that keeps every x in the range (spec/08 R251). -/
def reduceMove (s : State) (h c : Nat) : Nat → Int → Int
  | 0, d => d
  | n + 1, d => if d = 0 ∨ missAt s h c d = 0 then d else reduceMove s h c n (if d < 0 then d + 1 else d - 1)

/-- The change that an evaluation of a port within range chooses, if any (spec/08 R251). -/
def sumMove (s : State) (h c : Nat) : Int :=
  let x := portAt s h c
  match x.pkNow with
  | none => 0
  | some pk =>
    let dev := pk - x.cfg.sumTgt
    if decide ((dev.natAbs : Int) ≤ x.cfg.sumHyst) && !x.satSince then 0
    else
      let d := roundDiv dev 64
      reduceMove s h c 24 (clampInt (-24) 24 (if x.satSince then max d 4 else d))

/-- An AUTO port chooses a step change every 480 ticks (spec/08 R251). -/
def evaluatePort (h n : Nat) (s : State) : State :=
  let x := portAt s h n
  if present s h && decide (n < 4) && x.cfg.auto && s.tbu.tick % 480 == 0 then
    let d := if x.change.isSome then 0 else if missAt s h n 0 ≠ 0 then rangeMove s h n else sumMove s h n
    let t := modPort h n (fun y => { y with sumPk := y.pkNow.getD y.sumPk, pkNow := none, satSince := false }) s
    if d = 0 then t
    else
      let target := (clampInt x.cfg.stepMin x.cfg.stepMax ((x.step : Int) + d)).toNat
      if target = x.step then t else stageStep h n target 1 t
  else s

/-- PORT_EVALUATION (spec/08 R251). -/
def execPortEvaluation (h n : Nat) (s : State) : Out := .next (evaluatePort h n s)

/-- A TRIM that has differed for 480 ticks is offered for commit (spec/08 R249). -/
def trimDelayDue (h n : Nat) (s : State) : State :=
  let x := portAt s h n
  if present s h && x.trimWant != x.trim && x.trimSince.any (fun t => decide (t + 480 ≤ s.tbu.tick + 1)) then
    modPort h n (fun y => { y with trimDue := true }) s else s

/-- TRIM_DELAY_EXPIRY (spec/08 R249). -/
def execTrimDelayExpiry (h n : Nat) (s : State) : Out := .next (trimDelayDue h n s)

/-! ### Compensation -/

/-- D_T at a temperature in 1/64 °C, in units of 1/2^16 of LogQ: linear between −40, 0, 50, 100 and 150 °C, end values outside
(spec/08 R248). -/
def tempDev (corr : List Int) (t : Int) : Int :=
  let at_ (k : Nat) : Int := corr.getD k 0 * 65536
  let line (k : Nat) (lo : Int) (span : Nat) : Int := at_ k + roundDiv ((at_ (k + 1) - at_ k) * (t - lo)) span
  if t ≤ -2560 then at_ 0
  else if t < 0 then line 0 (-2560) 2560
  else if t < 3200 then line 1 0 3200
  else if t < 6400 then line 2 3200 3200
  else if t < 9600 then line 3 6400 3200
  else at_ 4

/-- D_V in 1/1000 of LogQ for a supply in mV (spec/08 R248). -/
def supplyDev (c : PortCfg) (mv : Nat) : Int := c.supSlope * ((mv : Int) - c.vCal)

/-- D_V of a port in a tick: 0 without a source, from the source's last reading while it can be read, and otherwise its last valid
value (spec/08 R248). -/
def supDevNow (x : Port) : Int :=
  if x.cfg.supSrc = 0 then 0 else if x.supSeen && !x.supStale then supplyDev x.cfg x.supMv else x.supDev

/-- COMP of a port at a zone temperature (spec/08 R248). -/
def compOf (x : Port) (temp : Int) : LogQ :=
  clampInt (-1536) 1536 (-(roundDiv (tempDev x.cfg.tempCorr temp * 1000 + supDevNow x * 65536) 65536000))

/-- The supply reading of a port, or its failure (spec/08 R248). -/
def takeSupply (mv : Option Nat) (x : Port) : Port :=
  match mv with
  | some v => { x with supMv := satCount 16 v, supSeen := true, supStale := false }
  | none => { x with supStale := true }

/-- Compensation of the ports of a hearth in a tick; `vdda` is the on-chip monitor's reading (spec/08 R248). -/
def portTick (vdda : Option Nat) (h : Nat) (s : State) : State :=
  let thm := (hearthAt s h).thm
  each (List.range 4) (fun c => modPort h c fun x =>
    let y := if x.cfg.supSrc = 1 then takeSupply vdda x else x
    { y with supDev := supDevNow y, comp := compOf y (zoneTemp thm y.cfg.tempZone) }) s

/-- READ_VOUT in mV under a linear VOUT_MODE; none for another mode (spec/08 R248). -/
def voutMv (mode raw : Nat) : Option Nat :=
  let e := signedOf 5 (mode % 32)
  if mode / 32 % 8 ≠ 0 then none
  else if 0 ≤ e then some (raw * 1000 * 2 ^ e.toNat)
  else some (roundDiv (raw * 1000 : Nat) (2 ^ e.natAbs)).toNat

/-- PMBUS_SUPPLY_READ: READ_VOUT as read, or none when the device does not answer (spec/08 R248). -/
def execPmbusSupplyRead (h n : Nat) (value : Option Nat) (s : State) : Out :=
  .next <|
    let x := portAt s h n
    if present s h && decide (n < 4) && x.cfg.supSrc == 2 then
      modPort h n (takeSupply (value.bind fun v => voutMv x.voutMode (v % 65536))) s
    else s

/-! ### Power step tables -/

/-- A step's fields are in range (spec/08 R246). -/
def stepOk (e : Word × Word) : Bool :=
  decide (-6144 ≤ sfld e.2 0 16) && decide (sfld e.2 0 16 ≤ 1536) && decide (fld e.2 16 6 ≤ 48) && zeroAt e.2 22 10

/-- FS_DBM of a step as word 0 holds it. -/
def stepFs (e : Word × Word) : LogQ := sfld e.1 0 16

/-- FS_DBM does not fall from one held step to the next that is held (spec/08 R246, R263). -/
def tableRises (m : KMap (Word × Word)) : Bool :=
  (m.zip (m.drop 1)).all fun e => decide (stepFs e.1.2 ≤ stepFs e.2.2)

/-- Adds steps to a port's table; it is valid once all 256 have been loaded or written (spec/08 R246). -/
def putSteps (es : List (Nat × Word × Word)) (x : Port) : Port :=
  let written := (List.range 256).filter fun k => x.written.contains k || es.any fun e => e.1 == k
  { x with table := es.foldl (fun m e => kset m e.1 e.2) x.table, written := written, tableValid := decide (written.length = 256) }

/-- Steps that pairs of words hold, from step `first`. -/
def stepPairs (ws : List Word) (first count : Nat) : List (Nat × Word × Word) :=
  (List.range count).map fun k => (first + k, wordAt ws (2 * k), wordAt ws (2 * k + 1))

/-- Loads a port's table from the calibration set (spec/08 R246, spec/11 R340, R341). -/
def loadTable (h c : Nat) (s : State) : State :=
  let t := itemCheck (itemId 4 h c) s
  match workItem s (itemId 4 h c) with
  | some ws => modPort h c (putSteps (stepPairs ws 0 256)) t
  | none => t

/-- A port's table is loaded again after an ECC error (spec/08 R274). -/
def reloadTable (h n : Nat) (s : State) : State := refreshPort h (loadTable h n (modPort h n (fun x => { x with eccReload := none }) s))

/-- STEP_TABLE_RELOAD: after an ECC error (spec/08 R274). -/
def execStepTableReload (h n : Nat) (s : State) : Out :=
  .next (if present s h && (portAt s h n).eccReload.isSome then reloadTable h n s else s)

/-- The table has been loaded again by the last of its 480 ticks (spec/08 R274). -/
def tableDue (h n : Nat) (s : State) : State :=
  if (portAt s h n).eccReload.any (fun c => decide (c ≤ s.tbu.tick)) then reloadTable h n s else s

/-- Length rule of PWR_TABLE_WRITE (spec/08 R263). -/
def tableLength (ws : List Word) : Bool := ws.length == 1 + 2 * fld (wordAt ws 0) 16 9

/-- Handling of PWR_TABLE_WRITE (spec/08 R263; log entry 43, DEDUCED). -/
def pwrTableWrite (p : Packet) (s : State) : Done :=
  let w := wordAt p.payload 0
  let c := fld w 0 2
  let first := fld w 8 8
  let count := fld w 16 9
  let es := stepPairs (p.payload.drop 1) first count
  let ok (h : Nat) : Bool := tableRises (es.foldl (fun m e => kset m e.1 e.2) (portAt s h c).table)
  check (zeroAt w 2 6 && zeroAt w 25 7 && count != 0 && decide (first + count ≤ 256) && es.all (fun e => stepOk e.2)
    && (targets p s).all ok) .badParam s <|
  check (!(targets p s).any fun h => busyIdx s h c) .busy s <|
  .reply .ok [] (each (targets p s) (fun h t => refreshPort h (modPort h c (putSteps es) t)) s)

/-- PWR_TABLE_WRITE (spec/08 R263). -/
def execPwrTableWrite (p : Packet) (s : State) : Out :=
  .next (runCommandWith infoPwrTableWrite (tableLength p.payload) pwrTableWrite p s)

/-! ### RADIO_CONFIG and PWR_PORT_CONFIG -/

/-- RX_ATT fields of word 0 of R262. -/
def rxAttOf (w : Word) : List Nat := (List.range 4).map fun k => fld w (8 * k) 5

/-- Fields of RADIO_CONFIG are in range (spec/08 R262). -/
def radioOk (ws : List Word) : Bool :=
  let w0 := wordAt ws 0
  let w1 := wordAt ws 1
  let w2 := wordAt ws 2
  (List.range 4).all (fun k => zeroAt w0 (8 * k + 5) 3) && (rxAttOf w0).all (fun a => decide (a ≤ 30))
    && decide (fld w1 0 5 ≤ 30) && decide (fld w1 8 5 ≤ 30) && zeroAt w1 5 3 && zeroAt w1 13 3 && zeroAt w1 20 12
    && decide (1 ≤ fld w2 0 10) && decide (fld w2 0 10 ≤ 960) && zeroAt w2 10 22

/-- An ORX serves a path in RUN (spec/08 R262). -/
def orxRuns (s : State) (h o : Nat) : Bool :=
  (enabledPaths s h).any fun p => pathUses (pathAt s h p) p (8 + o) && (pathAt s h p).mode == 0

/-- A changed attenuation that RADIO_CONFIG may not change (spec/08 R262). -/
def radioBusy (ws : List Word) (h : Nat) (s : State) : Bool :=
  let r := (hearthAt s h).rfc
  (List.range 4).any (fun k => (rxAttOf (wordAt ws 0)).getD k 0 != r.rxAtt.getD k 0 && busyIdx s h k)
    || (List.range 2).any fun o => fld (wordAt ws 1) (8 * o) 5 != r.orxAtt.getD o 0 && orxRuns s h o

/-- Applies RADIO_CONFIG to a hearth: changed chains are loaded again (spec/08 R238, R239, R262; spec/09 R290). -/
def applyRadio (ws : List Word) (h : Nat) (s : State) : State :=
  let r := (hearthAt s h).rfc
  let rx := rxAttOf (wordAt ws 0)
  let orx := [fld (wordAt ws 1) 0 5, fld (wordAt ws 1) 8 5]
  let t := modRfc h (fun x => { x with rxAtt := rx, orxAtt := orx, synthWait := fld (wordAt ws 2) 0 10 }) s
  let t := each ((List.range 4).filter fun k => rx.getD k 0 != r.rxAtt.getD k 0) (reloadChain h) t
  let t := each ((List.range 2).filter fun o => orx.getD o 0 != r.orxAtt.getD o 0) (fun o => reloadChain h (8 + o)) t
  let again := (maskBits 4 (fld (wordAt ws 1) 16 4)).filter fun n => (synAt t h n).state == 4
  refreshDg h (each again (repeatSyn h) t)

/-- Handling of RADIO_CONFIG (spec/08 R262). -/
def radioConfig (p : Packet) (s : State) : Done :=
  check (radioOk p.payload) .badParam s <|
  check (!(targets p s).any fun h => radioBusy p.payload h s) .busy s <|
  .reply .ok [] (each (targets p s) (applyRadio p.payload) s)

/-- RADIO_CONFIG (spec/08 R262). -/
def execRadioConfig (p : Packet) (s : State) : Out := .next (runCommand infoRadioConfig radioConfig p s)

/-- The configuration of a PWR_PORT_CONFIG payload (spec/08 R264). -/
def portCfgOf (ws : List Word) : PortCfg :=
  let w (k : Nat) : Word := wordAt ws k
  { auto := bitOf (w 0) 4, step := fld (w 0) 8 8, stepMin := fld (w 1) 0 8, stepMax := fld (w 1) 8 8, sumTgt := sfld (w 1) 16 16
    sumHyst := sfld (w 2) 0 16, tempZone := fld (w 2) 16 3, supSrc := fld (w 2) 20 2
    tempCorr := [sfld (w 3) 0 16, sfld (w 3) 16 16, sfld (w 4) 0 16, sfld (w 4) 16 16, sfld (w 5) 0 16], supSlope := sfld (w 5) 16 16
    vCal := fld (w 6) 0 16, pmAddr := fld (w 6) 16 7, pmPage := fld (w 6) 24 8 }

/-- A correction lies in −6.0 to +6.0 dB (spec/08 R264). -/
def corrOk (x : Int) : Bool := decide (-1536 ≤ x) && decide (x ≤ 1536)

/-- Fields of PWR_PORT_CONFIG are in range (spec/08 R264). -/
def portCfgOk (ws : List Word) : Bool :=
  let c := portCfgOf ws
  zeroAt (wordAt ws 0) 2 2 && zeroAt (wordAt ws 0) 5 3 && zeroAt (wordAt ws 0) 16 16 && decide (c.stepMin ≤ c.stepMax)
    && decide (-7680 ≤ c.sumTgt) && decide (c.sumTgt ≤ -768) && decide (128 ≤ c.sumHyst) && decide (c.sumHyst ≤ 1536)
    && zeroAt (wordAt ws 2) 19 1 && zeroAt (wordAt ws 2) 22 10 && c.supSrc != 3 && c.tempCorr.all corrOk && corrOk c.supSlope
    && zeroAt (wordAt ws 6) 23 1

/-- Applies PWR_PORT_CONFIG: a supply source that changes starts without a value; VOUT_MODE is read once for PMBus; a step
that differs is staged (spec/08 R245, R248, R252, R264; log entries 6, 43). -/
def applyPort (ws : List Word) (h : Nat) (s : State) : State :=
  let c := fld (wordAt ws 0) 0 2
  let g := portCfgOf ws
  let same := (portAt s h c).cfg.supSrc == g.supSrc
  let f := takeFree s
  let s1 := if g.supSrc = 2 then f.2 else s
  let t := modPort h c (fun x => { x with
    cfg := g, supDev := if same then x.supDev else 0, supSeen := same && x.supSeen, supStale := same && x.supStale
    voutMode := if g.supSrc = 2 then f.1.toNat % 256 else x.voutMode }) s1
  stageStep h c (if g.auto then (clampInt g.stepMin g.stepMax g.step).toNat else g.step) 0 t

/-- Handling of PWR_PORT_CONFIG (spec/08 R264). -/
def pwrPortConfig (p : Packet) (s : State) : Done :=
  check (portCfgOk p.payload) .badParam s <|
  .reply .ok [] (each (targets p s) (applyPort p.payload) s)

/-- PWR_PORT_CONFIG (spec/08 R264). -/
def execPwrPortConfig (p : Packet) (s : State) : Out := .next (runCommand infoPwrPortConfig pwrPortConfig p s)

/-! ### Front-end sequencer commands -/

/-- RFFE and SPI dividers of FES_CONFIG (spec/08 R265). -/
def rffeOf (ws : List Word) : List Nat :=
  [fld (wordAt ws 0) 0 12, fld (wordAt ws 0) 16 12, fld (wordAt ws 1) 0 12, fld (wordAt ws 1) 16 12]

/-- SPI dividers of FES_CONFIG. -/
def spiOf (ws : List Word) : List Nat := [fld (wordAt ws 2) 0 12, fld (wordAt ws 2) 16 12]

/-- Fields of FES_CONFIG are in range (spec/08 R255, R265). -/
def fesOk (ws : List Word) : Bool :=
  [0, 1].all (fun k => zeroAt (wordAt ws k) 12 4 && zeroAt (wordAt ws k) 28 4)
    && zeroAt (wordAt ws 2) 14 2 && zeroAt (wordAt ws 2) 30 2
    && (rffeOf ws).all (fun d => decide (19 ≤ d)) && (spiOf ws).all fun d => decide (10 ≤ d)

/-- Handling of FES_CONFIG (spec/08 R258, R265). -/
def fesConfig (p : Packet) (s : State) : Done :=
  let ws := p.payload
  check (fesOk ws) .badParam s <|
  check (!(targets p s).any (sequencesRun s)) .busy s <|
  check ((targets p s).all fun h => limitsOk (hearthAt s h).fes (rffeOf ws) (spiOf ws)) .budget s <|
  .reply .ok [] (each (targets p s) (fun h => modFes h fun f => { f with
    rffeDiv := rffeOf ws, spiDiv := spiOf ws, spiMode := [fld (wordAt ws 2) 12 2, fld (wordAt ws 2) 28 2] }) s)

/-- FES_CONFIG (spec/08 R265). -/
def execFesConfig (p : Packet) (s : State) : Out := .next (runCommand infoFesConfig fesConfig p s)

/-- The pin of a FES_GPIO_CONFIG payload (spec/08 R266). -/
def gpioOf (ws : List Word) : Gpio :=
  let w := wordAt ws 0
  { func := fld w 8 4, idx := fld w 12 3, pattern := fld w 16 3, pol := bitOf w 20, init := bitOf w 21
    lead := fld (wordAt ws 1) 0 12, lag := fld (wordAt ws 1) 16 12 }

/-- IDX is in the range of its function (spec/08 R253). -/
def gpioIdxOk (g : Gpio) : Bool :=
  match g.func with
  | 0 | 1 => true
  | 4 => decide (g.idx ≤ 3)
  | 2 | 3 | 5 | 6 => decide (g.idx ≤ 1)
  | _ => false

/-- Two pins that may not stand together (spec/08 R266). -/
def gpioClash (a b : Gpio) : Bool :=
  (a.func == 2 || a.func == 3 || a.func == 4 || a.func == 5) && a.func == b.func && a.idx == b.idx

/-- The pin that the power-fail warning holds at INPUT (spec/20 R579). -/
def powerFailPin (s : State) (h n : Nat) : Bool :=
  h == 0 && bitOf (recordWord s 6) 3 && fld (recordWord s 6) 4 4 == n

/-- FES_GPIO_CONFIG is one that a hearth accepts (spec/08 R253, R266; spec/20 R579). -/
def gpioOk (ws : List Word) (h : Nat) (s : State) : Bool :=
  let w := wordAt ws 0
  let n := fld w 0 4
  let others := (List.range 16).filter (· != n)
  zeroAt w 4 4 && zeroAt w 15 1 && zeroAt w 19 1 && zeroAt w 22 10 && zeroAt (wordAt ws 1) 12 4 && zeroAt (wordAt ws 1) 28 4
    && gpioIdxOk (gpioOf ws) && !powerFailPin s h n
    && !others.any fun m => gpioClash (gpioOf ws) ((hearthAt s h).fes.gpio.getD m {})

/-- Handling of FES_GPIO_CONFIG (spec/08 R266). -/
def fesGpioConfig (p : Packet) (s : State) : Done :=
  let n := fld (wordAt p.payload 0) 0 4
  check ((targets p s).all fun h => gpioOk p.payload h s) .badParam s <|
  check (!(targets p s).any (hearthTransmits s)) .busy s <|
  .reply .ok [] (each (targets p s) (fun h t =>
    driveTdd h (t.tbu.clock + t.tbu.tickLen) (modFes h (fun f => { f with
      gpio := f.gpio.set n (gpioOf p.payload), tddLine := kerase f.tddLine n }) t)) s)

/-- FES_GPIO_CONFIG (spec/08 R266). -/
def execFesGpioConfig (p : Packet) (s : State) : Out := .next (runCommand infoFesGpioConfig fesGpioConfig p s)

/-- Length rule of FES_SEQ_WRITE (spec/08 R267). -/
def seqLength (ws : List Word) : Bool := ws.length == 2 + 2 * fld (wordAt ws 0) 16 11

/-- The sequencer as a FES_SEQ_WRITE leaves it (spec/08 R256, R267). -/
def seqApplied (ws : List Word) (f : Fes) : Fes :=
  let first := fld (wordAt ws 0) 0 10
  let event := fld (wordAt ws 1) 0 5
  let es := stepPairs (ws.drop 2) first (fld (wordAt ws 0) 16 11)
  { f with
    seqs := es.foldl (fun m e => if e.2 = (0, 0) then kerase m e.1 else kset m e.1 e.2) f.seqs
    map := if event = 0 then f.map else kset f.map event (fld (wordAt ws 1) 16 10) }

/-- Fields and sequences of FES_SEQ_WRITE (spec/08 R257, R267). -/
def seqFieldsOk (ws : List Word) (f : Fes) : Bool :=
  let w0 := wordAt ws 0
  let w1 := wordAt ws 1
  let first := fld w0 0 10
  let count := fld w0 16 11
  let g := seqApplied ws f
  zeroAt w0 10 6 && zeroAt w0 27 5 && zeroAt w1 5 11 && zeroAt w1 26 6 && decide (1 ≤ count) && decide (first + count ≤ 1024)
    && decide (fld w1 0 5 ≤ 20) && (stepPairs (ws.drop 2) first count).all (fun e => entryOk e.2)
    && g.map.all fun e => sequenceOk g e.1 e.2

/-- Events whose sequence a FES_SEQ_WRITE touches: its map entry changes, or an entry of it is written (spec/08 R267). -/
def seqTouched (ws : List Word) (f : Fes) : List Nat :=
  let first := fld (wordAt ws 0) 0 10
  let last := first + fld (wordAt ws 0) 16 11
  let event := fld (wordAt ws 1) 0 5
  (f.map.filter fun e => e.1 == event ||
    (List.range ((sequenceFrom f.seqs 1024 e.2).1.length + 1)).any fun k => decide (first ≤ e.2 + k ∧ e.2 + k < last)).map (·.1)

/-- Handling of FES_SEQ_WRITE (spec/08 R267). -/
def fesSeqWrite (p : Packet) (s : State) : Done :=
  let ws := p.payload
  let fes (h : Nat) : Fes := (hearthAt s h).fes
  check ((targets p s).all fun h => seqFieldsOk ws (fes h)) .badParam s <|
  check ((targets p s).all fun h => limitsOk (seqApplied ws (fes h)) (fes h).rffeDiv (fes h).spiDiv) .budget s <|
  check (!(targets p s).any fun h => (seqTouched ws (fes h)).any (eventRuns s h)) .busy s <|
  .reply .ok [] (each (targets p s) (fun h => modFes h (seqApplied ws)) s)

/-- FES_SEQ_WRITE (spec/08 R267). -/
def execFesSeqWrite (p : Packet) (s : State) : Out :=
  .next (runCommandWith infoFesSeqWrite (seqLength p.payload) fesSeqWrite p s)

/-! ### FES_BUS_ACCESS -/

/-- An operation that FES_BUS_ACCESS accepts (spec/08 R257, R268; log entry 33, DEDUCED). -/
def accessOk (e : SeqEntry) : Bool :=
  entryOk e && [1, 2, 3, 5, 6, 7].contains (opOf e) && !bndOf e && fld e.1 13 2 == 0

/-- Handling of FES_BUS_ACCESS: the operation runs, or waits for the one that runs (spec/08 R268). -/
def fesBusAccess (p : Packet) (s : State) : Done :=
  let e : SeqEntry := (wordAt p.payload 0, wordAt p.payload 1)
  check (accessOk e) .badParam s <|
  .hold p.hearth none (modFes p.hearth (fun f => if f.bus.isNone then { f with bus := some e, busHeld := true, busEnd := none } else f) s)

/-- FES_BUS_ACCESS (spec/08 R268). -/
def execFesBusAccess (p : Packet) (s : State) : Out := .next (runCommand infoFesBusAccess fesBusAccess p s)

/-- The running bus operation ends with a reply, and the next held one takes its place (spec/08 R268). -/
def endBus (st : Status) (words : List Word) (h : Nat) (s : State) : State :=
  let t := match heldFor s 0x0707 h with
    | c :: _ => if (hearthAt s h).fes.busHeld then endHeld c st words s else s
    | [] => s
  match heldFor t 0x0707 h with
  | c :: _ => modFes h (fun f => { f with bus := some (wordAt c.words 0, wordAt c.words 1), busHeld := true, busEnd := none }) t
  | [] => modFes h (fun f => { f with bus := none, busHeld := false, busEnd := none }) t

/-- The bus of a read is free once its data have come (spec/08 R258, R261). -/
def freeBus (e : SeqEntry) (stop clk : Nat) (f : Fes) : Fes :=
  { f with busFree := f.busFree.modify (fld e.1 5 2) fun c => if c = stop then min c clk else c }

/-- An RFFE read fails (spec/08 R261, R273). -/
def failRead (h : Nat) (s : State) : State := endBus .timeout [] h (modFes h (fun f => { f with busErr := incSat 8 f.busErr }) s)

/-- BUS_OPERATION_DONE at a DSP clock: a write is over once its clocks have passed; `data` holds the bytes that a read gave, in time up
to the edge at which its time ends, and none where they fail parity (spec/02 R45; spec/08 R258, R261, R268). -/
def execBusOperationDone (h : Nat) (data : Option Nat) (clk : Nat) (s : State) : Out :=
  .next <|
    match (hearthAt s h).fes.bus, (hearthAt s h).fes.busEnd with
    | some e, some stop =>
      if !present s h || !inTick s clk then s
      else if opOf e = 7 then
        match data with
        | some v =>
          if clk ≤ stop then endBus .ok [BitVec.ofNat 32 (v % 2 ^ (8 * bytesIn e))] h (modFes h (freeBus e stop clk) s) else failRead h s
        | none => failRead h (modFes h (freeBus e stop clk) s)
      else if stop ≤ clk then endBus .ok [] h s
      else s
    | _, _ => s

/-- The time of the running read has ended within the running tick, and no data has come (spec/02 R45; spec/08
R261). -/
def readTimeDue (h : Nat) (s : State) : State :=
  let f := (hearthAt s h).fes
  if present s h && f.bus.any (fun e => opOf e == 7) && f.busEnd.any (fun c => decide (c < s.tbu.clock + s.tbu.tickLen)) then failRead h s else s

/-- RFFE_READ_TIMEOUT (spec/02 R45). -/
def execRffeReadTimeout (h : Nat) (s : State) : Out := .next (readTimeDue h s)

/-- ACT_SEQUENCE_END (spec/08 R260). -/
def execActSequenceEnd (h n : Nat) (s : State) : Out := .next (if present s h && actDone s h n then actEnded h n s else s)

/-- The BND operations of a STEP sequence are finished (spec/08 R258, R273). -/
def stepEndDue (h n : Nat) (s : State) : State :=
  let f := (hearthAt s h).fes
  if present s h && f.stepSeq.getD n 0 == 2 && decide (f.bndEnd.getD n 0 ≤ s.tbu.clock + s.tbu.tickLen) then
    modFes h (fun f => { f with stepSeq := f.stepSeq.set n 0 }) s
  else s

/-- STEP_SEQUENCE_END (spec/08 R258). -/
def execStepSequenceEnd (h n : Nat) (s : State) : Out := .next (stepEndDue h n s)

/-- RFC_CTRL.CNT_CLR: RFC_OVL and every FES_CNT (spec/08 R269). -/
def execRfcCntClr (h : Nat) (s : State) : Out :=
  .next <|
    if present s h && writable s then
      modFes h (fun f => { f with busErr := 0, swClip := 0, actDrop := 0 }) (modRfc h (fun r => { r with ovl := [0, 0, 0, 0] }) s)
    else s

end Sys2Proof.Machine
end

