-- ==== Sys2Proof/Machine/Bellows.lean ====
section
/-! DEFINITION. Machine/Bellows.lean: the commands and events of the loop slots (spec/07 R203 to R229). The execution of a
slot is in Machine/Loops.lean. -/

namespace Sys2Proof.Machine

/-- SLOT of a loop command. -/
def slotIn (p : Packet) : Nat := fld (wordAt p.payload 0) 0 6

/-- The loop slot that a command names. -/
def loopIn (p : Packet) (s : State) : Loop := loopAt s p.hearth (slotIn p)

/-- On a group member, a slot bound to a group-scoped section is the leader's alone (spec/07, Commands; log entry 40, DEDUCED). -/
def loopGroup (p : Packet) (s : State) : Bool :=
  match (loopIn p s).bound with
  | some b => groupRule { p with sect := b.1 } s
  | none => true

/-! ### LOOP_CONFIG -/

/-- The configuration of a LOOP_CONFIG payload (spec/07 R217). -/
def loopCfgOf (ws : List Word) : LoopCfg :=
  let w (k : Nat) : Word := wordAt ws k
  { act := fld (w 0) 8 2, actIdx := fld (w 0) 12 4, measSrc := fld (w 0) 16 3, measIdx := fld (w 0) 24 5
    k := fld (w 1) 0 3, phase := fld (w 1) 8 7, dEn := bitOf (w 1) 16, notchEn := bitOf (w 1) 17, plausEn := bitOf (w 1) 18
    mfiltEn := bitOf (w 1) 19, tuneRule := fld (w 1) 20 2, kpM := sfld (w 2) 0 16, kpE := sfld (w 2) 16 4, kiE := sfld (w 2) 20 4
    kdE := sfld (w 2) 24 4, modelKE := sfld (w 2) 28 4, kiM := sfld (w 3) 0 16, kdM := sfld (w 3) 16 16, df := sfld (w 4) 0 16
    mfilt := sfld (w 4) 16 16, outMin := sfld (w 5) 0 16, outMax := sfld (w 5) 16 16, slewUp := fld (w 6) 0 16, slewDn := fld (w 6) 16 16
    handSlew := fld (w 7) 0 16, safe := sfld (w 7) 16 16, notchF := fld (w 8) 0 16, notchBw := fld (w 8) 16 16
    modelKM := sfld (w 9) 0 16, modelDelay := fld (w 9) 16 6, bshift := fld (w 9) 24 4, modelTau := fld (w 10) 0 16
    plausTol := fld (w 10) 16 16, plausN := fld (w 11) 0 8, freezeN := fld (w 11) 8 8, freezeDelta := fld (w 11) 16 16
    holdMax := fld (w 12) 0 16, rampSpan := fld (w 12) 16 16, rampRate := fld (w 13) 0 16, spLo := sfld (w 14) 0 16
    spHi := sfld (w 14) 16 16, relayAmp := fld (w 15) 0 16, relayHyst := fld (w 15) 16 16, tuneMax := fld (w 16) 0 16 }

/-- The 17 configuration words of a slot (spec/07 R217, R219). -/
def loopCfgWords (n : Nat) (c : LoopCfg) : List Word :=
  [wordOf [(0, 6, n), (8, 2, c.act), (12, 4, c.actIdx), (16, 3, c.measSrc), (24, 5, c.measIdx)],
   wordOf [(0, 3, c.k), (8, 7, c.phase), (16, 1, bit c.dEn), (17, 1, bit c.notchEn), (18, 1, bit c.plausEn), (19, 1, bit c.mfiltEn),
     (20, 2, c.tuneRule)]] ++ coefWords c ++
  [wordOf [(0, 16, c.df), (16, 16, c.mfilt)], wordOf [(0, 16, c.outMin), (16, 16, c.outMax)],
   wordOf [(0, 16, c.slewUp), (16, 16, c.slewDn)], wordOf [(0, 16, c.handSlew), (16, 16, c.safe)],
   wordOf [(0, 16, c.notchF), (16, 16, c.notchBw)], wordOf [(0, 16, c.modelKM), (16, 6, c.modelDelay), (24, 4, c.bshift)],
   wordOf [(0, 16, c.modelTau), (16, 16, c.plausTol)], wordOf [(0, 8, c.plausN), (8, 8, c.freezeN), (16, 16, c.freezeDelta)],
   wordOf [(0, 16, c.holdMax), (16, 16, c.rampSpan)], wordOf [(0, 16, c.rampRate)], wordOf [(0, 16, c.spLo), (16, 16, c.spHi)],
   wordOf [(0, 16, c.relayAmp), (16, 16, c.relayHyst)], wordOf [(0, 16, c.tuneMax)]]

/-- Bits of LOOP_CONFIG that must be 0 (spec/07 R217). -/
def loopZeroBits (ws : List Word) : Bool :=
  let w (k : Nat) : Word := wordAt ws k
  zeroAt (w 0) 6 2 && zeroAt (w 0) 10 2 && zeroAt (w 0) 19 5 && zeroAt (w 0) 29 3 && zeroAt (w 1) 3 5 && zeroAt (w 1) 15 1
    && zeroAt (w 1) 22 10 && zeroAt (w 9) 22 2 && zeroAt (w 9) 28 4 && zeroAt (w 13) 16 16 && zeroAt (w 16) 16 16

/-- A value of 1 to 0x7FFF. -/
def positive16 (x : Nat) : Bool := decide (1 ≤ x) && decide (x ≤ 0x7FFF)

/-- Field ranges of LOOP_CONFIG, and R200 (spec/07 R217, R218 check 5). -/
def loopCfgOk (bound : Bool) (mode : Nat) (c : LoopCfg) : Bool :=
  c.act != 1 && (!bound || c.act == 0) && (c.act != 2 || decide (c.actIdx ≤ 3)) && decide (c.measSrc ≤ 5)
    && (c.measSrc != 5 || decide (c.measIdx ≤ 7)) && decide (c.phase < 2 ^ c.k) && decide (1 ≤ c.df) && decide (1 ≤ c.mfilt)
    && decide (c.outMin ≤ c.outMax) && (c.act != 2 || (decide (-256 ≤ c.outMin) && decide (c.outMax ≤ 256)))
    && decide (c.outMin ≤ c.safe) && decide (c.safe ≤ c.outMax)
    && (!c.notchEn || (decide (0 < c.notchBw) && decide (c.notchBw < c.notchF) && decide (2 * c.notchF + c.notchBw < 65536)))
    && decide (4 ≤ c.bshift) && decide (1 ≤ c.modelTau) && positive16 c.plausTol && decide (1 ≤ c.plausN)
    && decide (c.rampSpan ≤ 0x7FFF) && positive16 c.relayAmp && decide (c.relayHyst ≤ 0x7FFF) && decide (64 ≤ c.tuneMax)
    && (!modeNeeds mode || c.measSrc != 0)

/-- Owner number of the measurement channel of slot `n` (spec/03 R83, spec/07 R191). -/
def slotChannel (n : Nat) : Nat := 100 + n

/-- Measurement channels of a hearth that slot `n` does not hold. -/
def channelsBut (s : State) (h n : Nat) : Nat := channelsOf s h (· != slotChannel n)

/-- The measurement channel of a slot on ORX_SEC: the ORX of its TX port, its NCO at the section centre of the direction and branch
measured, and D = 2^max(RATE, 1). Its NCO starts at 0 as the channel is allocated (spec/03 R83, spec/07 R191; log entry 138, DESIGN
CHOICE). -/
def slotMeas (s : State) (h n : Nat) : MeasCh :=
  let g := measOf (loopAt s h n)
  let d := ((secAt s h g.1).defn).getD {}
  { owner := slotChannel n, chain := 4 + g.2 % 2, k := max d.rate 1, start := s.tbu.clock + s.tbu.tickLen
    inc := ncoInc (centreOf d (g.2 / 2)) ((hearthAt s h).rfc.lo.getD g.2 0) }

/-- A measurement channel of the loop slots follows the section, direction and branch of its slot, the LO and the ORX from its next output
boundary on (spec/03 R83; spec/07 R191, R192). -/
def followSlot (s : State) (h : Nat) (x : MeasCh) : MeasCh :=
  let w := slotMeas s h (x.owner - slotChannel 0)
  if x.owner < slotChannel 0 ∨ x.next.getD (x.chain, x.inc, x.k) = (w.chain, w.inc, w.k) then x else retune w.chain w.inc w.k s.tbu.clock x

/-- The actuator is driven by another slot (spec/07 R190). -/
def actTaken (s : State) (h n : Nat) (c : LoopCfg) : Bool :=
  (c.act == 2 || c.act == 3) && (List.range 64).any fun m =>
    m != n && (loopAt s h m).cfg.act == c.act && (loopAt s h m).cfg.actIdx == c.actIdx

/-- A slot takes a configuration: OPEN_OUT is kept within the new limits, mf is unknown, and its measurement channel follows
(spec/07 R191, R218, R650). -/
def applyLoop (h n : Nat) (c : LoopCfg) (s : State) : State :=
  let t := modLoop h n (fun x =>
    let out := max c.outMin (min c.outMax x.openOut)
    { x with cfg := { c with act := if x.bound.isSome then 1 else c.act }, mf := none, anchored := false, measSum := (0, 0), inSum := (0, 0)
             openOut := out, u := out, z := acc out }) s
  modChannels h (fun xs => giveChannels (slotMeas t h n) (if c.measSrc = 4 then 1 else 0) (dropChannels (slotChannel n) 0 xs)) t

/-- Handling of LOOP_CONFIG: the checks of R218 in order (spec/07 R217, R218). -/
def loopConfig (p : Packet) (s : State) : Done :=
  let h := p.hearth
  let n := slotIn p
  let x := loopIn p s
  let c := loopCfgOf p.payload
  let full : LoopCfg := { c with act := if x.bound.isSome then 1 else c.act }
  check (loopGroup p s) .notPermitted s <|
  check (x.state == 0) .loopClosed s <|
  check (loopZeroBits p.payload && loopCfgOk x.bound.isSome x.mode c) .badParam s <|
  check (!actTaken s h n c && (c.measSrc != 4 || decide (channelsBut s h n < 16))) .busy s <|
  check (decide (costMax (cfgsWith s h n full) ≤ costBudget)) .budget s <|
  .reply .ok [] (applyLoop h n c s)

/-- LOOP_CONFIG (spec/07 R217). -/
def execLoopConfig (p : Packet) (s : State) : Out := .next (runCommand infoLoopConfig loopConfig p s)

/-! ### LOOP_QUERY -/

/-- HOLD_OUT of LOOP_OUT (spec/07 R227). -/
def holdOut (x : Loop) : Int :=
  if x.state = 0 then x.openOut else if x.state = 3 then x.uGood else if x.state = 1 ∧ x.mode = 1 then x.vT else -32768

/-- The 8 registers of a slot's group (spec/07 R226, R227). -/
def loopRegs (x : Loop) : List Word :=
  [wordOf [(0, 2, x.state), (2, 3, x.mode), (5, 1, bit x.handover), (6, 1, bit x.rampDone), (7, 1, bit x.heldExec), (8, 1, bit x.tracking),
     (9, 1, bit x.measValid), (10, 1, bit x.extInvalid), (11, 2, x.lostCause), (13, 1, bit x.lostRamp), (14, 1, bit x.bound.isSome),
     (16, 2, x.cfg.act), (18, 3, x.cfg.measSrc), (21, 3, x.cfg.k), (24, 8, x.depRun)],
   wordOf [(0, 16, x.spTgt), (16, 16, round16 x.spEff)],
   wordOf [(0, 16, round16 (x.mf.getD (-2147483648))), (16, 16, round16 x.mHat)],
   wordOf [(0, 16, x.u), (16, 16, holdOut x)], wordOf [(0, 16, round16 x.bias), (16, 16, x.err)]] ++ tuneWords x ++
  [wordOf [(0, 8, x.sat), (8, 8, x.losses), (16, 16, x.handovers)]]

/-- Handling of LOOP_QUERY (spec/07 R219). -/
def loopQuery (p : Packet) (s : State) : Done :=
  check (zeroAt (wordAt p.payload 0) 6 26) .badParam s <|
  .reply .ok (loopCfgWords (slotIn p) (loopIn p s).cfg ++ loopRegs (loopIn p s)) s

/-- LOOP_QUERY (spec/07 R219). -/
def execLoopQuery (p : Packet) (s : State) : Out := .next (runCommand infoLoopQuery loopQuery p s)

/-! ### LOOP_CLOSE, LOOP_OPEN, LOOP_MODE and LOOP_SETPOINT -/

/-- A slot closes: its hand-over starts at its next execution (spec/07 R206, R209). -/
def closeSlot (h n : Nat) (s : State) : State :=
  setLoop h n 1 (modLoop h n (fun l => { l with
    handStart := true, handOld := l.mode, handOpen := l.state == 0, lostCause := 0, lostRamp := false
    freezeVals := [] }) s)

/-- Handling of LOOP_CLOSE (spec/07 R206, R220). -/
def loopClose (p : Packet) (s : State) : Done :=
  let x := loopIn p s
  check (zeroAt (wordAt p.payload 0) 6 26) .badParam s <|
  check (!(modeNeeds x.mode && x.cfg.measSrc == 0) && !(x.mode == 3 && x.table.isEmpty)) .badParam s <|
  check (x.state != 2) .state s <|
  if x.state = 1 then .reply .ok [] s else .reply .ok [] (closeSlot p.hearth (slotIn p) s)

/-- LOOP_CLOSE (spec/07 R220). -/
def execLoopClose (p : Packet) (s : State) : Out := .next (runCommand infoLoopClose loopClose p s)

/-- A CLOSED or LOST slot opens at its present output; a loss that would apply at the same boundary does not (spec/07 R206, R212). -/
def openSlot (h n : Nat) (s : State) : State :=
  setLoop h n 0 (modLoop h n (fun l => { l with
    openOut := l.u, handover := false, handStart := false, handOpen := false, lostCause := 0, lostRamp := false, tracking := false
    lostDue := none }) s)

/-- Handling of LOOP_OPEN (spec/07 R206, R215, R220). -/
def loopOpen (p : Packet) (s : State) : Done :=
  let n := slotIn p
  let x := loopIn p s
  check (zeroAt (wordAt p.payload 0) 6 26) .badParam s <|
  if x.state = 0 then .reply .ok [] s
  else if x.state = 2 then .reply .ok [] (endTune p.hearth n 4 x.cfg s)
  else .reply .ok [] (openSlot p.hearth n s)

/-- LOOP_OPEN (spec/07 R220). -/
def execLoopOpen (p : Packet) (s : State) : Out := .next (runCommand infoLoopOpen loopOpen p s)

/-- LOOP_MODE is one that the slot accepts (spec/07 R221). -/
def loopModeOk (part : Part) (ws : List Word) (x : Loop) : Bool :=
  let w := wordAt ws 0
  let m := fld w 8 3
  let out := sfld (wordAt ws 1) 0 16
  zeroAt w 6 2 && zeroAt w 11 1 && zeroAt w 13 19 && zeroAt (wordAt ws 1) 16 16 && decide (m ≤ 4) && (m != 4 || part == .brd880)
    && !(modeNeeds m && x.cfg.measSrc == 0) && !(m == 3 && x.table.isEmpty)
    && (m != 2 || (decide (x.cfg.outMin ≤ out) && decide (out ≤ x.cfg.outMax)))

/-- The slot after LOOP_MODE: a CLOSED slot hands over into a changed mode, or to a new MAN_OUT (spec/07 R207, R209, R221). -/
def modeSet (p : Setpt) (ws : List Word) (x : Loop) : Loop :=
  let m := fld (wordAt ws 0) 8 3
  let out := if m = 2 then sfld (wordAt ws 1) 0 16 else x.manOut
  let again := x.state == 1 && (m != x.mode || (m == 2 && out != x.manOut))
  let y : Loop := { x with
    mode := m, manOut := out, extP := if m = 4 then bitOf (wordAt ws 0) 12 else x.extP
    handStart := x.handStart || again, handOld := if again then x.mode else x.handOld, handOpen := x.handOpen && x.handStart }
  { y with extInvalid := m == 4 && !pinValid p y }

/-- Handling of LOOP_MODE (spec/07 R221). -/
def loopMode (p : Packet) (s : State) : Done :=
  check (loopGroup p s) .notPermitted s <|
  check (loopModeOk s.ident.part p.payload (loopIn p s)) .badParam s <|
  .reply .ok [] (modLoop p.hearth (slotIn p) (modeSet s.setpt p.payload) s)

/-- LOOP_MODE (spec/07 R221). -/
def execLoopMode (p : Packet) (s : State) : Out := .next (runCommand infoLoopMode loopMode p s)

/-- Handling of LOOP_SETPOINT (spec/07 R201, R222). -/
def loopSetpoint (p : Packet) (s : State) : Done :=
  let w := wordAt p.payload 0
  check (loopGroup p s) .notPermitted s <|
  check (zeroAt w 6 10) .badParam s <|
  .reply .ok [] (modLoop p.hearth (slotIn p) (fun l => { l with spTgt := sfld w 16 16 }) s)

/-- LOOP_SETPOINT (spec/07 R222). -/
def execLoopSetpoint (p : Packet) (s : State) : Out := .next (runCommand infoLoopSetpoint loopSetpoint p s)

/-! ### LOOP_TUNE and LOOP_TABLE -/

/-- A gain slot's section is LIVE or DAMPED; other slots need none (spec/07 R214). -/
def tuneSection (s : State) (h : Nat) (x : Loop) : Bool :=
  x.bound.all fun b => (secAt s h b.1).state == .live || (secAt s h b.1).state == .damped

/-- Handling of LOOP_TUNE: the checks of R223 in order (spec/07 R214, R223). -/
def loopTune (p : Packet) (s : State) : Done :=
  let h := p.hearth
  let n := slotIn p
  let w := wordAt p.payload 0
  let x := loopIn p s
  let amp : Int := x.cfg.relayAmp
  check (zeroAt w 6 2 && zeroAt w 9 23) .badParam s <|
  check (loopGroup p s) .notPermitted s <|
  check (x.state == 0 && tuneSection s h x) .state s <|
  check (x.cfg.measSrc != 0 && decide (x.cfg.outMin ≤ x.openOut - amp) && decide (x.openOut + amp ≤ x.cfg.outMax)) .badParam s <|
  .hold (h * 64 + n) none
    (setLoop h n 2 (modLoop h n (fun l => { l with tune := some { apply := bitOf w 8 }, tuneStatus := 1, upswitch := 0 }) s))

/-- LOOP_TUNE (spec/07 R223). -/
def execLoopTune (p : Packet) (s : State) : Out := .next (runCommand infoLoopTune loopTune p s)

/-- Points of a LOOP_TABLE payload (spec/07 R224). -/
def tablePoints (ws : List Word) : List (Int × Int) := (ws.drop 1).map fun w => (sfld w 0 16, sfld w 16 16)

/-- LOOP_TABLE is one that the slot accepts (spec/07 R224). -/
def loopTableOk (ws : List Word) (c : LoopCfg) : Bool :=
  let w := wordAt ws 0
  let pts := tablePoints ws
  zeroAt w 6 2 && zeroAt w 13 19 && decide (2 ≤ fld w 8 5) && decide (fld w 8 5 ≤ 16)
    && (pts.zip (pts.drop 1)).all (fun e => decide (e.1.1 < e.2.1))
    && pts.all fun e => decide (c.outMin ≤ e.2) && decide (e.2 ≤ c.outMax)

/-- Handling of LOOP_TABLE (spec/07 R208, R224). -/
def loopTable (p : Packet) (s : State) : Done :=
  let x := loopIn p s
  check (loopGroup p s) .notPermitted s <|
  check (x.state == 0) .loopClosed s <|
  check (loopTableOk p.payload x.cfg) .badParam s <|
  .reply .ok [] (modLoop p.hearth (slotIn p) (fun l => { l with table := tablePoints p.payload }) s)

/-- LOOP_TABLE (spec/07 R224). -/
def execLoopTable (p : Packet) (s : State) : Out :=
  .next (runCommandWith infoLoopTable (p.payload.length == 1 + fld (wordAt p.payload 0) 8 5) loopTable p s)

/-! ### SETPT_CONFIG -/

/-- SETPT_CONFIG is in range (spec/07 R225). -/
def setptOk (ws : List Word) : Bool :=
  let w0 := wordAt ws 0
  let w1 := wordAt ws 1
  let lo := (wordAt ws 2).toNat
  let hi := (wordAt ws 3).toNat
  zeroAt w0 1 15 && zeroAt w0 28 4 && zeroAt w1 12 20 && decide (fld w0 16 12 < fld w1 0 12) && decide (1000 ≤ lo) && decide (lo < hi)
    && decide (hi ≤ 200000)

/-- Handling of SETPT_CONFIG (spec/07 R225). -/
def setptConfig (p : Packet) (s : State) : Done :=
  let ws := p.payload
  check (s.ident.part == .brd880 && setptOk ws) .badParam s <|
  .reply .ok [] { s with setpt := { s.setpt with
    pfm := bitOf (wordAt ws 0) 0, aMin := fld (wordAt ws 0) 16 12, aMax := fld (wordAt ws 1) 0 12, fLo := (wordAt ws 2).toNat
    fHi := (wordAt ws 3).toNat } }

/-- SETPT_CONFIG (spec/07 R225). -/
def execSetptConfig (p : Packet) (s : State) : Out := .next (runCommand infoSetptConfig setptConfig p s)

/-! ### Events of the slots -/

/-- 16 executions near the target in a row end a hand-over (spec/07 R209). -/
def endHandover (h n : Nat) (s : State) : State :=
  let x := loopAt s h n
  if x.handover && decide (16 ≤ x.handN) then modLoop h n (fun l => { l with handover := false, handN := 0 }) s else s

/-- HANDOVER_END (spec/07 R209). -/
def execHandoverEnd (h n : Nat) (s : State) : Out := .next (if present s h then endHandover h n s else s)

/-- HOLD_MAX has passed and the output moves towards SAFE from the next execution on (spec/07 R212). -/
def lostHoldEnd (h n : Nat) (s : State) : State :=
  let x := loopAt s h n
  if x.state == 3 && !x.lostRamp && decide (x.lostTick + 480 * x.cfg.holdMax ≤ s.tbu.tick) then
    modLoop h n (fun l => { l with lostRamp := true }) s
  else s

/-- LOST_HOLD_EXPIRY (spec/07 R212). -/
def execLostHoldExpiry (h n : Nat) (s : State) : Out := .next (if present s h then lostHoldEnd h n s else s)

/-- The output of a LOST slot stands at SAFE: the event is written in the tick in which SAFE is in force (spec/07 R212). -/
def safeReached (h n : Nat) (s : State) : State :=
  let x := loopAt s h n
  if x.atSafe then
    let t := modLoop h n (fun l => { l with atSafe := false }) s
    if x.state = 3 then emit h 0x0615 ([n] ++ bytesOf 2 x.cfg.safe) t else t
  else s

/-- TUNE_MAX executions without a 7th up-switch end a relay test (spec/07 R215). -/
def tuneTimeout (h n : Nat) (s : State) : State :=
  let x := loopAt s h n
  if x.tune.any fun t => decide (x.cfg.tuneMax ≤ t.execs) then endTune h n 3 x.cfg s else s

/-- TUNE_TIMEOUT (spec/07 R215). -/
def execTuneTimeout (h n : Nat) (s : State) : Out := .next (if present s h then tuneTimeout h n s else s)

/-- 4,800 ticks after its section entered RAMPING an EXTERNAL slot whose mf is known is ramp-done (spec/07 R203, R650). -/
def externalRampEnd (h n : Nat) (s : State) : State :=
  let x := loopAt s h n
  let due := x.bound.any fun b => (secAt s h b.1).state == .ramping && decide (4800 ≤ (secAt s h b.1).rampTicks)
  if due && x.state == 1 && x.mode == 4 && x.mf.isSome then modLoop h n (fun l => { l with rampDone := true }) s else s

/-- EXTERNAL_RAMP_TIMEOUT (spec/07 R203). -/
def execExternalRampTimeout (h n : Nat) (s : State) : Out := .next (if present s h then externalRampEnd h n s else s)

/-- A set-point pin's validity as the tick captures it: the slots in EXTERNAL show it, and a change writes its event
(spec/07 R204, R205, R229). -/
def captureValid (pin : Nat) (valid : Bool) (s : State) : State :=
  let now := if pin = 0 then s.setpt.aValid else s.setpt.pValid
  if now = valid then s
  else
    let p : Setpt := if pin = 0 then { s.setpt with aValid := valid } else { s.setpt with pValid := valid }
    let mark (x : Loop) : Loop := if x.mode = 4 then { x with extInvalid := !pinValid p x } else x
    let t : State := { s with setpt := p }
    emit 0 0x0614 [pin, bitNat valid] (each (hearthsOf t) (fun h => modHearth h fun y => { y with loops := y.loops.map mark }) t)

/-- The set-point pins in phase 0 of a tick: the fraction that BLW_SETPT shows, and the validity of both pins (spec/07 R204, R226). -/
def captureSetpt (s : State) : State :=
  if s.ident.part = .brd880 then
    captureValid 1 (validP s.setpt) (captureValid 0 (validA s.setpt)
      { s with setpt := { s.setpt with pX := (clampInt 0 65535 (setptP s.setpt)).toNat } })
  else s

/-- SETPT_VALIDITY_CHANGE: what a set-point pin reads has changed so that its validity does; the next tick captures it
(spec/02 R43; spec/07 R204, R205). -/
def execSetptValidityChange (pin : Nat) (x : SetptChange) (s : State) : Out :=
  .next <|
    if s.ident.part ≠ .brd880 ∨ 2 ≤ pin then s
    else if pin = 0 then { s with setpt := { s.setpt with aCode := x.code % 4096 } }
    else { s with setpt := { s.setpt with pin := x.shows } }

/-- BLW_CTRL.CNT_CLR: every LOOP_CNT of a hearth (spec/07 R226). -/
def execBlwCntClr (h : Nat) (s : State) : Out :=
  .next <|
    if present s h && writable s then
      modHearth h (fun x => { x with loops := x.loops.map fun l => { l with sat := 0, losses := 0, handovers := 0, shown := l.shown.set 7 0 } }) s
    else s

end Sys2Proof.Machine
end

