-- ==== Sys2Proof/Machine/Firebrick.lean ====
section
/-! DEFINITION. Machine/Firebrick.lean: writing, revoking and reading Firebrick rows (spec/11 R331 to R337, R344, R345). -/

namespace Sys2Proof.Machine

/-- Kindling stages run: SEC serves no programming command (spec/20 R577). -/
def stagesRun (s : State) : Bool := s.pkg == .kindling && s.sec.stage != 7

/-- A Firebrick command is programming, or its reply is still held (spec/11 R334). -/
def rowsBusy (s : State) : Bool := s.limits.prog.isSome || s.limits.due.isSome || stagesRun s

/-- The lowest blank row (spec/11 R332). -/
def lowestBlank (s : State) : Option Nat := (List.range 64).find? fun k => rowBlank (rowAt s k)

/-- The message that a Firebrick signature covers (spec/11 R331). -/
def rowMessage (s : State) (op row : Nat) (content : List Word) : List (BitVec 8) :=
  uidBytes s ++ asBytes [op, row] ++ wordBytes content

/-- A rewrite of a locked row: event 0x0D10 and NOT_PERMITTED (spec/11 R332, spec/21 R605). -/
def lockedRow (src row op : Nat) (s : State) : State :=
  emit 0 0x0D10 ([1, src] ++ bytesOf 4 row ++ bytesOf 2 op ++ [0, 0]) s

/-- The content words of a row lie in their ranges (spec/11 R328, R344). -/
def rowFieldsOk (ws : List Word) : Bool :=
  let r : FbRow := { words := ws }
  decide (rowStart r ≤ rowStop r) && decide (41000000 ≤ rowStart r) && decide (rowStop r ≤ 712500000)
    && decide (0 ≤ rowGain r) && decide (rowDuty r ≤ 1024) && zeroAt (wordAt ws 2) 28 4
    && decide (-10240 ≤ rowPower r 0) && decide (rowPower r 0 ≤ 15360)
    && decide (-10240 ≤ rowPower r 1) && decide (rowPower r 1 ≤ 15360) && zeroAt (wordAt ws 4) 16 16

/-- Whether a signature over a Firebrick message verifies with the OEM provisioning key (spec/11 R331). -/
def rowSigned (s : State) (msg : List (BitVec 8)) (sig : List Word) : Bool :=
  (oemKeyNow s).any fun k => Config.ecdsaVerify k msg sig

/-- Handling of FIREBRICK_WRITE (spec/11 R344). -/
def firebrickWrite (p : Packet) (s : State) : Done :=
  let w := wordAt p.payload 0
  let row := fld w 0 6
  let ws := (p.payload.drop 1).take 5
  check (!rowsBusy s) .busy s <|
  if (rowAt s row).written then .reply .notPermitted [] (lockedRow p.src row 0x0D01 s)
  else
    check (zeroAt w 6 26 && lowestBlank s == some row && rowFieldsOk ws) .badParam s <|
    check (rowSigned s (rowMessage s 1 row ws) (p.payload.drop 6)) .authFailed s <|
    .hold row none { s with limits := { s.limits with prog := some { row := row, words := ws ++ [rowCrc ws] } } }

/-- FIREBRICK_WRITE (spec/11 R344). -/
def execFirebrickWrite (p : Packet) (s : State) : Out := .next (runCommand infoFirebrickWrite firebrickWrite p s)

/-- Two rows overlap when their ranges share at least 18,000 Freq units (spec/11 R333). -/
def rowsOverlap (a b : FbRow) : Bool :=
  decide (max (rowStart a) (rowStart b) + 18000 ≤ min (rowStop a) (rowStop b))

/-- A revoke of row `k` could widen a limit (spec/11 R333). -/
def revokeWidens (s : State) (k : Nat) : Bool :=
  let r := rowAt s k
  s.limits.inForce.any fun j =>
    let o := rowAt s j
    j != k && rowDir o == rowDir r && rowsOverlap r o
      && (decide (rowGain r < rowGain o) || decide (rowPower r 0 < rowPower o 0) || decide (rowPower r 1 < rowPower o 1)
          || decide (rowDuty r < rowDuty o))

/-- Handling of FIREBRICK_REVOKE (spec/11 R344). -/
def firebrickRevoke (p : Packet) (s : State) : Done :=
  let w := wordAt p.payload 0
  let row := fld w 0 6
  check (!rowsBusy s) .busy s <|
  if (rowAt s row).revoked then .reply .notPermitted [] (lockedRow p.src row 0x0D02 s)
  else
    check (zeroAt w 6 26 && !rowBlank (rowAt s row)) .badParam s <|
    check (rowSigned s (rowMessage s 2 row []) (p.payload.drop 1)) .authFailed s <|
    check (!revokeWidens s row) .firebrickLimit s <|
    .hold row none { s with limits := { s.limits with prog := some { row := row, revoke := true } } }

/-- FIREBRICK_REVOKE (spec/11 R344). -/
def execFirebrickRevoke (p : Packet) (s : State) : Out := .next (runCommand infoFirebrickRevoke firebrickRevoke p s)

/-- Changes a row. -/
def modRow (k : Nat) (f : FbRow → FbRow) (s : State) : State := { s with limits := { s.limits with rows := s.limits.rows.modify k f } }

/-- The held Firebrick command for a row. -/
def endRowCommand (row : Nat) (st : Status) (s : State) : State :=
  endHeldFor 0x0D02 row st [] (endHeldFor 0x0D01 row st [] s)

/-- What comes into force at the boundary after programming; while the boot stages run the rows are read afterwards
(spec/11 R334). -/
def dueRow (s : State) (x : Nat × Bool × Bool) : Option (Nat × Bool × Bool) := if stagesRun s then none else some x

/-- The words of a row that a failed write leaves: the content words come first, and the CRC word is programmed only once they are
verified (spec/11 R334). -/
def keptWords (left words : List Word) : List Word :=
  let content := (List.range 5).map fun k => wordAt left k &&& wordAt words k
  content ++ [if content = words.take 5 then wordAt left 5 &&& wordAt words 5 else 0]

/-- Programming of a row ends (spec/11 R334). After a failed write the row holds those of the intended bits that were
programmed (`left`), and is revoked unless every bit still reads 0; a row whose revoke fails is treated as revoked. -/
def execFirebrickProgramDone (ok : Bool) (left : List Word) (s : State) : Out :=
  .next <|
    match s.limits.prog with
    | none => s
    | some g =>
      let t := { s with limits := { s.limits with prog := none } }
      if g.revoke then
        if ok then
          let u := modRow g.row (fun r => { r with revoked := true }) t
          { u with limits := { u.limits with due := dueRow s (g.row, true, false), dueBy := s.tbu.tick + 64 } }
        else
          raiseSource 0 481 { t with limits := { t.limits with
            treated := g.row :: t.limits.treated, due := dueRow s (g.row, true, true), dueBy := s.tbu.tick + 64 } }
      else if ok then
        let u := modRow g.row (fun r => { r with words := g.words, written := true }) t
        { u with limits := { u.limits with due := dueRow s (g.row, false, false), dueBy := s.tbu.tick + 64 } }
      else
        let kept := keptWords left g.words
        let u := modRow g.row (fun r => { r with words := kept, revoked := kept.any (· != 0) }) t
        endRowCommand g.row .internal (raiseSource 0 481 u)

/-- The sections in a transmitting state that have a direction with no permitting range left (spec/11 R336). -/
def strandedSections (s : State) : List (Nat × Nat) :=
  (allSections s).filter fun g =>
    transmits (secAt s g.1 g.2).state &&
      (secAt s g.1 g.2).defn.any fun d => !(hasRange s g.1 d 0 && hasRange s g.1 d 1)

/-- A programmed row takes effect on every hearth at one boundary: sections left without a range are quenched and latched,
and the command replies (spec/11 R335, R336, R351). -/
def rowInForce (k : Nat) (revoke failed : Bool) (s : State) : State :=
  let t := distributeRows { s with limits := { s.limits with due := none } }
  let gs := strandedSections t
  let u := each gs (fun g => quenchLatched 4 4 g.1 g.2) t
  let r := rowAt t k
  let v :=
    if revoke then emit 0 0x0D12 [k, gs.length] u
    else emit 0 0x0D11 ([k] ++ bytesOf 4 (rowStart r) ++ bytesOf 4 (rowStop r) ++ [rowDir r]) u
  endRowCommand k (if failed then .internal else .ok) v

/-- FIREBRICK_ROW_IN_FORCE: the boundary comes before the last of the 64 ticks (spec/11 R335). -/
def execFirebrickRowInForce (row : Nat) (s : State) : Out :=
  .next <|
    match s.limits.due with
    | none => s
    | some (k, revoke, failed) => if k ≠ row then s else rowInForce k revoke failed s

/-- A programmed row that has not come into force does so by the last of its 64 ticks (spec/11 R335). -/
def rowDue (s : State) : State :=
  match s.limits.due with
  | none => s
  | some (k, revoke, failed) => if s.limits.dueBy ≤ s.tbu.tick then rowInForce k revoke failed s else s

/-- The status word of a row (spec/11 R345). -/
def rowStatus (s : State) (k : Nat) : Word :=
  let r := rowAt s k
  wordOf [(0, 1, bit r.written), (1, 1, bit r.revoked), (2, 1, bit (rowBad r)), (3, 1, bit (s.limits.inForce.contains k)),
    (4, 1, bit (rowBlank r))]

/-- The 448 words of FIREBRICK_READ (spec/11 R345). -/
def firebrickWords (s : State) : List Word :=
  (List.range 64).flatMap fun k => (List.range 6).map (wordAt (rowAt s k).words) ++ [rowStatus s k]

/-- FIREBRICK_READ (spec/11 R345). -/
def execFirebrickRead (p : Packet) (s : State) : Out :=
  .next (runCommand infoFirebrickRead (fun _ t => .reply .ok (firebrickWords t) t) p s)

/-- Rows as SEC reads them at Kindling: a bad row raises source 480 and its event, and the permitted ranges are
distributed; a row whose revoke has failed during the reset stays treated as revoked (spec/11 R330, R334). -/
def readRows (s : State) : State :=
  let bad := (List.range 64).filter fun k => rowBad (rowAt s k) || (!(rowAt s k).written && !rowBlank (rowAt s k))
  distributeRows (each bad (fun k u => emit 0 0x0D15 [k] (raiseSource 0 480 u)) s)

end Sys2Proof.Machine
end

