-- ==== Sys2Proof/Machine/Calset.lean ====
section
/-! DEFINITION. Machine/Calset.lean: the calibration set and its commands (spec/11 R338 to R349). A digest of 384 bits is
held with its byte 0 in bits 7:0. -/

namespace Sys2Proof.Machine

/-! ### Items and the directory -/

/-- TYPE, hearth and INDEX of an ITEM_ID (spec/11 R339). -/
def itemType (id : Nat) : Nat := id % 256
def itemHearth (id : Nat) : Nat := id / 256 % 16
def itemIndex (id : Nat) : Nat := id / 4096 % 16

/-- Words of an item of a type, if it is known (spec/11 R340). -/
def itemLength (typ : Nat) : Option Nat :=
  match typ with
  | 1 | 2 => some 50
  | 3 => some 514
  | 4 => some 512
  | 5 => some 6
  | _ => none

/-- TYPE and INDEX are known and the hearth is present (spec/11 R340; log entry 47, DEDUCED). -/
def itemKnown (s : State) (id : Nat) : Bool :=
  (itemLength (itemType id)).isSome && decide (itemIndex id < if itemType id = 3 then 10 else 4) && present s (itemHearth id)

/-- Word `k` of the region of the calibration set, which lies where the Kindling record places it (spec/11 R338; spec/20 R579). -/
def setWord (s : State) (base k : Nat) : Word := flashWord s (base + 4 * k)

/-- Flash offset of the region of the record in use; without a record no place in flash is meant (spec/11 R338). -/
def calBase (s : State) : Nat := if s.sec.record.isSome then (recordWord s 10).toNat else 2 ^ 32

/-- Directory entries in use; a header that R339 does not allow counts as an empty directory (spec/11 R339; log entry 145, DEDUCED). -/
def setCount (s : State) (base : Nat) : Nat :=
  let w := setWord s base 0
  if fld w 0 16 = 1 ∧ fld w 16 16 ≤ 512 then fld w 16 16 else 0

/-- Directory entry `n` (spec/11 R339). -/
def dirEntry (s : State) (base n : Nat) : List Word := (List.range 4).map fun k => setWord s base (16 + 4 * n + k)

/-- ITEM_ID of directory entry `n`. -/
def dirId (s : State) (base n : Nat) : Nat := fld (wordAt (dirEntry s base n) 0) 0 16

/-- The directory entry of an item: the first that names it. -/
def dirIndex (s : State) (base id : Nat) : Option Nat := (List.range (setCount s base)).find? fun n => dirId s base n == id

/-- The item of directory entry `n`, as it stands in flash (spec/11 R339). -/
def storedItem (s : State) (base n : Nat) : CalItem :=
  let e := dirEntry s base n
  let ws := (List.range (wordAt e 2).toNat).map fun k => setWord s base ((wordAt e 1).toNat / 4 + k)
  { origin := bitOf (wordAt e 0) 16, words := ws, crcOk := crc32Words (e.take 3 ++ ws) == wordAt e 3 }

/-- Directory entries by ascending ITEM_ID. -/
def setIndex (s : State) (base : Nat) : KMap Nat := (List.range (setCount s base)).foldr (fun n m => kset m (dirId s base n) n) []

/-- Byte offset, in the region, of an item: its own place, or the one after the last item; items start at 8,256 (spec/11 R339, R343). -/
def itemOffset (s : State) (base id : Nat) : Nat :=
  let place (n : Nat) : Nat := (wordAt (dirEntry s base n) 1).toNat
  match dirIndex s base id with
  | some n => place n
  | none => match setCount s base with
    | 0 => 8256
    | n + 1 => place n + 4 * (wordAt (dirEntry s base n) 2).toNat

/-- Directory entry words 0 to 2 of an item (spec/11 R339). -/
def entryHead (id : Nat) (origin : Bool) (off len : Nat) : List Word :=
  [wordOf [(0, 16, id), (16, 1, bit origin)], BitVec.ofNat 32 off, BitVec.ofNat 32 len]

/-- SHA-384 over the entries of every item with a matching CRC and their words, in ascending ITEM_ID (spec/11 R342). -/
def setDigest (s : State) (base : Nat) : Nat :=
  (Config.sha384 ((setIndex s base).flatMap fun e =>
    let x := storedItem s base e.2
    if x.crcOk then dirEntry s base e.2 ++ x.words else [])).toNat

/-- The digest that the header holds (spec/11 R339, R342). -/
def storedDigest (s : State) (base : Nat) : Nat := valueOf ((List.range 12).map fun k => setWord s base (1 + k))

/-- The digest is recomputed and stored in the header (spec/11 R342). -/
def storeDigest (base : Nat) (s : State) : State :=
  let d := setDigest s base
  let t := putFlash (base + 4) (wordsOf 12 d) s
  { t with limits := { t.limits with calDigest := d } }

/-- An item goes into the region: its words, its directory entry with a CRC word, and a header whose COUNT takes in the entry (spec/11
R339, R343). -/
def writeItem (base id : Nat) (origin : Bool) (ws : List Word) (crc : Word) (s : State) : State :=
  let off := itemOffset s base id
  let count := setCount s base
  let n := (dirIndex s base id).getD count
  let t := putFlash (base + off) ws s
  let t := putFlash (base + 64 + 16 * n) (entryHead id origin off ws.length ++ [crc]) t
  putFlash (base + 52) [0, 0, 0] (putFlash base [wordOf [(0, 16, 1), (16, 16, (max count (n + 1) : Nat))]] t)

/-- The CRC of an item that is being written (spec/11 R339). -/
def newCrc (s : State) (base id : Nat) (origin : Bool) (ws : List Word) : Word :=
  crc32Words (entryHead id origin (itemOffset s base id) ws.length ++ ws)

/-- Power fails during a write: the item's words are free, and its CRC fails; no other item changes (spec/11 R343; log entry 65, DESIGN
CHOICE). -/
def cutItem (g : CalProg) (ws : List Word) (crc : Word) (s : State) : State :=
  let c := newCrc s g.base g.id g.origin ws
  writeItem g.base g.id g.origin ws (if crc = c then ~~~c else crc) s

/-- A calibration write is running (spec/11 R343). -/
def calBusy (s : State) : Bool := s.limits.calProg.isSome

/-- The region has room for an item (spec/11 R339, R343). -/
def itemRoom (s : State) (id len : Nat) : Bool :=
  (dirIndex s (calBase s) id).isSome || (decide (setCount s (calBase s) < 512)
    && decide (itemOffset s (calBase s) id + 4 * len ≤ (recordWord s 11).toNat))

/-! ### CALSET_QUERY and CALSET_EXPORT -/

/-- Handling of CALSET_QUERY (spec/11 R343, R346). -/
def calsetQuery (_ : Packet) (s : State) : Done :=
  check (!calBusy s) .busy s <|
  .reply .ok ([wordOf [(0, 16, setCount s (calBase s)), (16, 1, bit s.limits.digestBad)]] ++ wordsOf 12 s.limits.calDigest
    ++ (List.range (setCount s (calBase s))).flatMap (dirEntry s (calBase s))) s

/-- CALSET_QUERY (spec/11 R346). -/
def execCalsetQuery (p : Packet) (s : State) : Out := .next (runCommand infoCalsetQuery calsetQuery p s)

/-- Handling of CALSET_EXPORT (spec/11 R343, R347). -/
def calsetExport (p : Packet) (s : State) : Done :=
  let w := wordAt p.payload 0
  let id := fld w 0 16
  check (!calBusy s) .busy s <|
  check (zeroAt w 16 16) .badParam s <|
  match dirIndex s (calBase s) id with
  | some n => .reply .ok (dirEntry s (calBase s) n ++ (storedItem s (calBase s) n).words) s
  | none => .reply .badParam [] s

/-- CALSET_EXPORT (spec/11 R347). -/
def execCalsetExport (p : Packet) (s : State) : Out := .next (runCommand infoCalsetExport calsetExport p s)

/-! ### CALSET_IMPORT and CALSET_STORE -/

/-- Item words are ones that their type accepts (spec/11 R348). -/
def itemOk (id : Nat) (ws : List Word) : Bool :=
  match itemType id with
  | 4 =>
    let es := stepPairs ws 0 256
    es.all (fun e => stepOk e.2) && (es.zip (es.drop 1)).all fun e => decide (stepFs e.1.2 ≤ stepFs e.2.2)
  | 5 => portCfgOk (0 :: ws)
  | _ => true

/-- Length rule of CALSET_IMPORT; an unknown TYPE has none (spec/11 R348). -/
def importLength (ws : List Word) : Bool := (itemLength (fld (wordAt ws 0) 0 8)).all fun n => ws.length == 1 + n

/-- A write starts programming; its command waits for the end (spec/11 R343). -/
def startWrite (op id : Nat) (origin : Bool) (ws : List Word) (s : State) : Done :=
  .hold 0 none { s with limits := { s.limits with calProg := some { id := id, origin := origin, words := ws, op := op, base := calBase s } } }

/-- Handling of CALSET_IMPORT (spec/11 R343, R348; spec/20 R577). -/
def calsetImport (p : Packet) (s : State) : Done :=
  let w := wordAt p.payload 0
  let id := fld w 0 16
  let ws := p.payload.drop 1
  check (!calBusy s && !stagesRun s) .busy s <|
  check (zeroAt w 17 15 && itemKnown s id && itemOk id ws && itemRoom s id ws.length) .badParam s <|
  check (!(itemType id == 4 && busyIdx s (itemHearth id) (itemIndex id))) .busy s <|
  startWrite 0x0D06 id (bitOf w 16) ws s

/-- CALSET_IMPORT (spec/11 R348). -/
def execCalsetImport (p : Packet) (s : State) : Out :=
  .next (runCommandWith infoCalsetImport (importLength p.payload) calsetImport p s)

/-- The grid point nearest an LO, the lower on a tie; none outside the grid (spec/11 R349). -/
def nearestPoint (ws : List Word) (lo : Nat) : Option Nat :=
  let first := (wordAt ws 0).toNat
  let step := (wordAt ws 1).toNat
  if lo = 0 ∨ lo < first ∨ first + 63 * step < lo then none
  else if step = 0 then some 0
  else some ((2 * (lo - first) + step - 1) / (2 * step))

/-- Puts a value into grid point `i` of a gain item. -/
def putGrid (ws : List Word) (i : Nat) (v : Int) : List Word :=
  let w := wordAt ws (2 + i / 2)
  ws.set (2 + i / 2) (if i % 2 = 0 then wordOf [(0, 16, v), (16, 16, fld w 16 16)] else wordOf [(0, 16, fld w 0 16), (16, 16, v)])

/-- Words 1 to 6 of PWR_PORT_CONFIG from a configuration (spec/08 R264, spec/11 R340). -/
def portWords (c : PortCfg) : List Word :=
  let t (k : Nat) : Int := c.tempCorr.getD k 0
  [wordOf [(0, 8, c.stepMin), (8, 8, c.stepMax), (16, 16, c.sumTgt)], wordOf [(0, 16, c.sumHyst), (16, 3, c.tempZone), (20, 2, c.supSrc)],
   wordOf [(0, 16, t 0), (16, 16, t 1)], wordOf [(0, 16, t 2), (16, 16, t 3)], wordOf [(0, 16, t 4), (16, 16, c.supSlope)],
   wordOf [(0, 16, c.vCal), (16, 7, c.pmAddr), (24, 8, c.pmPage)]]

/-- The words that CALSET_STORE writes: the working copy with the present values at the grid point nearest the chain's LO, the
table in force, or the port's configuration; none where BAD_PARAM is returned (spec/11 R349; log entry 46, DEDUCED). -/
def storeWords (s : State) (id : Nat) : Option (List Word) :=
  let h := itemHearth id
  let n := itemIndex id
  let r := (hearthAt s h).rfc
  let port := 2 * (n % 2) + n / 2
  match itemType id with
  | 1 => (workItem s id).bind fun ws => (nearestPoint ws (r.lo.getD n 0)).map fun i =>
      putGrid ws i (satLog (gridValue ws i + (lcalAt s h n).accGain))
  | 2 => (workItem s id).bind fun ws => (nearestPoint ws (r.lo.getD port 0)).map fun i => putGrid ws i (portAt s h port).orxg
  | 3 =>
    let lo := if n < 8 then r.lo.getD (n % 4) 0 else r.lo.getD (n - 8 + 2 * r.orxTo.getD (n - 8) 0) 0
    (workItem s id).bind fun ws => (nearestPoint ws lo).map fun i =>
      ws.take (2 + 8 * i) ++ (List.range 8).map (wordAt (lcalAt s h n).corr) ++ ws.drop (10 + 8 * i)
  | 4 => if (portAt s h n).tableValid then
      some ((List.range 256).flatMap fun k => let e := kgetD (portAt s h n).table k (0, 0); [e.1, e.2]) else none
  | 5 => some (portWords (portAt s h n).cfg)
  | _ => none

/-- Handling of CALSET_STORE (spec/11 R343, R349; spec/20 R577). -/
def calsetStore (p : Packet) (s : State) : Done :=
  let w := wordAt p.payload 0
  let id := fld w 0 16
  check (!calBusy s && !stagesRun s) .busy s <|
  check (zeroAt w 17 15 && itemKnown s id) .badParam s <|
  match storeWords s id with
  | none => .reply .badParam [] s
  | some ws => check (itemRoom s id ws.length) .badParam s (startWrite 0x0D07 id (bitOf w 16) ws s)

/-- CALSET_STORE (spec/11 R349). -/
def execCalsetStore (p : Packet) (s : State) : Out := .next (runCommand infoCalsetStore calsetStore p s)

/-! ### The end of a write -/

/-- An item is written: flash, working copy, digest, and the table of a port (spec/11 R341 to R343, R348). -/
def putItem (g : CalProg) (s : State) : State :=
  let x : CalItem := { origin := g.origin, words := g.words }
  let t := storeDigest g.base (writeItem g.base g.id g.origin g.words (newCrc s g.base g.id g.origin g.words) s)
  let t : State := { t with limits := { t.limits with working := kset t.limits.working g.id x } }
  let h := itemHearth g.id
  let t := if g.op = 0x0D06 ∧ itemType g.id = 4 then
      refreshPort h (modPort h (itemIndex g.id) (putSteps (stepPairs g.words 0 256)) t) else t
  emit 0 0x0D13 (bytesOf 2 g.id ++ [bitNat g.origin, g.op % 256]) t

/-- CALSET_WRITE_DONE: the programming ends, `ok` when it has succeeded (spec/11 R343, R348, R351). -/
def execCalsetWriteDone (ok : Bool) (s : State) : Out :=
  .next <|
    match s.limits.calProg with
    | none => s
    | some g =>
      let t : State := { s with limits := { s.limits with calProg := none } }
      if ok then endHeldFor g.op 0 .ok [] (putItem g t) else endHeldFor g.op 0 .internal [] t

/-! ### Kindling -/

/-- The calibration set is loaded and digested: the working copy, source 482 for every item whose CRC fails, and the digest
(spec/11 R341, R342, R350, R351). -/
def loadSet (s : State) : State :=
  let base := calBase s
  let t : State := { s with limits := { s.limits with working := (setIndex s base).map fun e => (e.1, storedItem s base e.2) } }
  let t := storeDigest base t
  let bad := t.limits.calDigest != storedDigest s base
  let t : State := { t with limits := { t.limits with digestBad := bad } }
  onlyIf bad (emit 0 0x0D14 (bytesOf 16 t.limits.calDigest)) t

/-- Port configurations and tables of a hearth at Kindling: PORT_COMP loads with MODE FIXED and STEP 0 (spec/11 R341). -/
def loadPorts (h : Nat) (s : State) : State :=
  each (List.range 4) (fun c u =>
    let t := itemCheck (itemId 5 h c) u
    let t := match workItem t (itemId 5 h c) with
      | some ws => modPort h c (fun x => { x with cfg := { portCfgOf (0 :: ws) with auto := false, step := 0 } }) t
      | none => t
    loadTable h c t) s

end Sys2Proof.Machine
end

