-- ==== Sys2Proof/Machine/Group.lean ====
section
/-! DEFINITION. Machine/Group.lean: the group agent: roles, beacons, the plan and its rounds, wait causes and holds, offset
bounds, probe couplings and group ceilings (spec/15 R444 to R463, R466, R473 to R478). Frames that the device sends
stand in an outbox, oldest first (log entry 10, DESIGN CHOICE). -/

namespace Sys2Proof.Machine

/-- Serial-number comparison of TERM values (spec/15 R463). -/
def termGt (a b : Nat) : Bool :=
  let d := (a + 2 ^ 16 - b % 2 ^ 16) % 2 ^ 16
  d != 0 && decide (d < 2 ^ 15)

/-! ### Flue Transport Frames as bytes (spec/00 R10, spec/15 R442 to R445) -/

/-- The `n` bytes of a value in network byte order, the high byte first (spec/00 R10, spec/15 R444). -/
def netBytes (n v : Nat) : List (BitVec 8) := (asBytes (bytesOf n v)).reverse

/-- The value of bytes in network byte order. -/
def netValue (bs : List (BitVec 8)) : Nat := bs.foldl (fun v b => 256 * v + b.toNat) 0

/-- The value of `n` bytes of a frame from byte `k` on, in network byte order. -/
def netField (bs : List (BitVec 8)) (k n : Nat) : Nat := netValue ((bs.drop k).take n)

/-- The MAC address of port `port` = 2 × h + p: the Kindling record's base plus 2 × h + p (spec/15 R442, spec/20 R579). -/
def portMac (s : State) (port : Nat) : Nat :=
  ((recordWord s 4).toNat + 2 ^ 32 * fld (recordWord s 5) 0 16 + port) % 2 ^ 48

/-- The group address 03:4E:52:46:gg:gg (spec/15 R445). -/
def groupMac (s : State) : Nat := 0x034E52460000 + s.flu.groupId % 2 ^ 16

/-- The 16-byte header of a frame that the device sends, in network byte order (spec/00 R10, spec/15 R444). -/
def ftfHeader (s : State) (x : FlueTx) : List (BitVec 8) :=
  netBytes 1 1 ++ netBytes 1 x.typ ++ netBytes 2 s.flu.groupId ++ netBytes 2 (s.flu.deviceIndex % 1024) ++ netBytes 2 x.dst
    ++ netBytes 4 x.seq ++ netBytes 2 (4 * x.words.length) ++ netBytes 1 (bitNat x.last) ++ netBytes 1 0

/-- The Ethernet frame that carries `x` on a port, without its FCS: the addresses, an 802.1Q tag where the port has TAG, ETYPE,
the header, the payload in little-endian order and padding to 60 bytes. `mac` is the unicast address of a REPLY or PROBE_REPORT,
which the device learns from the frames that it has received (spec/15 R444, R445; log entry 119, DESIGN CHOICE). -/
def ftfFrame (s : State) (port mac : Nat) (x : FlueTx) : List (BitVec 8) :=
  let c := s.flu.ports.getD port {}
  let tag := if c.tag then netBytes 2 0x8100 ++ netBytes 2 (c.pcp % 8 * 2 ^ 13 + c.vid % 2 ^ 12) else []
  let b := netBytes 6 (if x.typ = 1 ∨ x.dst = 0xFFFF then groupMac s else ((x.via.map (·.2)).getD mac)) ++ netBytes 6 (portMac s port) ++ tag
    ++ netBytes 2 s.flu.etype ++ ftfHeader s x ++ wordBytes x.words
  b ++ List.replicate (60 - b.length) 0

/-- The byte at which the FTF header of a received frame begins: after the addresses, the tag where the port has TAG, and the
EtherType; none where the EtherType or the VLAN ID differs from the port's own (spec/15 R444, R445). -/
def ftfStart (s : State) (port : Nat) (bs : List (BitVec 8)) : Option Nat :=
  let c := s.flu.ports.getD port {}
  if c.tag then
    if netField bs 12 2 = 0x8100 ∧ netField bs 14 2 % 2 ^ 12 = c.vid ∧ netField bs 16 2 = s.flu.etype then some 18 else none
  else if netField bs 12 2 = s.flu.etype then some 14 else none

/-- Whether a receiver discards a frame and counts it in FLU_PORT_ERR.BAD: its EtherType, VLAN ID, FORMAT or GROUP_ID differ from
the device's own, its DST is neither its index nor 0xFFFF, its LENGTH runs past the frame, or its TYPE is 0 or above 5
(spec/15 R445). A message of PTP on a port with the PTP role is no frame of the group (R442, R464; log entry 119, DESIGN CHOICE). -/
def ftfBad (s : State) (port : Nat) (bs : List (BitVec 8)) : Bool :=
  match ftfStart s port bs with
  | none => !((s.flu.ports.getD port {}).ptp && (netField bs 12 2 == 0x88F7 || (netField bs 12 2 == 0x8100 && netField bs 16 2 == 0x88F7)))
  | some k =>
    let typ := netField bs (k + 1) 1
    let dst := netField bs (k + 6) 2
    netField bs k 1 != 1 || netField bs (k + 2) 2 != s.flu.groupId || (dst != s.flu.deviceIndex && dst != 0xFFFF)
      || decide (bs.length < k + 16 + netField bs (k + 12) 2) || typ == 0 || decide (5 < typ)

/-! ### Holds and wait causes -/

/-- Sets the wait causes of the group on every section; a new one starts its down-ramp (spec/01 R36; spec/15 R460). -/
def groupWaits (s : State) : State :=
  each (allSections s) (fun g t =>
    match (secAt t g.1 g.2).defn with
    | none => t
    | some d =>
      let w := (secAt t g.1 g.2).waits
      let digest := d.group && s.flu.digestWait
      let timing := d.tdd && followsLeader s && !s.flu.timeAgree
      let u := modSec g.1 g.2 (fun y => { y with waits := { y.waits with digest := digest, timing := timing } }) t
      let u := if digest && !w.digest then startDown 256 true g.1 g.2 u else u
      if timing && !w.timing then startDown 1 true g.1 g.2 u else u) s

/-- Changes the GROUP_LOST hold, with its event (spec/15 R460, R490). -/
def setLost (v : Bool) (s : State) : State :=
  if s.holds.groupLost = v then s
  else emit 0 0x0A11 ([bitNat v] ++ bytesOf 2 s.flu.leader) (setHolds (fun x => { x with groupLost := v }) s)

/-- The GROUP_LOST hold ends, but for a device that hears its own index (spec/15 R450, R460, R462). -/
def endLost (s : State) : State := if s.flu.dupIndex then s else setLost false s

/-- Changes VERSION_MISMATCH and its hold, with the event (spec/15 R460, R490). -/
def setMismatch (v : Bool) (s : State) : State :=
  if s.flu.versionMismatch = v then s
  else emit 0 0x0A13 [bitNat v, s.flu.leaderMajor] (setHolds (fun x => { x with groupVersion := v }) (modFlu (fun x => { x with versionMismatch := v }) s))

/-- DIGEST_AGREE and what its return ends: the digest wait cause, and the GROUP_LOST hold when a beacon has just been accepted
(spec/15 R459, R460; log entry 48, DEDUCED). -/
def agreeChanged (beacon : Bool) (s : State) : State :=
  let t := evalDigest s
  if t.flu.digestAgree then
    let t := if t.flu.digestWait then groupWaits (modFlu (fun x => { x with digestWait := false }) t) else t
    if beacon then endLost t else t
  else t

/-! ### Offset bounds -/

/-- Mean magnitude of offsetFromMaster over the last Sync messages, ns (spec/15 R466). -/
def meanOffset (x : Ptp) : Nat :=
  if x.hist.isEmpty then 0 else (roundDiv ((x.hist.foldl (· + ·) 0 : Nat) : Int) (65536 * x.hist.length)).toNat

/-- The offset bound B, ns (spec/15 R466). -/
def offsetBound (s : State) : Nat :=
  let x := s.flu.ptp
  if x.mode = 3 then 0
  else if s.tbu.timeStatus = 3 then satCount 32 (meanOffset x)
  else if s.tbu.timeStatus = 4 then satCount 32 (x.lockedB + 50 * ((s.tbu.tick - x.holdFrom) / ticksPerSecond))
  else 0xFFFFFFFF

/-- The offset to the leader, ns; the acting leader's is 0 (spec/15 R466; log entry 50, DEDUCED). -/
def groupOffset (s : State) : Nat :=
  let x := s.flu
  if x.acting = 2 then 0
  else if x.leaderSeen.isNone ∨ x.ptp.gmId ≠ x.leaderGm then 0xFFFFFFFF
  else satCount 32 (offsetBound s + x.leaderOffset)

/-- TIME_AGREE changes, with its event and the time-offset wait cause (spec/15 R460, R466, R490). -/
def setTimeAgree (v : Bool) (s : State) : State :=
  if s.flu.timeAgree = v then s
  else groupWaits (emit 0 0x0A14 ([bitNat v] ++ bytesOf 4 (groupOffset s)) (modFlu (fun x => { x with timeAgree := v }) s))

/-- TIME_AGREE falls as soon as the offset to the leader exceeds 100 ns (spec/15 R466). -/
def evalTime (s : State) : State :=
  if s.flu.acting ≠ 0 ∧ 100 < groupOffset s then setTimeAgree false (modFlu (fun x => { x with agreeRun := 0 }) s) else s

/-! ### The group plan -/

/-- The records of a plan after its two header words; none when they break the format (spec/15 R454). -/
def planRecords : Nat → List Word → Option (List PlanRecord)
  | 0, ws => if ws.isEmpty then some [] else none
  | n + 1, ws =>
    let w := wordAt ws 0
    let len := 4 + fld (wordAt ws 2) 0 12
    let index := fld w 0 16
    if ws.length < 1 + len ∨ fld w 16 16 ≠ 0 ∨ (1023 < index ∧ index ≠ 0xFFFF) then none
    else (planRecords n (ws.drop (1 + len))).map fun r => { index := index, words := (ws.drop 1).take len } :: r

/-- Words of the plan region that the Kindling record names (spec/15 R454, spec/20 R579). -/
def planRegion (s : State) : List Word :=
  (List.range ((recordWord s 14).toNat / 4)).map fun k => flashWord s ((recordWord s 13).toNat + 4 * k)

/-- The plan's words from word 0 to the end of its last record, if its header and its digest hold (spec/15 R454, spec/20 R579). -/
def planWords (s : State) : Option (List Word) :=
  let ws := planRegion s
  let len := (wordAt ws 1).toNat
  let digest := valueOf ((List.range 12).map fun k => recordWord s (30 + k))
  if fld (wordAt ws 0) 0 16 = 1 ∧ len % 4 = 0 ∧ 8 ≤ len ∧ len ≤ 4 * ws.length ∧ (Config.sha384 ws).toNat = digest then some (ws.take (len / 4)) else none

/-- Kindling reads the plan region that the Kindling record names, if it names one (spec/15 R454). -/
def readPlanArea (s : State) : State :=
  modFlu (fun x => { x with planArea := if (recordWord s 14).toNat = 0 then some [] else planWords s }) s

/-- The plan of the device and the words that its digest covers; a plan that breaks its format is empty (spec/15 R454). -/
def readPlan (s : State) : Option (List Word × List PlanRecord) :=
  s.flu.planArea.bind fun ws =>
    if ws.isEmpty then some ([], []) else (planRecords (fld (wordAt ws 0) 16 16) (ws.drop 2)).map fun r => (ws, r)

/-- The plan digest: the first 16 bytes of SHA-384 over GROUP_ID, PROTO_MAJOR and the plan (spec/15 R455). -/
def digestOf (s : State) (ws : List Word) : Nat :=
  (Config.sha384Bytes (asBytes (bytesOf 2 s.flu.groupId ++ [s.sec.protoMajor]) ++ wordBytes ws)).toNat % 2 ^ 128

/-- Reads the plan of a leader-eligible device; source 424 for one that breaks its format (spec/15 R454, R455). -/
def loadPlan (s : State) : State :=
  if s.flu.role < 2 then modFlu (fun x => { x with plan := [], planDigest := 0 }) s
  else
    let r := readPlan s
    let t := onlyIf r.isNone (raiseSource 0 424) s
    let v := r.getD ([], [])
    modFlu (fun x => { x with plan := v.2, planDigest := digestOf s v.1 }) t

/-- Packets of the plan for a device, in plan order (spec/15 R457). -/
def planFor (s : State) (j : Nat) : List PlanRecord := s.flu.plan.filter fun r => r.index == j || r.index == 0xFFFF

/-- A packet with its SEQUENCE (spec/12 R353, R355). -/
def stampPacket (ws : List Word) (n : Nat) : List Word := ws.set 2 (BitVec.ofNat 32 n)

/-- Sends one leader packet (spec/15 R446, R461). -/
def sendPacket (dst : Nat) (last : Bool) (ws extra : List Word) (s : State) : State :=
  sendFrame 2 dst last (stampPacket ws (nextSeq s 2) ++ extra) s

/-- Sends a plan round to a device: its last frame carries END and the plan digest (spec/15 R457). -/
def sendRound (j : Nat) (s : State) : State :=
  let rs := planFor s j
  if rs.isEmpty then s
  else
    let n := rs.length
    let t := each rs.zipIdx (fun e => sendPacket j (e.2 + 1 == n) e.1.words (if e.2 + 1 = n then wordsOf 4 s.flu.planDigest else [])) s
    modFlu (fun x => { x with rounds := kset x.rounds j { left := n, first := nextSeq s 2 % 2 ^ 32, count := n } }) t

/-- The acting leader applies the plan to itself: its packets reach it as packets from source 0x41 (spec/15 R457; log
entry 55). -/
def applyOwnPlan (s : State) : State :=
  if s.flu.appliedDigest = s.flu.planDigest then s else sendRound s.flu.deviceIndex s

/-- A SECTION_DEFINE record of a group-scoped section. -/
def definesGroup (r : PlanRecord) : Bool := fld (wordAt r.words 0) 0 16 == 0x0201 && bitOf (wordAt r.words 4) 24

/-- Global section that a record names. -/
def recordSection (r : PlanRecord) : Nat := globalOf (fld (wordAt r.words 0) 24 4) (fld (wordAt r.words 0) 28 4)

/-- Group-scoped sections of a device, as the plan defines them (spec/15 R477). -/
def groupSections (s : State) (j : Nat) : List Nat :=
  let gs := ((planFor s j).filter definesGroup).map recordSection
  (List.range 64).filter gs.contains

/-- Definition that the plan gives a section of a device. -/
def planDef (s : State) (j g : Nat) : Option SecDef :=
  (((planFor s j).filter fun r => definesGroup r && recordSection r == g).getLast?).map fun r => defOf (r.words.drop 4)

/-! ### The acting role -/

/-- ACTING_ROLE changes, with its event (spec/15 R448, R490). -/
def setActing (v : Nat) (s : State) : State :=
  if s.flu.acting = v then s
  else emit 0 0x0A10 ([s.flu.acting, v] ++ bytesOf 2 s.flu.term ++ bytesOf 2 s.flu.leader) (modFlu (fun x => { x with acting := v }) s)

/-- The packet of DMP_GROUP_CEIL for a section (spec/05 R156, spec/12 R355). -/
def ceilPacket (g : Nat) (dl ul : Int) : List Word :=
  [wordOf [(0, 16, 0x0404), (24, 4, (g / 8 : Nat)), (28, 4, (g % 8 : Nat))], 1, 0, 0, wordOf [(0, 16, dl), (16, 16, ul)]]

/-- C_GRP of a node; 0x7FFF for one that the leader has no value of (spec/15 R477). -/
def nodeAt (s : State) (j g : Nat) : NodeCeil :=
  (s.flu.nodes.find? fun n => n.device == j && n.section_ == g).getD { device := j, section_ := g }

/-- Stores C_GRP of a node (spec/15 R477). -/
def storeCeil (n : NodeCeil) (s : State) : State :=
  modFlu (fun x => { x with nodes := (x.nodes.filter fun m => !(m.device == n.device && m.section_ == n.section_)) ++ [n] }) s

/-- Stores C_GRP of a node and sends it (spec/15 R477). -/
def sendCeil (n : NodeCeil) (s : State) : State :=
  let t := storeCeil { n with sentDl := n.dl, sentUl := n.ul } s
  sendPacket n.device false (ceilPacket n.section_ n.dl n.ul) [] t

/-- Devices of the group that the leader knows: itself and those it has heard (spec/15 R452, R477). -/
def groupDevices (s : State) : List Nat :=
  (List.range 1024).filter fun j => j == s.flu.deviceIndex || (kget s.flu.heard j).isSome

/-- Devices whose beacons were accepted in the last 100 frames (spec/15 R452). -/
def heardNow (s : State) : List (Nat × Heard) := s.flu.heard.filter fun e => decide (s.flu.frames < e.2.frame + 100)

/-- Devices that the leader may send commands to (spec/15 R461). -/
def mayCommand (s : State) (j : Nat) : Bool := !((kget s.flu.heard j).any (·.mismatch))

/-- What ends as an acting leader becomes standby leader (spec/15 R463). -/
def standBy (s : State) : State :=
  let t := modFlu (fun x => { x with
    standDown := false, rounds := [], surveyRun := false, surveyLeft := [], surveyAt := none, missed := 0, digestWait := false
    digestSince := s.tbu.tick + 1 }) s
  groupWaits (agreeChanged false (setActing 3 t))

/-- After a change of the acting leader the first packet of the new one is accepted whatever its SEQUENCE (spec/12 R353). -/
def newLeader (other : Bool) (s : State) : State := if other then modCpx (fun c => { c with leaderAny := true }) s else s

/-- C_GRP of a node at the standby leader: what the acting leader's copy gave it, which no frame of the spec carries, is a free value
(spec/15 R462, R477; log entry 51, DESIGN CHOICE). -/
def copiedNode (s : State) (j g : Nat) : NodeCeil × State :=
  match s.flu.nodes.find? fun n => n.device == j && n.section_ == g with
  | some n => (n, s)
  | none =>
    let f := takeFree s
    ({ device := j, section_ := g, dl := f.1.toNat % 65536 - 32768, ul := f.1.toNat / 65536 % 65536 - 32768 }, f.2)

/-- The standby leader becomes acting leader (spec/15 R462). -/
def takeOver (s : State) : State :=
  let t := modFlu (fun x => { x with
    term := (x.term + 1) % 2 ^ 16, leader := x.deviceIndex, missed := 0, digestWait := false
    surveyAt := if x.surveyPeriod = 0 then none else some (s.tbu.tick + ticksPerSecond * x.surveyPeriod) }) s
  let t := newLeader (s.flu.leader != s.flu.deviceIndex) t
  let t := groupWaits (agreeChanged false (setMismatch false (endLost (setActing 2 t))))
  let known := (groupDevices t).filter fun j => mayCommand t j
  let t := each known (fun j u => each (groupSections u j) (fun g v => let n := copiedNode v j g; sendCeil n.1 n.2) u) t
  applyOwnPlan t

/-- The configured role takes effect: the device joins its group, or leaves it (spec/15 R447 to R449, R456, R480; log entry
49, DEDUCED). -/
def joinGroup (s : State) : State :=
  let r := s.flu.role
  let t := modFlu (fun x => { x with
    joinDue := false, standDown := false, term := 0, leader := if r = 2 then x.deviceIndex else 0, leaderTerm := 0, leaderSeen := none
    leaderMajor := 0, leaderDigest := 0, leaderOffset := 0xFFFFFFFF, leaderGm := 0, frames := 0, missed := 0, groupMinor := 0
    digestSince := s.tbu.tick + 1, digestWait := false, agreeRun := 0, dupSeen := [], rxSeq := [], roundBad := false, roundEnd := none
    roundReplied := false, rounds := [], heard := [], ownCold := false, report := [], reported := [], couplings := [], nodes := [], surveyRun := false
    surveyLeft := []
    surveyAt := if r = 2 ∧ x.surveyPeriod ≠ 0 then some (s.tbu.tick + ticksPerSecond * x.surveyPeriod) else none }) s
  let t := modCpx (fun c => { c with leaderAny := true }) t
  let t := setActing r (setTimeAgree false (setMismatch false t))
  let t := endLost t
  let t := groupWaits (agreeChanged false (loadPlan t))
  if r = 2 then applyOwnPlan t else t

/-! ### Beacons -/

/-- The digest that a device's beacons carry (spec/15 R451). -/
def ownDigest (s : State) : Nat := if 2 ≤ s.flu.role then s.flu.planDigest else s.flu.appliedDigest

/-- The 12 words of a beacon at a frame boundary (spec/15 R451). -/
def beaconWords (s : State) : List Word :=
  let x := s.flu
  [wordOf [(0, 8, s.sec.protoMinor), (8, 8, s.sec.protoMajor), (16, 2, x.acting), (18, 2, pkgCode s.pkg), (20, 3, s.tbu.timeStatus),
     (23, 1, bit x.versionMismatch), (24, 1, bit x.digestAgree), (25, 1, bit x.timeAgree), (26, 1, bit (x.ptp.mode == 3))],
   wordOf [(0, 16, if x.acting = 1 then 0 else x.term), (16, 8, x.groupMinor)]] ++ wordsOf 4 (ownDigest s)
    ++ wordsOf 2 (timeValue s.tbu.frameTime) ++ [wordOf [(0, 10, s.tbu.sfn), (16, 7, transmitting s)], BitVec.ofNat 32 (offsetBound s)]
    ++ wordsOf 2 x.ptp.gmId

/-- Sends the beacon of a frame; the acting leader first settles GROUP_MINOR (spec/15 R450 to R452). -/
def sendBeacon (s : State) : State :=
  if s.flu.acting = 0 ∨ s.flu.dupIndex = true then s
  else
    let minor := ((heardNow s).map (·.2.minor)).foldl min s.sec.protoMinor
    let t := if s.flu.acting = 2 then modFlu (fun x => { x with groupMinor := minor }) s else s
    sendFrame 1 0xFFFF false (beaconWords t) t

/-- A frame of the device's own timing closes: missed beacons, versions, TIME_AGREE, and a pending change of role (spec/15 R453,
R460, R463, R466). -/
def closeFrame (s : State) : State :=
  let x := s.flu
  let follows := followsLeader s
  let hit := x.leaderSeen == some x.frames
  let t := modFlu (fun y => { y with
    missed := if follows then (if hit then 0 else satCount 4 (y.missed + 1)) else 0, frames := y.frames + 1
    agreeRun := if 100 < groupOffset s then 0 else min 10 (y.agreeRun + 1) }) s
  let t := if 100 < groupOffset s then setTimeAgree false t else if t.flu.agreeRun = 10 then setTimeAgree true t else t
  let t := if follows && x.leaderSeen.isSome && x.leaderMajor != s.sec.protoMajor then setMismatch true t else t
  let t := if follows && decide (3 ≤ t.flu.missed) then setLost true t else t
  if x.acting = 2 ∧ x.standDown = true then standBy t else t

/-- The group's part of a running frame boundary, at which a frame closes, opens, or both (spec/15 R451, R453, R480). -/
def groupFrame (closed opened : Bool) (s : State) : State :=
  let t := if closed && s.flu.acting != 0 then closeFrame s else s
  if opened then sendBeacon (if t.flu.joinDue then joinGroup t else t) else t

/-- A second sender of the device's own index (spec/15 R450). -/
def takeDup (s : State) : State :=
  if s.flu.dupIndex then s else setLost true (raiseSource 0 421 (modFlu (fun x => { x with dupIndex := true }) s))

/-- Whether the sender of a beacon with ACTING_ROLE 2 is, or becomes, the acting leader of this device (spec/15 R448, R463; log
entry 48). -/
def isLeader (s : State) (b : Beacon) : Bool :=
  let x := s.flu
  b.acting == 2 && followsLeader s &&
    (x.leaderSeen.isNone || b.src == x.leader || decide (5 ≤ x.missed) || termGt b.term x.leaderTerm
      || (b.term == x.leaderTerm && b.src == 0))

/-- A beacon of the acting leader (spec/15 R448, R453, R459, R460; spec/12 R353). -/
def leaderBeacon (b : Beacon) (s : State) : State :=
  let x := s.flu
  let other := x.leaderSeen.isSome && b.src != x.leader
  let t := modFlu (fun y => { y with
    leader := b.src, leaderTerm := b.term, leaderSeen := some y.frames, leaderMajor := b.major, leaderDigest := b.digest
    leaderOffset := b.offset, leaderGm := b.gmId, groupMinor := b.groupMinor }) s
  let t := newLeader other t
  let t := if b.major = s.sec.protoMajor then setMismatch false t else t
  evalTime (agreeChanged true t)

/-- COLD_CEIL to the group-scoped sections of a device that first shows DIGEST_AGREE (spec/15 R477). -/
def sendCold (j : Nat) (s : State) : State :=
  let c := s.flu.coldCeil
  each (groupSections s j) (fun g => sendCeil { device := j, section_ := g, dl := c, ul := c }) s

/-- What a leader-eligible device learns from a beacon; the acting leader starts a plan round to a device whose digest differs,
and ends one to a device whose digest has become the plan's (spec/15 R452, R457, R461, R477; log entry 149, DESIGN CHOICE). -/
def memberBeacon (b : Beacon) (s : State) : State :=
  let old := (kget s.flu.heard b.src).getD {}
  let first := b.digestAgree && !old.cold
  let h : Heard := { frame := s.flu.frames, major := b.major, minor := b.minor, mismatch := b.mismatch, digest := b.digest, cold := old.cold || first }
  let t := modFlu (fun x => { x with
    heard := kset x.heard b.src h, rounds := if b.digest = x.planDigest then kerase x.rounds b.src else x.rounds }) s
  if s.flu.acting ≠ 2 ∨ b.mismatch = true then t
  else
    let t := if b.major = s.sec.protoMajor ∧ b.digest ≠ s.flu.planDigest ∧ (kget s.flu.rounds b.src).isNone then sendRound b.src t else t
    if first then sendCold b.src t else t

/-- An acting leader that hears the other one with a higher claim stands down at its next frame boundary (spec/15 R449,
R463; log entry 49, DEDUCED). -/
def rivalBeacon (b : Beacon) (s : State) : State :=
  let x := s.flu
  let early := x.role == 2 && decide (x.frames < 3)
  if x.acting = 2 ∧ b.acting = 2 ∧ b.src < 2 ∧ (early = true ∨ termGt b.term x.term = true ∨ (b.term = x.term ∧ b.src < x.deviceIndex)) then
    newLeader (b.src != x.leader)
      (modFlu (fun y => { y with standDown := true, leader := b.src, leaderTerm := b.term, leaderSeen := some y.frames }) s)
  else s

/-! ### Surveys and group ceilings -/

/-- Centre and Fp of a section of a device in a direction, by the plan. -/
def probeBand (s : State) (j g : Nat) (dir : Bool) : Option (Nat × Nat) :=
  (planDef s j g).map fun d => (if dir then d.ulCentre else d.dlCentre, rateOf d)

/-- Couplings that the reports of the last window give: each received entry with the sent entry of the transmitter's section
with the same centre and Fp (spec/15 R476). -/
def pairedCouplings (s : State) : List Coupling :=
  let x := s.flu
  (x.report.filter fun e => !e.sent).flatMap fun e =>
    (x.report.filter fun t => t.sent && t.device == e.index && t.level != logMin
        && (probeBand s t.device t.section_ x.reportDir).isSome
        && probeBand s t.device t.section_ x.reportDir == probeBand s e.device e.section_ x.reportDir).map fun t =>
      { listener := e.device, section_ := e.section_, dir := x.reportDir, txIndex := t.device, txSection := t.section_
        level := subLog e.level t.level, seconds := x.reportStart / 2 ^ 32, tick := s.tbu.tick }

/-- Whether two couplings join the same nodes. -/
def samePair (a b : Coupling) : Bool :=
  a.listener == b.listener && a.section_ == b.section_ && a.dir == b.dir && a.txIndex == b.txIndex && a.txSection == b.txSection

/-- Inserts a coupling by falling level. -/
def insertCoupling (c : Coupling) : List Coupling → List Coupling
  | [] => [c]
  | d :: r => if d.level < c.level then c :: d :: r else d :: insertCoupling c r

/-- Stores a coupling; a node keeps its 16 strongest (spec/15 R476). -/
def storeCoupling (c : Coupling) (s : State) : State :=
  let all := insertCoupling c (s.flu.couplings.filter fun d => !samePair c d)
  let mine (d : Coupling) : Bool := d.listener == c.listener && d.section_ == c.section_ && d.dir == c.dir
  let kept := (all.filter mine).take 16
  modFlu (fun x => { x with couplings := all.filter fun d => !mine d || kept.contains d }) s

/-- Nodes that couplings join, as device × 64 + section. -/
def nodeKey (j g : Nat) : Nat := j * 64 + g

/-- The nodes connected with a set through couplings (spec/15 R477). -/
def connected (cs : List Coupling) : Nat → List Nat → List Nat
  | 0, ks => ks
  | n + 1, ks =>
    let more := cs.flatMap fun c =>
      let a := nodeKey c.txIndex c.txSection
      let b := nodeKey c.listener c.section_
      if ks.contains a then [b] else if ks.contains b then [a] else []
    let next := (ks ++ more).eraseDups
    if next.length = ks.length then ks else connected cs n next

/-- One round of the iteration of R477 on a connected set: x in units of 2^-64, K in units of 2^-96; the answer is the next x and
ρ in units of 2^-160. -/
def powerStep (cs : List Coupling) (x : KMap Nat) : KMap Nat × Nat :=
  let y : KMap Nat := x.map fun e => (e.1, ((cs.filter fun c => nodeKey c.txIndex c.txSection == e.1).map fun c =>
    powOf c.level * kgetD x (nodeKey c.listener c.section_) 0).foldl (· + ·) 0)
  let top := (y.map (·.2)).foldl max 0
  let most := (x.map (·.2)).foldl max 0
  (y.map fun e => (e.1, if top = 0 then 0 else e.2 * 2 ^ 64 / top), if most = 0 then 0 else top * 2 ^ 64 / most)

/-- ρ of a connected set after 64 rounds (spec/15 R477; log entry 52, DEDUCED). -/
def powerRounds (cs : List Coupling) : Nat → KMap Nat × Nat → Nat
  | 0, a => a.2
  | n + 1, a => powerRounds cs n (powerStep cs a.1)

/-- C_new of the nodes of a connected set (spec/15 R477). -/
def ceilingOf (margin : Int) (cs : List Coupling) (ks : List Nat) : LogQ :=
  let x : KMap Nat := ks.foldl (fun m k => kset m k (2 ^ 64)) []
  let rho := powerRounds (cs.filter fun c => ks.contains (nodeKey c.txIndex c.txSection)) 64 (x, 0)
  if rho = 0 then logMax else satLog (-margin - logRatio rho (2 ^ 160))

/-- C_GRP of a node in a direction (spec/15 R477). -/
def nodeCeiling (s : State) (dir : Bool) (j g : Nat) (prev : Int) : LogQ :=
  let cs := s.flu.couplings.filter fun c => c.dir == dir
  let k := nodeKey j g
  if cs.any fun c => nodeKey c.txIndex c.txSection == k || nodeKey c.listener c.section_ == k then
    min (ceilingOf s.flu.margin cs (connected cs 65536 [k])) (satLog (prev + s.flu.ceilRise))
  else logMax

/-- After a round: the ceilings, those that differ by 0.5 dB or more from what was sent last sent, and the event (spec/15 R477, R478,
R490; log entry 53, DEDUCED). -/
def finishRound (s : State) : State :=
  let all := (groupDevices s).flatMap fun j => (groupSections s j).map fun g => (j, g)
  let news := all.map fun e =>
    let n := nodeAt s e.1 e.2
    { n with dl := nodeCeiling s false e.1 e.2 n.dl, ul := nodeCeiling s true e.1 e.2 n.ul }
  let go := news.filter fun n =>
    mayCommand s n.device && (decide (128 ≤ (n.dl - n.sentDl).natAbs) || decide (128 ≤ (n.ul - n.sentUl).natAbs))
  let t := each go sendCeil (each news storeCeil s)
  let t := modFlu (fun x => { x with
    surveyRun := false, lastWindows := x.surveyWin, roundsDone := incSat 16 x.roundsDone, lastRound := nextTime s }) t
  emit 0 0x0A17 (bytesOf 2 t.flu.lastWindows ++ bytesOf 2 go.length) t

/-- Every device heard has reported the last window of the round (spec/15 R476, R477). -/
def roundDone (s : State) : Bool :=
  let x := s.flu
  x.surveyRun && x.surveyLeft.isEmpty && x.windows.isEmpty
    && (heardNow s).all fun e => e.1 == x.deviceIndex || x.reported.contains e.1

/-- Stores what the reports of a window give, and ends the round after its last one (spec/15 R476, R477). -/
def takeReports (s : State) : State :=
  let t := each (pairedCouplings s) storeCoupling s
  if roundDone t then finishRound t else t

/-- The packet of PROBE_SCHEDULE for a window (spec/15 R478, R484). -/
def windowPacket (w : ProbeWindow) : List Word :=
  [wordOf [(0, 16, 0x0A06)], 4, 0, 0] ++ wordsOf 2 w.start
    ++ [wordOf [(0, 10, w.first), (10, 5, w.count), (15, 1, bit w.dir), (16, 6, w.rel)], wordOf [(0, 10, w.duration)]]

/-- The acting leader schedules the next window of its round with every device and with itself (spec/15 R478; log entry 54, DEDUCED). -/
def scheduleNext (s : State) : State :=
  match s.flu.surveyLeft with
  | [] => s
  | e :: r =>
    let x := s.flu
    let w : ProbeWindow := { start := x.surveyNext, first := e.1, count := 16, dir := e.2, rel := x.probeRel, duration := x.duration }
    sendPacket 0xFFFF false (windowPacket w) [] (modFlu (fun y => { y with
      surveyLeft := r, windows := y.windows ++ [w], surveyNext := (y.surveyNext + milliTime (y.duration + 10)) % 2 ^ 64 }) s)

end Sys2Proof.Machine
end

