-- ==== Sys2Proof/Machine/Resets.lean ====
section
/-! DEFINITION. Machine/Resets.lean: mutes of sections and the resets of blocks, as device actions and as the reaction BLOCK_RESET give
them (spec/04 R139; spec/06 R187; spec/08 R274; spec/17 R512, R514). -/

namespace Sys2Proof.Machine

/-- Closes the gates of a section until the block reset ends; `clk` is the clock c+2 of its sequence, or that of the device action
(spec/17 R512, R514). -/
def muteSection (clk h i : Nat) (s : State) : State :=
  updateGates clk h i (modSec h i (fun x => { x with
    blockMuted := true, muteFrom := if x.blockMuted then min x.muteFrom clk else clk, muteEnd := max x.muteEnd (clk + 61) }) s)

/-- Mutes every section of a hearth. -/
def muteHearth (h : Nat) (s : State) : State := each (List.range 8) (muteSection s.tbu.clock h) s

/-- Resets the taps of every enabled path of a hearth into acquisition (spec/04 R114). -/
def resetAllTaps (h : Nat) (s : State) : State := each (enabledPaths s h) (resetTaps h) s

/-- The restore that a snapshot's DRAM error refuses replies INTERNAL (spec/04 R133, R140). -/
def failRestore (h : Nat) (s : State) : State :=
  match (hearthAt s h).bdc.stage with
  | none => s
  | some g =>
    if !g.restore then s
    else
      let t := each g.items (fun e => emit h 0x0314 ([e.1] ++ bytesOf 2 e.2.1 ++ [statusCode .internal])) s
      let t := match stageOwner t h g with | some c => endHeld c .internal [] t | none => t
      freeStage h t

/-- SPA reset: what it measures and computes starts again; its configuration, the quench records and the counters stay
(spec/06 R187; log entry 58, DEDUCED). -/
def resetSpa (x : Spa) : Spa :=
  { ({} : Spa) with
    cfg := x.cfg, tddDir := x.tddDir, dutyUsed := x.dutyUsed, gateSince := x.gateSince, gateOpen := x.gateOpen
    gateShown := x.gateShown, gateRun := x.gateRun, dutyClosed := x.dutyClosed, dutyAt := x.dutyAt, dutySpan := x.dutySpan, quenchGate := x.quenchGate
    waitGate := x.waitGate, checkGate := x.checkGate, checkFrom := x.checkFrom, muteRamp := x.muteRamp, muteTick := x.muteTick, quenchTick := x.quenchTick
    quenchNote := x.quenchNote
    reason := x.reason, detail := x.detail, reasons := x.reasons, qSeq := x.qSeq, history := x.history, retryAt := x.retryAt
    lockWait := x.lockWait, latched := x.latched, okTicks := x.okTicks, quenches := x.quenches, latches := x.latches
    squelches := x.squelches, airLevel := x.airLevel }

/-- The staging buffer's operation ends without effect: a snapshot or restore that waits for it replies INTERNAL. -/
def failStage (h : Nat) (s : State) : State :=
  match (hearthAt s h).bdc.stage with
  | none => s
  | some g => if g.restore then failRestore h s else
    freeStage h (match stageOwner s h g with | some c => endHeld c .internal [] s | none => s)

/-- BDC reset: operations in progress end (the staging buffer's and a compaction), and what each path measures and decides starts
again, FROZEN included; configurations, published values, snapshot slots and counters stay (spec/04 R139; log entry 114, DEDUCED). -/
def resetBdc (h : Nat) (s : State) : State :=
  let t := modBdc h (fun b => { b with reloc := false }) (failStage h s)
  each (enabledPaths s h) (fun p u => resetTaps h p (modPath h p (fun x => { x with
    susp := 0, suspRun := 0, cur := {}, blocks := [], moveTo := none, overNow := false }) (setFrozen h p false 0 u))) t

/-- RFC reset: pending step changes and TRIM changes are dropped, and the overload counts and what the ports measure and compute start
again; steps, tables and configurations stay (spec/08 R274; log entry 57, DEDUCED). -/
def resetRfc (h : Nat) (s : State) : State :=
  let t := modRfc h (fun r => { r with ovl := [0, 0, 0, 0], ovlTick := [none, none, none, none] }) s
  each (List.range 4) (fun c => modPort h c fun x => { x with
    change := none, trimDue := false, trimSince := none, comp := 0, supDev := 0, supSeen := false, supStale := false
    sumPk := logMin, pkNow := none, satSince := false }) t

/-- LCAL reset: running estimates end (spec/17 R512; log entry 125, DEDUCED). -/
def resetLcal (h : Nat) (s : State) : State :=
  each (List.range 10) (fun n t => each (List.range 9) (fun item u => abortEst h n item u) t) s

/-- The originating block of a source is held in reset: the same reset as its device action gives; the blocks that no chapter gives a
reset keep their state (spec/17 R509, R512; log entry 125, DEDUCED). -/
def blockReset (h n : Nat) (s : State) : State :=
  if 64 ≤ n ∧ n ≤ 127 then resetRfc h s
  else if 128 ≤ n ∧ n ≤ 159 then resetLcal h s
  else if 160 ≤ n ∧ n ≤ 223 then resetBdc h s
  else if 224 ≤ n ∧ n ≤ 255 then resetDamper h s
  else if 256 ≤ n ∧ n ≤ 319 then each (List.range 8) (fun i => modSpa h i resetSpa) s
  else s

end Sys2Proof.Machine
end

