-- ==== Sys2Proof/Machine/Faults.lean ====
section
/-! DEFINITION. Machine/Faults.lean: the fault collector: capture, records, reactions, entry to DOUSED, injection and its
commands and registers (spec/17). -/

namespace Sys2Proof.Machine

/-! ### Entry to DOUSED -/

/-- Every held command replies DOUSED, and what it ran ends as on ABORTED (spec/12 R368, spec/14 R431). -/
def douseHeld (s : State) : State :=
  each s.cpx.held (fun c t => endHeld c .doused [] (abortEffect c t)) s

/-- FES in DOUSED: the TDD lines are deasserted, the sequences and the buses are idle (spec/22 R622). -/
def douseFes (s : State) : State :=
  each (hearthsOf s) (fun h => modHearth h fun x => { x with
    fes := { x.fes with tddLine := [], actRun := [], actNext := [], bus := none, busHeld := false, busEnd := none } }) s

/-- The package enters DOUSED at a DSP clock: every transmit gate closes, the RF powers down, held commands reply, pending
bank selections do not apply, streams stop, the one copy of the wide values is made and the embers are written
(spec/01 R32, R33, R38; spec/02 R64; spec/14 R433; spec/17 R513; spec/18 R542; spec/21 R609; spec/22 R622). -/
def enterDoused (clk : Nat) (s : State) : State :=
  if s.pkg = .doused then s
  else
    let t := setPkg .doused { s with warmDue := false }
    let t := evalGates clk t
    let t := each (hearthsOf t) (fun h u => each (List.range 4) (synOff h) u) t
    let t := modBoot (fun x => { x with rfPowered := false }) t
    let t := douseFes (douseHeld t)
    let t := each (hearthsOf t) (fun h => modHearth h fun x => { x with
      patterns := x.patterns.map fun q => { q with pending := none }, fcol := { x.fcol with chipDue := false } }) t
    let t := each (allSections t) (fun g u => stopStream 3 g.1 g.2 1 (stopStream 3 g.1 g.2 0 u)) t
    triggerEmbers 2 (dousedSnapshot t)

/-- FAULT_N is low (spec/17 R516). -/
def faultLow (s : State) : Bool := s.pins.faultPulse.isSome || s.pins.faultDrive || s.pkg == .doused

/-- ALERT_N is low (spec/17 R516). -/
def alertLow (s : State) : Bool := (hearthsOf s).any fun h => (hearthAt s h).fcol.alert

/-! ### Captures -/

/-- A captured source (spec/17 R510, R511, R521). -/
structure Catch where
  src : Nat := 0
  cls : Nat := 0
  inj : Bool := false
  coinc : Bool := false
  rail : Bool := false
  react : Nat := 0
  data : Nat := 0
  deriving DecidableEq, Repr

/-- Reactions that an injected capture takes (spec/17 R522). -/
def limitReact (f : Fcol) (inj : Bool) (react : Nat) : Nat := if inj && f.injSafe then react &&& reactIrq else react

/-- The capture of an Error of a source. -/
def catchError (f : Fcol) (n data : Nat) (inj coinc : Bool) : Catch :=
  let c := sourceConfig f n
  { src := n, cls := c.1, inj := inj, coinc := coinc, react := limitReact f inj c.2, data := data }

/-- The capture of a rail fault (spec/17 R511). -/
def catchRail (f : Fcol) (n data : Nat) (inj : Bool) : Catch :=
  { src := n, cls := 1, inj := inj, rail := true, react := limitReact f inj f.railReact, data := data }

/-- Sources that read Error and have not been captured since they read Quiet (spec/17 R510). -/
def newErrors (f : Fcol) : KMap Nat := f.err.filter fun e => !f.seen.contains e.1 && (kget f.rails e.1).isNone

/-- Sources with equal rails whose rail fault has not been captured (spec/17 R511). -/
def newRails (f : Fcol) : KMap Nat := f.rails.filter fun e => !f.railSeen.contains e.1

/-- What FCOL captures now, by rising source. -/
def catchesOf (f : Fcol) : KMap Catch :=
  (newRails f).foldl (fun m e => kset m e.1 (catchRail f e.1 e.2 false))
    ((newErrors f).map fun e => (e.1, catchError f e.1 e.2 false false))

/-- The lead of a capture: the highest class, then the lowest source (spec/17 R517). -/
def leadOf : List Catch → Catch
  | [] => {}
  | c :: cs => cs.foldl (fun a b => if a.cls < b.cls then b else a) c

/-- Sections that BLOCK_RESET of a source mutes (spec/17 R514). -/
def blockSections (s : State) (h n : Nat) : List Nat :=
  if (32 ≤ n ∧ n ≤ 63) ∨ (416 ≤ n ∧ n ≤ 447) then (List.range 8).filter fun i => (secAt s h i).split.role != 0
  else if 64 ≤ n ∧ n ≤ 319 then List.range 8
  else if 320 ≤ n ∧ n ≤ 383 then (((loopAt s h (n - 320)).bound.map (·.1)).map fun i => [i]).getD []
  else []


/-- Flags of an entry of FCOL (spec/17 R533). -/
def catchFlags (c : Catch) (simul lead : Bool) : Nat :=
  bitNat c.inj + 2 * bitNat c.coinc + 4 * bitNat c.rail + 8 * bitNat simul + 16 * bitNat lead

/-- Data bytes of an entry of FCOL (spec/17 R533). -/
def faultData (h n flags react detail cycle : Nat) : List Nat :=
  bytesOf 2 ((h * 512 + n : Nat) : Int) ++ [flags, react] ++ bytesOf 4 detail ++ bytesOf 2 cycle

/-- A secondary entry's register half (spec/17 R528). -/
def secHalf (e : FaultSec) : Nat := e.src + 512 * e.cls + 2048 * bitNat e.inj + 4096 * bitNat e.rail + 32768

/-- FF_SECk (spec/17 R528). -/
def secWord (f : Fcol) (k : Nat) : Word :=
  let half (j : Nat) : Nat := ((f.sec[j]?).map secHalf).getD 0
  BitVec.ofNat 32 (half (2 * k) + 65536 * half (2 * k + 1))

/-- Records of a capture: counters, the last-fault record, and the first-fault record when R518 says so
(spec/17 R517, R518, R526, R529, R531). -/
def recordCapture (tick tickClock cycle react : Nat) (cs : List Catch) (f : Fcol) : Fcol :=
  let lead := leadOf cs
  let rest := cs.filter fun c => c.src != lead.src
  let rec0 : FaultRec := { src := lead.src, cls := lead.cls, inj := lead.inj, coinc := lead.coinc, rail := lead.rail
                           simul := !rest.isEmpty, react := react, data := lead.data, tick := tick, cycle := cycle }
  let escal := f.ffValid && lead.cls == 2 && f.ff.cls != 2
  let first := !f.ffValid || escal
  let count (m : KMap Nat) (c : Catch) : KMap Nat := kset m c.src (incSat 8 (kgetD m c.src 0))
  let fatal := (cs.filter fun c => c.cls == 2).length
  { f with
    seqActive := true, seqEnd := tickClock + cycle + 64
    ce := satCount 16 (f.ce + (cs.filter fun c => c.cls == 0).length)
    uce := satCount 16 (f.uce + (cs.filter fun c => c.cls == 1).length)
    fatal := satCount 8 (f.fatal + fatal), sequences := incSat 24 f.sequences
    count := cs.foldl count f.count
    last := rec0
    ffValid := true
    ff := if first then { rec0 with escal := escal, secOvf := min 15 (rest.length - 16) } else f.ff
    prior := if escal then some (f.ff.src, f.ff.cls) else f.prior
    sec := if first then (rest.take 16).map fun c => { src := c.src, cls := c.cls, inj := c.inj, rail := c.rail } else f.sec
    seen := f.seen ++ (cs.filter fun c => !c.rail && f.hold.contains c.src).map (·.src)
    railSeen := f.railSeen ++ ((cs.filter fun c => c.rail && (kget f.rails c.src).isSome).map (·.src))
    err := f.err.filter fun e => f.hold.contains e.1 || !(cs.any fun c => c.src == e.1 && !c.rail) }

/-- The code of a capture's entry (spec/17 R533). -/
def catchCode (c : Catch) : Nat := 0x0C30 + c.cls

/-- Whether a capture places the package in DOUSED (spec/17 R513, R522). -/
def catchDouses (f : Fcol) (c : Catch) : Bool := c.cls == 2 && !(c.inj && f.injSafe)

/-- Reactions that a sequence takes: none of BLOCK_RESET and CHIP_RESET in DOUSED, no CHIP_RESET in KINDLING
(spec/17 R513, R515). -/
def reactTaken (s : State) (douse : Bool) (cs : List Catch) : Nat :=
  let u := cs.foldl (fun a c => a ||| c.react) 0
  if douse || s.pkg == .doused then u &&& 19 else if s.pkg == .kindling then u &&& 23 else u

/-- One sequence: FCOL captures sources at DSP clock `clk`, records them, and takes the union of their reactions
(spec/17 R512 to R520, R533). -/
def startSequence (h clk : Nat) (cs : List Catch) (s : State) : State :=
  if cs.isEmpty then s
  else
    let f := (hearthAt s h).fcol
    let douse := cs.any (catchDouses f)
    let react := reactTaken s douse cs
    let cycle := clk - s.tbu.clock
    let lead := leadOf cs
    let simul := decide (1 < cs.length)
    let t := modFcol h (recordCapture s.tbu.tick s.tbu.clock cycle react cs) s
    let t := each cs (fun c => emitFrom c.src h (catchCode c)
      (faultData h c.src (catchFlags c simul (c.src == lead.src)) react c.data cycle)) t
    let t := if douse && s.pkg != .doused then
      enterDoused (clk + 1) (modFcol h (fun x => { x with dousedHere := true }) t) else t
    let t := if bitOf (BitVec.ofNat 32 react) 0 then
      let ns := (cs.filter fun c => maskHas c.react 0).map (·.src)
      signalPf0 f.vector (modFcol h (fun x => { x with
        alert := true, pend := (List.range 512).filter fun n => x.pend.contains n || ns.contains n }) t)
      else t
    let t := if maskHas react 1 then
      emit h 0x0C35 (faultData h lead.src (catchFlags lead simul true) react (secWord (hearthAt t h).fcol 0).toNat cycle) t else t
    let t := if maskHas react 2 then
      each (cs.filter fun c => maskHas c.react 2) (fun c u => blockReset h c.src (each (blockSections u h c.src) (muteSection (clk + 2) h) u)) t else t
    let t := if maskHas react 4 then { t with pins := { t.pins with faultPulse := some (clk + 2 + 10240) } } else t
    modFcol h (fun x => { x with chipDue := maskHas react 3 }) t

/-- A lost FATAL pulse places the package in DOUSED (spec/17 R515). -/
def takeLostFatal (h clk : Nat) (s : State) : State :=
  if (hearthAt s h).fcol.douseDue then
    let t := modFcol h (fun x => { x with douseDue := false }) s
    if s.pkg = .doused then t else enterDoused clk (modFcol h (fun x => { x with dousedHere := true }) t)
  else s

/-- FCOL_CAPTURE: what reads Error, or has equal rails, and is not captured yet starts a sequence; during one only a lost
FATAL pulse acts (spec/17 R510, R515). -/
def execFcolCapture (h clk : Nat) (s : State) : Out :=
  .next <|
    if present s h && inTick s clk then
      let t := takeLostFatal h clk s
      let f := (hearthAt t h).fcol
      if f.seqActive then t else startSequence h clk ((catchesOf f).map (·.2)) t
    else s

/-- RAIL_FAULT: a source's rails have been equal for two DSP clocks; it is captured unless a sequence runs
(spec/17 R511, R515). -/
def execRailFault (h source clk data : Nat) (s : State) : Out :=
  .next <|
    if present s h && decide (source < 512) && inTick s clk && (kget (hearthAt s h).fcol.rails source).isNone then
      let t := modFcol h (fun x => { x with
        rails := kset x.rails source (data % 2 ^ 32), seen := x.seen.erase source
        err := if x.hold.contains source then x.err else kerase x.err source }) s
      let f := (hearthAt t h).fcol
      if f.seqActive then t else startSequence h clk ((catchesOf f).map (·.2)) t
    else s

/-- RAIL_FAULT_END: the pair returns to Quiet, or to Error with a detail word, which is then an ordinary error
(spec/17 R511). -/
def execRailFaultEnd (h source : Nat) (error : Option Nat) (s : State) : Out :=
  .next <|
    if present s h && (kget (hearthAt s h).fcol.rails source).isSome then
      modFcol h (fun x => { x with
        rails := kerase x.rails source, railSeen := x.railSeen.erase source
        err := match error with
          | some d => kset x.err source (d % 2 ^ 32)
          | none => if x.hold.contains source then x.err else kerase x.err source }) s
    else s

/-- FCOL_SEQUENCE_END, after clock c+63: CHIP_RESET if due, and what still reads Error, or has equal rails, starts the next sequence
(spec/17 R512, R515). -/
def execFcolSequenceEnd (h : Nat) (s : State) : Out :=
  .next <|
    let clk := (hearthAt s h).fcol.seqEnd
    if present s h && (hearthAt s h).fcol.seqActive && decide (clk < s.tbu.clock + s.tbu.tickLen) then
      let t := takeLostFatal h clk s
      let chip := (hearthAt t h).fcol.chipDue && t.pkg != .doused && t.pkg != .kindling
      let t := modFcol h (fun x => { x with seqActive := false, chipDue := false }) t
      if chip then { t with warmDue := true }
      else startSequence h clk ((catchesOf (hearthAt t h).fcol).map (·.2)) t
    else s

/-- A FAULT_N pulse whose end lies in the running tick is over (spec/17 R512, R516). -/
def pulseDue (s : State) : State :=
  if s.pins.faultPulse.any fun e => decide (e < s.tbu.clock + s.tbu.tickLen) then { s with pins := { s.pins with faultPulse := none } } else s

/-- FAULT_PIN_PULSE_END (spec/17 R512). -/
def execFaultPinPulseEnd (s : State) : Out := .next (pulseDue s)

/-- At the first boundary after c+63 the muted gates reopen, with a 1-tick ramp (spec/17 R514). -/
def releaseDue (h : Nat) (s : State) : State :=
  let clk := s.tbu.clock + s.tbu.tickLen
  if present s h then
    each ((List.range 8).filter fun i => (secAt s h i).blockMuted && decide ((secAt s h i).muteEnd < clk)) (fun i t =>
      updateGates clk h i (modSec h i (fun x => { x with blockMuted := false, muteTo := clk }) t)) s
  else s

/-- BLOCK_RESET_RELEASE (spec/17 R514). -/
def execBlockResetRelease (h : Nat) (s : State) : Out := .next (releaseDue h s)

/-! ### Injection -/

/-- What an injection makes of a capture: the captures, and whether it met a real Error of its source
(spec/17 R521, R523). Equal rails hide a source's Error. -/
def injectedCatches (f : Fcol) (n mode data : Nat) : KMap Catch × Bool :=
  let real := catchesOf f
  if (kget f.rails n).isSome then (real, false)
  else if mode = 2 then (kset real n (catchRail f n data true), (kget f.err n).isSome)
  else match kget (newErrors f) n with
    | some d => (kset real n (catchError f n d false true), true)
    | none => if f.seen.contains n then (real, true) else (kset real n (catchError f n data true false), false)

/-- The DSP clock at which an injection applies: the first of the tick after its capture, or the first after that at which no sequence
runs (spec/17 R521). -/
def injectionClock (s : State) (f : Fcol) : Nat := max s.tbu.clock (max f.injFrom f.seqEnd)

/-- FCOL_INJECTION_APPLY: at its clock `clk`; equal rails are captured a clock later (spec/17 R511, R521 to R523, R533; log entry 116,
DESIGN CHOICE). -/
def execFcolInjectionApply (h clk data : Nat) (s : State) : Out :=
  .next <|
    let f := (hearthAt s h).fcol
    if present s h && f.injPending && !f.seqActive && inTick s clk && clk == injectionClock s f then
      let n := f.injSource
      let r := injectedCatches f n f.injMode (data % 2 ^ 32)
      let mine := kget r.1 n
      let t := modFcol h (fun x => { x with
        injPending := false, injCaptured := mine.any fun c => c.inj || c.coinc, injCoincident := r.2
        err := if x.injMode = 2 ∧ !x.hold.contains n then kerase x.err n else x.err }) s
      let cs := r.1.map (·.2)
      let react := reactTaken s (cs.any (catchDouses f)) cs
      let flags := (mine.map fun c => catchFlags c (decide (1 < cs.length)) (c.src == (leadOf cs).src)).getD (1 + 2 * bitNat r.2)
      startSequence h (clk + bitNat (f.injMode == 2)) cs (emitFrom n h 0x0C34 (faultData h n flags react (data % 2 ^ 32) (clk - s.tbu.clock)) t)
    else s

/-- Handling of FCOL_INJECT (spec/17 R521). -/
def fcolInject (p : Packet) (s : State) : Done :=
  let w := wordAt p.payload 0
  let f := (hearthAt s p.hearth).fcol
  check (fld w 12 2 != 3 && zeroAt w 9 3 && zeroAt w 14 18) .badParam s <|
  check (!f.injPending && (kget f.rails (fld w 0 9)).isNone) .busy s <|
  .reply .ok [] (modFcol p.hearth (fun x => { x with
    injSource := fld w 0 9, injMode := fld w 12 2, injPending := true, injFrom := s.tbu.clock + s.tbu.tickLen, injCaptured := false, injCoincident := false }) s)

/-- FCOL_INJECT (spec/17 R521). -/
def execFcolInject (p : Packet) (s : State) : Out := .next (runCommand infoFcolInject fcolInject p s)

/-! ### Configuration -/

/-- Handling of FCOL_SOURCE_CONFIG: the values apply at the boundary after capture (spec/17 R514, R524). -/
def fcolSourceConfig (p : Packet) (s : State) : Done :=
  let a := wordAt p.payload 0
  let b := wordAt p.payload 1
  let dflt := bitOf b 16
  let ns := (List.range 512).filter fun n => decide (fld a 0 9 ≤ n) && decide (n ≤ fld a 16 9)
  let cls := fld b 0 2
  let react := fld b 4 5
  check (zeroAt a 9 7 && zeroAt a 25 7 && zeroAt b 2 2 && zeroAt b 9 7 && zeroAt b 17 15 && decide (fld a 0 9 ≤ fld a 16 9)
    && (dflt || (cls != 3
      && ns.all (fun n => !lockedSources.contains n || cls == (sourceDefault n).1)
      && (!maskHas react 2 || ns.all blockAllowed)))) .badParam s <|
  .reply .ok [] (each (targets p s) (fun h => modFcol h fun x =>
    let old := x.cfgNext.getD x.cfg
    { x with cfgNext := some (if dflt then old.filter fun e => !ns.contains e.1 else ns.foldl (fun m n => kset m n (cls, react)) old) }) s)

/-- FCOL_SOURCE_CONFIG (spec/17 R524). -/
def execFcolSourceConfig (p : Packet) (s : State) : Out := .next (runCommand infoFcolSourceConfig fcolSourceConfig p s)

/-- FF_SRC or LAST_SRC (spec/17 R527). -/
def faultWord (r : FaultRec) : Word :=
  wordOf [(0, 9, r.src), (9, 2, r.cls), (11, 1, bit r.inj), (12, 1, bit r.coinc), (13, 1, bit r.rail), (14, 1, bit r.simul),
    (15, 1, bit r.escal), (16, 5, r.react), (21, 4, r.secOvf)]

/-- FCOL_PEND_SUM (spec/17 R526). -/
def pendSum (f : Fcol) : Nat := maskOf ((List.range 16).filter fun k => f.pend.any fun n => n / 32 == k)

/-- The 24 registers that FCOL_QUERY returns (spec/17 R525 to R529). -/
def fcolWords (f : Fcol) : List Word :=
  [wordOf [(0, 1, bit f.alert), (1, 1, bit f.lost), (2, 1, bit f.ffValid), (3, 1, bit f.seqActive), (4, 1, bit (!f.rails.isEmpty)),
     (5, 1, bit f.dousedHere)],
   wordOf [(4, 1, bit f.injSafe), (8, 5, f.railReact), (16, 11, f.vector)],
   wordOf [(0, 16, f.ce), (16, 16, f.uce)], BitVec.ofNat 32 (pendSum f),
   faultWord f.ff, BitVec.ofNat 32 f.ff.data, BitVec.ofNat 32 f.ff.tick, BitVec.ofNat 32 f.ff.cycle,
   (match f.prior with | some e => wordOf [(0, 9, e.1), (9, 2, e.2), (15, 1, 1)] | none => 0)]
  ++ (List.range 8).map (secWord f)
  ++ [faultWord f.last, BitVec.ofNat 32 f.last.data, BitVec.ofNat 32 f.last.tick, BitVec.ofNat 32 f.last.cycle,
   wordOf [(0, 9, f.injSource), (9, 2, f.injMode), (11, 1, bit f.injPending), (12, 1, bit f.injCaptured), (13, 1, bit f.injCoincident)],
   wordOf [(0, 10, f.rails.length), (16, 9, (f.rails.head?.map (·.1)).getD 0)],
   wordOf [(0, 24, f.sequences), (24, 8, f.fatal)]]

/-- Handling of FCOL_QUERY (spec/17 R525). -/
def fcolQuery (p : Packet) (s : State) : Done := .reply .ok (fcolWords (hearthAt s p.hearth).fcol) s

/-- FCOL_QUERY (spec/17 R525). -/
def execFcolQuery (p : Packet) (s : State) : Out := .next (runCommand infoFcolQuery fcolQuery p s)

/-! ### Register clears -/

/-- FCOL_PEND_CLEAR: a W1C write of FCOL_PEND_k (spec/17 R531). -/
def execFcolPendClear (h k : Nat) (mask : Word) (s : State) : Out :=
  .next <|
    if present s h && decide (k < 16) && writable s then
      modFcol h (fun x => { x with pend := x.pend.filter fun n => !(n / 32 == k && bitOf mask (n % 32)) }) s
    else s

/-- FCOL_ALERT_CLEAR (spec/17 R526). -/
def execFcolAlertClear (h : Nat) (s : State) : Out :=
  .next (if present s h && writable s then modFcol h (fun x => { x with alert := false }) s else s)

/-- FCOL_LOST_CLEAR (spec/17 R526). -/
def execFcolLostClear (h : Nat) (s : State) : Out :=
  .next (if present s h && writable s then modFcol h (fun x => { x with lost := false }) s else s)

/-- FCOL_FF_CLR: privileged (spec/17 R518, R526). -/
def execFcolFfClr (m h : Nat) (s : State) : Out :=
  .next (if present s h && writable s && masterPriv s m then
    modFcol h (fun x => { x with ffValid := false, ff := {}, prior := none, sec := [] }) s else s)

/-- FCOL_CNT_CLR (spec/17 R526). -/
def execFcolCntClr (h : Nat) (s : State) : Out :=
  .next (if present s h && writable s then
    modFcol h (fun x => { x with ce := 0, uce := 0, sequences := 0, fatal := 0, count := [] }) s else s)

end Sys2Proof.Machine
end

