-- ==== Sys2Proof/Machine/Listen.lean ====
section
/-! DEFINITION. Machine/Listen.lean: what a device hears in a probe window: the correlation of e_B with the codes of the other devices
(spec/15 R475). -/

namespace Sys2Proof.Machine

/-- Power, in units of 2^-94, of a device's code in e_B at a lag, for a branch's delay: `es` begins at the window's START
(spec/15 R475; log entry 117, DEDUCED). -/
def lagPower (index b : Nat) (es : List Smp) (lag : Nat) : Nat :=
  let zs := (es.drop lag).zipIdx
  let c := sumSmp (zs.map fun e => mulSmp e.1 (conjSmp (probeChip index b e.2)))
  normSmp c * 2 ^ 63 / (max 1 zs.length ^ 2)

/-- The first of the greatest values of a list, by its place. -/
def topPlace (xs : List Nat) : Nat :=
  (xs.zipIdx.foldl (fun (a : Nat × Nat) e => if a.1 < e.1 then e else a) (0, 0)).2

/-- Power of the 5 lags centred on the strongest of the lags 0 to 511, for a branch's delay (spec/15 R475). -/
def delayPower (index b : Nat) (es : List Smp) : Nat :=
  let ps := (List.range 512).map (lagPower index b es)
  let top := topPlace ps
  ((List.range 5).map fun j => if 2 ≤ top + j then ps.getD (top + j - 2) 0 else 0).foldl (· + ·) 0

/-- Received probe power of a device over both delays, in units of 2^-94 (spec/15 R475). -/
def probePower (index : Nat) (es : List Smp) : Nat := delayPower index 0 es + delayPower index 1 es

/-- Mean power of e_B over a window, in units of 2^-94. -/
def bandPower (es : List Smp) : Nat := (energyOf es).1 * 2 ^ 64 / max 1 es.length

/-- The level of a device's probe at an RX pin and its correlation figure, of one branch: 10·log10 of the number of samples and of the
received power against the remaining in-band power (spec/15 R475). -/
def heardLevel (x : Section) (k index : Nat) (es : List Smp) : LogQ × LogQ :=
  let p := probePower index es
  if p = 0 then (logMin, logMin)
  else
    let rest := bandPower es - p
    (satLog (logRatio p (2 ^ 94) - rxgUsed x k), if rest = 0 then logMax else satLog (logRatio (es.length * p) rest))

/-- What a section hears of a device in a window: the higher RX branch is taken (spec/15 R475). -/
def heardEntry (s : State) (w : ProbeWindow) (g index : Nat) : ProbeItem :=
  let x := secAt s (g / 8) (g % 8)
  let vs := (probeKeys s w g).map fun k => heardLevel x k index (kgetD w.heard (4 * g + k) []).reverse
  let v := vs.foldl (fun (a : LogQ × LogQ) e => if a.1 < e.1 then e else a) (logMin, logMin)
  { sect := g, sent := false, index := index, level := v.1, figure := v.2 }

/-- The received entries of a window: every group-scoped section and every index of the window's range but the device's own, where the
figure is +10 dB or more (spec/15 R475, R476). -/
def heardEntries (s : State) (w : ProbeWindow) : List ProbeItem :=
  let gs := ((allSections s).filter fun g => (secAt s g.1 g.2).defn.any (·.group)).map fun g => globalOf g.1 g.2
  let js := ((List.range w.count).map (w.first + ·)).filter fun j => j != s.flu.deviceIndex
  (gs.flatMap fun g => js.map (heardEntry s w g)).filter fun e => decide (2560 ≤ e.figure)

end Sys2Proof.Machine
end

