-- ==== Sys2Proof/Machine/Flue.lean ====
section
/-! DEFINITION. Machine/Flue.lean: the commands and events of the flue links and of the device group (spec/15). -/

namespace Sys2Proof.Machine

/-! ### Group events -/

/-- A beacon that shows two devices of one index is noted once (spec/15 R450). -/
def noteTwin (b : Beacon) (s : State) : State :=
  if b.twin && !s.flu.dupSeen.contains b.src then modFlu (fun x => { x with dupSeen := x.dupSeen ++ [b.src] }) s else s

/-- A MAC address is one of the device's own (spec/15 R442, R450). -/
def ownMac (s : State) (mac : Nat) : Bool := (List.range (2 * hearthCount s)).any fun p => portMac s p == mac

/-- A beacon is captured (spec/02 R43; spec/15 R446, R448 to R452, R457, R459, R463). -/
def takeBeacon (b : Beacon) (s : State) : State :=
  if !groupPort s b.port then s
  else
    let u := noteTwin b s
    if b.src = u.flu.deviceIndex then (if ownMac u b.mac then u else takeDup u)
    else if !frameNew u b.src 1 b.seq then u
    else
      let t := acceptFrame b.port b.src 1 b.seq u
      let t := rivalBeacon b t
      let t := if isLeader u b then leaderBeacon b t else t
      if 2 ≤ u.flu.acting then memberBeacon b t else t

/-- BEACON_RECEIVE: the next tick captures the beacon, before a frame tick of its clock or a later one (spec/02 R43, R45; spec/15
R446, R453). -/
def execBeaconReceive (b : Beacon) (s : State) : Out := .next (if groupPort s b.port then arriveInOrder (.beacon b) s else s)

/-- The END packet of a round has replied; the acting leader's own sections take COLD_CEIL once they are defined
(spec/15 R457, R477; log entry 55, DEDUCED). -/
def roundEndDue (s : State) : State :=
  match s.flu.roundEnd with
  | none => s
  | some e =>
    if !s.flu.roundReplied then s
    else
      let bad := s.flu.roundBad
      let own := s.flu.acting == 2
      let again := some (s.tbu.tick + ticksPerSecond)
      let cold := own && !bad && !s.flu.ownCold
      let t := agreeChanged false (modFlu (fun x => { x with
        appliedDigest := if bad then x.appliedDigest else e.2, roundBad := false, roundEnd := none, roundReplied := false
        rounds := if !own then x.rounds else if bad then kset x.rounds x.deviceIndex { failed := true, retryAt := again }
          else kerase x.rounds x.deviceIndex, ownCold := x.ownCold || cold }) s)
      onlyIf cold (sendCold t.flu.deviceIndex) t

/-- PLAN_ROUND_END (spec/15 R457). -/
def execPlanRoundEnd (s : State) : Out := .next (roundEndDue s)

/-- A failed round is sent again 1 s after its failing reply (spec/15 R457, R461). -/
def roundDue (member : Nat) (s : State) : State :=
  let due := (kget s.flu.rounds member).any fun r => r.retryAt.any fun t => decide (t ≤ s.tbu.tick)
  if s.flu.acting = 2 ∧ due = true then
    let t := modFlu (fun x => { x with rounds := kerase x.rounds member }) s
    if mayCommand s member then sendRound member t else t
  else s

/-- PLAN_ROUND_RETRY (spec/15 R457, R461). -/
def execPlanRoundRetry (member : Nat) (s : State) : Out := .next (roundDue member s)

/-- The standby leader with MISSED at 5 or more becomes acting leader (spec/15 R462). -/
def leaderDue (s : State) : State := if s.flu.acting = 3 ∧ 5 ≤ s.flu.missed then takeOver s else s

/-- LEADER_TAKEOVER (spec/15 R462). -/
def execLeaderTakeover (s : State) : Out := .next (leaderDue s)

/-- DIGEST_AGREE has been 0 for 480,000 ticks (spec/15 R460). -/
def digestDue (s : State) : State :=
  let x := s.flu
  if followsLeader s && !x.digestAgree && !x.digestWait && decide (x.digestSince + ticksPerSecond ≤ s.tbu.tick + 1) then
    groupWaits (modFlu (fun y => { y with digestWait := true }) s)
  else s

/-- DIGEST_TIMEOUT (spec/15 R460). -/
def execDigestTimeout (s : State) : Out := .next (digestDue s)

/-- FTF_DISCARD: a frame, its bytes from the destination address to the byte before the FCS, that R445 discards is counted; one
that R446 discards for its SEQ is not (spec/15 R445, R446). -/
def execFtfDiscard (port : Nat) (frame : List (BitVec 8)) (s : State) : Out :=
  .next (if port < 2 * hearthCount s ∧ ftfBad s port frame = true then
    modFlu (fun x => { x with ports := x.ports.modify port fun p => { p with bad := incSat 16 p.bad } }) s else s)

/-- A packet of the group leader belongs to a plan round (spec/15 R457). -/
def inRound (r : PlanRound) (cmd : Nat) : Bool := decide ((cmd + 2 ^ 32 - r.first) % 2 ^ 32 < r.count)

/-- A member's reply is captured; one to a packet of its running round counts for the round (spec/02 R43; spec/15 R446, R457). -/
def takeReply (member seq : Nat) (a : ReplyIn) (s : State) : State :=
  if s.flu.acting = 2 ∧ groupPort s a.port = true ∧ frameNew s member 3 seq = true then
    let t := acceptFrame a.port member 3 seq s
    match (kget s.flu.rounds member).filter (inRound · a.cmd) with
    | none => t
    | some r =>
      let n := r.left - 1
      let fails := a.status != 0
      let r2 : PlanRound := { r with left := n, failed := r.failed || fails, retryAt := if fails then some (s.tbu.tick + ticksPerSecond) else r.retryAt }
      modFlu (fun x => { x with rounds := if n = 0 ∧ r2.failed = false then kerase x.rounds member else kset x.rounds member r2 }) t
  else s

/-- REPLY_FRAME_RECEIVE: the next tick captures the reply (spec/02 R43; spec/15 R446, R457). -/
def execReplyFrameReceive (member seq : Nat) (a : ReplyIn) (s : State) : Out := .next (arrive (.groupReply member seq a) s)

/-! ### PTP -/

/-- Changes the PTP clock. -/
def modPtp (f : Ptp → Ptp) (s : State) : State := modFlu (fun x => { x with ptp := f x.ptp }) s

/-- TIME_STATUS changes through PTP, with its event (spec/15 R465, R490). -/
def setTimeStatus (v : Nat) (s : State) : State :=
  if s.tbu.timeStatus = v then s
  else emit 0 0x0A15 ([s.tbu.timeStatus, v] ++ bytesOf 4 (roundDiv s.flu.ptp.offset 65536)) (modTbu (fun x => { x with timeStatus := v }) s)

/-- A port takes part in the PTP clock (spec/15 R464, R482). -/
def ptpPort (s : State) (port : Nat) : Bool :=
  decide (port < 2 * hearthCount s) && (s.flu.ports.getD port {}).ptp && maskHas s.flu.ptp.portMask port

/-- TBU_INCR after a servo step: a free value within ±200 ppm of nominal (spec/02 R57, spec/15 R465; log entry 6, DESIGN CHOICE). -/
def servoIncr (s : State) : State :=
  let f := takeFree s
  modTbu (fun x => { x with incr := 18764998447 - 3752999 + f.1.toNat % (2 * 3752999 + 1) }) f.2

/-- A time offset in 2^-16 ns as a count of 2^-64 s. -/
def offsetTime (o : Int) : Int := roundDiv (o * 2 ^ 48) 1000000000

/-- PTP lock is lost: HOLDOVER begins, or goes on from when it began (spec/02 R58, spec/15 R465). -/
def loseLock (s : State) : State :=
  let from' (p : Ptp) : Nat := if s.tbu.timeStatus = 4 then p.holdFrom else s.tbu.tick + 1
  modPtp (fun p => { p with lockRun := 0, holdFrom := from' p }) (setTimeStatus 4 s)

/-- A Sync message drives the servo; a step of device time takes effect with the tick that captures it (spec/02 R43, R62; spec/15 R465,
R466). -/
def syncServo (o : Int) (s : State) : State :=
  let t := modPtp (fun p => { p with offset := o, hist := (o.natAbs :: p.hist).take 16, lastSync := s.tbu.tick }) (servoIncr s)
  let p := t.flu.ptp
  if p.stepNs * 65536 < o.natAbs then
    let u := modTbu (fun x => { x with time := (((x.time : Int) - offsetTime o) % 2 ^ 96).toNat, stepClock := x.clock }) t
    if p.everLocked then loseLock u else modPtp (fun q => { q with lockRun := 0 }) (setTimeStatus 0 u)
  else
    let run := if o.natAbs ≤ p.lockNs * 65536 then min 16 (p.lockRun + 1) else 0
    let u := modPtp (fun q => { q with lockRun := run, everLocked := q.everLocked || run == 16 }) t
    let u := if run = 16 then setTimeStatus 3 u else u
    if u.tbu.timeStatus = 3 then modPtp (fun q => { q with lockedB := satCount 32 (meanOffset q) }) u else u

/-- offsetFromMaster that a Sync message gives: what remains of the time of its way after meanPathDelay, the correction and the
port's ASYM_NS (spec/15 R464, R465, R479; log entry 124, PRESUMED). -/
def syncOffset (x : PtpSync) (s : State) : Int :=
  x.ingress - x.origin - x.corr - s.flu.ptp.delay - 65536 * (s.flu.ports.getD x.port {}).asym

/-- A Sync message is captured (spec/02 R43; spec/15 R465, R466). -/
def takeSync (x : PtpSync) (s : State) : State :=
  if ptpPort s x.port && x.domain == s.flu.ptp.domain && (s.flu.ptp.mode == 1 || s.flu.ptp.mode == 2) && (s.flu.ports.getD x.port {}).slave then
    evalTime (syncServo (syncOffset x s) s)
  else s

/-- PTP_SYNC_RECEIVE: the next tick captures the message (spec/02 R43; spec/15 R465). -/
def execPtpSyncReceive (x : PtpSync) (s : State) : Out := .next (arrive (.ptpSync x) s)

/-- meanPathDelay of a delay measurement (spec/15 R464; log entry 124, PRESUMED). -/
def pathDelay (d : DelayIn) : Int := roundDiv (d.t2 - d.t1 + (d.t4 - d.t3) - d.corr) 2

/-- meanPathDelay after a message: one of the other mechanism changes nothing (spec/15 R464, R482). -/
def delayAfter (m : PtpMsg) (p : Ptp) : Int :=
  match m.delay with
  | some d => if d.peer = p.p2p then pathDelay d else p.delay
  | none => p.delay

/-- A message of PTP is captured: an Announce gives the grandmaster and the port's state, a delay message meanPathDelay (spec/02 R43;
spec/15 R464). -/
def takeMessage (m : PtpMsg) (s : State) : State :=
  if ptpPort s m.port && m.domain == s.flu.ptp.domain && s.flu.ptp.mode != 0 then
    let t := if m.announce && s.flu.ptp.mode != 3 then
        modFlu (fun x => { x with ports := x.ports.modify m.port fun p => { p with slave := m.slave } })
          (modPtp (fun p => { p with gmId := m.gmId, lastAnnounce := s.tbu.tick }) s)
      else s
    evalTime (modPtp (fun p => { p with delay := delayAfter m p }) t)
  else s

/-- PTP_MESSAGE_RECEIVE: the next tick captures the message (spec/02 R43; spec/15 R464). -/
def execPtpMessageReceive (m : PtpMsg) (s : State) : Out := .next (arrive (.ptpMessage m) s)

/-- Ticks of a PTP interval with a log2 of seconds. -/
def intervalTicks (e : Int) : Nat := if 0 ≤ e then ticksPerSecond * 2 ^ e.toNat else ticksPerSecond / 2 ^ e.natAbs

/-- Announce or Sync messages are missing (spec/15 R465). -/
def ptpLate (s : State) : State :=
  let p := s.flu.ptp
  let late := decide (p.lastAnnounce + p.timeout * intervalTicks p.logAnnounce ≤ s.tbu.tick)
    || decide (p.lastSync + 4 * intervalTicks p.logSync ≤ s.tbu.tick)
  if s.tbu.timeStatus = 3 ∧ late = true then evalTime (loseLock s) else s

/-- PTP_TIMEOUT (spec/15 R465). -/
def execPtpTimeout (s : State) : Out := .next (ptpLate s)

/-- 60 s after HOLDOVER was entered (spec/15 R465). -/
def holdoverDue (s : State) : State :=
  if s.tbu.timeStatus = 4 ∧ s.flu.ptp.holdFrom + 60 * ticksPerSecond ≤ s.tbu.tick + 1 then evalTime (setTimeStatus 0 s) else s

/-- PTP_HOLDOVER_EXPIRY (spec/15 R465). -/
def execPtpHoldoverExpiry (s : State) : Out := .next (holdoverDue s)

/-! ### Split sections -/

/-- Changes the split record of a section. -/
def modSplit (h i : Nat) (f : Split → Split) (s : State) : State := modSec h i (fun x => { x with split := f x.split }) s

/-- The payload of a TRANSPORT frame: the sub-header and the samples of the direction that the device receives (spec/15 R469). -/
def transportWords (h i : Nat) (x : Section) (es : List StreamSample) : List Word :=
  let dir := 1 - splitDir x.split
  [wordOf [(0, 6, globalOf h i), (6, 1, dir), (7, 2, (x.defn.getD {}).branchMask), (16, 6, x.split.peerSection)], BitVec.ofNat 32 es.length]
    ++ wordsOf 2 (es.headD {}).time ++ [wordOf [(0, 16, x.rxg.getD (2 * dir) 0), (16, 16, x.rxg.getD (2 * dir + 1) 0)], 0, 0, 0]
    ++ (es.flatMap (·.v)).map fun z => BitVec.ofNat 32 (packSample 0 z)

/-- TRANSPORT_SEND: a block of a split section is sent to its peer, once its N samples have been taken (spec/15 R444, R445, R469). -/
def execTransportSend (h i : Nat) (s : State) : Out :=
  .next <|
    let x := secAt s h i
    let n := 2 ^ x.split.samplesLog2
    if present s h && x.split.role != 0 && decide (n ≤ x.split.out.length) then
      let f : FlueTx := { typ := 4, dst := x.split.peerIndex, seq := nextSeq s 4 % 2 ^ 32, words := transportWords h i x (x.split.out.take n)
                          via := some (2 * h + x.split.port, x.split.peerMac) }
      modSplit h i (fun y => { y with out := y.out.drop n }) (modFlu (fun y => { y with txSeq := kset y.txSeq 4 (nextSeq s 4), sent := y.sent ++ [f] }) s)
    else s

/-- Sample `n` of a TRANSPORT frame with branches `mask`, for branches 0 and 1 (spec/15 R469; spec/14 R419). -/
def transportSample (mask : Nat) (ws : List Word) (n : Nat) : List (Int × Int) :=
  [0, 1].map fun b =>
    let w := wordAt ws (8 + n * branchCount mask + (if b = 1 ∧ maskHas mask 0 = true then 1 else 0))
    if maskHas mask b then (sfld w 0 16, sfld w 16 16) else (0, 0)

/-- The samples of a TRANSPORT frame, each due at T + EQ_DELAY (spec/15 R469, R470). -/
def transportSamples (d : SecDef) (x : Split) (ws : List Word) : List EqSample :=
  let mask := fld (wordAt ws 0) 7 2
  (List.range (min (fld (wordAt ws 1) 0 16) ((ws.length - 8) / max 1 (branchCount mask)))).map fun n =>
    { due := pairAt ws 2 * 2 ^ 32 + ceilDiv (n * 2 ^ 112 * 1000000000 + x.eqDelay * 2 ^ 64 * rateOf d) (rateOf d * 1000000000)
      v := transportSample mask ws n }

/-- DSP clock of the last sample instant of a section before a DSP clock (spec/15 R470). -/
def lastInstant (s : State) (h : Nat) (d : SecDef) (clk : Nat) : Option Nat :=
  ((List.range (2 ^ (d.rate + 2))).map fun n => clk - 1 - n).find? fun c => sampleIndex s h d c != sampleIndex s h d (c - 1)

/-- The instant of a sample that is due at `due` has passed at a DSP clock of the running tick (spec/15 R470). -/
def instantPast (s : State) (h : Nat) (d : SecDef) (clk due : Nat) : Bool :=
  (lastInstant s h d clk).any fun c => decide ((due : Int) ≤ s.tbu.time + ((c : Int) - s.tbu.clock) * s.tbu.incr)

/-- Blocks that never came between the newest block so far and one of TIME `time` with `n` samples (spec/15 R488; log entry 123,
DESIGN CHOICE). -/
def blocksMissed (d : SecDef) (x : Split) (time n : Nat) : Nat :=
  match x.lastTime with
  | none => 0
  | some t => (roundDiv (((time : Int) - t) * rateOf d) (max 1 n * 2 ^ 80)).toNat - 1

/-- TRANSPORT_RECEIVE: a frame for the direction that the section transmits: its samples wait for their instants, those whose instant
has passed count as late and missing blocks as gaps, and its RXG is used (spec/15 R469, R470, R488). A frame for another section or
direction has no effect (log entry 123, DESIGN CHOICE). -/
def execTransportReceive (h i : Nat) (f : TransportIn) (s : State) : Out :=
  .next <|
    let x := secAt s h i
    let w := wordAt f.words 0
    if present s h && x.split.role != 0 && (s.flu.ports.getD f.port {}).transport && fld w 16 6 == globalOf h i && fld w 6 1 == splitDir x.split then
      let d := x.defn.getD {}
      let es := transportSamples d x.split f.words
      let late := es.filter fun e => instantPast s h d f.clk e.due
      let time := pairAt f.words 2
      modSplit h i (fun y => { y with
        eq := y.eq ++ es.filter (fun e => !instantPast s h d f.clk e.due), late := satCount 16 (y.late + late.length)
        gaps := satCount 16 (y.gaps + blocksMissed d y time es.length), lastTime := some (max time (y.lastTime.getD 0))
        rxg := [sfld (wordAt f.words 4) 0 16, sfld (wordAt f.words 4) 16 16] })
        (modFlu (fun x => { x with ports := x.ports.modify f.port fun p => { p with rx := incWrap 32 p.rx } }) s)
    else s

/-- A packet of the autonomous service for a section (spec/12 R352). -/
def servicePacket (h i : Nat) : Packet := { src := 0x42, hearth := h, sect := i }

/-- TRANSPORT_LOST: nothing has been fed in 480 consecutive ticks; the autonomous service stops the section
(spec/15 R471, R489, R490). -/
def execTransportLost (h i : Nat) (s : State) : Out :=
  .next <|
    let x := secAt s h i
    if present s h && x.split.role != 0 && !x.split.lost && x.state != .cold && decide (480 ≤ x.split.starved) then
      let t := modSplit h i (fun y => { y with lost := true, stoppedByLoss := true }) (raiseSource h 422 s)
      let t := emit h 0x0A16 [globalOf h i, splitDir x.split, 1] t
      runCommand infoSectionStop sectionStop (servicePacket h i) t
    else s

/-- TRANSPORT_RESTORED: 4,800 consecutive ticks have been fed whole; the autonomous service starts the section that the loss
stopped (spec/15 R471, R490). -/
def execTransportRestored (h i : Nat) (s : State) : Out :=
  .next <|
    let x := secAt s h i
    if present s h && x.split.role != 0 && x.split.lost && decide (4800 ≤ x.split.fed) then
      let t := modSplit h i (fun y => { y with lost := false, stoppedByLoss := false }) s
      let t := emit h 0x0A16 [globalOf h i, splitDir x.split, 0] t
      if x.state = .ready ∧ x.split.stoppedByLoss = true then runCommand infoSectionStart sectionStart (servicePacket h i) t else t
    else s

/-! ### Probe windows and surveys -/

/-- Group-scoped sections in LIVE or DAMPED, as global numbers. -/
def probingSections (s : State) : List Nat :=
  ((allSections s).filter fun g =>
    let x := secAt s g.1 g.2
    x.defn.any (·.group) && (x.state == .live || x.state == .damped)).map fun g => globalOf g.1 g.2

/-- Changes a probe window. -/
def modWindow (n : Nat) (f : ProbeWindow → ProbeWindow) (s : State) : State := modFlu (fun x => { x with windows := x.windows.modify n f }) s

/-- A probe window whose START lies in the running tick opens (spec/15 R473, R475, R476). -/
def windowStartDue (n : Nat) (s : State) : State :=
  match s.flu.windows[n]? with
  | none => s
  | some w =>
    if w.running ∨ nextTime s ≤ w.start then s
    else
      let me := decide (w.first ≤ s.flu.deviceIndex ∧ s.flu.deviceIndex < w.first + w.count) && s.flu.acting != 0
      let gs := if me then probingSections s else []
      let t := modWindow n (openWindow s gs) s
      if s.flu.acting = 2 then modFlu (fun x => { x with report := [], reported := [], reportStart := w.start, reportDir := w.dir }) t else t

/-- PROBE_WINDOW_START (spec/15 R473). -/
def execProbeWindowStart (n : Nat) (s : State) : Out := .next (windowStartDue n s)

/-- Words of a PROBE_REPORT (spec/15 R476). -/
def reportWords (start : Nat) (items : List ProbeItem) : List Word :=
  wordsOf 2 start ++ [BitVec.ofNat 32 items.length] ++ items.flatMap fun e =>
    [wordOf [(0, 6, e.sect), (6, 1, bit e.sent), (16, 10, e.index)], wordOf [(0, 16, e.level), (16, 16, e.figure)]]

/-- A window, named by its place and START, has ended; the device reports what it heard and what it sent; the acting leader keeps its own report and schedules
the next window (spec/15 R475, R476, R478). -/
def windowEndDue (n start : Nat) (s : State) : State :=
  match s.flu.windows[n]? with
  | none => s
  | some w =>
    if !w.running ∨ w.start ≠ start ∨ openTime s < w.start + milliTime w.duration then s
    else
      let sent : List ProbeItem := w.sending.map fun g =>
        { sect := g, sent := true, level := if w.stayed.contains g then kgetD w.dbm g logMin else logMin }
      let items := heardEntries s w ++ sent
      let t := modFlu (fun x => { x with windows := x.windows.eraseIdx n }) s
      if s.flu.acting = 2 then
        let own : List ProbeEntry := items.map fun e =>
          { device := s.flu.deviceIndex, section_ := e.sect, sent := e.sent, index := e.index, level := e.level }
        let t := modFlu (fun x => { x with
          report := x.report ++ own, reported := x.reported ++ [x.deviceIndex], surveyWin := if x.surveyRun then x.surveyWin + 1 else x.surveyWin }) t
        takeReports (scheduleNext t)
      else if s.flu.acting = 0 then t
      else sendFrame 5 s.flu.leader false (reportWords w.start items) t

/-- PROBE_WINDOW_END (spec/15 R475). -/
def execProbeWindowEnd (n start : Nat) (s : State) : Out := .next (windowEndDue n start s)

/-- PROBE_REPORT_RECEIVE: the acting leader pairs entries and, after a round, computes C_GRP (spec/15 R446, R476, R477). -/
def execProbeReportReceive (r : ProbeReport) (s : State) : Out :=
  .next <|
    if groupPort s r.port && s.flu.acting == 2 && frameNew s r.src 5 r.seq then
      let t := acceptFrame r.port r.src 5 r.seq s
      if r.start = s.flu.reportStart then
        let es : List ProbeEntry := r.items.map fun e =>
          { device := r.src, section_ := e.sect, sent := e.sent, index := e.index, level := e.level }
        takeReports (modFlu (fun x => { x with report := x.report ++ es, reported := x.reported ++ [r.src] }) t)
      else t
    else s

/-- Windows of a survey round: one for each block of 16 indices and direction, DL first (spec/15 R478; log entry 54, DEDUCED). -/
def surveyWindows (s : State) : List (Nat × Bool) :=
  let top := (groupDevices s).foldl max 0
  (List.range (top / 16 + 1)).flatMap fun k => [(16 * k, false), (16 * k, true)]

/-- A survey round starts (spec/15 R478). -/
def surveyDue (s : State) : State :=
  let x := s.flu
  if x.acting = 2 ∧ x.surveyPeriod ≠ 0 ∧ x.surveyAt.any (fun t => decide (t ≤ s.tbu.tick)) = true then
    let t := if x.surveyRun then finishRound s else s
    let t := modFlu (fun y => { y with
      surveyRun := true, surveyWin := 0, surveyLeft := surveyWindows s, surveyNext := (nextTime s + milliTime 100) % 2 ^ 64
      surveyAt := some (s.tbu.tick + ticksPerSecond * y.surveyPeriod) }) t
    scheduleNext (scheduleNext (scheduleNext (scheduleNext t)))
  else s

/-- SURVEY_ROUND_START (spec/15 R478). -/
def execSurveyRoundStart (s : State) : Out := .next (surveyDue s)

/-- A coupling has not been measured again within 3 × SURVEY_PERIOD (spec/15 R476). -/
def couplingOld (s : State) (c : Coupling) : Bool := decide (c.tick + 3 * s.flu.surveyPeriod * ticksPerSecond < s.tbu.tick)

/-- COUPLING_EXPIRY: a coupling not measured again within 3 × SURVEY_PERIOD is dropped (spec/15 R476). -/
def execCouplingExpiry (n : Nat) (s : State) : Out :=
  .next <|
    match s.flu.couplings[n]? with
    | none => s
    | some c => if couplingOld s c then modFlu (fun x => { x with couplings := x.couplings.eraseIdx n }) s else s

/-- The probe windows that have ended (spec/15 R475, R476). -/
def probeEnds (s : State) : State :=
  each s.flu.windows (fun w t => match t.flu.windows.findIdx? (· == w) with
    | some n => windowEndDue n w.start t
    | none => t) s

/-- The timers of the group: those of PTP before those that follow the leader (spec/02 R42; spec/15 R457, R460 to R462, R465, R475, R476,
R478). -/
def groupTimers (s : State) : State :=
  let t := digestDue (leaderDue (holdoverDue (ptpLate (roundEndDue s))))
  let t := surveyDue (each (t.flu.rounds.map (·.1)) roundDue (probeEnds t))
  modFlu (fun x => { x with couplings := x.couplings.filter fun c => !couplingOld t c }) t

/-! ### Ports -/

/-- Changes the link state of a port, with its event (spec/15 R486, R490). -/
def setFlueLink (h port : Nat) (up : Bool) (s : State) : State :=
  if (s.flu.ports.getD (2 * h + port) {}).link = up then s
  else emit h 0x0A18 [h, port, bitNat up] (modFlu (fun x => { x with
    ports := x.ports.modify (2 * h + port) fun p => { p with link := up, slave := p.slave && up } }) s)

/-- FLUE_LINK_CHANGE (spec/15 R486, R489, R490). -/
def execFlueLinkChange (h port : Nat) (up : Bool) (s : State) : Out :=
  .next <|
    let p := s.flu.ports.getD (2 * h + port) {}
    if present s h && decide (port < 2) && p.mode != 0 && p.link != up then
      setFlueLink h port up (if up then s else raiseSource h (416 + port) s)
    else s

/-- Fields of FLUE_PORT_CONFIG are in range (spec/15 R479). -/
def fluePortOk (ws : List Word) : Bool :=
  let w (k : Nat) : Word := wordAt ws k
  zeroAt (w 0) 1 3 && zeroAt (w 0) 6 2 && zeroAt (w 0) 9 3 && zeroAt (w 0) 15 17 && fld (w 0) 4 2 != 3 && zeroAt (w 1) 15 1
    && zeroAt (w 1) 17 15 && zeroAt (w 2) 16 16 && (w 3) == 0

/-- A split section is configured on a port (spec/15 R479). -/
def portSplits (s : State) (h port : Nat) : Bool :=
  (List.range 8).any fun i => (secAt s h i).split.role != 0 && (secAt s h i).split.port == port

/-- Handling of FLUE_PORT_CONFIG (spec/15 R479). -/
def fluePortConfig (p : Packet) (s : State) : Done :=
  let ws := p.payload
  let w := wordAt ws 0
  let h := p.hearth
  let port := fld w 0 1
  let old := s.flu.ports.getD (2 * h + port) {}
  let mode := fld w 4 2
  let gone := mode != old.mode || (old.transport && !bitOf w 13)
  check (fluePortOk ws) .badParam s <|
  check (!(gone && portSplits s h port)) .busy s <|
  let t := if mode != old.mode then setFlueLink h port false s else s
  .reply .ok [] (modFlu (fun x => { x with ports := x.ports.modify (2 * h + port) fun q => { q with
    mode := mode, fec := bitOf w 8, group := bitOf w 12, transport := bitOf w 13, ptp := bitOf w 14, vid := fld (wordAt ws 1) 0 12
    pcp := fld (wordAt ws 1) 12 3, tag := bitOf (wordAt ws 1) 16, asym := sfld (wordAt ws 2) 0 16, slave := q.slave && bitOf w 14 } }) t)

/-- FLUE_PORT_CONFIG (spec/15 R479). -/
def execFluePortConfig (p : Packet) (s : State) : Out := .next (runCommand infoFluePortConfig fluePortConfig p s)

/-! ### GROUP_CONFIG and GROUP_QUERY -/

/-- The index fits the role (spec/15 R447). -/
def indexFits (role index : Nat) : Bool :=
  match role with
  | 1 => decide (2 ≤ index)
  | 2 => index == 0
  | 3 => index == 1
  | _ => true

/-- Fields of GROUP_CONFIG are in range (spec/15 R480). -/
def groupFieldsOk (ws : List Word) : Bool :=
  let w (k : Nat) : Word := wordAt ws k
  let role := fld (w 0) 0 2
  let ety := fld (w 1) 16 16
  let margin := sfld (w 3) 0 16
  let period := fld (w 4) 0 16
  zeroAt (w 0) 2 14 && zeroAt (w 0) 26 6 && zeroAt (w 2) 8 24 && zeroAt (w 5) 16 16 && (w 6) == 0 && (w 7) == 0
    && indexFits role (fld (w 0) 16 10) && (role == 0 || fld (w 1) 0 16 != 0)
    && decide (0x0600 ≤ ety) && ety != 0x8100 && ety != 0x88F7
    && (decide (role < 2) || (decide (1536 ≤ margin) && decide (margin ≤ 10240)))
    && (period == 0 || decide (200 ≤ period)) && decide (25 ≤ fld (w 4) 16 6) && decide (fld (w 4) 16 6 ≤ 40)
    && decide (10 ≤ fld (w 4) 22 10) && decide (fld (w 4) 22 10 ≤ 1000)
    && decide (128 ≤ sfld (w 5) 0 16) && decide (sfld (w 5) 0 16 ≤ 5120)

/-- A section, a split or a window keeps GROUP_CONFIG out (spec/15 R480). -/
def groupBusy (s : State) : Bool :=
  ((allSections s).any fun g => (secAt s g.1 g.2).defn.any (·.group) || (secAt s g.1 g.2).split.role != 0) || !s.flu.windows.isEmpty

/-- Handling of GROUP_CONFIG: the role takes effect at the next frame boundary (spec/15 R450, R480). -/
def groupConfig (p : Packet) (s : State) : Done :=
  let w (k : Nat) : Word := wordAt p.payload k
  let expect := fld (w 2) 0 8
  check (groupFieldsOk p.payload) .badParam s <|
  check (expect == 0 || expect == s.sec.protoMajor) .groupMismatch s <|
  check (!groupBusy s) .busy s <|
  let dup := s.flu.dupIndex
  let t := modFlu (fun x => { x with
    role := fld (w 0) 0 2, deviceIndex := fld (w 0) 16 10, groupId := fld (w 1) 0 16, etype := fld (w 1) 16 16, expectMajor := expect
    margin := sfld (w 3) 0 16, coldCeil := sfld (w 3) 16 16, surveyPeriod := fld (w 4) 0 16, probeRel := fld (w 4) 16 6
    duration := fld (w 4) 22 10, ceilRise := sfld (w 5) 0 16, joinDue := true, dupIndex := false, appliedDigest := 0 }) s
  .reply .ok [] (agreeChanged false (if dup then setLost false t else t))

/-- GROUP_CONFIG (spec/15 R480). -/
def execGroupConfig (p : Packet) (s : State) : Out := .next (runCommand infoGroupConfig groupConfig p s)

/-- The 24 words of GROUP_QUERY (spec/15 R481). -/
def groupWords (s : State) : List Word :=
  let x := s.flu
  let heard := heardNow s
  let lead := x.acting == 2
  [wordOf [(0, 2, x.role), (2, 2, x.acting), (16, 10, x.deviceIndex)], wordOf [(0, 16, x.groupId), (16, 16, x.term)],
   wordOf [(0, 10, x.leader), (12, 4, x.missed), (16, 8, x.groupMinor), (24, 1, bit x.versionMismatch), (25, 1, bit x.digestAgree),
     (26, 1, bit x.timeAgree), (27, 1, bit x.dupIndex), (28, 1, bit s.holds.groupLost)],
   BitVec.ofNat 32 (groupOffset s)] ++ wordsOf 4 (ownDigest s) ++ wordsOf 4 x.leaderDigest
    ++ [if lead then wordOf [(0, 11, heard.length), (16, 11, (heard.filter (·.2.mismatch)).length)] else 0,
        if lead then wordOf [(0, 16, x.lastWindows), (16, 16, x.roundsDone)] else 0]
    ++ wordsOf 2 x.lastRound ++ wordsOf 2 x.ptp.gmId
    ++ [BitVec.ofInt 32 (roundDiv x.ptp.offset 65536), BitVec.ofInt 32 (roundDiv x.ptp.delay 65536), 0, 0, 0, 0]

/-- Handling of GROUP_QUERY (spec/15 R481). -/
def groupQuery (_p : Packet) (s : State) : Done := .reply .ok (groupWords s) s

/-- GROUP_QUERY (spec/15 R481). -/
def execGroupQuery (p : Packet) (s : State) : Out := .next (runCommand infoGroupQuery groupQuery p s)

/-! ### PTP_CONFIG -/

/-- A signed field of 8 bits lies between two bounds. -/
def logOk (w : Word) (lo : Nat) (a b : Int) : Bool := decide (a ≤ sfld w lo 8) && decide (sfld w lo 8 ≤ b)

/-- Fields of PTP_CONFIG are in range (spec/15 R464, R482). -/
def ptpOk (ws : List Word) (s : State) : Bool :=
  let w (k : Nat) : Word := wordAt ws k
  decide (fld (w 0) 0 8 ≤ 127) && zeroAt (w 0) 10 2 && zeroAt (w 0) 14 18 && zeroAt (w 1) 17 15
    && (maskBits 16 (fld (w 1) 0 16)).all (fun k => decide (k < 2 * hearthCount s) && (s.flu.ports.getD k {}).ptp)
    && logOk (w 2) 0 (-7) 0 && logOk (w 2) 8 (-3) 3 && logOk (w 2) 16 (-7) 3 && decide (2 ≤ fld (w 2) 24 8) && decide (fld (w 2) 24 8 ≤ 10)
    && zeroAt (w 3) 24 8 && decide (10 ≤ fld (w 4) 0 16) && decide (fld (w 4) 0 16 ≤ 1000) && decide (100 ≤ fld (w 4) 16 16) && (w 5) == 0

/-- Handling of PTP_CONFIG. A device that becomes grandmaster takes its own clockIdentity, which the spec does not form: a free
value (spec/15 R465, R482; log entry 6, DESIGN CHOICE). -/
def ptpConfig (p : Packet) (s : State) : Done :=
  let w (k : Nat) : Word := wordAt p.payload k
  let old := s.flu.ptp
  let domain := fld (w 0) 0 8
  let mode := fld (w 0) 8 2
  let moved := domain != old.domain || mode != old.mode
  check (ptpOk p.payload s) .badParam s <|
  check (!(moved && s.tbu.timeStatus == 3) || mode == 0) .busy s <|
  let f := takeFree s
  let grand := mode == 3 && old.mode != 3
  let t := if grand then f.2 else s
  .reply .ok [] (evalTime (modPtp (fun x => { x with
    domain := domain, mode := mode, p2p := bitOf (w 0) 12, twoStep := bitOf (w 0) 13, portMask := fld (w 1) 0 16, addr := bitOf (w 1) 16
    logSync := sfld (w 2) 0 8, logAnnounce := sfld (w 2) 8 8, logDelay := sfld (w 2) 16 8, timeout := fld (w 2) 24 8
    priority1 := fld (w 3) 0 8, priority2 := fld (w 3) 8 8, clockClass := fld (w 3) 16 8, lockNs := fld (w 4) 0 16
    stepNs := fld (w 4) 16 16, gmId := if grand then f.1.toNat % 2 ^ 64 else x.gmId, lockRun := if moved then 0 else x.lockRun }) t))

/-- PTP_CONFIG (spec/15 R482). -/
def execPtpConfig (p : Packet) (s : State) : Out := .next (runCommand infoPtpConfig ptpConfig p s)

/-! ### SPLIT_CONFIG -/

/-- The split that a SPLIT_CONFIG payload gives (spec/15 R483). -/
def splitFrom (ws : List Word) : Split :=
  let w (k : Nat) : Word := wordAt ws k
  { role := fld (w 0) 0 2, port := fld (w 0) 4 1, samplesLog2 := fld (w 0) 8 4, peerIndex := fld (w 0) 16 10, peerSection := fld (w 1) 0 6
    eqDelay := (w 2).toNat, peerMac := (w 3).toNat + fld (w 4) 0 16 * 2 ^ 32 }

/-- Fields of SPLIT_CONFIG are in range; ROLE 0 names no port (spec/15 R472, R483). -/
def splitOk (ws : List Word) (h i : Nat) (s : State) : Bool :=
  let w (k : Nat) : Word := wordAt ws k
  let x := splitFrom ws
  let d := ((secAt s h i).defn).getD {}
  s.flu.role != 0 && zeroAt (w 0) 2 2 && zeroAt (w 0) 5 3 && zeroAt (w 0) 12 4 && zeroAt (w 0) 26 6 && zeroAt (w 1) 6 26
    && zeroAt (w 4) 16 16 && (w 5) == 0 && x.role != 3
    && (x.role == 0 || (decide (4 ≤ x.samplesLog2) && decide (x.samplesLog2 ≤ 11) && decide (20000 ≤ x.eqDelay) && decide (x.eqDelay ≤ 1000000)
      && (s.flu.ports.getD (2 * h + x.port) {}).transport && (sectionPaths i).all (fun q => !(pathAt s h q).enabled)
      && decide (32 + 4 * branchCount d.branchMask * 2 ^ x.samplesLog2 ≤ 8976)))

/-- Bytes per second of a split direction on a port, in units of 2^-59 (spec/15 R472). -/
def splitRate (tag : Bool) (d : SecDef) (x : Split) : Nat :=
  (86 + 4 * branchCount d.branchMask * 2 ^ x.samplesLog2 + 4 * bitNat tag) * rateOf d * 2 ^ (11 - x.samplesLog2)

/-- The split directions of a port fit its MAC rate (spec/15 R472). -/
def splitFits (h : Nat) (port : Nat) (s : State) : Bool :=
  let q := s.flu.ports.getD (2 * h + port) {}
  let sum := ((List.range 8).map fun i =>
    let x := secAt s h i
    match x.defn with
    | some d => if x.split.role ≠ 0 ∧ x.split.port = port then splitRate q.tag d x.split else 0
    | none => 0).foldl (· + ·) 0
  let rate : Nat := if q.mode = 2 then 50000000000 else 25000000000
  decide (80 * sum ≤ 9 * rate * 2 ^ 59)

/-- A section takes a split, or gives it up (spec/15 R467, R470, R483). -/
def applySplit (h i : Nat) (x : Split) (s : State) : State :=
  let d := ((secAt s h i).defn).getD {}
  let t := modSec h i (fun y => { y with
    split := if x.role = 0 then {} else { x with late := y.split.late, gaps := y.split.gaps }
    latDl := (latenciesOf d x).1, latUl := (latenciesOf d x).2 }) s
  updateGates (s.tbu.clock + s.tbu.tickLen) h i (refreshDg h t)

/-- Handling of SPLIT_CONFIG (spec/01 R23; spec/15 R472, R483; spec/16 R497). -/
def splitConfig (p : Packet) (s : State) : Done :=
  let h := p.hearth
  let i := p.sect
  let x := splitFrom p.payload
  check (groupRule p s) .notPermitted s <|
  check (secNow (secAt s h i) == .ready) .state s <|
  check (splitOk p.payload h i s) .badParam s <|
  check (x.role == 0 || (s.flu.ports.getD (2 * h + x.port) {}).link) .busy s <|
  let t := applySplit h i x s
  check (x.role == 0 || splitFits h x.port t && demandFits t h (liveSources (hearthAt t h).cap)) .budget s <|
  .reply .ok [] t

/-- SPLIT_CONFIG (spec/15 R483). -/
def execSplitConfig (p : Packet) (s : State) : Out := .next (runCommand infoSplitConfig splitConfig p s)

/-! ### PROBE_SCHEDULE and PROBE_READ -/

/-- The window of a PROBE_SCHEDULE payload (spec/15 R484). -/
def windowFrom (ws : List Word) : ProbeWindow :=
  let w2 := wordAt ws 2
  { start := pairAt ws 0, first := fld w2 0 10, count := fld w2 10 5, dir := bitOf w2 15, rel := fld w2 16 6, duration := fld (wordAt ws 3) 0 10 }

/-- Fields of PROBE_SCHEDULE are in range (spec/15 R480, R484). -/
def windowOk (ws : List Word) : Bool :=
  let x := windowFrom ws
  zeroAt (wordAt ws 2) 22 10 && zeroAt (wordAt ws 3) 10 22 && decide (1 ≤ x.count) && decide (x.count ≤ 16)
    && decide (25 ≤ x.rel) && decide (x.rel ≤ 40) && decide (10 ≤ x.duration) && decide (x.duration ≤ 1000)

/-- Two windows overlap. -/
def windowsOverlap (a b : ProbeWindow) : Bool :=
  decide (a.start < b.start + milliTime b.duration) && decide (b.start < a.start + milliTime a.duration)

/-- Handling of PROBE_SCHEDULE (spec/15 R484). -/
def probeSchedule (p : Packet) (s : State) : Done :=
  let x := windowFrom p.payload
  check (windowOk p.payload) .badParam s <|
  check (decide (s.flu.windows.length < 4) && !s.flu.windows.any (windowsOverlap x)) .busy s <|
  check (decide (openTime s < x.start)) .timeout s <|
  .reply .ok [] (modFlu (fun y => { y with windows := y.windows ++ [x] }) s)

/-- PROBE_SCHEDULE (spec/15 R484). -/
def execProbeSchedule (p : Packet) (s : State) : Out := .next (runCommand infoProbeSchedule probeSchedule p s)

/-- The 33 words of PROBE_READ (spec/15 R485). -/
def probeWords (s : State) (j g : Nat) (dir : Bool) : List Word :=
  let cs := (s.flu.couplings.filter fun c => c.listener == j && c.section_ == g && c.dir == dir).take 16
  let n := nodeAt s j g
  let es := cs.flatMap fun c => [wordOf [(0, 10, c.txIndex), (10, 6, c.txSection), (16, 16, c.level)], BitVec.ofNat 32 c.seconds]
  [wordOf [(0, 5, cs.length), (16, 16, if dir then n.ul else n.dl)]] ++ (List.range 32).map (wordAt es)

/-- The words that the standby leader replies from its copy of the couplings, which no frame of the spec carries: their entry count,
C_GRP and entries are free values (spec/15 R477, R485; log entry 51, DESIGN CHOICE). -/
def copyWords (s : State) : List Word × State :=
  let n := (Config.freeWord s.free).toNat % 17
  let word (k : Nat) : Word := (Config.freeWord (s.free + k)).setWidth 32
  (wordOf [(0, 5, n), (16, 16, fld (word 1) 0 16)] :: (List.range 32).map (fun k => if k < 2 * n then word (2 + k) else 0),
   { s with free := s.free + 34 })

/-- Handling of PROBE_READ (spec/15 R485). -/
def probeRead (p : Packet) (s : State) : Done :=
  let w := wordAt p.payload 0
  check (zeroAt w 10 6 && zeroAt w 22 2 && zeroAt w 25 7 && decide (2 ≤ s.flu.acting)) .badParam s <|
  let c := copyWords s
  if s.flu.acting = 3 then .reply .ok c.1 c.2
  else .reply .ok (probeWords s (fld w 0 10) (fld w 16 6) (bitOf w 24)) s

/-- PROBE_READ (spec/15 R485). -/
def execProbeRead (p : Packet) (s : State) : Out := .next (runCommand infoProbeRead probeRead p s)

/-- FLU_CTRL.CNT_CLR: every FLU_PORT_RX, FLU_PORT_ERR and SPLIT_CNT of a hearth (spec/15 R486). -/
def execFluCntClr (h : Nat) (s : State) : Out :=
  .next <|
    if present s h && writable s then
      let clear (p : FluePort) : FluePort := { p with rx := 0, bad := 0, uncorr := 0 }
      let t := modFlu (fun x => { x with ports := (x.ports.modify (2 * h) clear).modify (2 * h + 1) clear }) s
      each (List.range 8) (fun i => modSplit h i fun x => { x with late := 0, gaps := 0 }) t
    else s

end Sys2Proof.Machine
end

