-- ==== Sys2Proof/Machine/Registers.lean ====
section
/-! DEFINITION. Machine/Registers.lean: a write to a register with no row of its own: the register map's rules, the reserved
fields, and the registers that hold configuration (spec/00 R13, R14; spec/21 R598 to R605). The strobe and W1C bits, and the
fields that have rows of their own, act through those rows (log entry 67, DEDUCED). -/

namespace Sys2Proof.Machine

/-! ### The map -/

/-- Registers at a first offset and a stride, with the mask of their reserved fields. -/
structure RsvRow where
  first : Nat
  stride : Nat
  count : Nat
  mask : Nat
  deriving DecidableEq, Repr

/-- The mask that a table gives an offset; 0 where it names no register with reserved fields. -/
def rsvAt (rows : List RsvRow) (off : Nat) : Nat :=
  ((rows.find? fun r => decide (r.first ≤ off) && (off - r.first) % r.stride == 0 && decide ((off - r.first) / r.stride < r.count)).map
    (·.mask)).getD 0

/-- One register. -/
def rsv1 (off mask : Nat) : RsvRow := { first := off, stride := 4, count := 1, mask := mask }

/-- Reserved fields of the SYS block (spec/21 R611, R612). -/
def rsvSys : List RsvRow :=
  [rsv1 0x00 0xC0000000, rsv1 0x0C 0xFFFFFFF0, rsv1 0x10 0x0000F80C, rsv1 0x14 0xFFFFFFFE, rsv1 0x18 0xFF000000, rsv1 0x1C 0xFFFF0000,
   rsv1 0x20 0xFFFFFC00, rsv1 0x24 0xFFFFFC00, rsv1 0x28 0xFFFFF800, rsv1 0x40 0xFFFF0000, rsv1 0x44 0xFFFFFFFC,
   rsv1 0x60 0xFFFFFFFE, rsv1 0x68 0xFFFFFFF8]

/-- Reserved fields of HINFO, HIF, CPX, DFB, XMC and RFC, by offset in the hearth window (spec/21 R599, R615; spec/14 R435;
spec/12 R372, R373; spec/16 R505, R506; spec/08 R269, R270). -/
def rsvHost : List RsvRow :=
  [rsv1 0x000000 0xFFFFFE08, rsv1 0x010000 0xFFFFFC00, rsv1 0x010004 0xFFFF800C, rsv1 0x01000C 0xFFFF0000, ⟨0x010010, 4, 8, 0x0000FFF0⟩,
   rsv1 0x020000 0xFF80FC00, rsv1 0x020004 0xFFFFFFFE, rsv1 0x02000C 0xFFFF0000, ⟨0x021000, 32, 64, 0xFFF⟩, ⟨0x021008, 32, 64, 0xFFF⟩,
   ⟨0x021014, 32, 64, 0xFF8C800C⟩, ⟨0x02101C, 32, 64, 0xFF000000⟩,
   rsv1 0x030000 0xFFFFFFFC, rsv1 0x040000 0xFFFFC000, rsv1 0x040004 0xFFFFFFFC,
   rsv1 0x050000 0xFFFFFFFE, rsv1 0x050008 0xE0E0E0E0, rsv1 0x05000C 0xFC00E0E0, ⟨0x050100, 16, 4, 0xFFFFC000⟩]

/-- Reserved fields of SYN, FES, LCAL, GRT and BDC (spec/08 R272, R273; spec/09 R295, R296; spec/03 R91 to R94; spec/04 R134
to R138). -/
def rsvRadio : List RsvRow :=
  [rsv1 0x060000 0xFFFC8888, rsv1 0x070000 0xFFFFFC00, rsv1 0x070004 0xFFFF0000,
   rsv1 0x080000 0xFC00FC00, rsv1 0x080004 0xFFFFFFFE, rsv1 0x080008 0x80000000, ⟨0x080040, 4, 9, 0xFFF8E000⟩, ⟨0x080100, 32, 10, 0xF8000000⟩,
   rsv1 0x090000 0xFFFC0000, rsv1 0x090004 0xFFFFFFFE, ⟨0x090100, 32, 8, 0xFFF00080⟩, ⟨0x09010C, 32, 8, 0xFF000000⟩,
   ⟨0x090110, 32, 8, 0xFF000000⟩, ⟨0x090118, 32, 8, 0xFFFFFFFE⟩,
   rsv1 0x0A0000 0xFFC00000, rsv1 0x0A0004 0xFFFE0000, rsv1 0x0A0008 0xFC000000, rsv1 0x0A000C 0xFFFFFFFE, ⟨0x0A0100, 32, 64, 0xFF800000⟩,
   ⟨0x0A0104, 32, 64, 0xF8000000⟩, ⟨0x0A010C, 32, 64, 0x0C000000⟩, ⟨0x0A0114, 32, 64, 0xE0000000⟩, ⟨0x0A0118, 32, 64, 0xE000E000⟩,
   ⟨0x0A0908, 16, 8, 0xFFFFFF00⟩, ⟨0x0A090C, 16, 8, 0xFFFF0000⟩]

/-- Reserved fields of DMP, BLW, SPA, AIR, TBU and FLU (spec/05 R157, R158; spec/07 R226, R227; spec/06 R185, R186; spec/10 R324,
R325; spec/02 R68, spec/21 R616; spec/15 R486 to R488). -/
def rsvControl : List RsvRow :=
  [rsv1 0x0B0000 0xFFFFFFFE, ⟨0x0B0114, 32, 8, 0xF088C000⟩,
   rsv1 0x0C0000 0x8080E000, rsv1 0x0C0004 0xFFFFFFFE, rsv1 0x0C0008 0x0000C000, ⟨0x0C0100, 32, 64, 0x00008000⟩, ⟨0x0C0114, 32, 64, 0xF0000000⟩,
   rsv1 0x0D0000 0xFFFFFFFE, ⟨0x0D0010, 4, 4, 0xFF800000⟩, ⟨0x0D0124, 64, 8, 0xFFFFE000⟩, ⟨0x0D0128, 64, 8, 0xFFF00000⟩,
   ⟨0x0D012C, 64, 8, 0xFE000000⟩,
   rsv1 0x0E0000 0x0000FF00, rsv1 0x0E0004 0xFFFFFFFE, ⟨0x0E0100, 16, 8, 0xFFFC0080⟩, ⟨0x0E0108, 16, 8, 0x00000080⟩,
   rsv1 0x0F0000 0xFC00E0C0, rsv1 0x0F0004 0xFFFFFFF8, rsv1 0x0F0008 0xFFFFFC00,
   rsv1 0x100000 0xFFFFFFFE, ⟨0x100010, 16, 2, 0xFFFFFF80⟩, rsv1 0x100100 0xC000FC00, ⟨0x100200, 16, 8, 0xFFFFFFF8⟩]

/-- Reserved fields of THM, FCOL, SEC and ALOG (spec/19 R565; spec/17 R526 to R531; spec/20 R595; spec/18 R549). -/
def rsvFaults : List RsvRow :=
  [rsv1 0x110000 0xFFFFFF80, rsv1 0x110004 0xFFFFFFFE, rsv1 0x110018 0xFFF80000, rsv1 0x11001C 0xFFF00000, ⟨0x110020, 4, 8, 0xFFFF0000⟩,
   rsv1 0x110040 0xFFFF0000, rsv1 0x110044 0xFF000000, rsv1 0x110048 0xFFFFFF80, ⟨0x110080, 4, 16, 0xFFFF0000⟩,
   rsv1 0x120000 0xFFFFFFC0, rsv1 0x120004 0xF800E0EC, rsv1 0x12000C 0xFFFF0000, rsv1 0x120010 0xFE000000, rsv1 0x12001C 0xFFFFF000,
   rsv1 0x120020 0xFFFF7800, ⟨0x120024, 4, 8, 0x60006000⟩, rsv1 0x120044 0xFE000000, rsv1 0x120050 0xFFFFF000, rsv1 0x120054 0xFFFFC000,
   rsv1 0x120058 0xFE00FC00, rsv1 0x120080 0xFFFFFFF8, ⟨0x121000, 4, 512, 0xFF002E0C⟩,
   rsv1 0x130000 0xFE880008, rsv1 0x130004 0xFFFF0000, rsv1 0x130008 0xFF80F800,
   rsv1 0x200000 0xFFFFFFC0, rsv1 0x200004 0xFFFFFFFC, rsv1 0x200020 0xFFFF0000, rsv1 0x200028 0xFFFE0000]

/-- Offsets of a hearth window that only hearth 0 keeps live: the HIF, CPX, SEC and ALOG blocks, GRP_STATUS, GRP_OFFSET and
FCOL_PIN, and the timebase controls (spec/21 R600, R616). -/
def hearth0Only (off : Nat) : Bool :=
  let block := off / 0x10000
  block == 1 || block == 2 || block == 0x13 || decide (0x20 ≤ block ∧ block < 0x30)
    || [0x0F0004, 0x0F0008, 0x100100, 0x100104, 0x120080].contains off

/-- Reserved fields at an offset of PF0 BAR0 that is live; in each mode of WIDE_MODE the other mode's registers ignore
writes (spec/21 R598 to R600, R607, R608). -/
def rsvPf0 (s : State) (a : Nat) : Nat :=
  let h := (a - 0x1000000) / 0x1000000
  let off := a % 0x1000000
  if a < 0x10000 then
    if (s.sec.wideMode && (a == 0x40 || a == 0x44)) || (!s.sec.wideMode && a == 0x60) then 0 else rsvAt rsvSys a
  else if 0x1000000 ≤ a ∧ a < 0x9000000 ∧ present s h = true ∧ (h = 0 ∨ hearth0Only off = false) then
    if off < 0x060000 then rsvAt rsvHost off
    else if off < 0x0B0000 then rsvAt rsvRadio off
    else if off < 0x110000 then rsvAt rsvControl off
    else rsvAt rsvFaults off
  else 0

/-- Reserved fields of the stream registers of PF1 BAR0; the windows of absent hearths ignore writes (spec/14 R436, R437). -/
def rsvPf1 (s : State) (a : Nat) : Nat :=
  if a < 0x400000 ∧ present s (a / 0x80000) = true then rsvAt [⟨0x0, 0x10000, 64, 0xFFFFFFF8⟩, ⟨0x4, 0x10000, 64, 0xC0000000⟩, ⟨0x8, 0x10000, 64, 0xC000003F⟩,
    ⟨0x10, 0x10000, 64, 0xFFFFFFF8⟩, ⟨0x14, 0x10000, 64, 0xC0000000⟩, ⟨0x18, 0x10000, 64, 0xC000003F⟩] a else 0

/-- A write changes a reserved bit: every reserved field reads 0, and TEST_LOCK makes the test controls ignore writes
(spec/00 R14, spec/21 R611). Outside DOUSED only, where such writes have no effect (spec/14 R433). -/
def breaksReserved (m a : Nat) (v : Word) (s : State) : Bool :=
  let mask := if m ≤ 2 then rsvPf0 s a else if m = 3 then rsvPf1 s a else 0
  v &&& BitVec.ofNat 32 mask != 0 && s.sys.testLock != some true && s.pkg != .doused

/-! ### MSI-X tables -/

/-- A write of a word of an MSI-X table: an unmasked vector sends its pending message (spec/14 R414). -/
def writeMsix (word : Nat) (v : Word) (x : Msix) : Msix := msixFlush { x with table := kset x.table word v }

/-- Word of an MSI-X table of `n` vectors that an address names. -/
def msixWord (base n a : Nat) : Option Nat := if base ≤ a ∧ a < base + 16 * n then some ((a - base) / 4) else none

/-! ### Registers -/

/-- Event 0x0D10 for a register write (spec/21 R605). -/
def lockedWrite (m a : Nat) (v : Word) (s : State) : State := emit 0 0x0D10 ([0, m] ++ bytesOf 4 a ++ bytesOf 4 v.toNat) s

/-- An RWO register is locked: it has taken its first write, or one that has been captured waits for the boundary (spec/21 R605). -/
def rwoLocked (s : State) (a : Nat) : Bool :=
  let waiting := s.sys.late.any fun w => match w with
    | .register _ b _ => b == a
    | .queue _ => false
  (a == 0x14 && (s.sys.testLock.isSome || waiting)) || (a == 0x18 && (s.sys.board.isSome || waiting))

/-- The ring addresses and depths of queue 0 while it is not ACTIVE: nothing reads them before ENABLE takes effect, so they act at once
(spec/12 R373; spec/21 R603; log entry 150, DEDUCED). -/
def writeQueue0 (off : Nat) (v : Word) (s : State) : State :=
  let n := v.toNat
  if (queueAt s 0).state = 1 then s
  else modQueue 0 (fun x => match off with
    | 0x00 => { x with sqAddr := x.sqAddr / 2 ^ 32 * 2 ^ 32 + n / 4096 * 4096 }
    | 0x04 => { x with sqAddr := x.sqAddr % 2 ^ 32 + n * 2 ^ 32 }
    | 0x08 => { x with cqAddr := x.cqAddr / 2 ^ 32 * 2 ^ 32 + n / 4096 * 4096 }
    | 0x0C => { x with cqAddr := x.cqAddr % 2 ^ 32 + n * 2 ^ 32 }
    | 0x10 => { x with sqM1 := fld v 0 16, cqM1 := fld v 16 16 }
    | _ => x) s

/-- An offset is FCOL_CTRL of a hearth. -/
def fcolCtrl (a : Nat) : Bool := decide (0x1000000 ≤ a ∧ a < 0x9000000) && a % 0x1000000 == 0x120004

/-- What a write to PF0 BAR0 does in its own cycle: interrupt enables, the ring registers of queue 0 and the selector ALOG_RATE_SEL
(spec/21 R603). -/
def writeNow (a : Nat) (v : Word) (s : State) : State :=
  if a = 0x1010004 then modHif (fun x => { x with capIen := bitOf v 1 }) s
  else if a = 0x1021014 then modQueue 0 (fun x => { x with ien := bitOf v 1 }) s
  else if 0x1021000 ≤ a ∧ a < 0x1021014 then writeQueue0 (a - 0x1021000) v s
  else if a = 0x1200020 then modAlog (fun x => { x with rateSel := fld v 0 16 }) s
  else s

/-- A write to a register that configures a block waits for its capture and the boundary after it; a /P register takes it from a
privileged master only (spec/02 R43; spec/21 R602, R603). -/
def writeLate (m a : Nat) (v : Word) (s : State) : State :=
  let priv := [0x14, 0x18, 0x28, 0x10F0004, 0x10F0008, 0x1120080].contains a || fcolCtrl a
  onlyIf (a == 0x1010004 || a == 0x1021014 || (priv && masterPriv s m)) (arrive (.write (.register m a v))) s

/-- A write to PF0 BAR0 outside DOUSED by a master, privileged or not (spec/21 R602, R603). -/
def writePf0 (m a : Nat) (v : Word) (s : State) : State := writeLate m a v (writeNow a v s)

/-- A write is captured: one to a locked register is ignored and noted, one to SNAP_CMD asks for a copy, and every other waits for the next
boundary (spec/02 R43; spec/21 R603, R605, R608, R609). -/
def captureWrite (w : LateWrite) (s : State) : State :=
  let wait := modSys (fun x => { x with late := x.late ++ [w] }) s
  match w with
  | .register m a v =>
    if a = 0x60 then onlyIf (s.pkg != .doused) (modSys fun x => { x with snapPending := true }) s
    else if rwoLocked s a then lockedWrite m a v s else wait
  | .queue _ => wait

/-- FCOL_CTRL: INJ_SAFE, RAIL_REACT and VECTOR (spec/17 R526). -/
def writeFcolCtrl (h : Nat) (v : Word) (s : State) : State :=
  modHearth h (fun x => { x with fcol := { x.fcol with injSafe := bitOf v 4, railReact := fld v 8 5, vector := fld v 16 11 } }) s

/-- A register takes the value of a write: TEST_LOCK and the board fields, the vectors, the timebase controls, FAULT_DRIVE and FCOL_CTRL
(spec/12 R373; spec/14 R435; spec/17 R526; spec/21 R611, R612, R616). -/
def applyRegister (a : Nat) (v : Word) (s : State) : State :=
  if a = 0x14 then modSys (fun x => { x with testLock := some (bitOf v 0) }) s
  else if a = 0x18 then modSys (fun x => { x with board := some (fld v 0 24) }) s
  else if a = 0x28 then modSys (fun x => { x with intVector := fld v 0 11 }) s
  else if a = 0x1010004 then modHif (fun x => { x with capVector := fld v 4 11 }) s
  else if a = 0x1021014 then modQueue 0 (fun x => { x with vector := fld v 4 11 }) s
  else if a = 0x10F0004 then modTbu (fun x => { x with syncGrt := bitOf v 0, syncFrame := bitOf v 1, syncTick := bitOf v 2 }) s
  else if a = 0x10F0008 then
    let w := fld v 0 10
    onlyIf (decide (1 ≤ w) && decide (w ≤ 999)) (modTbu fun x => { x with ppsWidth := w }) s
  else if a = 0x1120080 then { s with pins := { s.pins with faultDrive := bitOf v 0 } }
  else if fcolCtrl a then
    let h := (a - 0x1000000) / 0x1000000
    onlyIf (present s h) (writeFcolCtrl h v) s
  else s

/-- A captured write takes effect; in DOUSED only those of the queue 0 group do (spec/14 R433; spec/21 R603). -/
def applyWrite (w : LateWrite) (s : State) : State :=
  match w with
  | .register _ a v => if s.pkg = .doused ∧ a ≠ 0x1021014 then s else applyRegister a v s
  | .queue on => if on then queue0On s else queue0Off s

/-- The boundary puts in force what the writes captured in the tick before it ask for (spec/21 R603). -/
def applyWrites (s : State) : State := each s.sys.late applyWrite (modSys (fun x => { x with late := [] }) s)

/-- Writes that act in DOUSED too: the queue 0 group and the MSI-X tables; the table of a VF's BAR0 is all that a write to it
reaches (spec/14 R411, R413, R433). -/
def writeAlways (m a : Nat) (v : Word) (s : State) : State :=
  if m = 3 then (match msixWord 0xFF0000 64 a with
    | some k => modHif (fun x => { x with pf1 := writeMsix k v x.pf1 }) s
    | none => s)
  else if 3 < m then (match msixWord 0xF000 8 a with
    | some k => modHif (fun x => { x with vfs := x.vfs.modify (m - 4) (writeMsix k v) }) s
    | none => s)
  else match msixWord 0xFF00000 2048 a with
    | some k => modHif (fun x => { x with pf0 := writeMsix k v x.pf0 }) s
    | none => if s.pkg = .doused ∧ 0x1021000 ≤ a ∧ a < 0x1021018 then writeLate m a v (writeNow a v s) else s

/-- REGISTER_WRITE: a 32-bit aligned write by a master: 0 PF0, 1 CPX, 2 SEC, 3 PF1, 3 + n VF n, to an offset of its BAR0
(spec/21 R601 to R605); 64 + f is a configuration write to PCIe function f (spec/14 R408, R434; log entry 147, PRESUMED). -/
def execRegisterWrite (m a : Nat) (v : Word) (s : State) : Out :=
  if a % 4 ≠ 0 ∨ s.sec.powered = false ∨ s.sec.resetLow = true then .next s
  else if 64 ≤ m then .next (writeConfig (m - 64) a v s)
  else if breaksReserved m a v s then .fault .reservedWrite
  else .next (if m ≤ 2 ∧ s.pkg ≠ .doused then writePf0 m a v (writeAlways m a v s) else writeAlways m a v s)

end Sys2Proof.Machine
end

