-- ==== Sys2Proof/Machine/Secure.lean ====
section
/-! DEFINITION. Machine/Secure.lean: the Kindling record, images and their authentication, keys, attestation and their
commands (spec/20). -/

namespace Sys2Proof.Machine

/-! ### The Kindling record -/

/-- Word `k` of record copy `c` in flash (spec/20 R574). -/
def recordCopyWords (s : State) (c : Nat) : List Word := (List.range 88).map fun k => flashWord s (c * 0x10000 + 4 * k)

/-- Flash areas that a record names: offset and size, empty ones left out (spec/20 R579; spec/18 R541). -/
def recordAreas (ws : List Word) : List (Nat × Nat) :=
  let at' (k : Nat) : Nat := (wordAt ws k).toNat
  ([(at' 8, 0x1000000), (at' 9, 0x1000000), (at' 10, at' 11), (at' 12, 0x20000), (at' 13, at' 14), (at' 15, at' 17)] : List (Nat × Nat)).filter
    fun e => e.2 != 0

/-- Two flash areas overlap. -/
def areasMeet (a b : Nat × Nat) : Bool := decide (a.1 < b.1 + b.2) && decide (b.1 < a.1 + a.2)

/-- Every field of a record lies in its range (spec/20 R579). -/
def recordFieldsOk (ws : List Word) : Bool :=
  let w (k : Nat) : Word := wordAt ws k
  let aligned (k : Nat) : Bool := zeroAt (w k) 0 16
  (w 0).toNat == 0x4C444E4B && fld (w 1) 0 16 == 1 && fld (w 1) 16 16 == 88 && zeroAt (w 5) 16 16 && zeroAt (w 6) 10 22
    && fld (w 7) 0 2 != 0 && zeroAt (w 7) 4 4 && decide (1 ≤ fld (w 7) 8 8) && decide (fld (w 7) 8 8 ≤ 168) && fld (w 7) 16 16 != 0
    && aligned 8 && aligned 9 && aligned 10 && decide (0x100000 ≤ (w 11).toNat) && aligned 12 && zeroAt (w 16) 16 16
    && decide ((w 17).toNat ≤ 1048576) && (List.range 22).all fun k => w (42 + k) == 0

/-- The areas of a record lie within the flash, apart from one another and from the areas of R574 (spec/20 R578). -/
def recordAreasOk (ws : List Word) : Bool :=
  let as := recordAreas ws
  as.all (fun a => decide (a.1 + a.2 ≤ Config.flashBytes))
    && ((0, 0x30000) :: as).Pairwise (fun a b => areasMeet a b = false)

/-- The message that a record's signature covers (spec/20 R578). -/
def recordMessage (s : State) (ws : List Word) : List (BitVec 8) :=
  (if bitOf (wordAt ws 6) 9 then uidBytes s else []) ++ asBytes [5] ++ wordBytes (ws.take 64)

/-- A record copy is valid (spec/20 R578). -/
def recordValid (s : State) (ws : List Word) : Bool :=
  recordFieldsOk ws && recordAreasOk ws
    && (match oemKeyNow s with
      | none => true
      | some k => Config.ecdsaVerify k (recordMessage s ws) (ws.drop 64))

/-- The copy to use: of the valid ones that with the higher GENERATION, copy 0 when they are equal (spec/20 R578). -/
def chooseRecord (s : State) : Option Nat :=
  let a := recordCopyWords s 0
  let b := recordCopyWords s 1
  match recordValid s a, recordValid s b with
  | true, true => if serialGt (wordAt b 2).toNat (wordAt a 2).toNat then some 1 else some 0
  | true, false => some 0
  | false, true => some 1
  | false, false => none

/-! ### Images -/

/-- Where a target's words are read: slot A, slot B or the DRAM staging (spec/20 R586). -/
def imageWord (s : State) (target k : Nat) : Word :=
  if target = 2 then kgetD s.sec.staging k 0xFFFFFFFF else flashWord s ((recordWord s (8 + target)).toNat + 4 * k)

/-- The 128 header words of a target's image (spec/20 R583). -/
def imageHeader (s : State) (target : Nat) : List Word := (List.range 128).map (imageWord s target)

/-- A header's fields are valid and its reserved words 0: check 1 of R584. -/
def headerOk (hd : List Word) : Bool :=
  let len := (wordAt hd 2).toNat
  (wordAt hd 0).toNat == 0x4D495242 && (wordAt hd 1).toNat == 0x00800001 && len % 64 == 0 && decide (64 ≤ len) && decide (len ≤ 16776704)
    && ((hd.take 64).drop 18).all (· == 0) && (hd.drop 112).all (· == 0)

/-- The body digest matches: check 2 of R584. -/
def bodyOk (s : State) (target : Nat) (hd : List Word) : Bool :=
  (Config.sha384 ((List.range ((wordAt hd 2).toNat / 4)).map fun k => imageWord s target (128 + k))).toNat == valueOf ((hd.take 18).drop 6)

/-- Bit of PART_MASK for a part (spec/20 R583). -/
def partBit (x : Part) : Nat :=
  match x with
  | .brd110 => 0
  | .brd220 => 1
  | .brd440 => 2
  | .brd880 => 3

/-- Checks 3 to 6 of R584 on a header: the reason of the first that fails. -/
def headerAuth (s : State) (hd : List Word) : Option Nat :=
  let signed := bitOf (wordAt hd 5) 16
  if !Config.ecdsaVerify Config.nareriImageKey (asBytes [6] ++ wordBytes (hd.take 64)) ((hd.take 88).drop 64) then some 3
  else if (bitOf (recordWord s 6) 2 && !signed)
      || (signed && !(oemKeyNow s).any fun k => Config.ecdsaVerify k (asBytes [7] ++ wordBytes (hd.take 88)) ((hd.take 112).drop 88)) then some 4
  else if fld (wordAt hd 4) 0 16 < s.sec.rollback then some 5
  else if !maskHas (fld (wordAt hd 5) 0 4) (partBit s.ident.part) || fld (wordAt hd 5) 8 8 != 0xA1 then some 6
  else none

/-- Why a target's image does not authenticate: the first check of R584 that fails. -/
def imageFault (s : State) (target : Nat) : Option Nat :=
  let hd := imageHeader s target
  if !headerOk hd then some 1
  else if !bodyOk s target hd then some 2
  else headerAuth s hd

/-! ### Commands while the boot stages run -/

/-- The record copy that IMAGE_WRITE writes: the one that does not hold the record in use; copy 0 while none is
(spec/20 R586; log entry 63, DEDUCED). -/
def spareCopy (s : State) : Nat := if s.sec.record.isSome then 1 - s.sec.recordCopy else 0

/-- Flash offset and size of a flash target (spec/20 R586). -/
def targetArea (s : State) (target : Nat) : Nat × Nat :=
  if target = 3 then (0x10000 * spareCopy s, 0x10000) else ((recordWord s (8 + target)).toNat, 0x1000000)

/-- Erases a target (spec/20 R586). -/
def eraseTarget (target : Nat) (s : State) : State :=
  if target = 2 then modBoot (fun x => { x with staging := [] }) s
  else
    let a := targetArea s target
    modBoot (fun x => { x with flash := x.flash.filter fun e => decide (4 * e.1 < a.1) || decide (a.1 + a.2 ≤ 4 * e.1) }) s

/-- Writes words to a target at a byte offset (spec/20 R586). A word that equals erased flash stays unlisted. -/
def writeTarget (target offset : Nat) (ws : List Word) (s : State) : State :=
  if target = 2 then modBoot (fun x => { x with staging := putWords x.staging (offset / 4) ws }) s
  else putFlash ((targetArea s target).1 + offset) ws s

/-- Handling of IMAGE_WRITE (spec/20 R577, R586). A slot has no place while no record is in use (log entry 63, DEDUCED). -/
def imageWrite (p : Packet) (s : State) : Done :=
  let w := wordAt p.payload 0
  let target := fld w 0 2
  let offset := (wordAt p.payload 1).toNat
  let data := p.payload.drop 2
  let first := bitOf w 8
  let room := if target = 3 then 0x10000 else 0x1000000
  check (!stagesRun s && (heldFor s 0x0D0A 0).isEmpty) .busy s <|
  check (zeroAt w 2 6 && zeroAt w 10 22 && (decide (2 ≤ target) || s.sec.record.isSome)
    && (if first then offset == 0 else s.sec.xfer.any fun x => x.target == target && x.offset == offset)
    && decide (offset + 4 * data.length ≤ room)) .badParam s <|
  let t := onlyIf first (eraseTarget target) s
  let t := modBoot (fun x => { x with xfer := some { target := target, copy := spareCopy s, offset := offset + 4 * data.length } }) t
  let t := writeTarget target offset data t
  if target = 2 then .reply .ok [] (onlyIf (bitOf w 9) (modBoot fun x => { x with xfer := none }) t) else .hold 0 none t

/-- IMAGE_WRITE (spec/20 R586). -/
def execImageWrite (p : Packet) (s : State) : Out := .next (runCommand infoImageWrite imageWrite p s)

/-- Words whose content the spec leaves open, one free value each (log entry 6, DESIGN CHOICE). -/
def freeWords (n : Nat) (s : State) : List Word × State :=
  ((List.range n).map fun k => (Config.freeWord (s.free + k)).extractLsb' 0 32, { s with free := s.free + n })

/-- The words that the held IMAGE_WRITE wrote are left as the failed program leaves them: free values. -/
def spoilChunk (c : Held) (s : State) : State :=
  let f := freeWords (c.words.length - 2) s
  writeTarget (fld (wordAt c.words 0) 0 2) (wordAt c.words 1).toNat f.1 f.2

/-- IMAGE_WRITE_DONE: the flash program or erase ends; `ok` false is a mismatch on the read-back of LAST
(spec/20 R586). -/
def execImageWriteDone (ok : Bool) (s : State) : Out :=
  .next <|
    match (heldFor s 0x0D0A 0).head? with
    | none => s
    | some c =>
      let last := bitOf (wordAt c.words 0) 9
      let t := onlyIf last (modBoot fun x => { x with xfer := none }) s
      if last && !ok then endHeld c .internal [] (spoilChunk c t)
      else endHeld c .ok [] t

/-- Whether VERIFY passes: an image under R584, the record copy that IMAGE_WRITE writes under R578 (spec/20 R587). -/
def targetVerifies (s : State) (target : Nat) : Bool :=
  if target = 3 then recordValid s (recordCopyWords s (spareCopy s)) else (imageFault s target).isNone

/-- Writes the boot selector (spec/20 R574, R587). -/
def selectSlot (slot : Nat) (s : State) : State :=
  modBoot (fun x => { x with flash := kset x.flash (0x20000 / 4) (if slot = 1 then 0x53454C31 else 0x53454C30) }) s

/-- IMAGE_ACTIVATE replies: event 0x0D1A (spec/20 R597; log entry 90, DEDUCED). -/
def activated (w : Word) (st : Status) (s : State) : State := emit 0 0x0D1A [fld w 0 2, fld w 4 2, statusCode st] s

/-- Boot that has stopped starts again at K1 with what IMAGE_ACTIVATE asked for (spec/20 R587; log entry 61, DEDUCED). -/
def restartBoot (s : State) : State :=
  modBoot (fun x => { x with stage := 1, result := 0, failA := 0, failB := 0, fallback := false, slotTry := 0 }) s

/-- BOOT of IMAGE_ACTIVATE (spec/20 R587). -/
def activateBoot (w : Word) (p : Packet) (target : Nat) (s : State) : Done :=
  let t := if target < 2 then selectSlot target s else s
  let t := modBoot (fun x => { x with bootNext := if target = 3 then none else some target }) t
  if s.pkg = .kindling then .reply .ok [] (activated w .ok (restartBoot t))
  else if s.holds.reset then .reply .busy [] (activated w .busy s)
  else
    .hold 1 none (setHolds (fun x => { x with reset := true }) t)

/-- Handling of IMAGE_ACTIVATE (spec/20 R577, R585, R587, R597). -/
def imageActivate (p : Packet) (s : State) : Done :=
  let w := wordAt p.payload 0
  let op := fld w 0 2
  let target := fld w 4 2
  let fail (st : Status) : Done := .reply st [] (activated w st s)
  if stagesRun s then fail .busy
  else if !(zeroAt w 2 2 && zeroAt w 6 26) || (op == 1 && decide (2 ≤ target)) then fail .badParam
  else if op = 3 then
    if s.sec.rollbackProg.isSome then fail .busy
    else if s.sec.fwSvn ≤ s.sec.rollback then .reply .ok [] (activated w .ok s)
    else .hold 3 none (modBoot (fun x => { x with rollbackProg := some s.sec.fwSvn }) s)
  else if (decide (target < 2) && s.sec.record.isNone) || !targetVerifies s target then fail .authFailed
  else if op = 0 then .reply .ok [] (activated w .ok s)
  else if op = 1 then .reply .ok [] (activated w .ok (selectSlot target s))
  else activateBoot w p target s

/-- IMAGE_ACTIVATE (spec/20 R587). -/
def execImageActivate (p : Packet) (s : State) : Out := .next (runCommand infoImageActivate imageActivate p s)

/-- ROLLBACK_PROGRAM_DONE: the fuses up to the running SVN are blown, or one fails to program and those already blown,
a free number of them, stay so (spec/20 R585, R596, R597). -/
def execRollbackProgramDone (ok : Bool) (s : State) : Out :=
  .next <|
    match s.sec.rollbackProg with
    | none => s
    | some v =>
      let old := s.sec.rollback
      let f := takeFree s
      let new := if ok then v else old + f.1.toNat % (v - old)
      let t := modBoot (fun x => { x with rollback := new, rollbackProg := none }) (if ok then s else f.2)
      let t := onlyIf (!ok) (raiseSource 0 488) t
      let t := onlyIf (new != old) (emit 0 0x0D19 [old, new]) t
      let st : Status := if ok then .ok else .internal
      let t := each (heldFor t 0x0D0B 3) (fun c u => activated (wordAt c.words 0) st u) t
      endHeldFor 0x0D0B 3 st [] t

/-! ### Keys -/

/-- The 97 bytes of a key in OEM_KEY_WRITE (spec/20 R589). -/
def keyBytes (ws : List Word) : List (BitVec 8) := (wordBytes ((ws.drop 1).take 25)).take 97

/-- A number from bytes, byte 0 lowest. -/
def bytesValue (bs : List (BitVec 8)) : Nat := bs.foldr (fun b n => b.toNat + 256 * n) 0

/-- Handling of OEM_KEY_WRITE (spec/20 R577, R589; spec/21 R605). -/
def oemKeyWrite (p : Packet) (s : State) : Done :=
  let w := wordAt p.payload 0
  let id := fld w 0 2
  let bs := keyBytes p.payload
  let held := if id = 0 then s.sec.oemKey else s.sec.hostKey
  let signer := if id = 0 then some Config.nareriProvisioningKey else oemKeyNow s
  let msg := uidBytes s ++ asBytes [4, id] ++ bs
  check (!stagesRun s && s.sec.keyProg.isNone) .busy s <|
  if id ≤ 1 ∧ held.isSome then .reply .notPermitted [] (lockedRow p.src id 0x0D0C s)
  else
    check (decide (id ≤ 1) && zeroAt w 2 30 && bs.head? == some 4 && zeroAt (wordAt p.payload 25) 8 24 && Config.pointOnCurve (bytesValue bs)) .badParam s <|
    check (signer.any fun k => Config.ecdsaVerify k msg (p.payload.drop 26)) .authFailed s <|
    .hold 0 none (modBoot (fun x => { x with keyProg := some (id, bytesValue bs) }) s)

/-- OEM_KEY_WRITE (spec/20 R589). -/
def execOemKeyWrite (p : Packet) (s : State) : Out := .next (runCommand infoOemKeyWrite oemKeyWrite p s)

/-- KEY_PROGRAM_DONE: the key comes into force at the next boundary, and the command replies; a host-unlock key ends
implicit privilege for good (spec/20 R589, R590, R597). A key that does not verify is not in force (log entry 64, DEDUCED). -/
def execKeyProgramDone (ok : Bool) (s : State) : Out :=
  .next <|
    match s.sec.keyProg with
    | none => s
    | some (id, key) =>
      let t := modBoot (fun x => { x with
        keyProg := none
        oemKey := if ok && id == 0 then some key else x.oemKey
        hostKey := if ok && id == 1 then some key else x.hostKey
        oemFrom := if ok && id == 0 then s.tbu.tick + 1 else x.oemFrom, hostFrom := if ok && id == 1 then s.tbu.tick + 1 else x.hostFrom }) s
      let t := onlyIf ok (emit 0 0x0D18 [id]) t
      endHeldFor 0x0D0C 0 (if ok then .ok else .internal) [] t

/-! ### Certificates and attestation -/

/-- Bytes packed into words, byte 0 in bits 7:0. -/
def packBytes : List (BitVec 8) → List Word
  | [] => []
  | [a] => [BitVec.ofNat 32 a.toNat]
  | [a, b] => [BitVec.ofNat 32 (a.toNat + 256 * b.toNat)]
  | [a, b, c] => [BitVec.ofNat 32 (a.toNat + 256 * b.toNat + 65536 * c.toNat)]
  | a :: b :: c :: d :: rest => BitVec.ofNat 32 (a.toNat + 256 * b.toNat + 65536 * c.toNat + 16777216 * d.toNat) :: packBytes rest

/-- Handling of CERT_READ (spec/20 R591). -/
def certRead (p : Packet) (s : State) : Done :=
  let w := wordAt p.payload 0
  check (decide (fld w 0 2 ≤ 1) && zeroAt w 2 30) .badParam s <|
  let der := (if fld w 0 2 = 0 then Config.deviceCert else Config.nareriCert).take 2044
  .reply .ok (BitVec.ofNat 32 der.length :: packBytes der) s

/-- CERT_READ (spec/20 R591). -/
def execCertRead (p : Packet) (s : State) : Out := .next (runCommand infoCertRead certRead p s)

/-- Words 0 to 71 of an attestation report at a time (spec/20 R592). -/
def attestWords (s : State) (nonce : List Word) (time : Nat) : List Word :=
  let b := s.sec
  [wordOf [(0, 16, 1), (16, 16, 96)], identWord s] ++ wordsOf 4 s.ident.uid ++ nonce ++ wordsOf 2 time
  ++ [BitVec.ofNat 32 b.fwVersion, wordOf [(0, 16, b.fwSvn), (16, 16, b.rollback)],
      wordOf [(0, 1, bit (oemKeyNow s).isSome), (1, 1, bit (hostKeyNow s).isSome), (2, 1, bit b.oemSigned), (3, 1, bit (pf0Priv s)), (4, 2, b.image),
        (6, 1, bit b.fallback), (7, 1, bit s.limits.digestBad), (8, 2, pkgCode s.pkg)],
      wordOf [(0, 7, s.limits.inForce.length), (8, 7, (s.limits.rows.filter (·.written)).length), (16, 16, s.ident.romVersion)]]
  ++ wordsOf 12 b.imageHash
  ++ wordsOf 12 ((b.record.map fun ws => (Config.sha384 (ws.take 64)).toNat).getD 0)
  ++ wordsOf 12 s.limits.calDigest ++ wordsOf 12 (Config.sha384 (firebrickWords s)).toNat
  ++ [wordOf [(0, 10, s.flu.deviceIndex), (10, 2, s.flu.role), (16, 16, s.flu.groupId)], 0, 0, 0]

/-- Handling of ATTEST: it waits for its report, which the boundary fills (spec/20 R577, R592). -/
def attest (_p : Packet) (s : State) : Done :=
  .hold s.sec.reportNext none (modBoot (fun x => { x with reportNext := x.reportNext + 1 }) s)

/-- The boundary of a time fills the report of an ATTEST that has none, once the boot stages have ended (spec/20 R577, R592). -/
def fillReport (time : Nat) (c : Held) (s : State) : State :=
  if stagesRun s ∨ c.op ≠ 0x0D08 ∨ (kget s.sec.reports c.key).isSome = true then s
  else modBoot (fun x => { x with reports := kset x.reports c.key (attestWords s c.words time) }) s

/-- ATTEST (spec/20 R592). -/
def execAttest (p : Packet) (s : State) : Out := .next (runCommand infoAttest attest p s)

/-- ATTEST_SIGN_DONE: the report that a boundary has filled is signed and the oldest held ATTEST replies (spec/20 R592). -/
def execAttestSignDone (s : State) : Out :=
  .next <|
    match s.cpx.held.find? fun c => c.op == 0x0D08 with
    | none => s
    | some c =>
      match kget s.sec.reports c.key with
      | none => s
      | some ws =>
        let t := modBoot (fun x => { x with reports := kerase x.reports c.key }) s
        endHeld c .ok (ws ++ Config.ecdsaSign (asBytes [8] ++ wordBytes ws)) t

end Sys2Proof.Machine
end

