-- ==== Sys2Proof/Machine/ReadBack.lean ====
section
/-! DEFINITION. Machine/ReadBack.lean: what a register read answers, for every function of the device: the map of PF0 BAR0, the
stream windows of PF1, the tenant windows of the VFs, and the identifiers of the configuration space (spec/00 R13; spec/03 R95;
spec/14 R409 to R413, R435 to R438; spec/21 R598 to R617). A read changes nothing but WIDE_VALID, which has a row of its own
(log entry 72, DESIGN CHOICE). -/

namespace Sys2Proof.Machine

/-- The word at an offset into groups of registers: their first offset, stride and number, and the words of group k. -/
def groupReg (first stride count : Nat) (f : Nat → List Word) (off : Nat) : Word :=
  if first ≤ off ∧ off < first + stride * count then wordAt (f ((off - first) / stride)) ((off - first) % stride / 4) else 0

/-- Two halves of a word, the lower first. -/
def halves (a b : Int) : Word := wordOf [(0, 16, a), (16, 16, b)]

/-- Four bytes of a word, the lowest first. -/
def bytes4 (f : Nat → Nat) : Word := wordOf ((List.range 4).map fun k => (8 * k, 8, (f k : Int)))

/-- A register group whose values update at each boundary: as the last boundary left it; as it stands while none has passed since reset
(spec/03 R94; spec/04 R136; spec/05 R158; spec/06 R186; spec/07 R226; spec/09 R296). -/
def lastWords (shown live : List Word) : List Word := if shown.isEmpty then live else shown

/-! ### Section groups -/

/-- SEC_STATUS to SEC_CTRL of a section (spec/03 R94). -/
def grtGroup (s : State) (h i : Nat) : List Word :=
  let x := secAt s h i
  [secStatus s h i, halves (x.applied.getD 0 logMin) (x.applied.getD 1 logMin), halves (x.applied.getD 2 logMin) (x.applied.getD 3 logMin),
   wordOf [(0, 24, x.latDl)], wordOf [(0, 24, x.latUl)], halves x.satRx x.satTx]

/-- The GRT group of a section as a read shows it (spec/03 R94). -/
def grtRegs (s : State) (h i : Nat) : List Word := lastWords (secAt s h i).grtShown (grtGroup s h i)

/-- The DMP group of a section as a read shows it (spec/05 R158). -/
def dmpRegs (s : State) (h i : Nat) : List Word := lastWords (secAt s h i).dmpShown (dmpWords s h i)

/-- The SPA group of a section as a read shows it (spec/06 R186). -/
def spaRegs (s : State) (h i : Nat) : List Word := lastWords (secAt s h i).spaShown (spaWords s h i)

/-- The group of a canceller path as a read shows it (spec/04 R136). -/
def pathRegs (s : State) (h p : Nat) : List Word := lastWords (pathAt s h p).shown (pathWords (pathAt s h p))

/-- The group of a loop slot as a read shows it (spec/07 R226). -/
def slotRegs (s : State) (h n : Nat) : List Word := lastWords (loopAt s h n).shown (loopRegs (loopAt s h n))

/-- The group of a chain as a read shows it (spec/09 R296). -/
def chainRegs (s : State) (h n : Nat) : List Word := lastWords (lcalAt s h n).shown (chainWords s h n)

/-- BLW_STATUS (spec/07 R226). -/
def blwStatus (s : State) (h : Nat) : Word :=
  let ls := (hearthAt s h).loops
  let inState (k : Nat) : Int := ((ls.filter (·.state == k)).length : Nat)
  wordOf [(0, 13, costMax (ls.map (·.cfg))), (16, 7, inState 1), (24, 7, inState 3)]

/-- The canceller group of a section (spec/04 R138). -/
def bdcGroup (s : State) (h i : Nat) : List Word :=
  let x := (secAt s h i).bdc
  [halves (x.supp.getD 0 0) (x.supp.getD 1 0), halves (x.supp.getD 2 0) (x.supp.getD 3 0),
   wordOf [(0, 4, flags4 ((List.range 4).map (branchFrozen s h i))), (4, 4, flags4 ((List.range 4).map (branchBare s h i)))], wordOf [(0, 16, x.esat)]]

/-- The Air Monitor group of a section (spec/10 R325). -/
def airGroup (s : State) (h i : Nat) : List Word :=
  let x := (secAt s h i).air
  [wordOf [(0, 6, x.tracked), (6, 1, bit x.noCell), (8, 10, x.best)], halves x.level x.ed,
   wordOf [(0, 5, (x.results.filter id).length), (5, 2, x.lastDetail), (8, 16, x.frames), (24, 8, x.quenches)]]

/-- The gain group of a section (spec/08 R271). -/
def rfcGroup (s : State) (h i : Nat) : List Word :=
  let x := secAt s h i
  [halves (x.rxg.getD 0 0) (x.rxg.getD 1 0), halves (x.rxg.getD 2 0) (x.rxg.getD 3 0),
   halves (x.dg.getD 0 logMin) (x.dg.getD 1 logMin), halves (x.dg.getD 2 logMin) (x.dg.getD 3 logMin)]

/-- The split group of a section (spec/15 R488). -/
def splitGroup (s : State) (h i : Nat) : List Word :=
  let x := (secAt s h i).split
  [wordOf [(0, 2, x.role), (2, 1, bit x.lost)], halves x.late x.gaps]

/-! ### Blocks of a hearth window -/

/-- HINFO (spec/21 R615). -/
def readHinfo (s : State) (h off : Nat) : Word :=
  if off = 0 then wordOf [(0, 3, h), (4, 4, hearthCount s), (8, 1, bit (h == 0))] else 0

/-- HIF (spec/14 R423, R435). -/
def readHif (s : State) (off : Nat) : Word :=
  if off < 0x10 then
    wordAt [wordOf [(0, 3, s.hif.gen), (3, 5, s.hif.width), (8, 1, bit s.hif.d3pf0), (9, 1, bit s.hif.d3pf1)],
      wordOf [(1, 1, bit s.hif.capIen), (4, 11, s.hif.capVector)],
      halves (megabytes (bandwidthSum s 0 1)) (megabytes (bandwidthSum s 1 1)), wordOf [(0, 16, megabytes (linkLimit s))]] (off / 4)
  else groupReg 0x10 4 8 (fun h => if present s h then [capStatus (hearthAt s h).cap] else []) off

/-- The register group of a queue (spec/12 R373). -/
def queueGroup (x : Queue) : List Word :=
  wordsOf 2 x.sqAddr ++ wordsOf 2 x.cqAddr ++
  [halves x.sqM1 x.cqM1, wordOf [(0, 1, bit (x.state != 0)), (1, 1, bit x.ien), (4, 11, x.vector), (16, 2, x.state), (20, 3, x.err)],
   halves x.sqHead x.cqTail, wordOf [(0, 16, x.packets), (16, 8, x.errors)]]

/-- CPX (spec/12 R372, R373). -/
def readCpx (s : State) (off : Nat) : Word :=
  if off < 0x10 then
    wordAt [wordOf [(0, 9, s.cpx.held.length), (9, 1, bit (pf0Priv s)), (16, 7, (s.cpx.queues.filter (·.state == 1)).length)], 0,
      BitVec.ofNat 32 s.cpx.leaderSeq, wordOf [(0, 16, s.cpx.leaderDup)]] (off / 4)
  else groupReg 0x1000 0x20 64 (fun q => queueGroup (queueAt s q)) off

/-- DFB (spec/16 R505). -/
def readDfb (s : State) (h off : Nat) : Word :=
  let x := (hearthAt s h).dfb
  wordAt [wordOf [(0, 2, x.linkUp)], halves x.logDrop x.retry] (off / 4)

/-- The mark that XMC_STATUS shows of a subchannel: that of rank 0, else that of rank 1 (spec/16 R506; log entry 72, DESIGN
CHOICE). -/
def markShown (x : Xmc) (sub : Nat) : Option Nat := (x.marks.getD (sub * 2) none).orElse fun _ => x.marks.getD (sub * 2 + 1) none

/-- XMC (spec/16 R506). -/
def readXmc (s : State) (h off : Nat) : Word :=
  let x := (hearthAt s h).xmc
  let mark (sub : Nat) : Int × Int := (bit (markShown x sub).isSome, ((markShown x sub).getD 0 : Nat))
  if off < 0x10 then
    wordAt [wordOf [(0, 2, x.speed), (2, 1, bit x.ranks2), (3, 1, bit x.d32), (4, 1, (mark 0).1), (5, 4, (mark 0).2), (9, 1, (mark 1).1),
      (10, 4, (mark 1).2)], 0, halves x.ce x.uce, wordOf [(0, 8, x.scrubPeriod), (8, 8, x.progress), (16, 16, x.passes)]] (off / 4)
  else groupReg 0x20 4 10 (fun k =>
    [bytes4 fun j => kgetD x.devCe ((j / 2 * 2 + k / 5) * 10 + 2 * (k % 5) + j % 2) 0]) off

/-- The register group of a port (spec/08 R270). -/
def portGroup (x : Port) : List Word :=
  [wordOf [(0, 8, x.step), (8, 1, bit x.cfg.auto), (9, 1, bit x.tableValid), (10, 1, bit x.dgLimit), (11, 1, bit x.change.isSome),
     (12, 1, bit (x.trimWant != x.trim)), (13, 1, bit x.supStale)],
   halves x.fsDbm x.orxg, halves x.comp x.trim, halves x.sumPk x.supMv]

/-- RFC (spec/08 R269 to R271). -/
def readRfc (s : State) (h off : Nat) : Word :=
  let x := (hearthAt s h).rfc
  if off < 0x10 then
    wordAt [0, bytes4 (x.ovl.getD · 0), bytes4 (x.rxAtt.getD · 0),
      wordOf [(0, 5, x.orxAtt.getD 0 0), (8, 5, x.orxAtt.getD 1 0), (16, 10, x.synthWait)]] (off / 4)
  else if off < 0x200 then groupReg 0x100 0x10 4 (fun c => portGroup ((hearthAt s h).ports.getD c {})) off
  else groupReg 0x200 0x10 8 (rfcGroup s h) off

/-- SYN (spec/08 R235, R272). -/
def readSyn (s : State) (h off : Nat) : Word :=
  let x (n : Nat) : Syn := (hearthAt s h).syns.getD n {}
  let shared (k n : Nat) : Int := bit ((hearthAt s h).rfc.synOf.getD k none == some n)
  if off = 0 then
    wordOf (((List.range 4).map fun n => (4 * n, 3, ((x n).state : Int))) ++ [(16, 1, shared 1 0), (17, 1, shared 3 1)])
  else if off < 0x20 then groupReg 0x10 4 4 (fun n => [if (x n).state = 0 then 0 else BitVec.ofNat 32 (x n).freq]) off
  else if off < 0x30 then
    groupReg 0x20 4 4 (fun n => [wordOf [(0, 8, (x n).lockLoss), (8, 8, (x n).fails), (16, 16, (x n).changes)]]) off
  else if off = 0x30 then bytes4 fun n => (x n).time
  else 0

/-- FES (spec/08 R258, R273). -/
def readFes (s : State) (h off : Nat) : Word :=
  let x := (hearthAt s h).fes
  let busy (k : Nat) : Bool := decide (s.tbu.clock < x.busFree.getD k 0)
  wordAt [wordOf [(0, 4, maskOf ((List.range 4).filter (stepRuns s h))), (4, 6, maskOf ((List.range 6).filter busy))],
    wordOf [(0, 16, x.gpioIn)], wordOf [(0, 8, x.busErr), (8, 8, x.swClip), (16, 16, x.actDrop)]] (off / 4)

/-- LCAL (spec/09 R285, R295, R296). -/
def readLcal (s : State) (h off : Nat) : Word :=
  let x := (hearthAt s h).lcal
  if off < 0x40 then
    wordAt [wordOf [(0, 10, maskOf ((List.range 10).filter fun n => (lcalAt s h n).delta.isSome)), (16, 10, x.hold)], 0,
      wordOf [(0, 24, x.deferCount), (24, 3, x.lastReason), (27, 4, x.lastChain)]] (off / 4)
  else if off < 0x100 then groupReg 0x40 4 9 (fun i => [wordOf [(0, 13, x.period.getD i 0), (16, 3, x.windows.getD i 0)]]) off
  else groupReg 0x100 0x20 10 (chainRegs s h) off

/-- GRT (spec/03 R91 to R94). -/
def readGrt (s : State) (h off : Nat) : Word :=
  let x := (hearthAt s h).grt
  if off < 0x100 then wordAt [wordOf [(0, 16, x.syncCount), (16, 2, x.lastSrc)], 0, bytes4 (x.txSat.getD · 0)] (off / 4)
  else groupReg 0x100 0x20 8 (grtRegs s h) off

/-- BDC (spec/04 R134 to R138). -/
def readBdc (s : State) (h off : Nat) : Word :=
  let x := (hearthAt s h).bdc
  if off < 0x100 then
    wordAt [wordOf [(0, 17, tapsUsed s h), (17, 3, x.gradDiv), (20, 1, bit x.reloc), (21, 1, bit x.stage.isSome)],
      wordOf [(0, 17, (hearthLoad s h * 65536 / loadBudget : Nat))], wordOf [(0, 24, x.deferCount), (24, 2, x.deferReason)]] (off / 4)
  else if off < 0x900 then groupReg 0x100 0x20 64 (pathRegs s h) off
  else groupReg 0x900 0x10 8 (bdcGroup s h) off

/-- DMP (spec/05 R158). -/
def readDmp (s : State) (h off : Nat) : Word := groupReg 0x100 0x20 8 (dmpRegs s h) off

/-- BLW (spec/07 R194, R226, R227). -/
def readBlw (s : State) (h off : Nat) : Word :=
  let p := s.setpt
  if off < 0x100 then
    wordAt [wordAt (lastWords (hearthAt s h).blwShown [blwStatus s h]) 0, 0,
      if s.ident.part = .brd880 then wordOf [(0, 12, p.aCode), (12, 1, bit p.aValid), (13, 1, bit p.pValid), (16, 16, p.pX)] else 0] (off / 4)
  else groupReg 0x100 0x20 64 (slotRegs s h) off

/-- SPA (spec/06 R185, R186). -/
def readSpa (s : State) (h off : Nat) : Word :=
  if off < 0x100 then
    groupReg 0x10 4 4 (fun c => let x := (hearthAt s h).ports.getD c {}
      [wordOf [(0, 16, x.pwr), (16, 6, x.pwrRange), (22, 1, bit x.pwrCeil)]]) off
  else groupReg 0x100 0x40 8 (spaRegs s h) off

/-- A scan range that is enabled lies wholly outside the instantaneous band of its chain (spec/10 R320; log entry 72, DESIGN
CHOICE for a range that is not enabled). -/
def rangeOutside (s : State) (h : Nat) (r : ScanRange) : Bool :=
  let lo := (hearthAt s h).rfc.lo.getD r.chain 0
  r.enable && (lo == 0 || decide (r.stop + 40000000 < lo) || decide (lo + 40000000 < r.start))

/-- AIR with its windows (spec/10 R305, R318, R320, R324, R325). -/
def readAir (s : State) (h off : Nat) : Word :=
  let x := (hearthAt s h).air
  if off < 0x100 then
    wordAt [wordOf [(0, 1, bit x.enabled), (1, 4, (((hearthAt s h).grt.meas.filter (·.owner == 1)).length : Nat)), (5, 1, bit x.overrun),
      (6, 1, bit x.starved), (7, 1, bit x.tableFull),
      (16, 16, maskOf ((List.range 16).filter fun k => rangeOutside s h (x.ranges.getD k {})))]] (off / 4)
  else if off < 0x4000 then groupReg 0x100 0x10 8 (airGroup s h) off
  else if off < 0x8000 then groupReg 0x4000 0x10 64 (fun n => strangerWords (kget x.strangers n)) off
  else groupReg 0x8000 0x20 1024 (fun n => cellWords (kget x.cells n)) off

/-- TBU; the same on every hearth (spec/02 R68, spec/21 R616). -/
def readTbu (s : State) (priv : Bool) (off : Nat) : Word :=
  let x := s.tbu
  wordAt [wordOf [(0, 3, x.timeStatus), (3, 1, bit x.frameValid), (4, 1, bit x.inHoldover), (5, 1, bit (x.slew != 0)),
      (8, 5, x.sched.length), (16, 10, x.sfn)],
    if priv then wordOf [(0, 1, bit x.syncGrt), (1, 1, bit x.syncFrame), (2, 1, bit x.syncTick)] else 0,
    if priv then wordOf [(0, 10, x.ppsWidth)] else 0] (off / 4)

/-- The register group of a flue port (spec/15 R486). -/
def flueGroup (x : FluePort) : List Word :=
  [wordOf [(0, 2, x.mode), (2, 1, bit x.link), (3, 1, bit x.group), (4, 1, bit x.transport), (5, 1, bit x.ptp), (6, 1, bit x.slave)],
   BitVec.ofNat 32 x.rx, halves x.bad x.uncorr]

/-- GRP_STATUS and GRP_OFFSET (spec/15 R487). -/
def groupRegs (s : State) : List Word :=
  let x := s.flu
  [wordOf [(0, 2, x.acting), (2, 4, x.missed), (6, 1, bit x.digestAgree), (7, 1, bit x.timeAgree), (8, 1, bit x.versionMismatch),
     (9, 1, bit x.dupIndex), (16, 10, x.leader), (26, 4, (min 15 x.dupSeen.length : Nat))], BitVec.ofNat 32 (groupOffset s)]

/-- FLU (spec/15 R486 to R488). -/
def readFlu (s : State) (h off : Nat) : Word :=
  if off < 0x100 then groupReg 0x10 0x10 2 (fun p => flueGroup (s.flu.ports.getD (2 * h + p) {})) off
  else if off < 0x200 then groupReg 0x100 8 1 (fun _ => groupRegs s) off
  else groupReg 0x200 0x10 8 (splitGroup s h) off

/-- THM (spec/19 R563, R565). -/
def readThm (s : State) (h off : Nat) : Word :=
  if off < 0x80 then wordAt (thermalWords s h) (off / 4)
  else groupReg 0x80 4 16 (fun i => [wordOf [(0, 16, ((hearthAt s h).thm.temps.getD i logMin))]]) off

/-- FCOL_SRC_n (spec/17 R531). -/
def sourceWord (f : Fcol) (n : Nat) : Word :=
  let c := sourceConfig f n
  let pair : Nat := if (kget f.rails n).isSome then 2 else if (kget f.err n).isSome then 1 else 0
  wordOf [(0, 2, c.1), (4, 5, c.2), (12, 1, bit (lockedSources.contains n)), (14, 2, pair), (16, 8, (kgetD f.count n 0 : Nat))]

/-- FCOL: the /P fields of FCOL_CTRL and FCOL_PIN read 0 to a master that is not privileged; the pins are sampled levels of open
drains that nothing else pulls low (spec/17 R516, R526 to R531; log entry 72, DESIGN CHOICE). -/
def readFcol (s : State) (priv : Bool) (h off : Nat) : Word :=
  let f := (hearthAt s h).fcol
  let alert := (hearthsOf s).any fun g => (hearthAt s g).fcol.alert
  if off = 4 ∧ priv = false then 0
  else if off < 0x80 then wordAt (fcolWords f) (off / 4)
  else if off = 0x80 then wordOf [(0, 1, bit (priv && s.pins.faultDrive)), (1, 1, bit (!faultLow s)), (2, 1, bit (!alert))]
  else if off < 0x1000 then groupReg 0x100 4 16 (fun k => [BitVec.ofNat 32 (maskOf ((f.pend.filter (· / 32 == k)).map (· % 32)))]) off
  else groupReg 0x1000 4 512 (fun n => [sourceWord f n]) off

/-- SEC (spec/20 R590, R595). -/
def readSec (s : State) (off : Nat) : Word :=
  let x := s.sec
  wordAt [wordOf [(0, 3, x.stage), (4, 4, x.result), (8, 2, x.image), (10, 1, bit x.fallback), (11, 1, x.recordCopy), (12, 1, bit x.oemSigned),
      (13, 1, bit x.warm), (14, 2, x.bootSrc), (16, 3, x.failA), (20, 3, x.failB), (24, 1, bit x.scriptOk)],
    wordOf [(0, 16, x.bootMs)],
    wordOf [(0, 8, x.rollback), (8, 1, bit (oemKeyNow s).isSome), (9, 1, bit (hostKeyNow s).isSome), (10, 1, bit (implicitPriv s)),
      (16, 7, ((s.limits.rows.filter (·.written)).length : Nat))]] (off / 4)

/-- ALOG with its entry window; an entry of the ring that nothing has written reads 0 (spec/18 R547, R549; log entry 72, DESIGN
CHOICE). -/
def readAlog (s : State) (off : Nat) : Word :=
  let a := s.alog
  let b := (bucketOf s a.rateSel).getD {}
  if off < 0x8000 then
    wordAt [wordOf [(0, 1, bit a.emberValid), (1, 1, bit a.emberReady), (2, 1, bit a.emberWriting), (3, 1, bit a.emberDone),
        (4, 2, a.loadedSet.cause)], 0, BitVec.ofNat 32 a.seq, BitVec.ofNat 32 a.ovw, BitVec.ofNat 32 a.supp,
      BitVec.ofNat 32 a.loadedSet.generation, 0, 0, wordOf [(0, 16, a.rateSel)],
      wordOf [(0, 8, b.burst), (8, 8, b.tokens), (16, 16, b.suppCount)],
      wordOf [(0, 16, b.refill), (16, 1, bit (bucketOf s a.rateSel).isSome)]] (off / 4)
  else groupReg 0x8000 0x20 ringSize (fun k => ((kget a.ring k).map entryWords).getD []) off

/-- A block of a hearth window (spec/21 R599). -/
def readBlock (s : State) (priv : Bool) (h block off : Nat) : Word :=
  match block with
  | 0x00 => readHinfo s h off
  | 0x01 => readHif s off
  | 0x02 => readCpx s off
  | 0x03 => readDfb s h off
  | 0x04 => readXmc s h off
  | 0x05 => readRfc s h off
  | 0x06 => readSyn s h off
  | 0x07 => readFes s h off
  | 0x08 => readLcal s h off
  | 0x09 => readGrt s h off
  | 0x0A => readBdc s h off
  | 0x0B => readDmp s h off
  | 0x0C => readBlw s h off
  | 0x0D => readSpa s h off
  | 0x0E => readAir s h off
  | 0x0F => readTbu s priv off
  | 0x10 => readFlu s h off
  | 0x11 => readThm s h off
  | 0x12 => readFcol s priv h off
  | 0x13 => readSec s off
  | _ => if 0x20 ≤ block ∧ block < 0x30 then readAlog s ((block - 0x20) * 0x10000 + off) else 0

/-- The window of a hearth: what only hearth 0 keeps live, and every register of an absent hearth, reads 0, but for the timebase
controls, which every hearth shows (spec/21 R600, R616). -/
def readHearth (s : State) (priv : Bool) (h off : Nat) : Word :=
  let shown := h == 0 || !hearth0Only off || off == 0x0F0004 || off == 0x0F0008
  if present s h && shown then readBlock s priv h (off / 0x10000) (off % 0x10000) else 0

/-! ### PF0 -/

/-- The SYS block as a master reads it; each mode of WIDE_MODE reads the other mode's registers 0; a copy of the holding window
never shows as BUSY between two steps (spec/21 R602, R607, R608, R610 to R612; log entry 72, DESIGN CHOICE). -/
def readSys (s : State) (m off : Nat) : Word :=
  let x := s.sys
  let priv := masterPriv s m
  let w := if s.sec.wideMode then {} else x.wide.getD m {}
  let secret (v : Word) : Word := if priv then v else 0
  if 0x48 ≤ off ∧ off < 0x58 then wordAt (wordsOf 4 w.data) ((off - 0x48) / 4)
  else match off with
    | 0x00 => identWord s
    | 0x04 => BitVec.ofNat 32 s.sec.fwVersion
    | 0x08 => wordOf [(0, 16, s.sec.fwSvn), (16, 16, s.ident.romVersion)]
    | 0x0C => strapWord s
    | 0x10 => stateWord s
    | 0x14 => secret (wordOf [(0, 1, bit (x.testLock.getD false))])
    | 0x18 => secret (wordOf [(0, 24, x.board.getD 0)])
    | 0x1C => secret (wordOf [(0, 16, x.hbCount)])
    | 0x20 => wordOf [(0, 10, x.intPend)]
    | 0x24 => secret (wordOf [(0, 10, x.intEn)])
    | 0x28 => secret (wordOf [(0, 11, x.intVector)])
    | 0x40 => wordOf [(0, 16, w.req)]
    | 0x44 => wordOf [(0, 1, bit w.valid), (1, 1, bit w.bad)]
    | 0x64 => BitVec.ofNat 32 x.snapSeq
    | 0x68 => wordOf [(1, 1, bit x.snapPending), (2, 1, bit x.dousedCopy)]
    | _ => 0

/-- The holding window: value v in 4 words at 16 v; in MAILBOX mode it reads 0 but for the copy of DOUSED (spec/21 R608, R609). -/
def readSnapshot (s : State) (off : Nat) : Word :=
  if s.sec.wideMode || s.sys.dousedCopy then wordAt (wordsOf 4 (kgetD s.sys.snapWindow (off / 16) 0)) (off % 16 / 4) else 0

/-- A word of an MSI-X table; an entry that nothing has written is masked (spec/14 R411). -/
def tableWord (x : Msix) (k : Nat) : Word := kgetD x.table k (if k % 4 = 3 then 1 else 0)

/-- A word of a pending bit array (spec/14 R411, R414). -/
def pbaWord (x : Msix) (k : Nat) : Word := BitVec.ofNat 32 (maskOf ((x.pba.filter (· / 32 == k)).map (· % 32)))

/-- The MSI-X table of n vectors at `base` and its pending bits at `pba`, as a function's BAR0 shows them (spec/14 R411). -/
def readMsix (x : Msix) (base pba n a : Nat) : Word :=
  match msixWord base n a with
  | some k => tableWord x k
  | none => if pba ≤ a ∧ a < pba + n / 8 then pbaWord x ((a - pba) / 4) else 0

/-- A 32-bit read of PF0 BAR0 by PF0 (0), CPX (1) or SEC (2) (spec/21 R598 to R602). -/
def readPf0 (s : State) (m a : Nat) : Word :=
  if a < 0x10000 then readSys s m a
  else if 0x100000 ≤ a ∧ a < 0x200000 then readSnapshot s (a - 0x100000)
  else if 0x1000000 ≤ a ∧ a < 0x9000000 then
    readHearth s (masterPriv s m) ((a - 0x1000000) / 0x1000000) (a % 0x1000000)
  else readMsix s.hif.pf0 0xFF00000 0xFF10000 2048 a

/-- A read of the doorbells in PF0 BAR2 (spec/12 R361). -/
def readDoorbell (_s : State) (_a : Nat) : Word := 0

/-! ### PF1 -/

/-- The register group of a stream (spec/14 R436). -/
def streamGroup (x : Stream) : List Word :=
  [wordOf [(0, 2, x.state), (2, 1, bit x.underrun)], wordOf [(0, 30, x.devPtr)], wordOf [(6, 24, (x.hostPtr / 64 : Nat))],
   wordOf [(0, 16, x.blocks), (16, 8, x.lost), (24, 8, x.bad)]]

/-- A 32-bit read of PF1 BAR0 (spec/14 R411, R436, R437). -/
def readPf1 (s : State) (a : Nat) : Word :=
  if a < 0x400000 then
    let h := a / 0x80000
    let i := a / 0x10000 % 8
    if present s h then
      wordAt (streamGroup (streamAt s h i 0) ++ streamGroup (streamAt s h i 1)) (a % 0x10000 / 4)
    else 0
  else readMsix s.hif.pf1 0xFF0000 0xFF8000 64 a

/-! ### VFs -/

/-- VF n sees a global section: the section's TENANT is n (spec/03 R95, spec/14 R413). -/
def vfSees (s : State) (n g : Nat) : Bool :=
  present s (g / 8) && (secAt s (g / 8) (g % 8)).defn.any fun d => d.tenant == n

/-- Sections that a VF sees (spec/14 R438). -/
def vfSections (s : State) (n : Nat) : List Nat := (List.range 64).filter (vfSees s n)

/-- The bound gain slot of a section's direction and branch (spec/07 R192, R226). -/
def gainSlot (s : State) (h i k : Nat) : Option Nat := (List.range 64).find? fun n => (loopAt s h n).bound == some (i, k)

/-- A tenant window: copies of a section's register groups (spec/14 R412, R413). -/
def tenantWord (s : State) (h i off : Nat) : Word :=
  if off < 0x20 then groupReg 0x00 0x20 1 (fun _ => grtRegs s h i) off
  else if off < 0x40 then groupReg 0x20 0x20 1 (fun _ => dmpRegs s h i) off
  else if off < 0x80 then groupReg 0x40 0x40 1 (fun _ => spaRegs s h i) off
  else if off < 0x90 then groupReg 0x80 0x10 1 (fun _ => bdcGroup s h i) off
  else if off < 0xA0 then groupReg 0x90 0x10 1 (fun _ => airGroup s h i) off
  else if off < 0xB0 then groupReg 0xA0 0x10 1 (fun _ => rfcGroup s h i) off
  else if off < 0xC0 then groupReg 0xB0 0x10 1 (fun _ => splitGroup s h i) off
  else if off < 0x200 then groupReg 0x100 0x20 8 (fun j => pathRegs s h (8 * i + j)) off
  else groupReg 0x200 0x20 4 (fun k => ((gainSlot s h i k).map (slotRegs s h)).getD []) off

/-- VF_INFO, VF_SEC_LO and VF_SEC_HI (spec/14 R438). -/
def vfWords (s : State) (n : Nat) : List Word :=
  let gs := vfSections s n
  [wordOf [(0, 5, n), (8, 7, gs.length)]] ++ wordsOf 2 (maskOf gs)

/-- A 32-bit read of the BAR0 of VF n (spec/03 R95; spec/14 R411 to R413, R438). -/
def readVf (s : State) (n a : Nat) : Word :=
  if a < 0xC000 then if vfSees s n (a / 0x300) then tenantWord s (a / 0x300 / 8) (a / 0x300 % 8) (a % 0x300) else 0
  else if a < 0xF000 then groupReg 0xC000 0xC 1 (fun _ => vfWords s n) a
  else readMsix (s.hif.vfs.getD (n - 1) {}) 0xF000 0xF800 8 a

/-! ### Any master -/

/-- A 32-bit aligned read of BAR0 by a master: 0 PF0, 1 CPX, 2 SEC, 3 PF1, 3 + n VF n (spec/21 R598 to R602). -/
def regRead (s : State) (m a : Nat) : Word :=
  if m ≤ 2 then readPf0 s m a else if m = 3 then readPf1 s a else readVf s (m - 3) a

/-- A read of any size: the bytes of the words that contain them, in ascending order (spec/21 R601). -/
def readBytes (s : State) (m a n : Nat) : List (BitVec 8) :=
  (List.range n).map fun k => BitVec.ofNat 8 ((regRead s m ((a + k) / 4 * 4)).toNat >>> (8 * ((a + k) % 4)))

/-! ### Configuration space -/

/-- A PCIe function of the device (spec/14 R411). -/
inductive PciFn where
  | pf0
  | pf1
  | vf (n : Nat)
  deriving DecidableEq, Repr

/-- Identifiers of a function (spec/14 R409). -/
structure PciId where
  /-- 14 R409: Vendor ID. -/
  vendor : Nat
  /-- 14 R409: Device ID. -/
  device : Nat
  /-- 14 R409: Revision ID. -/
  revision : Nat
  /-- 14 R409: class code. -/
  classCode : Nat
  /-- 14 R409, 20 R579: SUBSYS_VENDOR. -/
  subVendor : Nat
  /-- 14 R409, 20 R579: SUBSYS_ID. -/
  subId : Nat
  deriving DecidableEq, Repr

/-- nn of the Device IDs (spec/14 R409). -/
def deviceNumber : Part → Nat
  | .brd110 => 0x11
  | .brd220 => 0x22
  | .brd440 => 0x44
  | .brd880 => 0x88

/-- The identifiers that a function presents; the subsystem IDs come from the record in use (spec/14 R409, spec/20 R579). -/
def pciId (s : State) (f : PciFn) : PciId :=
  { vendor := 0x1F7C, revision := 0xA1, classCode := 0x118000
    device := (match f with | .pf0 => 0xB000 | .pf1 => 0xB100 | .vf _ => 0xB200) + deviceNumber s.ident.part
    subVendor := fld (recordWord s 3) 0 16, subId := fld (recordWord s 3) 16 16 }

/-- A capability structure: its offset in configuration space and the values that R410 gives it, in the order of its row. -/
structure Capability where
  /-- 14 R410. -/
  offset : Nat
  /-- 14 R410: its name as the table gives it. -/
  name : String
  /-- 14 R410. -/
  values : List Nat
  deriving DecidableEq, Repr

/-- MSI-X vectors of a function (spec/14 R410, R411). -/
def msixSize : PciFn → Nat
  | .pf0 => 2048
  | .pf1 => 64
  | .vf _ => 8

/-- A BAR: its number, its size in bytes, whether it is 64 bits wide and whether it is prefetchable (spec/14 R411). -/
structure Bar where
  /-- 14 R411. -/
  number : Nat
  /-- 14 R411. -/
  size : Nat
  /-- 14 R411. -/
  wide : Bool := true
  /-- 14 R411. -/
  prefetchable : Bool := false
  deriving DecidableEq, Repr

/-- PCIe function number (spec/14 R411). -/
def fnNumber : PciFn → Nat
  | .pf0 => 0
  | .pf1 => 1
  | .vf n => 1 + n

/-- The BARs of a function (spec/14 R411). -/
def bars : PciFn → List Bar
  | .pf0 => [{ number := 0, size := (barSizes 0).1 }, { number := 2, size := (barSizes 0).2 }]
  | .pf1 => [{ number := 0, size := (barSizes 1).1 }]
  | .vf _ => [{ number := 0, size := (barSizes 1).2 }]

/-- Offsets of the MSI-X table and the PBA in BAR0 (spec/14 R411). -/
def msixPlace : PciFn → Nat × Nat
  | .pf0 => (0xFF00000, 0xFF10000)
  | .pf1 => (0xFF0000, 0xFF8000)
  | .vf _ => (0xF000, 0xF800)

/-- Control fields of the function's configuration space; a VF has those of PF1. -/
def pciCfg (s : State) (f : PciFn) : PciCfg := match f with | .pf0 => s.hif.cfg0 | _ => s.hif.cfg1

/-- A read of the identifiers of a function and of the control fields that a host writes; none where it is answered with Configuration
Request Retry Status (spec/14 R409 to R411, R414, R434; log entry 147, PRESUMED). -/
def configRead (s : State) (f : PciFn) (a : Nat) : Option Word :=
  if configReady s = false then none
  else
    let i := pciId s f
    let x := pciCfg s f
    let m := match f with | .pf0 => s.hif.pf0 | .pf1 => s.hif.pf1 | .vf n => s.hif.vfs.getD (n - 1) {}
    let second := if f = .pf0 then 0x18 else 0x324
    some <|
      if a = 0x00 then halves i.vendor i.device
      else if a = 0x08 then wordOf [(0, 8, i.revision), (8, 24, i.classCode)]
      else if a = 0x2C then halves i.subVendor i.subId
      else if a = 0x10 then BitVec.ofNat 32 (x.bar0 % 2 ^ 32 + 4)
      else if a = 0x14 then BitVec.ofNat 32 (x.bar0 / 2 ^ 32)
      else if a = second then BitVec.ofNat 32 (x.bar2 % 2 ^ 32 + 4)
      else if a = second + 4 then BitVec.ofNat 32 (x.bar2 / 2 ^ 32)
      else if a = 0x50 then wordOf [(0, 8, (0x11 : Nat)), (16, 11, msixSize f - 1), (30, 1, bit m.funcMask), (31, 1, bit m.enable)]
      else if a = 0x54 then BitVec.ofNat 32 (msixPlace f).1
      else if a = 0x58 then BitVec.ofNat 32 (msixPlace f).2
      else if a = 0x78 then wordOf [(4, 1, bit x.relaxed), (5, 3, x.mps), (12, 3, x.mrrs)]
      else if a = 0x80 then wordOf [(1, 1, bit x.aspmL1)]
      else if a = 0x98 then wordOf [(0, 4, x.timeout), (12, 1, bit x.tag10)]
      else if a = 0x104 then BitVec.ofNat 32 x.uncStatus
      else if a = 0x118 then
        wordOf [(0, 5, x.firstError), (5, 1, (1 : Nat)), (6, 1, bit x.ecrcGen), (7, 1, (1 : Nat)), (8, 1, bit x.ecrcCheck)]
      else if a = 0x308 then wordOf [(0, 1, bit s.hif.vfEnable)]
      else 0

/-- The capability structures of a function: of Power Management the D1, D2 and PME support; of MSI-X the table size, and the BARs and offsets
of the table and the PBA; of PCI Express the port type Endpoint as 0, Max_Payload_Size in bytes, FLR, ASPM L1, the L1 Exit Latency in us, the
speed in 0.1 GT/s and the width; of AER the First Error Pointer and the ECRC generation and checking capabilities; of the serial number UID bytes 0 to 7; of ARI the Next Function; of SR-IOV InitialVFs, TotalVFs, First VF
Offset, VF Stride and the size of VF BAR0 (spec/14 R410). -/
def capabilities (s : State) (f : PciFn) : List Capability :=
  let msix : Capability := ⟨0x050, "MSI-X", [msixSize f, 0, (msixPlace f).1, 0, (msixPlace f).2]⟩
  let express : Capability := ⟨0x070, "PCI Express", [0, 512, 1, 1, 8, 16, 320, 16]⟩
  let power : Capability := ⟨0x040, "Power Management", [0, 0, 0]⟩
  let aer : Capability := ⟨0x100, "AER", [(pciCfg s f).firstError, 1, 1]⟩
  match f with
  | .pf0 => [power, msix, express, aer, ⟨0x148, "Device Serial Number", [s.ident.uid % 2 ^ 64]⟩, ⟨0x158, "ARI", [1]⟩,
      ⟨0x168, "Secondary PCI Express", []⟩, ⟨0x1A8, "Data Link Feature", [1]⟩, ⟨0x1B8, "Physical Layer 16.0 GT/s", []⟩,
      ⟨0x1E8, "Physical Layer 32.0 GT/s", []⟩, ⟨0x210, "Lane Margining at the Receiver", [1, 1]⟩]
  | .pf1 => [power, msix, express, aer, ⟨0x158, "ARI", [0]⟩, ⟨0x300, "SR-IOV", [30, 30, 1, 1, 0x10000]⟩]
  | .vf _ => [msix, express, ⟨0x158, "ARI", []⟩]

end Sys2Proof.Machine
end

