-- ==== Sys2Proof/Machine/Replies.lean ====
section
/-! DEFINITION. Machine/Replies.lean: what a boundary shows and says: the registers that update with it, the replies of the commands that
the tick it closes has handled, and the deletion of queues (spec/02 R60; spec/12 R367; spec/13 R393, R395, R401). -/

namespace Sys2Proof.Machine

/-! ### Registers that update at the boundary -/

/-- The groups of a section update (spec/03 R94; spec/05 R158; spec/06 R186). -/
def latchSection (s : State) (h i : Nat) (x : Section) : Section :=
  { x with grtShown := grtGroup s h i, dmpShown := dmpWords s h i, spaShown := spaWords s h i }

/-- The groups of a hearth's sections, paths, loop slots and chains update (spec/03 R94; spec/04 R136; spec/05 R158; spec/06 R186;
spec/07 R226; spec/09 R296). -/
def latchHearth (s : State) (h : Nat) : State → State :=
  modHearth h fun x => { x with
    sections := x.sections.mapIdx fun i y => latchSection s h i y
    paths := x.paths.map fun y => { y with shown := pathWords y }
    loops := x.loops.map fun y => { y with shown := loopRegs y }
    lcal := { x.lcal with ch := x.lcal.ch.mapIdx fun n y => { y with shown := chainWords s h n } }
    blwShown := [blwStatus s h] }

/-- Every register group that updates at a boundary takes what holds from it on. -/
def latchWords (s : State) : State := each (hearthsOf s) (latchHearth s) s

/-! ### Replies -/

/-- The queries whose reply is read at one boundary, the one that opens the tick after capture: what answers them (spec/03 R88;
spec/04 R130; spec/05 R154; spec/06 R183; spec/07 R219; spec/09 R293; spec/10 R322; spec/13 R393, R395, R405; spec/15 R481; spec/17 R525; spec/18 R545; spec/19 R564; the other queries than those of
spec/13 by log entry 126, DESIGN CHOICE). `d` is how many DSP clocks after the opening of the state's tick the boundary comes. -/
def boundaryQuery (d op : Nat) : Option (Packet → State → Done) :=
  match op with
  | 0x0107 => some (wideReadAt d)
  | 0x010B => some fun _ t => .reply .ok (scriptWords t.cpx.script) t
  | 0x010C => some fun _ t => .reply .ok (statusAt (if d = 0 then openTime t else nextTime t) t) t
  | 0x0203 => some querySection
  | 0x0302 => some bdcPathQuery
  | 0x0402 => some (sectionQuery dmpWords)
  | 0x0502 => some (sectionQuery spaWords)
  | 0x0602 => some loopQuery
  | 0x0803 => some lcalQuery
  | 0x0904 => some airCellRead
  | 0x0A03 => some groupQuery
  | 0x0C03 => some thermalQuery
  | 0x0C06 => some fcolQuery
  | 0x0C07 => some alogRead
  | _ => none

/-- Words of a reply that is due, as the boundary gives them: a query that the boundary still answers reads it, and every other reply keeps
its words. -/
def boundaryWords (d : Nat) (s : State) (x : Due) : List Word :=
  match boundaryQuery d x.cmd.op with
  | none => x.words
  | some f =>
    match f { src := x.cmd.src, hearth := x.cmd.hearth, sect := x.cmd.sect, payload := x.cmd.words } s with
    | .reply .ok ws _ => if x.status = .ok then ws else x.words
    | _ => x.words

/-- The state as the queries of a boundary see it: the script has taken the replies of its records that are due (spec/13 R393, R405). -/
def scriptView (opens time : Nat) (s : State) : State :=
  let t := each (s.cpx.due.filter fun x => x.cmd.src == 0x40) (fun x => writeReply opens x.cmd x.status x.words time) s
  modCpx (fun c => { c with script := t.cpx.script }) s

/-- A boundary writes the replies that are due, in the order in which they fell due, and then fills the reports of ATTEST and deletes the queues of
QUEUE_DELETE; `opens`
is the tick that it opens, `time` its device time, and `d` as for the queries (spec/02 R60; spec/12 R367; spec/13 R401;
spec/20 R592). -/
def writeDue (d opens time : Nat) (s : State) : State :=
  let view := scriptView opens time s
  let ds := s.cpx.due.map fun x => (x, boundaryWords d view x)
  let t := each ds (fun x => writeReply opens x.1.cmd x.1.status x.2 (x.1.time.getD time)) (modCpx (fun c => { c with due := [] }) s)
  let t := each t.cpx.held (fillReport time) t
  each (t.cpx.held.filter fun c => c.op == 0x0105) (finishDelete opens time) t

end Sys2Proof.Machine
end

