-- ==== Sys2Proof/Machine/Boot.lean ====
section
/-! DEFINITION. Machine/Boot.lean: the Kindling stages, entry to EMBER, and the resets (spec/20, spec/01 R32). -/

namespace Sys2Proof.Machine

/-! ### Kindling stages -/

/-- Kindling runs: the package has power, RESET_N is high and the state is KINDLING. -/
def kindles (s : State) : Bool := s.pkg == .kindling && s.sec.powered && !s.sec.resetLow

/-- Event 0x0D16 (spec/20 R597). -/
def bootDone (s : State) : State :=
  let b := s.sec
  emit 0 0x0D16 ([b.result, b.image, bitNat b.fallback + 2 * bitNat b.warm] ++ bytesOf 2 b.bootMs) s

/-- Boot stops with a RESULT; the package stays in KINDLING (spec/20 R575, R576). -/
def stopBoot (result : Nat) (s : State) : State := bootDone (modBoot (fun x => { x with stage := 7, result := result }) s)

/-- The memory configuration of a hearth from the Kindling record, or the base configuration (spec/20 R576, R579). -/
def setMemory (w : Option Word) (s : State) : State :=
  { s with hearths := s.hearths.map fun x => { x with
      xmc := match w with
        | some w => { x.xmc with speed := fld w 0 2, ranks2 := bitOf w 2, d32 := bitOf w 3, scrubPeriod := fld w 8 8, ceThresh := fld w 16 16 }
        | none => { x.xmc with speed := 1, ranks2 := false, d32 := false } } }

/-- The slot that the boot selector names (spec/20 R574). -/
def selectedSlot (s : State) : Nat := if (flashWord s 0x20000).toNat = 0x53454C31 then 1 else 0

/-- Loading begins from flash, or from the staging target that IMAGE_ACTIVATE asked for (spec/20 R575, R587). -/
def startLoad (s : State) : State :=
  let slot := s.sec.bootNext.getD (selectedSlot s)
  modBoot (fun x => { x with stage := 3, slotNow := slot, slotTry := 0, bootNext := none, fallback := false, header := [] }) s

/-- K1: both record copies are read; an invalid copy raises source 483 (spec/20 R572, R573, R578). After it a warm boot runs
the image held in DRAM, unless another was asked for or the image fails its re-hash; a boot that IMAGE_ACTIVATE restarted goes on
with its image. -/
def endK1 (b : BootIn) (s : State) : State :=
  let bad := (List.range 2).filter fun c => !recordValid s (recordCopyWords s c)
  let pick := chooseRecord s
  let t := each bad (fun _ => raiseSource 0 483) s
  let t := modBoot (fun x => { x with
    record := pick.map (recordCopyWords s), recordCopy := pick.getD 0
    wideMode := (pick.map fun c => bitOf (wordAt (recordCopyWords s c) 6) 0).getD false }) t
  let t := onlyIf (t.sec.warm || t.sec.bootNext.isSome) (setMemory (t.sec.record.map fun ws => wordAt ws 7)) t
  if t.sec.warm then
    if t.sec.record.isNone then stopBoot 2 t
    else if t.sec.bootNext.isNone && t.sec.image != 3 && !b.hashBad then
      modBoot (fun x => { x with stage := 4, slotNow := x.image, slotTry := 0 }) t
    else startLoad t
  else if t.sec.bootNext.isSome && t.sec.record.isSome then startLoad t
  else modBoot (fun x => { x with stage := 2 }) t

/-- K2: training, with the memory configuration that it gives; a hearth that fails raises source 37 (spec/20 R572, R575, R576; spec/16 R495). -/
def endK2 (b : BootIn) (s : State) : State :=
  let fails := b.trainFail.filter (present s)
  let t := setMemory (s.sec.record.map fun ws => wordAt ws 7) s
  if !fails.isEmpty then each fails (fun h => raiseSource h 37) s
  else if t.sec.record.isNone then stopBoot 2 t
  else if t.sec.bootSrc = 1 then stopBoot 5 t
  else if 2 ≤ t.sec.bootSrc then stopBoot 4 t
  else startLoad t

/-- The image that has passed K4 is the running one (spec/20 R583, R592). -/
def takeImage (hd : List Word) (s : State) : State :=
  modBoot (fun x => { x with
    stage := 5, image := x.slotNow, header := hd, fwVersion := (wordAt hd 3).toNat, fwSvn := fld (wordAt hd 4) 0 16
    protoMinor := fld (wordAt hd 4) 16 8, protoMajor := fld (wordAt hd 4) 24 8, oemSigned := bitOf (wordAt hd 5) 16
    imageHash := (Config.sha384 (hd.take 112)).toNat }) s

/-- K4: the image authenticates, or its slot's failure is recorded and the other slot is tried; with none left boot stops
(spec/20 R572, R573, R575, R584, R596, R597). -/
def endK4 (s : State) : State :=
  let n := s.sec.slotNow
  let dram := s.sec.warm && s.sec.image == n && s.sec.slotTry == 0 && !s.sec.header.isEmpty
  let hd := if dram then s.sec.header else imageHeader s n
  match (if dram then headerAuth s hd else imageFault s n) with
  | none => takeImage hd s
  | some r =>
    let t := onlyIf (decide (n < 2)) (fun u => emit 0 0x0D17 [n, r] (raiseSource 0 484 u)) s
    let t := modBoot (fun x => { x with
      failA := if n = 0 then r else x.failA, failB := if n = 1 then r else x.failB, slotTry := x.slotTry ||| 2 ^ n, header := [] }) t
    let other := 1 - n
    if n < 2 ∧ !maskHas t.sec.slotTry other then
      modBoot (fun x => { x with stage := 3, slotNow := other, fallback := true }) t
    else stopBoot (if n = 2 ∧ s.sec.bootSrc = 1 then 5 else 3) (modBoot (fun x => { x with image := 3 }) t)

/-- The bytes of the script area (spec/20 R579). -/
def scriptBytes (s : State) : List (BitVec 8) :=
  let o := (recordWord s 15).toNat
  (List.range (recordWord s 17).toNat).map fun k => BitVec.ofNat 8 ((flashWord s ((o + k) / 4 * 4)).toNat >>> (8 * ((o + k) % 4)))

/-- The script's digest matches (spec/20 R579, R582). -/
def scriptMatches (s : State) : Bool :=
  (Config.sha384Bytes (scriptBytes s)).toNat == valueOf (((s.sec.record.getD []).take 30).drop 18)

/-- Links between hearths that are up on a hearth (spec/16 R493; log entry 62, DEDUCED). -/
def linksOf (s : State) (h : Nat) : Nat := match hearthCount s with | 1 => 0 | 2 => if h = 0 then 1 else 2 | _ => 3

/-- K5: CPX starts; the Firebrick rows are read and distributed, the calibration set is loaded and digested, chains are
loaded, and the script's digest is checked (spec/20 R572, R582). -/
def endK5 (s : State) : State :=
  let t := each (hearthsOf s) (fun h => modHearth h fun x => { x with dfb := { x.dfb with linkUp := linksOf s h }, bdc := { x.bdc with slots := [] } }) s
  let t := loadSet (readRows t)
  let t := each (hearthsOf t) (fun h u => refreshGains h (each (List.range 10) (loadChain h) (loadPorts h u))) t
  let t := loadPlan (readPlanArea t)
  let ok := scriptCount t != 0 && scriptMatches t
  let t := onlyIf (scriptCount t != 0 && !ok) (raiseSource 0 485) t
  modBoot (fun x => { x with stage := 6, scriptOk := ok, rfPowered := true }) t

/-- BOOT_STAGE_COMPLETE: the running stage ends. K0 and K1 wait for the end of a programming that a reset has met,
and a warm boot reads the ember areas in K1 (spec/11 R334; spec/18 R544; spec/20 R572, R573; log entry 151, DEDUCED). -/
def execBootStageComplete (b : BootIn) (s : State) : Out :=
  .next <|
    if !kindles s then s
    else match s.sec.stage with
      | 0 => if s.limits.prog.isSome then s else loadEmbers (modBoot (fun x => { x with stage := 1 }) s)
      | 1 =>
        if s.limits.prog.isSome || (!s.alog.emberRead && s.alog.emberWriting) then s
        else endK1 b (onlyIf (!s.alog.emberRead) loadEmbers s)
      | 2 => endK2 b s
      | 3 => modBoot (fun x => { x with stage := 4 }) s
      | 4 => endK4 s
      | 5 => endK5 s
      | _ => s

/-- BOOT_TIME.MS at the boundary that ends the running tick: TBU counts from the entry to KINDLING (spec/02 R41, spec/20 R572,
R595). -/
def bootTime (s : State) : Nat := satCount 16 (ceilDiv (s.tbu.clock + s.tbu.tickLen) 983040)

/-- KINDLING_COMPLETE: EMBER at the next boundary, and the Kindling script starts when its digest matched (spec/01 R32,
spec/20 R572, R582, R597). The operand is the time that an observer outside measures; BOOT_TIME is the device's own. -/
def execKindlingComplete (_ms : Nat) (s : State) : Out :=
  .next <|
    if kindles s && s.sec.stage == 6 then
      let t := bootDone { modBoot (fun x => { x with result := 1, bootMs := bootTime s }) s with pkg := .ember }
      if t.sec.scriptOk then scriptStart 0 0x40 t else t
    else s

/-! ### Resets -/

/-- What a fault collector keeps at warm reset (spec/17 R519): the records, FCOL_PEND, LOST, ALERT and the counters, and what
its pairs and its sequencer do, whose clocks move with TBU, which starts at the clock `origin`. An injection that waits ends, and FCOL_INJ
reads as after reset (spec/20 R571; log entry 60, DEDUCED). -/
def warmFcol (origin : Nat) (f : Fcol) : Fcol :=
  { f with seqEnd := f.seqEnd - origin, injFrom := 0, err := [], hold := [], seen := [], chipDue := false, douseDue := false, injSafe := true, railReact := 1, vector := 0
           injPending := false, injSource := 0, injMode := 0, injCaptured := false, injCoincident := false, cfg := [], cfgNext := none }

/-- What a hearth keeps at warm reset: memory configuration, entries on their way to the log, broken sensors and the fault
collector (spec/17 R519, spec/18 R537, spec/20 R571; log entry 60, DEDUCED). -/
def warmHearth (origin : Nat) (x : Hearth) : Hearth :=
  { ({} : Hearth) with
    fcol := warmFcol origin x.fcol
    dfb := { ({} : Dfb) with logQ := x.dfb.logQ }
    xmc := { ({} : Xmc) with speed := x.xmc.speed, ranks2 := x.xmc.ranks2, d32 := x.xmc.d32, scrubPeriod := x.xmc.scrubPeriod, ceThresh := x.xmc.ceThresh }
    thm := { ({} : Thm) with broken := x.thm.broken, rfOff := x.thm.rfOff } }

/-- What the command processor keeps at warm reset: queue 0's configuration, DISABLED, the unlock failures and the lockout,
whose end moves with TBU_TICK; what it has written to the host stays there (spec/12 R368, spec/20 R571, R590). -/
def warmCpx (s : State) : Cpx :=
  let q := queueAt s 0
  { ({} : Cpx) with
    queues := { ({} : Queue) with sqAddr := q.sqAddr, cqAddr := q.cqAddr, sqM1 := q.sqM1, cqM1 := q.cqM1, ien := q.ien, vector := q.vector }
      :: List.replicate 63 {}
    replies := s.cpx.replies, unlockFails := s.cpx.unlockFails, lockoutEnd := s.cpx.lockoutEnd.map (· - s.tbu.tick) }

/-- The Firebrick rows in OTP, and a programming that runs: they outlast every reset (spec/11 R334; spec/20 R571). -/
def keptLimits (x : Limits) : Limits :=
  { ({} : Limits) with rows := x.rows, prog := x.prog, calProg := x.calProg }

/-- What SEC keeps at warm reset; FW_VERSION and FW_SVN read 0 until an image has authenticated again (spec/13 R392; spec/20 R571,
R573). -/
def warmSec (x : Sec) : Sec :=
  { x with
    fwVersion := 0, fwSvn := 0
    stage := 1, result := 0, warm := true, failA := 0, failB := 0, scriptOk := false, bootMs := 0, xfer := none, slotTry := 0
    rfPowered := false, reports := [], reportNext := 0, oemFrom := 0, hostFrom := 0 }

/-- What the log keeps at warm reset: everything but the settings of the buckets (spec/18 R537; spec/20 R571). -/
def warmAlog (a : Alog) : Alog :=
  resetBuckets true { a with dropRun := [0, 0, 0, 0, 0, 0, 0, 0], rateSel := 0, rateNext := [], pfWarned := false, emberRead := false }

/-- What the host interface keeps at warm reset: the link and its configuration (spec/14 R433). -/
def warmHif (x : Hif) : Hif := { x with capIen := false, capVector := 0 }

/-- The state after a warm reset, before the events of its last act (spec/20 R571). -/
def warmState (s : State) : State :=
  { ({} : State) with
    ident := s.ident, holds := { ({} : Holds) with thermal := s.holds.thermal }, cpx := warmCpx s, hif := warmHif s.hif, alog := warmAlog s.alog
    sys := { ({} : Sys) with snapSeq := s.sys.snapSeq, snapWindow := s.sys.snapWindow, snapDone := s.sys.snapDone }
    sec := warmSec s.sec, limits := keptLimits s.limits, thmPkg := s.thmPkg, pins := { ({} : Pins) with faultPulse := s.pins.faultPulse.map (· - s.tbu.clock) }
    hearths := s.hearths.map (warmHearth s.tbu.clock), free := s.free, pending := s.pending }

/-- A loop slot at a warm reset: a running relay test ends, and the slot is OPEN (spec/07 R229). -/
def warmSlot (h n : Nat) (s : State) : State :=
  setLoop h n 0 (if (loopAt s h n).state = 2 then dropTune h n 4 s else s)

/-- WARM_RESET: every TX is muted at once, every section is COLD and every loop slot OPEN, the package is in KINDLING at K1 (spec/01 R32, R37, R39; spec/07 R229;
spec/14 R433; spec/20 R571, R573). The replies of the tick that it ends come first (spec/13 R403). The orderly stop of THM goes on
(spec/19 R560). -/
def execWarmReset (s : State) : Out :=
  .next <|
    if s.warmDue && s.pkg != .doused && s.pkg != .kindling then
      let t := setPkg .kindling (writeDue s.tbu.tickLen (s.tbu.tick + 1) (nextTime s) s)
      let t := each (allSections t) (fun g => setSec g.1 g.2 .cold) t
      let t := dropStreams 3 t
      let t := each (hearthsOf t) (fun h => each (List.range 64) (warmSlot h)) t
      let t := each (hearthsOf t) clearMarks t
      let t := setHolds (fun x => { ({} : Holds) with thermal := x.thermal }) t
      thermalDrain (warmState t)
    else { s with warmDue := false }

/-- What the ember areas hold when a write or an erase is cut short: a header that fails its CRC (spec/18 R543). -/
def cutEmbers (s : State) : List Ember :=
  if s.alog.emberWriting || s.alog.erasing then
    s.alog.areas.modify (spareArea s) fun e => if s.alog.erasing && e == .erased then .erased else .corrupt
  else s.alog.areas

/-- What SEC keeps when RESET_N goes low: OTP, the flash and the straps, which the rise samples again (spec/20 R571). -/
def coldSec (x : Sec) : Sec :=
  { ({} : Sec) with
    bootSrc := x.bootSrc, refsel := x.refsel, rollback := x.rollback, oemKey := x.oemKey, hostKey := x.hostKey, keyProg := x.keyProg
    rollbackProg := x.rollbackProg, flash := x.flash, resetLow := true, powered := x.powered }

/-- RESET_N_LOW: low for at least 1 us. The log, the records and the configuration clear, and FAULT_N is released; DOUSED ignores it
(spec/01 R32, R33; spec/14 R433; spec/18 R537; spec/20 R571; spec/22 R620). -/
def execResetNLow (s : State) : Out :=
  .next <|
    if s.pkg = .doused then s
    else
      { ({} : State) with
        ident := s.ident, sec := coldSec s.sec, limits := keptLimits s.limits, alog := { ({} : Alog) with areas := cutEmbers s }
        cpx := { ({} : Cpx) with replies := s.cpx.replies, unlockFails := s.cpx.unlockFails, lockoutEnd := s.cpx.lockoutEnd.map (· - s.tbu.tick) }, free := s.free, pending := s.pending }

/-- RESET_N_RISE: the straps are sampled, Kindling starts at K0 and the link trains (spec/02 R40, R41; spec/14 R433, R434; spec/20 R569). -/
def execResetNRise (bootSrc : Nat) (refsel : Bool) (s : State) : Out :=
  .next <|
    if s.sec.resetLow then
      { s with pkg := .kindling, sec := { s.sec with bootSrc := bootSrc % 4, refsel := refsel, stage := 0, resetLow := false, powered := true }
               hif := { s.hif with training := true } }
    else s

/-- A row whose programming power has cut short: the steps before the one that was cut are whole, that one holds free bits of the intended
ones, and no later one has started (spec/11 R334). -/
def cutRow (x : FbRow) (g : FbProg) (f : List Word) : FbRow :=
  if g.revoke then { x with revoked := x.revoked || bitOf (wordAt f 0) 0 }
  else
    let ws := keptWords f g.words
    { x with words := ws, written := decide (ws = g.words) && bitOf (wordAt f 6) 0 }

/-- OTP and flash when power is lost: what is being programmed is left part-way, with free values (spec/11 R334, R343;
spec/20 R570, R585, R586, R589; log entry 65, DESIGN CHOICE). -/
def cutPrograms (s : State) : State :=
  let f := freeWords 16 s
  let ws := f.1
  let t := match s.limits.prog with
    | some g => modRow g.row (fun r => cutRow r g ws) f.2
    | none => f.2
  let t : State := match s.limits.calProg with
    | some g =>
      let v := freeWords g.words.length t
      let w := freeWords 1 v.2
      cutItem g v.1 (wordAt w.1 0) w.2
    | none => t
  let t := match s.sec.keyProg with
    | some (id, key) =>
      let left := if bitOf (wordAt ws 7) 0 then some key else none
      modBoot (fun x => { x with oemKey := if id = 0 then left else x.oemKey, hostKey := if id = 1 then left else x.hostKey }) t
    | none => t
  let t := match s.sec.rollbackProg with
    | some v => modBoot (fun x => { x with rollback := x.rollback + (wordAt ws 8).toNat % (v - x.rollback + 1) }) t
    | none => t
  match (heldFor s 0x0D0A 0).head? with
  | some c => spoilChunk c t
  | none => t

/-- POWER_LOSS: PWR_GOOD falls. Nothing survives that is not in OTP or flash; the next state of the package is KINDLING, at the
rise of RESET_N (spec/01 R32, R33; spec/20 R570). -/
def execPowerLoss (s : State) : Out :=
  .next <|
    let t := cutPrograms s
    { ({} : State) with
      ident := s.ident
      sec := { coldSec t.sec with bootSrc := 0, refsel := false, keyProg := none, rollbackProg := none, powered := false }
      limits := { keptLimits t.limits with prog := none, calProg := none }
      alog := { ({} : Alog) with areas := cutEmbers s }, cpx := { ({} : Cpx) with replies := s.cpx.replies }, free := t.free, pending := s.pending }

end Sys2Proof.Machine
end

