-- ==== Sys2Proof/Machine/Frames.lean ====
section
/-! DEFINITION. Machine/Frames.lean: the running frame boundary, with what the timebase, SPA, AIR and the flue group do at it,
and the end of an ember write with the orderly stop that waits for it (spec/02, spec/06, spec/10, spec/15, spec/19). -/

namespace Sys2Proof.Machine

/-- The frame tick that a tick captures (spec/02 R43, R47, R64): pattern watch of the frame that closed, the replies of the
selections that applied, and what the group does as a frame closes and opens (spec/10 R315; spec/15 R451, R453). -/
def captureFrame (closed opened : Bool) (clk time : Nat) (s : State) : State :=
  groupFrame closed opened (replySelections clk time (onlyIf closed (fun t => each (allSections t) (fun g => watchFrame g.1 g.2) t) s))

/-- FRAME_BOUNDARY at a DSP clock: the next running frame boundary lies there, in the running tick. At its DSP clock the frame changes, and with it
the banks, the gates and the duty counts; the next tick captures the frame tick (spec/02 R43, R47, R52, R55; spec/06 R171,
R176). In DOUSED only the frames go on (log entry 59, DEDUCED). -/
def execFrameBoundary (clk : Nat) (s : State) : Out :=
  .next <|
    if !s.sec.powered || s.sec.resetLow || clk != nextFrameClock s || decide (s.tbu.clock + s.tbu.tickLen ≤ clk) then s
    else
      let r := frameAdvance s
      if s.pkg = .doused then r.2
      else
        let t := modTbu (fun y => { y with endedInvalid := y.frameInvalidSeen, frameInvalidSeen := !y.frameValid }) r.2
        arriveInOrder (.frameTick r.1.1 r.1.2 clk t.tbu.frameTime) (restartDuty clk (followPatterns clk t))

/-- A scheduled action falls due at a DSP clock of the running tick; it acts on every hearth at once and frees its handle;
the next tick captures its event (spec/02 R43, R62; spec/06 R171). -/
def execScheduledAction (handle clk : Nat) (s : State) : Out :=
  .next <|
    match kget s.tbu.sched handle with
    | none => s
    | some a =>
      if !(inTick s clk && actionDue s a clk && actionFirst s handle clk) then s
      else
        let t :=
          if a.select then followPatterns clk (each (hearthsOf s) (fun h => each (maskBits 8 a.mask) fun n =>
            modPattern h n fun x => { x with activeB := maskHas a.banks n }) s)
          else grateReset 3 clk s
        note 0 0x0E20 [handle] (modTbu (fun x => { x with sched := kerase x.sched handle }) t)

/-- EMBER_WRITE_DONE: the set is written or has failed; step 3 of an orderly stop that waits for it follows
(spec/18 R542, R550; spec/19 R560). -/
def execEmberWriteDone (ok : Bool) (s : State) : Out :=
  .next <|
    if !s.alog.emberWriting then s
    else
      let t := emberWritten ok s
      if t.thmPkg.stop = 2 then powerDownRf t else t

end Sys2Proof.Machine
end

