-- ==== Sys2Proof/Machine/Tick.lean ====
section
/-! DEFINITION. Machine/Tick.lean: the control tick: what applies at the boundary that opens it, what that boundary puts in force
for it, its captures, its timers, the supervisors, the loop slots and the applied gains (spec/01 R24, R25, R37, R38; spec/02 R41 to
R46). -/

namespace Sys2Proof.Machine

/-! ### Phase 0: captures -/

/-- Saturations of a section at its RX filter or its gain stage; the event is written also while the counter stands at its maximum (spec/03
R94, R96; log entry 133, DESIGN CHOICE). -/
def countSat (gain : Bool) (g : Nat × Nat) (s : State) : State :=
  emit g.1 0x0212 [globalOf g.1 g.2, bitNat gain] (modSec g.1 g.2 (fun x => { x with
    satRx := if gain then x.satRx else incSat 16 x.satRx, satTx := if gain then incSat 16 x.satTx else x.satTx }) s)

/-- A TX sum in a tick: its saturation count, and the mean power that the AUTO rule follows, in ticks after the latest commit
(spec/03 R93, R96; spec/08 R251). -/
def captureSum (e : SumIn) (s : State) : State :=
  let t := modPort e.h e.c (fun p => { p with
    pkNow := if e.counted && decide (p.pkFrom < s.tbu.tick) then some (max e.level (p.pkNow.getD e.level)) else p.pkNow
    satSince := p.satSince || e.sat }) s
  if e.sat then
    emit e.h 0x0212 [255, 2, e.c] (modHearth e.h (fun x => { x with grt := { x.grt with txSat := x.grt.txSat.modify e.c (incSat 8) } }) t)
  else t

/-- The ADC overload detector: 4 or more codes at an end of the range within 128 consecutive ADC clocks of a tick; `ends` are the ADC
clocks of such codes (spec/08 R231). -/
def overloaded (ends : List Nat) : Bool :=
  ends.any fun a => decide (4 ≤ (ends.filter fun b => decide (a ≤ b) && decide (b < a + 128)).length)

/-- RX chains whose detector flags the tick (spec/08 R231). -/
def overloads (x : TickIn) : List (Nat × Nat) := (x.adc.filter fun e => overloaded e.2.2).map fun e => (e.1, e.2.1)

/-- A tick with ADC overload on an RX chain (spec/08 R231, R275). -/
def captureOverload (g : Nat × Nat) (s : State) : State :=
  let r := (hearthAt s g.1).rfc
  let quiet := match r.ovlTick.getD g.2 none with
    | none => true
    | some t => decide (t + 480 < s.tbu.tick)
  let t := modRfc g.1 (fun x => { x with ovl := x.ovl.modify g.2 (incSat 8), ovlTick := x.ovlTick.set g.2 (some s.tbu.tick) }) s
  if quiet then emit g.1 0x0714 [g.2] t else t

/-- A synthesiser that is calibrating enters SETTLE (spec/08 R236). -/
def captureSettle (g : Nat × Nat) (s : State) : State := if (synAt s g.1 g.2).state = 1 then setSyn g.1 g.2 2 s else s

/-- L_DL of PROX_SRC 1 at the end of a 480-tick window: the higher branch at the DRX pin. The windows end with the ticks whose number
480 divides, and a window without a valid sample leaves L_DL as it is (spec/06 R170; log entry 111, DESIGN CHOICE). -/
def captureDonor (h i : Nat) (s : State) : State :=
  if s.tbu.tick % 480 ≠ 0 then s
  else
    let x := secAt s h i
    let vs := [0, 1].filterMap fun k => if usesIdx x k then (meanIf (x.spa.dlSum.getD k (0, 0))).map fun v => satLog (v - rxgUsed x k) else none
    modSec h i (fun y => { y with spa := { y.spa with
      dlPower := if vs.isEmpty then y.spa.dlPower else some (maxLog vs), dlSum := [(0, 0), (0, 0)] } }) s

/-- What a split section was fed in a tick (spec/15 R471). -/
def captureFed (fed : List (Nat × Nat × Nat)) (h i : Nat) (s : State) : State :=
  modSec h i (fun x =>
    let f := ((fed.find? fun e => e.1 == h && e.2.1 == i).map fun e => e.2.2).getD 0
    let away := x.split.role == 0 || x.state == .cold
    { x with split := { x.split with
        starved := if away || f != 0 then 0 else min 480 (x.split.starved + 1)
        fed := if f = 2 then min 4800 (x.split.fed + 1) else 0 } }) s

/-- Ticks with a saturation of e_B (spec/04 R138). -/
def captureErrSat (h i : Nat) (s : State) : State :=
  modSec h i (fun x => if x.bdc.satNow.any id then { x with bdc := { x.bdc with esat := incSat 16 x.bdc.esat } } else x) s

/-- The captures of a section. -/
def captureSection (o : TickOut) (g : Nat × Nat) (s : State) : State :=
  captureErrSat g.1 g.2 (captureFed o.fed g.1 g.2 (captureDonor g.1 g.2 s))

/-- The set-point pins as the tick captures them (spec/07 R204). -/
def capturePins (x : TickIn) (s : State) : State :=
  captureSetpt { s with setpt := { s.setpt with aCode := x.setA.getD s.setpt.aCode % 4096, pin := x.setP.getD s.setpt.pin } }

/-- The measurements of the tick that has ended: what its samples gave, and what the analog world showed (spec/02 R42, R43). -/
def captureTick (x : TickIn) (o : TickOut) (s : State) : State :=
  let t := each o.satRx (countSat false) s
  let t := each o.satTx (countSat true) t
  let t := each o.sums captureSum t
  let t := each ((overloads x).filter fun g => present s g.1 && decide (g.2 < 4)) captureOverload t
  let t := each (x.settled.filter fun g => present s g.1) captureSettle t
  let t := each (x.gpio.filter fun g => present s g.1) (fun g => modFes g.1 fun f => { f with gpioIn := g.2 % 2 ^ 16 }) t
  powerFail (capturePins x (each (allSections s) (captureSection o) t))

/-- An arrival is captured (spec/02 R43). -/
def captureArrival (a : Arrival) (s : State) : State :=
  match a with
  | .note h code data => emit h code data s
  | .reset h src _ count blanked => emit h 0x0211 ([src] ++ bytesOf 2 count ++ [blanked]) s
  | .frameTick closed opened clk time => captureFrame closed opened clk time s
  | .align clk => align clk none s
  | .sourceLost => loseSource s
  | .mismatch h c => switchMismatch h c s
  | .dutyGate h i d count => dutyGate h i d count s
  | .quench reason detail h i => quench reason detail h i s
  | .squelch h i b => takeWindow h i b s
  | .spectrum h i k => captureSpectrum h i k s
  | .synLocked h n ns => synLocked h n ns s
  | .synFailed h n => synFailed h n s
  | .synLost h n => synLost h n s
  | .beacon b => takeBeacon b s
  | .groupReply member seq a => takeReply member seq a s
  | .ptpSync x => takeSync x s
  | .ptpMessage m => takeMessage m s
  | .alignment clk sfn => takeAlignment clk sfn s
  | .write w => captureWrite w s

/-- Everything that happened in the tick that has ended is captured, in the order in which it happened; then the alignment that AIR
has passed on (spec/02 R43, R55). -/
def captureArrivals (arrived : List Arrival) (s : State) : State :=
  let t := each arrived captureArrival s
  onlyIf (t.tbu.source == some 2) captureSource t

/-! ### Phase 1: timers -/

/-- Timers of a section (spec/03 R85; spec/06 R165, R179; spec/08 R240). -/
def sectionTimers (h i : Nat) (s : State) : State := retryDue h i (historyDue h i (endSubperiod h i (endBlank h i (synthWaitDue h i s))))

/-- Timers of a canceller path (spec/04 R114, R118; spec/05 R159). -/
def pathTimers (h n : Nat) (s : State) : State := staleDue h n (acquisitionDue h n (freezeDue h n s))

/-- Timers of a loop slot (spec/07 R203, R209, R212, R215). -/
def slotTimers (h n : Nat) (s : State) : State := externalRampEnd h n (tuneTimeout h n (lostHoldEnd h n (safeReached h n (endHandover h n s))))

/-- Timers of LCAL of a hearth: estimates that take too long, deltas that wait too long, and the turns of an ORX that nothing holds
(spec/09 R279, R280, R288). -/
def lcalTimers (h : Nat) (s : State) : State :=
  let t := each (List.range 10) (fun c u => each (List.range 9) (abandonDue h c) (withdrawDue h c u)) s
  onlyIf (s.pkg == .ember || s.pkg == .alight) (each [0, 1] (alternateDue h)) t

/-- Timers of a hearth. -/
def hearthTimers (h : Nat) (s : State) : State :=
  let t := each (List.range 4) (fun n u => trimDelayDue h n (tableDue h n u)) (captureExpiry h (shedDue h (limitsDue h s)))
  let t := each (enabledPaths s h) (pathTimers h) (lockWaiters h t)
  each (List.range 64) (slotTimers h) (each (List.range 8) (sectionTimers h) t)

/-- Phase 1: the timers act on what the tick has captured, before the supervisors decide (spec/02 R42, R44; log entry 68, DESIGN CHOICE). -/
def phaseTimers (s : State) : State :=
  let t := scriptWaitDue <| rowDue (endHoldover (lapseSource (closePpsWindow (groupTimers (lockoutDue (challengeDue (heartbeatDue s)))))))
  each (hearthsOf s) (fun h u => lcalTick h (lcalTimers h (hearthTimers h u))) (resumeDue (resumeTick t))

/-! ### Adaptation -/

/-- The tick of a hearth's paths that were enabled as it opened, from the sums of its samples; a path that rotates at the coming
boundary performs no update (spec/04 R111, R116, R123). -/
def adaptHearth (x : TickIn) (o : TickOut) (h : Nat) (turning : List Nat) (s : State) : State :=
  each ((enabledPaths s h).filter fun p => (pathAt s h p).run.on) (fun p t =>
    let sec := secAt s h (p / 8)
    let v := ((o.paths.find? fun e => e.1 == h && e.2.1 == p).map fun e => e.2.2).getD {}
    adaptPath h p (turning.contains p || sec.syncSettle || !transmitsNow sec) ((overloads x).contains (h, pathRx p)) v t) s

/-! ### Phase 2: supervisors -/

/-- The supervisors of a hearth: SPA, with what AIR passes to it, then DMP, then THM (spec/02 R42, spec/06 R162, spec/10 R316). -/
def superviseHearth (x : TickIn) (o : TickOut) (h : Nat) (s : State) : State :=
  let t := portPower o.tx h (each (List.range 8) (watchDue h) s)
  let t := each (List.range 8) (fun i u => squelchTick h i (networkCeil h i u)) t
  let t := each (List.range 8) (dmpTick h) t
  portTick ((x.vdda.find? fun e => e.1 == h).map (·.2)) h (derateTick h t)

/-! ### Phase 3: the loop slots -/

/-- C_spa of a section's direction and branch. -/
def spaCeil (s : State) (h i k : Nat) : LogQ := (secAt s h i).spa.ceil.getD k logMax

/-- C of R197: the lowest current ceiling of a gain slot. -/
def gainCeil (s : State) (h i k : Nat) : LogQ :=
  min (min (thermalLimit s h i k) (dirOf s h i (k / 2)).ceil) (min (spaCeil s h i k) (fbCeil s h i k))

/-- The conditions of R198 other than freshness and SYNC_SETTLE, for a slot bound to a section's direction and branch. -/
def execBlocked (s : State) (h i k : Nat) : Bool :=
  let x := secAt s h i
  !transmits x.state || x.downRamp.isSome || (dirOf s h i (k / 2)).test.isSome
    || (decide (2 ≤ k) && x.spa.squelched.getD (k - 2) false)

/-- What an execution reads (spec/07 R191, R197, R198). -/
def execIn (s : State) (h n : Nat) : ExecIn :=
  let x := loopAt s h n
  let raw := measure s h n
  match x.bound with
  | some (i, k) =>
    let y := secAt s h i
    { raw := raw, ceil := gainCeil s h i k, inForce := y.applied.getD k logMin, blocked := y.execHeld.getD k true || y.syncSettle
      ramping := x.ramping && y.stateRun == .ramping, aged := decide (4800 ≤ y.rampTicks) }
  | none => { raw := if followsOut x && (meanIf x.inSum).isNone then none else raw, inForce := min x.u x.cfg.outMax }

/-- The slot as it stands before its execution: the latest SEC_IN for the model, and SEC_OUT as the set-point of R250. -/
def prepareSlot (s : State) (h : Nat) (x : Loop) : Loop :=
  let g := measOf x
  match meanIf x.inSum with
  | none => x
  | some v =>
    if x.bound.isSome then { x with secIn := some (sat16 (v - rxgUsed (secAt s h g.1) g.2)) }
    else if followsOut x && x.mode == 0 then { x with spEff := acc (sat16 (v + (portAt s h g.2).fsDbm)) }
    else x

/-- An execution of a CLOSED slot. A slot of R250 keeps SP_TGT, RAMP_RATE and RAMP_SPAN out of it. -/
def closedExec (p : Setpt) (e : ExecIn) (x : Loop) : Nat × Loop :=
  if followsOut x && x.mode == 0 then
    let r := runClosed p e { x with spTgt := round16 x.spEff, cfg := { x.cfg with rampRate := 0 } }
    (r.1, { r.2 with spTgt := x.spTgt, cfg := x.cfg })
  else runClosed p e x

/-- What a slot puts on its actuator (spec/07 R197; spec/08 R249, R256). -/
def driveSlot (h n : Nat) (s : State) : State :=
  let x := loopAt s h n
  let v := min x.u x.cfg.outMax
  if x.cfg.act = 2 then
    modPort h (x.cfg.actIdx % 4) (fun p =>
      let since := if v = p.trim then none else some (p.trimSince.getD (s.tbu.tick + 1))
      { p with trimWant := v, trimSince := since
               trimDue := decide (16 ≤ (v - p.trim).natAbs) || since.any (fun t => decide (t + 480 ≤ s.tbu.tick + 1)) }) s
  else if x.cfg.act = 3 then setActuator h (x.cfg.actIdx % 16) (patternOf 16 v) s
  else s

/-- A relay test cannot go on: its execution is held, a ceiling acts on the output, or its section has left LIVE and DAMPED
(spec/07 R215; log entry 66, DEDUCED). -/
def tuneStopped (s : State) (h : Nat) (e : ExecIn) (x : Loop) : Bool :=
  let needs := x.mode == 0 || x.mode == 3 || x.mode == 4
  e.blocked || x.mf.isNone || (needs && e.raw.isNone) || (x.bound.isSome && decide (min x.cfg.outMax e.ceil < x.u))
    || x.bound.any fun b => (secAt s h b.1).state != .live && (secAt s h b.1).state != .damped

/-- An execution of a slot in TUNING (spec/07 R214, R215). -/
def tuneExec (h n : Nat) (e : ExecIn) (s : State) : State :=
  let x := loopAt s h n
  match x.tune with
  | none => s
  | some t =>
    let y := runTune e x t
    if tuneStopped s h e y then endTune h n 4 x.cfg (modLoop h n (fun _ => y) s)
    else match y.tune with
      | some r => if 7 ≤ r.ups.length then tuneDone h n r (modLoop h n (fun _ => y) s) else modLoop h n (fun _ => y) s
      | none => modLoop h n (fun _ => y) s

/-- What every execution leaves on a slot: whether its measurement was fresh, its tick, and whether R198 held it, which acts on no LOST
slot (spec/07 R198, R212, R227). -/
def noteExec (tick : Nat) (e : ExecIn) (y : Loop) : Loop :=
  { y with measValid := e.raw.isSome, execTick := tick, heldExec := y.state != 3 && heldBy e y }

/-- The same with ramp-done (spec/07 R203, R227). -/
def markExec (tick : Nat) (e : ExecIn) (ramping : Bool) (y : Loop) : Loop :=
  { noteExec tick e y with rampDone := ramping && rampDoneOf e y }

/-- The law of a slot's state in one execution (spec/07 R197 to R216). -/
def lawOf (h n : Nat) (e : ExecIn) (s : State) : State :=
  let x := loopAt s h n
  let mark := markExec s.tbu.tick e x.ramping
  if x.state = 0 then modLoop h n (fun _ => mark (runOpen e x)) s
  else if x.state = 1 then
    let start (u : State) : State :=
      if x.handStart then
        emit h 0x0612 ([n, (loopAt s h n).handOld, x.mode] ++ bytesOf 2 (if x.handOpen then x.openOut else round16 x.z)) u
      else u
    let r := closedExec s.setpt e x
    let t := start (modLoop h n (fun _ => mark { r.2 with extInvalid := x.mode == 4 && !pinValid s.setpt x }) s)
    if r.1 = 0 then t else loseSlot h n r.1 t
  else if x.state = 2 then modLoop h n (noteExec s.tbu.tick e) (tuneExec h n e s)
  else
    let y := runLost e (updateMf e x)
    let safe := y.lostRamp && !y.safeDone && y.u == y.cfg.safe
    modLoop h n (fun _ => mark { y with safeDone := y.safeDone || safe, atSafe := safe }) s

/-- One execution of a slot (spec/07 R191 to R216). -/
def runSlot (h n : Nat) (s : State) : State :=
  let e := execIn s h n
  let t := lawOf h n e (modLoop h n (fun x => prepareSlot s h (beginExec x)) s)
  driveSlot h n (modLoop h n endExec t)

/-- Whether a slot executes in a tick (spec/07 R193). -/
def executes (tick : Nat) (c : LoopCfg) : Bool := tick % 2 ^ c.k == c.phase

/-- The slots of a hearth in ascending number (spec/07 R189). -/
def runSlots (h : Nat) (s : State) : State :=
  each (List.range 64) (fun n t => if executes s.tbu.tick (loopAt t h n).cfg then runSlot h n t else t) s

/-- The slots of a section that enters RAMPING at the coming boundary stand there as R203 starts them: the executions of the running tick
come before it (spec/07 R203). -/
def restartSlots (g : Nat × Nat) (s : State) : State :=
  let x := secAt s g.1 g.2
  onlyIf (x.state == .ramping && x.stateRun != .ramping) (startSlots g.1 g.2) s

/-! ### The applied gains -/

/-- The terms of R24 for a direction and branch. -/
structure GainTerms where
  request : LogQ
  thm : LogQ
  dmp : LogQ
  spa : LogQ
  fb : LogQ
  deriving DecidableEq, Repr

/-- The terms of R24 for a section that transmits in the running tick; none for a direction and branch that it does not send
(spec/15 R467). -/
def gainTerms (s : State) (h i k : Nat) : Option GainTerms :=
  if sendsIdx (secAt s h i) k then
    (slotFor s h i k).map fun n =>
      let x := loopAt s h n
      { request := min x.u x.cfg.outMax, thm := thermalLimit s h i k, dmp := (dirOf s h i (k / 2)).ceil, spa := spaCeil s h i k
        fb := fbCeil s h i k }
  else none

/-- The applied gain of R24. -/
def appliedOf (g : GainTerms) : LogQ := min g.request (min (min g.thm g.dmp) (min g.spa g.fb))

/-- held of R24. -/
def heldOf24 (g : GainTerms) : Bool := decide (min g.thm (min g.dmp g.spa) ≤ g.request - 128)

/-- FB_CLIP of R24. -/
def clipOf (g : GainTerms) : Bool := decide (g.fb < g.request)

/-- Whether a term is the lowest of the three that held compares (spec/01 R25). -/
def lowestTerm (g : GainTerms) (v : LogQ) : Bool := decide (v ≤ g.thm ∧ v ≤ g.dmp ∧ v ≤ g.spa)

/-- The events of a direction and branch whose held becomes true (spec/05 R160, spec/06 R188). -/
def dampingEvents (h i k : Nat) (g : GainTerms) (s : State) : State :=
  let head := [globalOf h i, k]
  let sp := (secAt s h i).spa
  let t := if lowestTerm g g.dmp then
    emit h 0x0413 (head ++ bytesOf 2 g.dmp ++ bytesOf 2 g.request ++ [(dirOf s h i (k / 2)).cause]) s else s
  let signal (u : State) : State := onlyIf (lowestTerm g g.dmp || lowestTerm g g.spa) (signalVf (tenantOf s h i) 2) u
  let t := if lowestTerm g g.spa then
    emit h 0x0514 (head ++ bytesOf 2 g.spa ++ bytesOf 2 g.request ++ [if 2 ≤ k ∧ sp.proxCeil ≤ sp.cPwr.getD k logMax then 0 else 1]) t
  else t
  signal t

/-- Applied gain, held and FB_CLIP of a section, staged for the next boundary, of one that transmits in the running tick though a
supervisor may have stopped it (spec/01 R24, R25; spec/05 R149). SPA compares each staged gain with C_fb (spec/06 R174). -/
def applySection (h i : Nat) (s : State) : State :=
  let x := secAt s h i
  let terms := (List.range 4).map fun k => if transmitsNow x then gainTerms s h i k else none
  let one (k : Nat) : LogQ := ((terms.getD k none).map fun g => satLog (appliedOf g - ditherOf s h i k)).getD logMin
  let t := modSec h i (fun y => { y with next := {
    applied := (List.range 4).map one, held := terms.map fun g => g.any heldOf24, fbClip := terms.map fun g => g.any clipOf
    request := terms.map fun g => (g.map (·.request)).getD logMin } }) s
  let t := each (List.range 4) (fun k u => match terms.getD k none with
    | some g => if heldOf24 g && !x.held.getD k false && !x.next.held.getD k false then dampingEvents h i k g u else u
    | none => u) t
  if (List.range 4).any fun k => (terms.getD k none).any fun g => decide (g.fb < one k) then quench 4 2 h i (raiseSource h 258 t) else t

/-! ### What counts ticks -/

/-- Counters of a section that step once per tick (spec/06 R165, R179; spec/07 R203). -/
def countSection (h i : Nat) (s : State) : State :=
  modSec h i (fun x =>
    let on := transmitsNow x
    let sp := x.spa
    { x with
      rampTicks := if x.state = .ramping ∧ on = true then min 4800 (x.rampTicks + 1) else x.rampTicks
      spa := { sp with
        txTicks := if on then min ticksPerSecond (sp.txTicks + 1) else sp.txTicks
        subTick := if on then min 32767 (sp.subTick + 1) else sp.subTick
        okTicks := if x.state = .live ∨ x.state = .damped then min latchWindow (sp.okTicks + 1) else 0 } }) s

/-! ### Phase 4: the boundary -/

/-- LIVE and DAMPED of a section after the quenches, holds and commands of the tick, by what its gains hold from the boundary on
(spec/01 R37, R38). -/
def dampSection (h i : Nat) (s : State) : State :=
  let x := secAt s h i
  let any := x.next.held.any id
  let t := modSec h i (fun y => { y with heldFalse := if y.state = .damped ∧ any = false then min 480 (y.heldFalse + 1) else 0 }) s
  if x.state = .live ∧ any = true ∧ x.downRamp = none then setSec h i .damped t else t

/-- The state of a section at the boundary: its SECTION_START, the DAMPED and LIVE evaluation, the end of its soft start, its resumption, and the end of
its down-ramp (spec/01 R36 to R38; spec/07 R203). -/
def closeSection (h i : Nat) (s : State) : State :=
  downRampTick h i (resumeSection h i (endRamp h i (undamp h i (dampSection h i (closeStart h i s)))))

/-- What the running tick has staged for a section applies (spec/01 R24, R25). -/
def promote (x : Section) : Section :=
  let on := transmits x.state
  { x with
    applied := x.next.applied, request := x.next.request, held := x.next.held.map (on && ·), fbClip := x.next.fbClip.map (on && ·)
    next := {} }

/-- The gate of a QUENCHED section closes at the end of its mute ramp (spec/06 R177). -/
def endMuteRamp (h i : Nat) (s : State) : State :=
  let sp := (secAt s h i).spa
  if sp.muteRamp && decide (sp.muteTick ≤ s.tbu.tick) then
    updateGates (s.tbu.clock + s.tbu.tickLen) h i (modSec h i (fun x => { x with spa := { x.spa with muteRamp := false, quenchGate := true } }) s)
  else s

/-- A quench applies: its event, and for a contradicted pattern the results of pattern watch are cleared (spec/06 R178, R188;
spec/10 R316). -/
def noteQuench (h i : Nat) (s : State) : State :=
  let sp := (secAt s h i).spa
  match sp.quenchNote with
  | some delay =>
    emitVf 1 h i 0x0510 ([globalOf h i, sp.reason, sp.detail, sp.reasons, sp.qSeq] ++ bytesOf 4 delay)
      (modSec h i (fun x => { x with
        spa := { x.spa with quenchNote := none }, air := if sp.reasons / 4 % 2 = 1 then { x.air with results := [] } else x.air }) s)
  | none => s

/-- Renormalisation, the end of relocation copies, TAP_SAT, and the copy of a staged snapshot, after the tick's updates and rotations
(spec/04 R106, R107, R125, R126). -/
def closePaths (h : Nat) (s : State) : State :=
  let t := each (enabledPaths s h) (fun p u => countTapSat h p (modPath h p (fun x =>
    let y := renorm x
    match y.moveTo with
    | some b => { y with base := b, moveTo := none }
    | none => y) u)) s
  modBdc h (fun b => match b.stage with
    | some g => if !g.restore && g.tick == s.tbu.tick + 1 then
        { b with stage := some { g with items := g.items.map fun e => (e.1, e.2.1, snapshotOf t h e.1) } } else b
    | none => b) t

/-- Phase 4 of the running tick on a hearth: what applies at the boundary that opens the next tick, in the order of R125 for the paths
(spec/02 R42; spec/04 R119, R125; spec/07 R212; spec/08 R243). -/
def closeHearth (x : TickIn) (o : TickOut) (h : Nat) (ds : List Decision) (s : State) : State :=
  let t := adaptHearth x o h (rotatingPaths s h ds) (applyRestore h s)
  let t := each (enabledPaths t h) (publishDue h) t
  let marks := windowMarks s h
  let t := each (List.range 10) (lcalSamples (fun n => (overloads x).contains (h, n)) marks h) t
  let t := closePaths h (commitHearth h ds t)
  let t := each (List.range 64) (applyLost h) t
  let t := each (List.range 8) (fun i u => modSec h i promote (closeSection h i u)) t
  each (List.range 8) (fun i u => endMuteRamp h i (noteQuench h i u)) (refreshDg h (refreshGains h t))

/-- Sections that leave LIVE and DAMPED during a probe window report no sent entry for it (spec/15 R475). -/
def keepProbes (s : State) : State :=
  let on := (allSections s).filterMap fun g =>
    if (secAt s g.1 g.2).state = .live ∨ (secAt s g.1 g.2).state = .damped then some (globalOf g.1 g.2) else none
  { s with flu := { s.flu with windows := s.flu.windows.map fun w =>
      if w.running then { w with stayed := w.stayed.filter fun g => on.contains g } else w } }

/-- Windows of a section's squelch and detectors that end with the running tick (spec/05 R146; spec/06 R164). -/
def endWindows (g : Nat × Nat) (s : State) : State :=
  let t := each (List.range 2) (fun b u => windowDue g.1 g.2 b ((secAt u g.1 g.2).spa.sqTick.getD b 0) u) s
  each (List.range 4) (fun k u => lineDue g.1 g.2 (k / 2) (k % 2) (brOf u g.1 g.2 k).winTick u.tbu.tick u) t

/-- What ends within the running tick by its DSP clock, with no row of its own: the edges of PPS_OUT and the windows of the sections
(spec/02 R59; spec/05 R146; spec/06 R164). -/
def endSpans (s : State) : State := each (allSections s) endWindows (ppsEdge true (ppsEdge false s))

/-- What ends at a DSP clock of the tick that closes: the time of an RFFE read, the BND operations of a STEP sequence, the mute of a block
reset, and a FAULT_N pulse (spec/08 R258, R261; spec/17 R512, R514). -/
def clockEnds (s : State) : State :=
  each (hearthsOf s) (fun h u => releaseDue h (each (List.range 4) (stepEndDue h) (readTimeDue h u))) (pulseDue s)

/-- The streams and the probe windows whose start time lies in the closing tick (spec/14 R425; spec/15 R475). -/
def clockStarts (s : State) : State :=
  each (allSections s) (fun g u => startDue g.1 g.2 1 (startDue g.1 g.2 0 u)) (each (List.range s.flu.windows.length) windowStartDue s)

/-- The end of the running tick: its samples run with what was in force as it opened, what waits for the sections to stop goes on, and
everything that the tick has staged applies at the boundary, the package state with it (spec/01 R32, R34; spec/02 R42; spec/03 R74;
spec/04 R125). -/
def closeTick (x : TickIn) (s : State) : TickOut × State :=
  let r := runSamples x.samples (clockStarts s)
  let t := clockEnds (endSpans (each (hearthsOf r.2) runTddLines (drain r.2)))
  let ds := (hearthsOf t).map fun h => (h, decisions t h)
  (r.1, showPkg (keepProbes (each ds (fun d u => closeHearth x r.1 d.1 d.2 u) t)))

/-- The next tick opens (spec/02 R41, R57, R60, R66): the tick counter, the DSP clock and device time advance, and device time is
latched; the capture limits of R366 and the heartbeat and refill counters step. -/
def openTick (s : State) : State :=
  let t := modTbu (fun x => { x with
    tick := x.tick + 1, clock := x.clock + x.tickLen, time := boundaryTime s, openAt := boundaryTime s, tickLen := 2048
    timeSetNext := none, timeStatus := if x.timeSetNext.isSome then 1 else x.timeStatus
    stepClock := if x.timeSetNext.isSome then x.clock + x.tickLen else x.stepClock }) s
  let t := modCpx (fun c => { c with
    capTotal := 0, capBy := [], capRank := 0, resetTaken := false, queues := c.queues.map fun q => { q with sqSeen := q.sqTail } }) t
  modSys (fun y => { y with hbPhase := if y.hbCount = 0 then 0 else min 511 (y.hbPhase + 1) }) t

/-- What the boundary leaves in force for the tick that it opens: the section's definition, with empty histories where that is new,
its output, its gains, its squelch and its gates (spec/01 R24; spec/03 R73, R77; spec/06 R166, R171, R177, R186). -/
def armSection (s : State) (h i : Nat) (x : Section) : Section :=
  let sp := x.spa
  let changed := x.defRun != x.defn
  let quiet := x.sqRun.all (· == 0)
  { x with
    stateRun := x.state, execHeld := (List.range 4).map (execBlocked s h i), ncoRun := x.ncoStart
    defRun := x.defn, runs := transmits x.state || sp.muteRamp, fading := sp.muteRamp && sp.muteTick == s.tbu.tick
    dgRun := x.dg, sqRun := sp.sqAtt, sqFade := quiet && sp.sqAtt.any (· != 0)
    rx := if changed then List.replicate 8 {} else x.rx, tx := if changed then List.replicate 4 {} else x.tx
    spa := { sp with gateShown := sp.gateOpen, gateRun := (List.range 4).map (gateCore s h i) } }

/-- The multipliers of a hearth's ports for the tick that opens, their DAC_BO, the measurement channels of its slots, and the ports that its
ORX observe (spec/03 R83, R93; spec/08 R233, R248; spec/09 R280). -/
def armHearth (s : State) (h : Nat) : State → State :=
  modHearth h fun x => { x with
    ports := x.ports.map fun p => { p with multRun := multOf p }
    grt := { x.grt with meas := x.grt.meas.map (followSlot s h), dacBo := x.ports.map fun p => dacBoAt p p.step }
    rfc := { x.rfc with
      orxRun := x.rfc.orxTo
      orxSince := x.rfc.orxSince.mapIdx fun o c => if x.rfc.orxTo.getD o 0 = x.rfc.orxRun.getD o 0 then c else s.tbu.clock } }

/-- Puts in force what governs the sections, the ports, the measurement channels and the paths in the tick that has opened (spec/04 R117, R125). -/
def armTick (s : State) : State :=
  let t := each (allSections s) (fun g => modSec g.1 g.2 (armSection s g.1 g.2)) s
  each (hearthsOf s) (fun h u => armPaths h (armHearth u h u)) t

/-- Phases 0 to 3 of the tick that has opened (spec/02 R42, R43). -/
def workTick (x : TickIn) (o : TickOut) (s : State) : State :=
  let arrived := s.arrivals
  let t := grateBoundary { orderlyReset s with arrivals := [] }
  let t := each (hearthsOf t) fesTick (phaseTimers (captureArrivals arrived (modAlog countBuckets (captureTick x o t))))
  let t := each (hearthsOf s) (superviseHearth x o) t
  let t := each (allSections s) restartSlots (each (hearthsOf s) runSlots t)
  let t := each (allSections s) (fun g u => countSection g.1 g.2 (applySection g.1 g.2 u)) t
  each (hearthsOf s) (fun h => each (List.range 4) (evaluatePort h)) t

/-- What the tick before has captured of configuration and applies at the boundary: register writes, the classes and reactions of
FCOL_SOURCE_CONFIG and the buckets of ALOG_RATE_CONFIG (spec/17 R524; spec/18 R547; spec/21 R603). -/
def applyConfigs (s : State) : State :=
  let t := each (hearthsOf s) (fun h => modFcol h fun x => { x with cfg := x.cfgNext.getD x.cfg, cfgNext := none }) (applyWrites s)
  each t.alog.rateNext (fun e => applyRate e.1 e.2.1 e.2.2) (modAlog (fun a => { a with rateNext := [] }) t)

/-- The writes among the arrivals are captured in DOUSED too (spec/14 R433; spec/21 R603). -/
def captureWrites (s : State) : State :=
  each s.arrivals (fun a t => match a with
    | .write w => captureWrite w t
    | _ => t) { s with arrivals := s.arrivals.filter fun a => match a with
    | .write _ => false
    | _ => true }

/-- The boundary: the next tick opens, the registers show what holds from it on, the wide values are copied, and it writes the replies of
the tick that it closes (spec/02 R41, R60; spec/12 R367; spec/21 R608). -/
def passBoundary (s : State) : State :=
  let t := snapDue (latchWords (armTick (applyConfigs (openTick s))))
  writeDue 0 t.tbu.tick (openTime t) t

/-- CONTROL_TICK: the running tick ends, the boundary opens the next, and that tick captures what its predecessor measured,
decides and computes; the rows that follow are captured in it and apply with its results at its end (spec/02 R41 to R46;
log entry 68, DESIGN CHOICE). In DOUSED only time goes on, and replies are written (spec/12 R369; log entry 59, DEDUCED). -/
def execControlTick (x : TickIn) (s : State) : Out :=
  .next <|
    if !s.sec.powered || s.sec.resetLow then s
    else if s.pkg = .doused then
      let t := applyConfigs (openTick s)
      captureWrites (writeDue 0 t.tbu.tick (openTime t) t)
    else
      let r := closeTick x s
      workTick x r.1 (passBoundary r.2)

end Sys2Proof.Machine
end

