-- ==== Sys2Proof/Machine/Errors.lean ====
section
/-! DEFINITION. Machine/Errors.lean: the device actions of the fault sources that no other row raises (spec/04 R139, spec/05
R159, spec/06 R187, spec/08 R274, spec/09 R297, spec/10 R326, spec/12 R374, spec/15 R489, spec/16 R507, spec/17 R532, spec/18
R550, spec/19 R566). The operand `data` says where in the block the error lies (log entry 5, DESIGN CHOICE). -/

namespace Sys2Proof.Machine

/-- Sources that the rows of their own conditions raise: the link, DMA, staging and DRAM events, the synthesisers, the flue ports, the trip, and the checks of boot, OTP and flash. -/
def ownRow (n : Nat) : Bool :=
  [0, 2, 3, 12, 14, 226, 259, 416, 417, 419, 421, 422, 424, 464, 465, 480, 481, 482, 483, 484, 485, 488, 505, 506].contains n
    || decide (32 ≤ n ∧ n ≤ 37) || decide (64 ≤ n ∧ n ≤ 71)

/-- Sources that a chapter assigns (spec/17 R509). -/
def assigned (n : Nat) : Bool := decide (n ≤ 14) || fatalSources.contains n || lockedSources.contains n || plainSources.contains n
    || blockSources.contains n || irqSource n || n == 464 || n == 465

/-- Ends a held command as on ABORTED, with the reply INTERNAL (spec/12 R374; log entry 56, DEDUCED). -/
def failHeld (c : Held) (s : State) : State := endHeld c .internal [] (abortEffect c s)

/-- Commands that a core was executing reply INTERNAL: of the replies that are due, those at the places that a mask names, counted on from
the held commands (spec/12 R374). -/
def failDue (mask : Nat) (s : State) : State :=
  let n := s.cpx.held.length
  let fails (e : Due × Nat) : Due := if maskHas mask (n + e.2) then { e.1 with status := .internal, words := [] } else e.1
  modCpx (fun c => { c with due := c.due.zipIdx.map fails }) s

/-- The held commands at the places that a mask names. -/
def heldAt (s : State) (mask : Nat) : List Held :=
  (s.cpx.held.zipIdx.filter fun e => maskHas mask e.2).map (·.1)

/-- The extensions of a path's taps become 0; the mantissas stay (spec/04 R106, R139). -/
def dropExtensions (x : Path) : Path :=
  let cut (v : Int) : Int := 65536 * clampInt (-32768) 32767 (roundDiv v 65536)
  { x with taps := x.taps.map fun t => { i := cut t.i, q := cut t.q } }

/-- Device actions in SPA; the quenches are decided in the tick that captures the error (spec/02 R43; spec/06 R187). -/
def arrestorError (h n data : Nat) (s : State) : State :=
  let all (u : State) : State := each (List.range 8) (fun i => arrive (.quench 4 4 h i)) u
  if n = 256 then all (each (List.range 8) (fun i => modSpa h i resetSpa) (muteHearth h s))
  else if n = 257 then
    let i := data % 8
    updateGates s.tbu.clock h i (shutGate s.tbu.clock h i (arrive (.quench 4 3 h i) s))
  else if n = 258 then arrive (.quench 4 2 h (data % 8)) s
  else all (modHearth h (fun x => { x with fbCopyBad := true, fbCopyBy := s.tbu.tick + 64 }) s)

/-- Device actions in BDC (spec/04 R139). -/
def cancellerError (h n data : Nat) (s : State) : State :=
  if n = 193 then resetTaps h (data % 64) s
  else if n = 194 then modPath h (data % 64) dropExtensions s
  else if n = 195 then failRestore h s
  else if n = 196 then resetBdc h (muteHearth h s)
  else s

/-- Device actions in RFC and FES (spec/08 R274; log entry 57, DEDUCED). -/
def radioError (h n data : Nat) (s : State) : State :=
  if n = 72 then
    let t := resetRfc h (muteHearth h s)
    let t := each ((List.range 4).filter fun k => (synAt s h k).state != 0 && (synAt s h k).state != 4) (repeatSyn h) t
    hearthGates h (resetAllTaps h t)
  else if n ≤ 76 then
    let c := n - 73
    let t := modPort h c (fun x => { x with tableValid := false, written := [], eccReload := some (s.tbu.tick + 480) }) s
    refreshPort h (each (portUsers s h c) (fun i => arrive (.quench 4 4 h i)) t)
  else if n = 77 then modFes h (fun f => { f with map := kerase f.map data }) s
  else modPort h (data % 4) (fun x => { x with change := x.change.map fun c => { c with issued := some (s.tbu.clock + s.tbu.tickLen + 1) } }) s

/-- Device actions in LCAL: `data` holds the chain in bits 3:0, the item in bits 7:4 and the correction asked for above
(spec/09 R297). -/
def calibrationError (h n data : Nat) (s : State) : State :=
  let c := data % 16
  let item := data / 16 % 16
  if n = 128 then
    modLcal h c (fun x => { x with est := x.est.map fun e => if e.1 = item then (item, { e.2 with win := 0, got := 0 }) else e }) s
  else if n = 129 then
    if c < 10 ∧ item < 9 then
      emit h 0x0814 ([c, item] ++ bytesOf 4 (data / 256)) (modLcal h c (fun x => { x with stopped := x.stopped ||| 2 ^ item }) (abortEst h c item s))
    else s
  else if n = 130 then
    if c < 10 then
      let users := (List.range 8).filter fun i => (idxOf (secAt s h i)).any fun k =>
        k == c % 4 && decide (c < 8) || (decide (8 ≤ c) && k == c - 8 + 2 * (hearthAt s h).rfc.orxTo.getD (c - 8) 0)
      reloadChain h c (each users (muteSection s.tbu.clock h) s)
    else s
  else if n = 131 then modLcalH h (fun x => { x with detStop := true }) s
  else if n = 132 then resetChainTaps h c s
  else s

/-- Device actions in AIR (spec/10 R326). -/
def airError (h n data : Nat) (s : State) : State :=
  if n = 384 then modAir h (fun a => { a with visitBad := true }) s
  else if n = 385 then
    let t := modAir h (fun a => { a with cells := kerase a.cells (data % 1024) }) s
    let was := kget (hearthAt s h).air.cells (data % 1024)
    let source := s.tbu.source == some 2 && was.isSome && namedCell s h == was
    retrack h (if source then loseSource t else t)
  else if n = 386 then modAirSec h (data % 8) (fun a => { a with skip := true }) s
  else s

/-! ### Uncorrectable reads of the external memory -/

/-- An equalisation buffer error: some of the samples that wait on a hearth, which only the device knows, are fed 0 (spec/15 R489; log
entry 6, DESIGN CHOICE). -/
def dropEq (h : Nat) (s : State) : State :=
  each (List.range 8) (fun i t =>
    let f := takeFree t
    if (secAt t h i).split.eq.isEmpty then t
    else modSec h i (fun x =>
      let n := x.split.eq.length
      let a := f.1.toNat % n
      { x with split := { x.split with eq := x.split.eq.take a ++ x.split.eq.drop (a + f.1.toNat / 2 ^ 128 % n + 1) } }) f.2) s

/-- A line of the stream staging is lost: an export block that waits there is dropped, or samples of an import block are fed as 0; the
stream and what is lost of it, which the spec's layout does not give, are free values (spec/14 R421, R422; spec/16 R496, R504; log entry 6,
DESIGN CHOICE). -/
def loseStaged (h : Nat) (s : State) : State :=
  let f := takeFree s
  let k := f.1.toNat % 16
  let x := streamAt f.2 h (k / 2) (k % 2)
  let a := f.1.toNat / 16
  if k % 2 = 0 then
    if x.staged.isEmpty then f.2
    else dropBlock h (k / 2) (modStream h (k / 2) 0 (fun y => { y with staged := y.staged.eraseIdx (a % x.staged.length) }) f.2)
  else
    let lo := a % (x.entries.length + 1)
    let n := a / 2 ^ 128 % (x.entries.length + 1)
    modStream h (k / 2) 1 (fun y => { y with entries := y.entries.zipIdx.map fun e =>
      if lo ≤ e.2 ∧ e.2 < lo + n then { e.1 with v := [(0, 0), (0, 0)] } else e.1 }) f.2

/-- What an uncorrectable read makes of its region, by the order of R496 (spec/16 R504): a restore is refused, a staged block is lost, equalisation samples are
fed 0, a group table is discarded, the mirror entry reads as an entry with code 0, and a capture notes it and loses the line (spec/14
R429; log entry 146, DESIGN CHOICE). -/
def uceEffect (h region address : Nat) (s : State) : State :=
  if region = 1 then raiseSource h 195 (failRestore h s)
  else if region = 2 then loseStaged h s
  else if region = 3 then dropEq h (raiseSource h 419 s)
  else if region = 4 then { s with flu := { s.flu with couplings := [] } }
  else if region = 5 then
    modAlog (fun a => { a with mirror := kset a.mirror ((address - 0x0D000000) / 32 % 16384) {} }) s
  else if region = 7 then
    modHearth h (fun x => if x.cap.state = 0 then x
      else { x with cap := { x.cap with dramErr := true, lost := Config.captureLine address :: x.cap.lost } }) s
  else s

/-- DRAM_UCE: a read of a line that the code cannot correct (spec/16 R500, R501, R504, R508). -/
def execDramUce (h region : Nat) (r : LineRead) (s : State) : Out :=
  .next <|
    if rankOk s h r.sub r.rank && regionOf (hearthAt s h).xmc h r.address == some region && lineUce (markOf s h r.sub r.rank) r.line then
      uceEffect h region r.address (noteUce h region r.address s)
    else s

/-- Device actions in the records of FCOL, ALOG and THM (spec/17 R532, spec/18 R550, spec/19 R566). -/
def recordError (h n data : Nat) (s : State) : State :=
  if n = 497 then
    -- the record that failed: 0 first fault, 1 secondary, 2 last fault
    modFcol h (fun x => { x with
      ffValid := false
      ff := if data % 4 = 0 then {} else x.ff
      prior := if data % 4 = 0 then none else x.prior
      sec := if data % 4 = 1 then [] else x.sec
      last := if data % 4 = 2 then {} else x.last }) s
  else if n = 498 then modFcol h (fun x => { x with cfg := kerase x.cfg (data % 512) }) s
  else if n = 504 then
    modAlog (fun a => match kget a.ring (data % 16384) with
      | some e => { a with ring := kset a.ring (data % 16384) { e with code := 0, data := [] } }
      | none => a) s
  else if n = 507 then modAlog (fun a => { a with buckets := kerase a.buckets (data % 65536) }) s
  else if 448 ≤ n ∧ n ≤ 463 then breakSensor h (n - 448) 2 s
  else trip h (data % 8) s

/-- CALC_CHECK of a slot: it is lost with U = u_good, and the gains that its section has staged follow (spec/07 R212, R228). -/
def failSlot (h n : Nat) (s : State) : State :=
  let t := loseSlot h n 3 s
  match (loopAt t h n).bound with
  | some b => applySection h b.1 t
  | none => t

/-- The device action of a source. -/
def deviceAction (h n data : Nat) (s : State) : State :=
  if 4 ≤ n ∧ n ≤ 7 then each (heldAt s data) failHeld (failDue data s)
  else if n = 8 then queueError (data % 64) 3 0 s
  else if n = 9 then queueError (data % 64) 4 0 s
  else if n = 10 then each ((s.cpx.held[data]?).toList) failHeld s
  else if n = 11 then each ((s.cpx.held[data]?).toList) (fun c t => endHeld c .internal [] t) s
  else if 72 ≤ n ∧ n ≤ 78 then radioError h n data s
  else if 128 ≤ n ∧ n ≤ 132 then calibrationError h n data s
  else if 192 ≤ n ∧ n ≤ 196 then cancellerError h n data s
  else if n = 224 ∨ n = 225 then resetDamper h (muteHearth h s)
  else if n = 256 ∨ n = 257 ∨ n = 258 ∨ n = 260 then arrestorError h n data s
  else if 320 ≤ n ∧ n ≤ 383 then (if (loopAt s h (n - 320)).state = 1 then failSlot h (n - 320) s else s)
  else if n = 384 ∨ n = 385 ∨ n = 386 then airError h n data s
  else if n = 420 then { s with arrivals := s.arrivals.filter fun a => match a with
    | .ptpSync x => x.port != 2 * h + data % 2
    | _ => true }
  else if n = 423 then (if s.flu.acting = 2 then standBy s else s)
  else if (448 ≤ n ∧ n ≤ 463) ∨ n = 466 ∨ n = 497 ∨ n = 498 ∨ n = 504 ∨ n = 507 then recordError h n data s
  else s

/-- ERROR_DETECTED: the block takes its device action and drives its pair. Sources that no chapter assigns are tied quiet,
and those of `ownRow` are raised by the rows that detect them (spec/01 R30, spec/17 R509, R510). Blocks of the package
report on hearth 0 (spec/01 R15, R16). -/
def execErrorDetected (h source data : Nat) (s : State) : Out :=
  .next <|
    let package := decide (source ≤ 3) || source == 8 || source == 9 || decide (480 ≤ source ∧ source ≤ 495) || decide (504 ≤ source)
    if !present s h || decide (512 ≤ source) || !assigned source || ownRow source || (package && h != 0) then s
    else
      let t := deviceAction h source data s
      -- a broken sensor, and the slot that it loses, are raised with the action
      if 448 ≤ source ∧ source ≤ 463 ∨ 320 ≤ source ∧ source ≤ 383 ∧ (loopAt s h (source - 320)).state = 1 then t
      else raiseSource h source t

end Sys2Proof.Machine
end

