-- ==== Sys2Proof/Machine/Dispatch.lean ====
section
/-! DEFINITION. Machine/Dispatch.lean: one arm for each command or event, a direct call of its meaning. -/

namespace Sys2Proof.Machine

def exec (i : Instr) (s : State) : Host.Outcome State Fault Refusal :=
  match i with
  | .resetNRise bootSrc refsel => Sys2Proof.Machine.execResetNRise bootSrc refsel s
  | .bootStageComplete b => Sys2Proof.Machine.execBootStageComplete b s
  | .kindlingComplete ms => Sys2Proof.Machine.execKindlingComplete ms s
  | .controlTick x => Sys2Proof.Machine.execControlTick x s
  | .sectionUndamp h k => Sys2Proof.Machine.execSectionUndamp h k s
  | .sectionRampDone h k => Sys2Proof.Machine.execSectionRampDone h k s
  | .downRampEnd h k => Sys2Proof.Machine.execDownRampEnd h k s
  | .sectionResume h k => Sys2Proof.Machine.execSectionResume h k s
  | .frameBoundary clk => Sys2Proof.Machine.execFrameBoundary clk s
  | .frameAlignment clk sfn => Sys2Proof.Machine.execFrameAlignment clk sfn s
  | .ppsInEdge clk => Sys2Proof.Machine.execPpsInEdge clk s
  | .syncNEdge clk => Sys2Proof.Machine.execSyncNEdge clk s
  | .grtBlankEnd h k => Sys2Proof.Machine.execGrtBlankEnd h k s
  | .scheduledAction handle clk => Sys2Proof.Machine.execScheduledAction handle clk s
  | .sectionDefine p => Sys2Proof.Machine.execSectionDefine p s
  | .sectionDelete p => Sys2Proof.Machine.execSectionDelete p s
  | .sectionQuery p => Sys2Proof.Machine.execSectionQuery p s
  | .sectionStart p => Sys2Proof.Machine.execSectionStart p s
  | .sectionStop p => Sys2Proof.Machine.execSectionStop p s
  | .grateSync p => Sys2Proof.Machine.execGrateSync p s
  | .bdcPathConfig p => Sys2Proof.Machine.execBdcPathConfig p s
  | .bdcPathQuery p => Sys2Proof.Machine.execBdcPathQuery p s
  | .bdcPathMode p => Sys2Proof.Machine.execBdcPathMode p s
  | .bdcTapReset p => Sys2Proof.Machine.execBdcTapReset p s
  | .bdcSnapshot p => Sys2Proof.Machine.execBdcSnapshot p s
  | .snapshotDramDone h k => Sys2Proof.Machine.execSnapshotDramDone h k s
  | .bdcRestore p => Sys2Proof.Machine.execBdcRestore p s
  | .restoreApply h k => Sys2Proof.Machine.execRestoreApply h k s
  | .bdcMeasPublish h n => Sys2Proof.Machine.execBdcMeasPublish h n s
  | .acquisitionEnd h n => Sys2Proof.Machine.execAcquisitionEnd h n s
  | .pathFreeze h n => Sys2Proof.Machine.execPathFreeze h n s
  | .bdcCompactionStep h => Sys2Proof.Machine.execBdcCompactionStep h s
  | .lineDetect h k d b first last => Sys2Proof.Machine.execLineDetect h k d b first last s
  | .toneTestHalfPeriod h k d => Sys2Proof.Machine.execToneTestHalfPeriod h k d s
  | .strangerMaskExpiry h k d b bin => Sys2Proof.Machine.execStrangerMaskExpiry h k d b bin s
  | .inputStale h n => Sys2Proof.Machine.execInputStale h n s
  | .squelchWindow h k b first => Sys2Proof.Machine.execSquelchWindow h k b first s
  | .uplinkIdle h k => Sys2Proof.Machine.execUplinkIdle h k s
  | .noiseFloorSubperiod h k => Sys2Proof.Machine.execNoiseFloorSubperiod h k s
  | .dutyLimitReached h k d => Sys2Proof.Machine.execDutyLimitReached h k d s
  | .switchMismatch h x => Sys2Proof.Machine.execSwitchMismatch h x s
  | .quenchRetry h k => Sys2Proof.Machine.execQuenchRetry h k s
  | .quenchHistoryReset h k => Sys2Proof.Machine.execQuenchHistoryReset h k s
  | .limitCopyReload h => Sys2Proof.Machine.execLimitCopyReload h s
  | .dmpConfig p => Sys2Proof.Machine.execDmpConfig p s
  | .dmpQuery p => Sys2Proof.Machine.execDmpQuery p s
  | .dmpStrangerClear p => Sys2Proof.Machine.execDmpStrangerClear p s
  | .dmpGroupCeil p => Sys2Proof.Machine.execDmpGroupCeil p s
  | .spaConfig p => Sys2Proof.Machine.execSpaConfig p s
  | .spaQuery p => Sys2Proof.Machine.execSpaQuery p s
  | .spaHistoryClear p => Sys2Proof.Machine.execSpaHistoryClear p s
  | .handoverEnd h n => Sys2Proof.Machine.execHandoverEnd h n s
  | .lostHoldExpiry h n => Sys2Proof.Machine.execLostHoldExpiry h n s
  | .tuneTimeout h n => Sys2Proof.Machine.execTuneTimeout h n s
  | .externalRampTimeout h n => Sys2Proof.Machine.execExternalRampTimeout h n s
  | .setptValidityChange pin x => Sys2Proof.Machine.execSetptValidityChange pin x s
  | .loopConfig p => Sys2Proof.Machine.execLoopConfig p s
  | .loopQuery p => Sys2Proof.Machine.execLoopQuery p s
  | .loopClose p => Sys2Proof.Machine.execLoopClose p s
  | .loopOpen p => Sys2Proof.Machine.execLoopOpen p s
  | .loopMode p => Sys2Proof.Machine.execLoopMode p s
  | .loopSetpoint p => Sys2Proof.Machine.execLoopSetpoint p s
  | .loopTune p => Sys2Proof.Machine.execLoopTune p s
  | .loopTable p => Sys2Proof.Machine.execLoopTable p s
  | .setptConfig p => Sys2Proof.Machine.execSetptConfig p s
  | .synLocked h n ns => Sys2Proof.Machine.execSynLocked h n ns s
  | .synAttemptFail h n => Sys2Proof.Machine.execSynAttemptFail h n s
  | .synLockLost h x => Sys2Proof.Machine.execSynLockLost h x s
  | .synthWaitExpiry h k => Sys2Proof.Machine.execSynthWaitExpiry h k s
  | .pmbusSupplyRead h n value => Sys2Proof.Machine.execPmbusSupplyRead h n value s
  | .portEvaluation h n => Sys2Proof.Machine.execPortEvaluation h n s
  | .trimDelayExpiry h n => Sys2Proof.Machine.execTrimDelayExpiry h n s
  | .actSequenceEnd h n => Sys2Proof.Machine.execActSequenceEnd h n s
  | .stepTableReload h n => Sys2Proof.Machine.execStepTableReload h n s
  | .radioConfig p => Sys2Proof.Machine.execRadioConfig p s
  | .pwrTableWrite p => Sys2Proof.Machine.execPwrTableWrite p s
  | .pwrPortConfig p => Sys2Proof.Machine.execPwrPortConfig p s
  | .fesConfig p => Sys2Proof.Machine.execFesConfig p s
  | .fesGpioConfig p => Sys2Proof.Machine.execFesGpioConfig p s
  | .fesSeqWrite p => Sys2Proof.Machine.execFesSeqWrite p s
  | .fesBusAccess p => Sys2Proof.Machine.execFesBusAccess p s
  | .busOperationDone h data clk => Sys2Proof.Machine.execBusOperationDone h data clk s
  | .rffeReadTimeout h => Sys2Proof.Machine.execRffeReadTimeout h s
  | .lcalEstimateStart h c item => Sys2Proof.Machine.execLcalEstimateStart h c item s
  | .lcalEstimateComplete h c item r => Sys2Proof.Machine.execLcalEstimateComplete h c item r s
  | .lcalEstimateAbandon h c item => Sys2Proof.Machine.execLcalEstimateAbandon h c item s
  | .deltaWithdraw h c => Sys2Proof.Machine.execDeltaWithdraw h c s
  | .orxAlternate h n => Sys2Proof.Machine.execOrxAlternate h n s
  | .lcalConfig p => Sys2Proof.Machine.execLcalConfig p s
  | .lcalRun p => Sys2Proof.Machine.execLcalRun p s
  | .lcalQuery p => Sys2Proof.Machine.execLcalQuery p s
  | .lcalHold p => Sys2Proof.Machine.execLcalHold p s
  | .airVisit h v => Sys2Proof.Machine.execAirVisit h v s
  | .airScanDwell h v => Sys2Proof.Machine.execAirScanDwell h v s
  | .airConfig p => Sys2Proof.Machine.execAirConfig p s
  | .airScanRange p => Sys2Proof.Machine.execAirScanRange p s
  | .airSectionConfig p => Sys2Proof.Machine.execAirSectionConfig p s
  | .airCellRead p => Sys2Proof.Machine.execAirCellRead p s
  | .airStrangerRead p => Sys2Proof.Machine.execAirStrangerRead p s
  | .firebrickWrite p => Sys2Proof.Machine.execFirebrickWrite p s
  | .firebrickRevoke p => Sys2Proof.Machine.execFirebrickRevoke p s
  | .firebrickProgramDone ok left => Sys2Proof.Machine.execFirebrickProgramDone ok left s
  | .firebrickRowInForce row => Sys2Proof.Machine.execFirebrickRowInForce row s
  | .firebrickRead p => Sys2Proof.Machine.execFirebrickRead p s
  | .calsetQuery p => Sys2Proof.Machine.execCalsetQuery p s
  | .calsetExport p => Sys2Proof.Machine.execCalsetExport p s
  | .calsetImport p => Sys2Proof.Machine.execCalsetImport p s
  | .calsetStore p => Sys2Proof.Machine.execCalsetStore p s
  | .calsetWriteDone ok => Sys2Proof.Machine.execCalsetWriteDone ok s
  | .sqTailWrite q tail => Sys2Proof.Machine.execSqTailWrite q tail s
  | .cqHeadWrite q head => Sys2Proof.Machine.execCqHeadWrite q head s
  | .sqExtensionTimeout q p => Sys2Proof.Machine.execSqExtensionTimeout q p s
  | .pad p => Sys2Proof.Machine.execPad p s
  | .identify p => Sys2Proof.Machine.execIdentify p s
  | .nop p => Sys2Proof.Machine.execNop p s
  | .hostUnlock p => Sys2Proof.Machine.execHostUnlock p s
  | .unlockChallenge p => Sys2Proof.Machine.execUnlockChallenge p s
  | .queueCreate p => Sys2Proof.Machine.execQueueCreate p s
  | .queueDelete p => Sys2Proof.Machine.execQueueDelete p s
  | .counterSnapshot p => Sys2Proof.Machine.execCounterSnapshot p s
  | .wideRead p => Sys2Proof.Machine.execWideRead p s
  | .packageHold p => Sys2Proof.Machine.execPackageHold p s
  | .sysReset p => Sys2Proof.Machine.execSysReset p s
  | .scriptControl p => Sys2Proof.Machine.execScriptControl p s
  | .packageStatus p => Sys2Proof.Machine.execPackageStatus p s
  | .linkReset cause => Sys2Proof.Machine.execLinkReset cause s
  | .flrVf n => Sys2Proof.Machine.execFlrVf n s
  | .d3hotChange pf enter => Sys2Proof.Machine.execD3hotChange pf enter s
  | .linkRetrain gen width => Sys2Proof.Machine.execLinkRetrain gen width s
  | .dmaReadErr d => Sys2Proof.Machine.execDmaReadErr d s
  | .streamExportBlock h k b => Sys2Proof.Machine.execStreamExportBlock h k b s
  | .streamImportBlock h k b => Sys2Proof.Machine.execStreamImportBlock h k b s
  | .streamStartTime h k kind => Sys2Proof.Machine.execStreamStartTime h k kind s
  | .strHostPtrWrite h k kind ptr => Sys2Proof.Machine.execStrHostPtrWrite h k kind ptr s
  | .streamConfig p => Sys2Proof.Machine.execStreamConfig p s
  | .streamControl p => Sys2Proof.Machine.execStreamControl p s
  | .captureConfig p => Sys2Proof.Machine.execCaptureConfig p s
  | .captureArm p => Sys2Proof.Machine.execCaptureArm p s
  | .captureQuery p => Sys2Proof.Machine.execCaptureQuery p s
  | .captureTrigger h clk => Sys2Proof.Machine.execCaptureTrigger h clk s
  | .captureRecordDone h => Sys2Proof.Machine.execCaptureRecordDone h s
  | .captureReadoutDone h => Sys2Proof.Machine.execCaptureReadoutDone h s
  | .captureTimeout h => Sys2Proof.Machine.execCaptureTimeout h s
  | .beaconReceive b => Sys2Proof.Machine.execBeaconReceive b s
  | .planRoundRetry member => Sys2Proof.Machine.execPlanRoundRetry member s
  | .ftfDiscard port frame => Sys2Proof.Machine.execFtfDiscard port frame s
  | .replyFrameReceive member seq a => Sys2Proof.Machine.execReplyFrameReceive member seq a s
  | .ptpSyncReceive x => Sys2Proof.Machine.execPtpSyncReceive x s
  | .ptpMessageReceive m => Sys2Proof.Machine.execPtpMessageReceive m s
  | .transportSend h k => Sys2Proof.Machine.execTransportSend h k s
  | .transportReceive h k f => Sys2Proof.Machine.execTransportReceive h k f s
  | .transportLost h k => Sys2Proof.Machine.execTransportLost h k s
  | .transportRestored h k => Sys2Proof.Machine.execTransportRestored h k s
  | .probeWindowStart n => Sys2Proof.Machine.execProbeWindowStart n s
  | .probeWindowEnd n start => Sys2Proof.Machine.execProbeWindowEnd n start s
  | .probeReportReceive r => Sys2Proof.Machine.execProbeReportReceive r s
  | .couplingExpiry n => Sys2Proof.Machine.execCouplingExpiry n s
  | .flueLinkChange h port up => Sys2Proof.Machine.execFlueLinkChange h port up s
  | .fluePortConfig p => Sys2Proof.Machine.execFluePortConfig p s
  | .groupConfig p => Sys2Proof.Machine.execGroupConfig p s
  | .groupQuery p => Sys2Proof.Machine.execGroupQuery p s
  | .ptpConfig p => Sys2Proof.Machine.execPtpConfig p s
  | .splitConfig p => Sys2Proof.Machine.execSplitConfig p s
  | .probeSchedule p => Sys2Proof.Machine.execProbeSchedule p s
  | .probeRead p => Sys2Proof.Machine.execProbeRead p s
  | .dramCorrectedRead h sub rank line => Sys2Proof.Machine.execDramCorrectedRead h sub rank line s
  | .dramUce h region r => Sys2Proof.Machine.execDramUce h region r s
  | .scrubLine h sub rank line overwritten => Sys2Proof.Machine.execScrubLine h sub rank line overwritten s
  | .pageCrcMismatch h region page => Sys2Proof.Machine.execPageCrcMismatch h region page s
  | .linkFrameRetry h link again => Sys2Proof.Machine.execLinkFrameRetry h link again s
  | .linkFail h link => Sys2Proof.Machine.execLinkFail h link s
  | .errorDetected h source data => Sys2Proof.Machine.execErrorDetected h source data s
  | .fcolCapture h clk => Sys2Proof.Machine.execFcolCapture h clk s
  | .railFault h source clk data => Sys2Proof.Machine.execRailFault h source clk data s
  | .fcolSequenceEnd h => Sys2Proof.Machine.execFcolSequenceEnd h s
  | .blockResetRelease h => Sys2Proof.Machine.execBlockResetRelease h s
  | .fcolInjectionApply h clk data => Sys2Proof.Machine.execFcolInjectionApply h clk data s
  | .fcolSourceConfig p => Sys2Proof.Machine.execFcolSourceConfig p s
  | .fcolInject p => Sys2Proof.Machine.execFcolInject p s
  | .fcolQuery p => Sys2Proof.Machine.execFcolQuery p s
  | .logEntryArrival h => Sys2Proof.Machine.execLogEntryArrival h s
  | .logDrop h e => Sys2Proof.Machine.execLogDrop h e s
  | .bucketRefill code => Sys2Proof.Machine.execBucketRefill code s
  | .emberWriteDone ok => Sys2Proof.Machine.execEmberWriteDone ok s
  | .emberEraseDone ok => Sys2Proof.Machine.execEmberEraseDone ok s
  | .alogRead p => Sys2Proof.Machine.execAlogRead p s
  | .embersRead p => Sys2Proof.Machine.execEmbersRead p s
  | .alogRateConfig p => Sys2Proof.Machine.execAlogRateConfig p s
  | .alogMark p => Sys2Proof.Machine.execAlogMark p s
  | .thmConversion h temps => Sys2Proof.Machine.execThmConversion h temps s
  | .shedTimer h => Sys2Proof.Machine.execShedTimer h s
  | .thermalTrip h zone => Sys2Proof.Machine.execThermalTrip h zone s
  | .thermalConfig p => Sys2Proof.Machine.execThermalConfig p s
  | .thermalResume p => Sys2Proof.Machine.execThermalResume p s
  | .thermalQuery p => Sys2Proof.Machine.execThermalQuery p s
  | .attest p => Sys2Proof.Machine.execAttest p s
  | .certRead p => Sys2Proof.Machine.execCertRead p s
  | .imageWrite p => Sys2Proof.Machine.execImageWrite p s
  | .imageWriteDone ok => Sys2Proof.Machine.execImageWriteDone ok s
  | .imageActivate p => Sys2Proof.Machine.execImageActivate p s
  | .rollbackProgramDone ok => Sys2Proof.Machine.execRollbackProgramDone ok s
  | .oemKeyWrite p => Sys2Proof.Machine.execOemKeyWrite p s
  | .keyProgramDone ok => Sys2Proof.Machine.execKeyProgramDone ok s
  | .tddPatternWrite p => Sys2Proof.Machine.execTddPatternWrite p s
  | .tddPatternSelect p => Sys2Proof.Machine.execTddPatternSelect p s
  | .frameSource p => Sys2Proof.Machine.execFrameSource p s
  | .timeSet p => Sys2Proof.Machine.execTimeSet p s
  | .timeSchedule p => Sys2Proof.Machine.execTimeSchedule p s
  | .timeScheduleCancel p => Sys2Proof.Machine.execTimeScheduleCancel p s
  | .wideReqWrite m id => Sys2Proof.Machine.execWideReqWrite m id s
  | .wideData3Read m => Sys2Proof.Machine.execWideData3Read m s
  | .snapCmdWrite go => Sys2Proof.Machine.execSnapCmdWrite go s
  | .sysHbWrite m count => Sys2Proof.Machine.execSysHbWrite m count s
  | .sysIntEnWrite m en => Sys2Proof.Machine.execSysIntEnWrite m en s
  | .sysIntPendClear mask => Sys2Proof.Machine.execSysIntPendClear mask s
  | .fcolPendClear h k mask => Sys2Proof.Machine.execFcolPendClear h k mask s
  | .fcolAlertClear h => Sys2Proof.Machine.execFcolAlertClear h s
  | .fcolLostClear h => Sys2Proof.Machine.execFcolLostClear h s
  | .fcolFfClr m h => Sys2Proof.Machine.execFcolFfClr m h s
  | .fcolCntClr h => Sys2Proof.Machine.execFcolCntClr h s
  | .grtTxsatClr h => Sys2Proof.Machine.execGrtTxsatClr h s
  | .secSatClr h k => Sys2Proof.Machine.execSecSatClr h k s
  | .bdcCntClr h => Sys2Proof.Machine.execBdcCntClr h s
  | .dmpCntClr h => Sys2Proof.Machine.execDmpCntClr h s
  | .spaCntClr h => Sys2Proof.Machine.execSpaCntClr h s
  | .blwCntClr h => Sys2Proof.Machine.execBlwCntClr h s
  | .rfcCntClr h => Sys2Proof.Machine.execRfcCntClr h s
  | .lcalCntClr h => Sys2Proof.Machine.execLcalCntClr h s
  | .airCntClr h => Sys2Proof.Machine.execAirCntClr h s
  | .fluCntClr h => Sys2Proof.Machine.execFluCntClr h s
  | .xmcCntClr h => Sys2Proof.Machine.execXmcCntClr h s
  | .xmcMarkClr m h => Sys2Proof.Machine.execXmcMarkClr m h s
  | .emberNow m => Sys2Proof.Machine.execEmberNow m s
  | .thmCntClr h => Sys2Proof.Machine.execThmCntClr h s
  | .registerWrite m address value => Sys2Proof.Machine.execRegisterWrite m address value s
  | .tddPatternEdge h n clk => Sys2Proof.Machine.execTddPatternEdge h n clk s
  | .ppsOutEdge rise => Sys2Proof.Machine.execPpsOutEdge rise s
  | .stepSequenceEnd h n => Sys2Proof.Machine.execStepSequenceEnd h n s
  | .railFaultEnd h source error => Sys2Proof.Machine.execRailFaultEnd h source error s
  | .resetNLow => Sys2Proof.Machine.execResetNLow s
  | .powerLoss => Sys2Proof.Machine.execPowerLoss s
  | .warmReset => Sys2Proof.Machine.execWarmReset s
  | .frameSourceInvalid => Sys2Proof.Machine.execFrameSourceInvalid s
  | .holdoverExpiry => Sys2Proof.Machine.execHoldoverExpiry s
  | .ppsWindowClose => Sys2Proof.Machine.execPpsWindowClose s
  | .scriptRecord => Sys2Proof.Machine.execScriptRecord s
  | .scriptWaitTimeout => Sys2Proof.Machine.execScriptWaitTimeout s
  | .scriptRetry => Sys2Proof.Machine.execScriptRetry s
  | .unlockVerifyDone => Sys2Proof.Machine.execUnlockVerifyDone s
  | .challengeExpiry => Sys2Proof.Machine.execChallengeExpiry s
  | .unlockLockoutEnd => Sys2Proof.Machine.execUnlockLockoutEnd s
  | .flrPf0 => Sys2Proof.Machine.execFlrPf0 s
  | .flrPf1 => Sys2Proof.Machine.execFlrPf1 s
  | .planRoundEnd => Sys2Proof.Machine.execPlanRoundEnd s
  | .leaderTakeover => Sys2Proof.Machine.execLeaderTakeover s
  | .digestTimeout => Sys2Proof.Machine.execDigestTimeout s
  | .ptpTimeout => Sys2Proof.Machine.execPtpTimeout s
  | .ptpHoldoverExpiry => Sys2Proof.Machine.execPtpHoldoverExpiry s
  | .surveyRoundStart => Sys2Proof.Machine.execSurveyRoundStart s
  | .faultPinPulseEnd => Sys2Proof.Machine.execFaultPinPulseEnd s
  | .powerFailWarning => Sys2Proof.Machine.execPowerFailWarning s
  | .resumeOkSet => Sys2Proof.Machine.execResumeOkSet s
  | .attestSignDone => Sys2Proof.Machine.execAttestSignDone s
  | .snapCopy => Sys2Proof.Machine.execSnapCopy s
  | .heartbeatDecrement => Sys2Proof.Machine.execHeartbeatDecrement s
  | .queue0Enable => Sys2Proof.Machine.execQueue0Enable s
  | .queue0Disable => Sys2Proof.Machine.execQueue0Disable s
  | .cpxCntClr => Sys2Proof.Machine.execCpxCntClr s
  | .hifCntClr => Sys2Proof.Machine.execHifCntClr s
  | .alogCntClr => Sys2Proof.Machine.execAlogCntClr s
  | .perstNRise => Sys2Proof.Machine.execPerstNRise s

end Sys2Proof.Machine
end

