-- ==== Sys2Proof/Safety.lean ====
section
/-! DEFINITION. Safety.lean: what the statements call a safe run: the fixed shape of the state, the canonical form of its
sparse tables, what one-time programmable memory never gives back, and what every command but a reset keeps. -/

namespace Sys2Proof.Machine

/-- The fixed numbers of a hearth (spec/01 R15 to R17; spec/02 R50): 8 sections, 8 patterns, 64 canceller paths, 64 loop
slots, 4 synthesisers, 4 ports. -/
def hearthShape (x : Hearth) : Prop :=
  x.sections.length = 8 ∧ x.patterns.length = 8 ∧ x.paths.length = 64 ∧ x.loops.length = 64 ∧ x.syns.length = 4 ∧ x.ports.length = 4

/-- Eight hearths of the fixed shape, whatever the part (those above its count are absent), and 64 OTP rows. -/
def Shape (s : State) : Prop := (s.hearths.length = 8 ∧ ∀ x ∈ s.hearths, hearthShape x) ∧ s.limits.rows.length = 64

/-- The sparse tables of the package are in canonical form: keys rise strictly. The boot flash, the staging memory of an
image, the calibration set in force, the sequence numbers, plan rounds and devices heard of a group, and the
capture counts of a tick. -/
def Canon (s : State) : Prop :=
  kwf s.sec.flash = true ∧ kwf s.sec.staging = true ∧ kwf s.limits.working = true
    ∧ kwf s.flu.txSeq = true ∧ kwf s.flu.rxSeq = true ∧ kwf s.flu.rounds = true ∧ kwf s.flu.heard = true
    ∧ kwf s.cpx.capBy = true

/-- The package state follows the sections (spec/01 R32): in EMBER none transmits, in ALIGHT one does. -/
def PkgOk (s : State) : Prop :=
  (s.pkg = .ember → transmitting s = 0) ∧ (s.pkg = .alight → transmitting s ≠ 0)

/-- A programming of one-time programmable memory that runs was accepted for bits that were blank: a Firebrick row that
is neither written nor revoked (spec/11 R332), a key slot that is empty (spec/20 R589), and a rollback counter that does
not go back (spec/20 R588). -/
def FuseOk (s : State) : Prop :=
  (∀ v, s.sec.rollbackProg = some v → s.sec.rollback ≤ v)
    ∧ (∀ k, s.sec.keyProg = some (0, k) → s.sec.oemKey = none)
    ∧ (∀ k, s.sec.keyProg = some (1, k) → s.sec.hostKey = none)
    ∧ (∀ g, s.limits.prog = some g → g.revoke = false →
        (rowAt s g.row).written = false ∧ (rowAt s g.row).revoked = false)

/-- One-time programmable memory only gains (spec/11 R328, R332; spec/20 R588, R589): a row that is written keeps its words, a
revoked row stays revoked, a provisioned key stays, and the rollback counter does not fall. -/
def FusesGain (s t : State) : Prop :=
  s.sec.rollback ≤ t.sec.rollback
    ∧ (∀ k, s.sec.oemKey = some k → t.sec.oemKey = some k)
    ∧ (∀ k, s.sec.hostKey = some k → t.sec.hostKey = some k)
    ∧ (∀ n, (rowAt s n).written = true → (rowAt t n).written = true ∧ (rowAt t n).words = (rowAt s n).words)
    ∧ (∀ n, (rowAt s n).revoked = true → (rowAt t n).revoked = true)

/-- What a command leaves alone that neither resets the package nor programs one-time programmable memory: the part's identity, the
queue of waiting commands, the fuses, DOUSED once entered, and every reply already returned; the shape, the canonical form
and the agreement of the package state with its sections are kept. -/
structure Keeps (s t : State) : Prop where
  ident : t.ident = s.ident
  pending : t.pending = s.pending
  resetLow : t.sec.resetLow = s.sec.resetLow
  rollback : t.sec.rollback = s.sec.rollback
  rollbackProg : t.sec.rollbackProg = s.sec.rollbackProg
  keyProg : t.sec.keyProg = s.sec.keyProg
  oemKey : t.sec.oemKey = s.sec.oemKey
  hostKey : t.sec.hostKey = s.sec.hostKey
  rows : t.limits.rows = s.limits.rows
  prog : t.limits.prog = s.limits.prog
  doused : s.pkg = .doused → t.pkg = .doused
  replies : s.cpx.replies <+: t.cpx.replies
  free : s.free ≤ t.free
  shape : Shape s → Shape t
  canon : Canon s → Canon t
  power : PkgOk s → PkgOk t

/-- A hearth without what any logged event may move: the fabric's log queue, and a capture that waits for the event. -/
def quietHearth (x : Hearth) : Hearth := { x with dfb := {}, cap := {} }

/-- Nothing that repeats, supervises or secures has changed: only the reply, its notices (the log, interrupts) and the bookkeeping of
the capture may differ. -/
def Untouched (s t : State) : Prop :=
  t.ident = s.ident ∧ t.pkg = s.pkg ∧ t.holds = s.holds ∧ t.warmDue = s.warmDue ∧ t.tbu = s.tbu ∧ t.setpt = s.setpt ∧ t.sec = s.sec
    ∧ t.limits = s.limits ∧ t.thmPkg = s.thmPkg ∧ t.pins = s.pins ∧ t.free = s.free ∧ t.pending = s.pending
    ∧ t.hearths.map quietHearth = s.hearths.map quietHearth

/-- A section without its streams to and from the host. -/
def unstreamed (y : Section) : Section := { y with exportS := {}, importS := {} }

/-- The sections, but for their streams, the loop slots, the canceller paths and the package state are the same. -/
def SameSections (s t : State) : Prop :=
  t.pkg = s.pkg ∧ t.hearths.map (fun x => (x.sections.map unstreamed, x.loops, x.paths))
    = s.hearths.map (fun x => (x.sections.map unstreamed, x.loops, x.paths))

/-! ### A command that is captured, accepted and answered -/

/-- A packet of a PF0 queue can be captured now: the queue is ACTIVE and holds it whole before the ring end, no fence holds it
back, the tick has room, and its reply's slots can be reserved (spec/12 R360, R364, R366, R370). -/
def queueTakes (ci : CmdInfo) (p : Packet) (s : State) : Bool :=
  let x := queueAt s p.src
  let n := slotsOf p.payload.length
  x.state == 1 && decide (n ≤ sqUsed x) && decide (x.sqHead + n ≤ x.sqM1 + 1)
    && !fenced p p.src s && captureRoom p.src s && !queuesSleep s
    && decide (cqUsed x + x.reserved + reservation ci.reply ≤ x.cqM1)

/-- The tick captures a packet of its source now (spec/12 R352 to R354, R366). -/
def captures (ci : CmdInfo) (p : Packet) (s : State) : Bool :=
  if p.src < 64 then queueTakes ci p s
  else captureRoom p.src s &&
    if p.src = 0x40 then s.cpx.script.turn.any (spelledBy · ci.op p)
    else if p.src = 0x41 then s.flu.acting != 0 && !s.flu.versionMismatch && leaderFrame p s && (s.cpx.leaderAny || serialGt p.seq s.cpx.leaderSeq)
    else p.src == 0x42

/-- The state once a packet of the group leader has been captured (spec/12 R353; spec/15 R446, R457). -/
def afterLeader (p : Packet) (s : State) : State :=
  let t := tookFrame p s
  let flu : Flu := match p.roundEnd with
    | some d => { t.flu with roundEnd := some (p.seq, d), roundReplied := false }
    | none => t.flu
  { t with cpx := { t.cpx with leaderSeq := p.seq, leaderAny := false }, flu := flu }

/-- The state once a packet has been captured, before it is handled: its slots are fetched and those of its reply reserved, the script
waits for its reply, or the leader's serial number is taken; the tick counts it (spec/12 R353, R354, R360, R364, R366). -/
def afterCapture (ci : CmdInfo) (p : Packet) (s : State) : State :=
  if p.src < 64 then takeSlots p.src (reservation ci.reply) (advanceSq (slotsOf p.payload.length)) s
  else countCapture p.src <|
    if p.src = 0x40 then modCpx (fun c => { c with script := { c.script with turn := none, busy := true } }) s
    else if p.src = 0x41 then afterLeader p s
    else s

/-- A packet is captured and passes the checks before its opcode's own (spec/12 R369); `t` is the state that handles it. -/
def Accepted (ci : CmdInfo) (lenRule : Bool) (p : Packet) (s t : State) : Prop :=
  captures ci p s = true ∧ t = afterCapture ci p s ∧ firstFailure ci lenRule p t = none

/-- The state after a command has been answered OK: `u` is what the command did to the state `t` that handled it. The reply is due at the
next boundary, whose time it carries (spec/02 R60; spec/12 R356, R367; spec/15 R456). -/
def answered (ci : CmdInfo) (p : Packet) (t : State) (words : List Word) (u : State) : State :=
  let v := groupTouched ci.op p t u
  sendReply (heldOf ci p) .ok words v

/-- The state while a command waits for an event: it is among the held commands (spec/12 R368). -/
def parked (ci : CmdInfo) (p : Packet) (t : State) (key : Nat) (deadline : Option Nat) (u : State) : State :=
  modCpx (fun x => { x with held := x.held ++ [{ heldOf ci p with key := key, deadline := deadline }] }) (groupTouched ci.op p t u)

/-- The command packet that a row carries, with its opcode's row of the command index; nothing for an event, and nothing for PAD,
which has no handling of its own (spec/12 R360; spec/13 R377). -/
def commandOf : Instr → Option (CmdInfo × Packet)
  | .sectionDefine p => some (infoSectionDefine, p)
  | .sectionDelete p => some (infoSectionDelete, p)
  | .sectionQuery p => some (infoSectionQuery, p)
  | .sectionStart p => some (infoSectionStart, p)
  | .sectionStop p => some (infoSectionStop, p)
  | .grateSync p => some (infoGrateSync, p)
  | .bdcPathConfig p => some (infoBdcPathConfig, p)
  | .bdcPathQuery p => some (infoBdcPathQuery, p)
  | .bdcPathMode p => some (infoBdcPathMode, p)
  | .bdcTapReset p => some (infoBdcTapReset, p)
  | .bdcSnapshot p => some (infoBdcSnapshot, p)
  | .bdcRestore p => some (infoBdcRestore, p)
  | .dmpConfig p => some (infoDmpConfig, p)
  | .dmpQuery p => some (infoDmpQuery, p)
  | .dmpStrangerClear p => some (infoDmpStrangerClear, p)
  | .dmpGroupCeil p => some (infoDmpGroupCeil, p)
  | .spaConfig p => some (infoSpaConfig, p)
  | .spaQuery p => some (infoSpaQuery, p)
  | .spaHistoryClear p => some (infoSpaHistoryClear, p)
  | .loopConfig p => some (infoLoopConfig, p)
  | .loopQuery p => some (infoLoopQuery, p)
  | .loopClose p => some (infoLoopClose, p)
  | .loopOpen p => some (infoLoopOpen, p)
  | .loopMode p => some (infoLoopMode, p)
  | .loopSetpoint p => some (infoLoopSetpoint, p)
  | .loopTune p => some (infoLoopTune, p)
  | .loopTable p => some (infoLoopTable, p)
  | .setptConfig p => some (infoSetptConfig, p)
  | .radioConfig p => some (infoRadioConfig, p)
  | .pwrTableWrite p => some (infoPwrTableWrite, p)
  | .pwrPortConfig p => some (infoPwrPortConfig, p)
  | .fesConfig p => some (infoFesConfig, p)
  | .fesGpioConfig p => some (infoFesGpioConfig, p)
  | .fesSeqWrite p => some (infoFesSeqWrite, p)
  | .fesBusAccess p => some (infoFesBusAccess, p)
  | .lcalConfig p => some (infoLcalConfig, p)
  | .lcalRun p => some (infoLcalRun, p)
  | .lcalQuery p => some (infoLcalQuery, p)
  | .lcalHold p => some (infoLcalHold, p)
  | .airConfig p => some (infoAirConfig, p)
  | .airScanRange p => some (infoAirScanRange, p)
  | .airSectionConfig p => some (infoAirSectionConfig, p)
  | .airCellRead p => some (infoAirCellRead, p)
  | .airStrangerRead p => some (infoAirStrangerRead, p)
  | .firebrickWrite p => some (infoFirebrickWrite, p)
  | .firebrickRevoke p => some (infoFirebrickRevoke, p)
  | .firebrickRead p => some (infoFirebrickRead, p)
  | .calsetQuery p => some (infoCalsetQuery, p)
  | .calsetExport p => some (infoCalsetExport, p)
  | .calsetImport p => some (infoCalsetImport, p)
  | .calsetStore p => some (infoCalsetStore, p)
  | .identify p => some (infoIdentify, p)
  | .nop p => some (infoNop, p)
  | .hostUnlock p => some (infoHostUnlock, p)
  | .unlockChallenge p => some (infoUnlockChallenge, p)
  | .queueCreate p => some (infoQueueCreate, p)
  | .queueDelete p => some (infoQueueDelete, p)
  | .counterSnapshot p => some (infoCounterSnapshot, p)
  | .wideRead p => some (infoWideRead, p)
  | .packageHold p => some (infoPackageHold, p)
  | .sysReset p => some (infoSysReset, p)
  | .scriptControl p => some (infoScriptControl, p)
  | .packageStatus p => some (infoPackageStatus, p)
  | .streamConfig p => some (infoStreamConfig, p)
  | .streamControl p => some (infoStreamControl, p)
  | .captureConfig p => some (infoCaptureConfig, p)
  | .captureArm p => some (infoCaptureArm, p)
  | .captureQuery p => some (infoCaptureQuery, p)
  | .fluePortConfig p => some (infoFluePortConfig, p)
  | .groupConfig p => some (infoGroupConfig, p)
  | .groupQuery p => some (infoGroupQuery, p)
  | .ptpConfig p => some (infoPtpConfig, p)
  | .splitConfig p => some (infoSplitConfig, p)
  | .probeSchedule p => some (infoProbeSchedule, p)
  | .probeRead p => some (infoProbeRead, p)
  | .fcolSourceConfig p => some (infoFcolSourceConfig, p)
  | .fcolInject p => some (infoFcolInject, p)
  | .fcolQuery p => some (infoFcolQuery, p)
  | .alogRead p => some (infoAlogRead, p)
  | .embersRead p => some (infoEmbersRead, p)
  | .alogRateConfig p => some (infoAlogRateConfig, p)
  | .alogMark p => some (infoAlogMark, p)
  | .thermalConfig p => some (infoThermalConfig, p)
  | .thermalResume p => some (infoThermalResume, p)
  | .thermalQuery p => some (infoThermalQuery, p)
  | .attest p => some (infoAttest, p)
  | .certRead p => some (infoCertRead, p)
  | .imageWrite p => some (infoImageWrite, p)
  | .imageActivate p => some (infoImageActivate, p)
  | .oemKeyWrite p => some (infoOemKeyWrite, p)
  | .tddPatternWrite p => some (infoTddPatternWrite, p)
  | .tddPatternSelect p => some (infoTddPatternSelect, p)
  | .frameSource p => some (infoFrameSource, p)
  | .timeSet p => some (infoTimeSet, p)
  | .timeSchedule p => some (infoTimeSchedule, p)
  | .timeScheduleCancel p => some (infoTimeScheduleCancel, p)
  | _ => none

/-- The opcode's own length rule, where it is more than a range of lengths (spec/12 R370). -/
def lengthRule (s : State) : Instr → Bool
  | .loopTable p => p.payload.length == 1 + fld (wordAt p.payload 0) 8 5
  | .pwrTableWrite p => tableLength p.payload
  | .fesSeqWrite p => seqLength p.payload
  | .calsetImport p => importLength p.payload
  | .hostUnlock p => unlockLength p s
  | .tddPatternWrite p => patternLength p.payload
  | _ => true

end Sys2Proof.Machine
end

