-- ==== Sys2Proof/Certificates/Slice0/Obligations.lean ====
section
/-! DEFINITION. Certificates/Slice0/Obligations.lean: the statements for the provers. -/

open Sys2Proof Sys2Proof.Machine

/-- A step is the effect of the command at the front of the queue on the state with the queue's rest; on an empty
queue the block idles, which is the model's choice (log entries 2 and 4). (R601). -/
def Obligations.StepRunsFrontCommand : Prop :=
  (∀ (c : Instr) (rest : List Instr) (s : State), step { s with pending := c :: rest } = exec c { s with pending := rest })
    ∧ (∀ s : State, step { s with pending := [] } = .next { s with pending := [] })

/-- Right after reset the package is in KINDLING at stage K0, every section of every hearth is COLD and none
transmits, TBU_TICK is 0 with ticks of 2,048 clocks and TBU_INCR 18,764,998,447, no frame source is valid and the
holdover configured is 100, every queue is DISABLED, the injection of faults is in its safe state with rail reaction
1, the thermal thresholds have their reset values, and nothing waits. That one-time programmable memory and flash are
blank, and that nothing is chained behind a hold, is the model's choice (log entry 13). (R31, R32, R35, R41, R54, R57,
R373, R526, R563, R572). -/
def Obligations.ResetValues : Prop :=
  let s := State.reset
  s.pkg = .kindling ∧ s.sec.stage = 0 ∧ transmitting s = 0
    ∧ (∀ x ∈ s.hearths, ∀ y ∈ x.sections, y.state = .cold ∧ y.defn = none ∧ y.resume = false)
    ∧ s.holds = { host := false, groupVersion := false, groupLost := false, thermal := false, reset := false }
    ∧ s.tbu.tick = 0 ∧ s.tbu.tickLen = 2048 ∧ s.tbu.incr = 18764998447 ∧ s.tbu.srcValid = false ∧ s.tbu.holdoverCfg = 100
    ∧ (∀ q ∈ s.cpx.queues, q.state = 0) ∧ s.cpx.held = [] ∧ s.cpx.replies = []
    ∧ (∀ x ∈ s.hearths, x.fcol.injSafe = true ∧ x.fcol.railReact = 1 ∧ x.fcol.err = [] ∧ x.fcol.ffValid = false)
    ∧ (∀ x ∈ s.hearths, x.thm.cfg = { warn := 115, derate := 125, orderly := 140, resumeT := 105, hyst := 5, slope := 256, maxCut := 0x0600, shedTime := 1000 })
    ∧ (∀ r ∈ s.limits.rows, r.written = false ∧ r.revoked = false) ∧ s.sec.flash = [] ∧ s.sec.oemKey = none ∧ s.sec.hostKey = none
    ∧ s.pending = []

/-- The state right after reset has the fixed shape, tables in canonical form, a package state that follows the
sections, and no programming of one-time programmable memory under way. (R15, R16, R32, R50, R332, R585, R589). -/
def Obligations.ResetMeetsInvariants : Prop :=
  Shape State.reset ∧ Canon State.reset ∧ PkgOk State.reset ∧ FuseOk State.reset

/-- From every state with eight hearths of 8 sections, 8 patterns, 64 canceller paths, 64 loop slots, 4 synthesisers
and 4 ports, 64 Firebrick rows, and sparse tables (the boot flash, the staging target, the calibration set, the
numbers of a group, the capture counts) in canonical form, a step of any command that answers a next state gives such
a state again. (R15, R16, R50, R328, R339, R353, R366, R574). -/
def Obligations.ShapeAndTablesKept : Prop :=
  ∀ s t : State, Shape s → Canon s → step s = .next t → Shape t ∧ Canon t

/-- From every state in which a programming that runs was accepted for blank bits, a step of any command, resets and a
loss of power among them, gives such a state again; a Firebrick row that is written keeps its words and stays written,
a revoked row stays revoked, a provisioned key stays, and the rollback counter never falls. (R328, R332, R334, R585,
R588, R589). -/
def Obligations.FusesOnlyGain : Prop :=
  ∀ s t : State, FuseOk s → step s = .next t → FuseOk t ∧ FusesGain s t

/-- From every state in DOUSED with RESET_N high, a step of any command but a loss of power stays in DOUSED; a fall or
a rise of RESET_N changes nothing, and of a warm reset (a reset command or a CHIP_RESET reaction) only the request
ends. A loss of power leaves KINDLING as the next state of the package, without power until the rise of RESET_N after
the power-up sequence. An opcode's command that the device captures in DOUSED answers DOUSED, whatever it is. (R32,
R33, R369, R570). -/
def Obligations.DousedHolds : Prop :=
  ∀ s t : State, s.pkg = .doused → step s = .next t →
    (s.sec.resetLow = false → s.pending.head? ≠ some .powerLoss → t.pkg = .doused ∧ t.sec.resetLow = false)
    ∧ (s.sec.resetLow = false → (s.pending.head? = some .resetNLow ∨ ∃ b r, s.pending.head? = some (.resetNRise b r)) →
        t = { s with pending := s.pending.tail })
    ∧ (s.pending.head? = some .warmReset → t = { s with pending := s.pending.tail, warmDue := false })
    ∧ (s.pending.head? = some .powerLoss → t.pkg = .kindling ∧ t.sec.powered = false ∧ t.sec.resetLow = true)
    ∧ (∀ c ci p, s.pending.head? = some c → commandOf c = some (ci, p) → captures ci p { s with pending := s.pending.tail } = true →
        let u := afterCapture ci p { s with pending := s.pending.tail }
        t = sendReply (heldOf ci p) .doused [] u)

/-- From every state in which EMBER means that no section transmits and ALIGHT that one does, a step of any command
gives such a state again; for the end of Kindling, which enters EMBER, no section transmits beforehand. (R31, R32,
R37, R39). -/
def Obligations.PackageFollowsSections : Prop :=
  ∀ s t : State, PkgOk s → (∀ ms, s.pending.head? = some (.kindlingComplete ms) → transmitting s = 0) → step s = .next t → PkgOk t

/-- A step that answers a next state removes exactly the command at the front of the queue and leaves the part's
identity alone; every reply that the block has returned stays returned, in its order, whatever the command (resets and
a loss of power among them). The outbox of replies is the model's own (log entry 10). (R3, R28, R357, R363, R571). -/
def Obligations.QueueIdentityAndRepliesKept : Prop :=
  ∀ s t : State, step s = .next t → t.pending = s.pending.tail ∧ t.ident = s.ident ∧ s.cpx.replies <+: t.cpx.replies

/-- Every command answers a next state in every state, except a write of a register, aligned and in a package that has
power and is not held in reset, that gives a reserved field another value than it reads: that stops with the fault of
that name, since the spec calls what follows undefined. (R14, R602). -/
def Obligations.OnlyReservedWritesStop : Prop :=
  ∀ (c : Instr) (s : State),
    (∃ t, exec c s = .next t) ∨
      ∃ m a v, c = .registerWrite m a v ∧ m < 64 ∧ a % 4 = 0 ∧ s.sec.powered = true ∧ s.sec.resetLow = false ∧ breaksReserved m a v s = true
        ∧ exec c s = .fault .reservedWrite

/-- An accepted IDENTIFY, NOP, PACKAGE_STATUS, WIDE_READ, COUNTER_SNAPSHOT, PACKAGE_HOLD or SYS_RESET, in each of its
forms, answers a next state: the state of its capture, the effect the spec gives, and its reply (or the command held).
(R392, R393, R394, R395, R396, R402, R403). -/
def Obligations.PackageCommandsComplete : Prop :=
  ∀ (p : Packet) (s t : State),
    (Accepted infoIdentify true p s t → exec (.identify p) s = .next (answered infoIdentify p t (identifyWords t) t)) ∧
    (Accepted infoNop true p s t → exec (.nop p) s = .next (answered infoNop p t [] t)) ∧
    (Accepted infoPackageStatus true p s t →
      exec (.packageStatus p) s = .next (answered infoPackageStatus p t (statusWords t) t)) ∧
    (Accepted infoWideRead true p s t →
      (∀ w ∈ p.payload, zeroAt w 16 16 = true ∧ (wideValue t w.toNat t.tbu.tickLen).isSome = true) →
      exec (.wideRead p) s = .next (answered infoWideRead p t
        (p.payload.flatMap fun w => wordsOf 4 ((wideValue t w.toNat t.tbu.tickLen).getD 0)) t)) ∧
    (Accepted infoCounterSnapshot true p s t → t.sec.wideMode = true →
      exec (.counterSnapshot p) s = .next (answered infoCounterSnapshot p t [BitVec.ofNat 32 (incWrap 32 t.sys.snapSeq)]
        { t with sys := { t.sys with snapPending := true } })) ∧
    (Accepted infoPackageHold true p s t → zeroAt (wordAt p.payload 0) 2 30 = true →
      let u := setHolds (fun x => { x with host := true }) t
      (bitOf (wordAt p.payload 0) 0 = true → bitOf (wordAt p.payload 0) 1 = false ∨ transmitting u = 0 →
        exec (.packageHold p) s = .next (answered infoPackageHold p t [] u)) ∧
      (bitOf (wordAt p.payload 0) 0 = true → bitOf (wordAt p.payload 0) 1 = true → transmitting u ≠ 0 → t.cpx.held.length < 256 →
        exec (.packageHold p) s = .next (parked infoPackageHold p t 0 none u)) ∧
      (bitOf (wordAt p.payload 0) 0 = false → bitOf (wordAt p.payload 0) 1 = false →
        exec (.packageHold p) s = .next (answered infoPackageHold p t []
          (endHeldFor 0x0108 0 .aborted [] (setHolds (fun x => { x with host := false }) t))))) ∧
    (Accepted infoSysReset true p s t → zeroAt (wordAt p.payload 0) 1 15 = true → fld (wordAt p.payload 0) 16 16 = 0xA55A →
      let u := setHolds (fun x => { x with reset := true }) t
      (bitOf (wordAt p.payload 0) 0 = false →
        exec (.sysReset p) s = .next (answered infoSysReset p t []
          (modCpx (fun c => { c with resetTaken := true })
            (resetCommanded p.src 0 p.tag (each (heldFor t 0x010A 0) dropHeld t))))) ∧
      (bitOf (wordAt p.payload 0) 0 = true → t.holds.reset = false → t.cpx.held.length < 256 →
        exec (.sysReset p) s = .next (parked infoSysReset p t 0 none u)))

/-- An accepted HOST_UNLOCK (lock, implicit unlock, or a response to a challenge that has not expired),
UNLOCK_CHALLENGE or SCRIPT_CONTROL (query, stop, run), in each of its forms, answers a next state: the effect the spec
gives and its reply, or the command held. The nonce of a challenge is a free value (log entry 6). (R397, R398, R399,
R404, R405, R590). -/
def Obligations.PrivilegeAndScriptCommandsComplete : Prop :=
    (∀ (p : Packet) (s0 s : State),
      Accepted infoHostUnlock (unlockLength p s0) p s0 s →
      zeroAt (wordAt p.payload 0) 1 31 →
      bitOf (wordAt p.payload 0) 0 →
      exec (.hostUnlock p) s0 = .next (answered infoHostUnlock p s [] (emit 0 0x0122 [p.src, 1, s.cpx.unlockFails]
        { s with cpx := { s.cpx with unlocked := false, lockedBy := true } }))) ∧
    (∀ (p : Packet) (s0 s : State),
      Accepted infoHostUnlock (unlockLength p s0) p s0 s →
      zeroAt (wordAt p.payload 0) 1 31 →
      bitOf (wordAt p.payload 0) 0 = false →
      hostKeyNow s = none →
      exec (.hostUnlock p) s0 = .next (answered infoHostUnlock p s [] (emit 0 0x0122 [p.src, 0, s.cpx.unlockFails]
        { s with cpx := { s.cpx with lockedBy := false, privFrom := privNext s } }))) ∧
    (∀ (p : Packet) (s0 s : State) (key nonce expiry : Nat),
      Accepted infoHostUnlock (unlockLength p s0) p s0 s →
      zeroAt (wordAt p.payload 0) 1 31 →
      bitOf (wordAt p.payload 0) 0 = false →
      hostKeyNow s = some key →
      pf0Priv s = false →
      s.cpx.challenge = some (nonce, expiry) →
      s.tbu.tick < expiry →
      s.cpx.verifying = none →
      s.cpx.held.length < 256 →
      exec (.hostUnlock p) s0 = .next (parked infoHostUnlock p s 0 none { s with cpx := { s.cpx with
        challenge := none, verifying := some (nonce, p.payload.drop 1), verifySrc := p.src } })) ∧
    (∀ (p : Packet) (s0 s : State) (key : Nat),
      Accepted infoUnlockChallenge true p s0 s →
      hostKeyNow s = some key →
      lockedOut s = false →
      let nonce := (Config.freeWord s.free).toNat
      exec (.unlockChallenge p) s0 = .next (answered infoUnlockChallenge p s (wordsOf 8 nonce)
        { s with free := s.free + 1, cpx := { s.cpx with challenge := some (nonce, s.tbu.tick + 1 + unlockTicks) } })) ∧
    (∀ (p : Packet) (s0 s : State),
      Accepted infoScriptControl true p s0 s →
      zeroAt (wordAt p.payload 0) 4 12 →
      fld (wordAt p.payload 0) 0 4 = 0 →
      fld (wordAt p.payload 0) 16 16 = 0 →
      exec (.scriptControl p) s0 = .next (answered infoScriptControl p s (scriptWords s.cpx.script) s)) ∧
    (∀ (p : Packet) (s0 s : State),
      Accepted infoScriptControl true p s0 s →
      zeroAt (wordAt p.payload 0) 4 12 →
      fld (wordAt p.payload 0) 0 4 = 1 →
      fld (wordAt p.payload 0) 16 16 = 0 →
      s.cpx.script.state ≠ 1 →
      exec (.scriptControl p) s0 = .next (answered infoScriptControl p s (scriptWords s.cpx.script) s)) ∧
    (∀ (p : Packet) (s0 s : State),
      Accepted infoScriptControl true p s0 s →
      zeroAt (wordAt p.payload 0) 4 12 →
      fld (wordAt p.payload 0) 0 4 = 1 →
      fld (wordAt p.payload 0) 16 16 = 0 →
      s.cpx.script.state = 1 →
      s.cpx.script.busy →
      s.cpx.held.length < 256 →
      exec (.scriptControl p) s0 = .next (parked infoScriptControl p s 1 none
        { s with cpx := { s.cpx with script := { s.cpx.script with stopping := true, stopSrc := p.src } } })) ∧
    (∀ (p : Packet) (s0 s : State),
      Accepted infoScriptControl true p s0 s →
      zeroAt (wordAt p.payload 0) 4 12 →
      fld (wordAt p.payload 0) 0 4 = 1 →
      fld (wordAt p.payload 0) 16 16 = 0 →
      s.cpx.script.state = 1 →
      s.cpx.script.busy = false →
      let y : Script := { s.cpx.script with state := 3, turn := none, retryAt := none }
      exec (.scriptControl p) s0 = .next (answered infoScriptControl p s (scriptWords y)
        (emit 0 0x0125 ([3] ++ bytesOf 2 y.next ++ [p.src]) { s with cpx := { s.cpx with script := y } }))) ∧
    (∀ (p : Packet) (s0 s : State),
      Accepted infoScriptControl true p s0 s →
      zeroAt (wordAt p.payload 0) 4 12 →
      fld (wordAt p.payload 0) 0 4 = 2 →
      s.cpx.script.state ≠ 1 →
      scriptCount s ≠ 0 →
      let first := fld (wordAt p.payload 0) 16 16
      first < scriptCount s →
      exec (.scriptControl p) s0 = .next (answered infoScriptControl p s (scriptWords (scriptStart first p.src s).cpx.script)
        (scriptStart first p.src s)))

/-- While no host-unlock key is provisioned, HOST_UNLOCK with LOCK = 0 completes at once and UNLOCK_CHALLENGE answers
STATE. With a key, HOST_UNLOCK with LOCK = 0 completes at once while PF0 is privileged, and changes no unlock then;
otherwise it answers STATE without a challenge that is still good and BUSY while another is verified, and is otherwise
held while the signature is verified, the challenge consumed; UNLOCK_CHALLENGE answers BUSY during the lockout and
otherwise completes: some nonce becomes the one challenge and is its reply. HOST_UNLOCK with LOCK = 1 completes
whatever the key: PF0 is not unlocked afterwards. (R397, R398, R399). -/
def Obligations.HostUnlockAnswers : Prop :=
  ∀ (p : Packet) (s0 s : State),
    (Accepted infoHostUnlock (unlockLength p s0) p s0 s → wordAt p.payload 0 = 1 →
      ∃ t, exec (.hostUnlock p) s0 = .next (answered infoHostUnlock p s [] t) ∧ t.cpx.unlocked = false ∧ pf0Priv t = false) ∧
    (Accepted infoHostUnlock (unlockLength p s0) p s0 s → wordAt p.payload 0 = 0 → (hostKeyNow s).isNone →
      ∃ t, exec (.hostUnlock p) s0 = .next (answered infoHostUnlock p s [] t) ∧ t.cpx.lockedBy = false) ∧
    (Accepted infoHostUnlock (unlockLength p s0) p s0 s → wordAt p.payload 0 = 0 → (hostKeyNow s).isSome → pf0Priv s →
      ∃ t, exec (.hostUnlock p) s0 = .next (answered infoHostUnlock p s [] t) ∧ t.cpx = s.cpx ∧ t.sec = s.sec) ∧
    (Accepted infoHostUnlock (unlockLength p s0) p s0 s → wordAt p.payload 0 = 0 → (hostKeyNow s).isSome → pf0Priv s = false →
      s.cpx.held.length < 256 →
      exec (.hostUnlock p) s0 = .next (
        if s.cpx.challenge.all (fun c => decide (c.2 ≤ s.tbu.tick)) then sendReply (heldOf infoHostUnlock p) .state [] s
        else if s.cpx.verifying.isSome then sendReply (heldOf infoHostUnlock p) .busy [] s
        else parked infoHostUnlock p s 0 none { s with cpx := { s.cpx with
          challenge := none, verifying := s.cpx.challenge.map (fun c => (c.1, p.payload.drop 1)), verifySrc := p.src } })) ∧
    (Accepted infoUnlockChallenge true p s0 s → (hostKeyNow s).isNone →
      exec (.unlockChallenge p) s0 = .next (sendReply (heldOf infoUnlockChallenge p) .state [] s)) ∧
    (Accepted infoUnlockChallenge true p s0 s → (hostKeyNow s).isSome → lockedOut s →
      exec (.unlockChallenge p) s0 = .next (sendReply (heldOf infoUnlockChallenge p) .busy [] s)) ∧
    (Accepted infoUnlockChallenge true p s0 s → (hostKeyNow s).isSome → lockedOut s = false →
      ∃ nonce t, exec (.unlockChallenge p) s0 = .next (answered infoUnlockChallenge p s (wordsOf 8 nonce) t)
        ∧ t.cpx.challenge = some (nonce, s.tbu.tick + 1 + 28800000) ∧ t.cpx.verifying = s.cpx.verifying)

/-- SCRIPT_CONTROL of each operation answers by its cases: QUERY completes with the script's state as the reply and no
change; STOP completes where the script does not run or no record's command is held, and is held until that command's
reply where one is; RUN answers BUSY while the script runs, STATE without a script, BAD_PARAM where FIRST is not below
the script's record count, and otherwise completes: the script runs from FIRST and captures no record before the next
tick. Another operation, or a FIRST other than 0 in an operation but RUN, answers BAD_PARAM. (R404, R405). -/
def Obligations.ScriptControlAnswers : Prop :=
  ∀ (p : Packet) (s0 s : State), Accepted infoScriptControl true p s0 s → zeroAt (wordAt p.payload 0) 4 12 →
    let op := fld (wordAt p.payload 0) 0 4
    let first := fld (wordAt p.payload 0) 16 16
    let refuse (st : Status) : State := sendReply (heldOf infoScriptControl p) st [] s
    ((2 < op ∨ (op ≠ 2 ∧ first ≠ 0)) → exec (.scriptControl p) s0 = .next (refuse .badParam)) ∧
    (op = 0 → first = 0 → exec (.scriptControl p) s0 = .next (answered infoScriptControl p s (scriptWords s.cpx.script) s)) ∧
    (op = 1 → first = 0 → (s.cpx.script.state = 1 → s.cpx.script.busy = false) →
      ∃ t, exec (.scriptControl p) s0 = .next (answered infoScriptControl p s (scriptWords t.cpx.script) t)
        ∧ t.cpx.script.state = (if s.cpx.script.state = 1 then 3 else s.cpx.script.state)
        ∧ t.cpx.script.next = s.cpx.script.next ∧ t.cpx.script.executed = s.cpx.script.executed) ∧
    (op = 1 → first = 0 → s.cpx.script.state = 1 → s.cpx.script.busy → s.cpx.held.length < 256 →
      ∃ t, exec (.scriptControl p) s0 = .next (parked infoScriptControl p s 1 none t) ∧ t.cpx.script.stopping = true) ∧
    (op = 2 → exec (.scriptControl p) s0 = .next (
      if s.cpx.script.state = 1 then refuse .busy
      else if scriptCount s = 0 then refuse .state
      else if scriptCount s ≤ first then refuse .badParam
      else answered infoScriptControl p s (scriptWords (scriptStart first p.src s).cpx.script) (scriptStart first p.src s))) ∧
    (let t := scriptStart first p.src s; t.cpx.script.state = 1 ∧ t.cpx.script.next = first ∧ t.cpx.script.readyTick = s.tbu.tick + 1)

/-- An accepted QUEUE_CREATE replies OK after making the queue ACTIVE; an accepted QUEUE_DELETE waits for the
boundary, at which the queue's registers are at their reset values; a PAD packet takes a PF0 queue's SQ_HEAD to 0
without a reply, and from another source returns BAD_OPCODE and does nothing else, as an opcode that the index does
not list does from every source; a doorbell that names a slot of the ring moves SQ_TAIL or CQ_HEAD, and one of SQ_TAIL
ends the wait of a packet for slots unless the 1 ms timer expired before it; a write of ENABLE of queue 0 is captured
in the next tick and makes it ACTIVE or DISABLED at the boundary after that; and a packet whose further slots do not
come within the limit ends with BAD_LENGTH; and outside DOUSED CPX_CTRL.CNT_CLR clears every queue's two counts and
the leader-duplicate count. (R360, R361, R374, R375, R400, R401, R414). -/
def Obligations.QueueCommandsComplete : Prop :=
  ∀ (p : Packet) (s t : State),
    (p.code = none → p.src < 64 → (queueAt s p.src).state = 1 → sqUsed (queueAt s p.src) ≠ 0 → queuesSleep s = false →
      exec (.pad p) s = .next (modQueue p.src (fun y => { y with sqHead := 0, extWait := none, extTail := none }) s)) ∧
    (p.code = none → 64 ≤ p.src → captures infoPad p s = true → t = afterCapture infoPad p s → t.pkg ≠ .doused →
      exec (.pad p) s = .next (sendReply (heldOf infoPad p) .badOpcode [] t)) ∧
    (∀ op, p.code = some op → infoOf op = none → captures (unlisted op) p s = true → t = afterCapture (unlisted op) p s → t.pkg ≠ .doused →
      exec (.pad p) s = .next (sendReply (heldOf (unlisted op) p) .badOpcode [] t)) ∧
    (Accepted infoQueueCreate true p s t → queueCreateOk p.payload = true →
      let q := fld (wordAt p.payload 0) 0 6
      (queueAt t q).state = 0 →
      exec (.queueCreate p) s = .next (answered infoQueueCreate p t []
        (emit 0 0x0123 [q, 1, p.src] (modQueue q (fun _ => createdQueue p.payload) t)))) ∧
    (Accepted infoQueueDelete true p s t → zeroAt (wordAt p.payload 0) 6 26 = true →
      let q := fld (wordAt p.payload 0) 0 6
      q ≠ 0 → q ≠ p.src → (queueAt t q).state ≠ 0 → t.cpx.held.length < 256 →
      exec (.queueDelete p) s = .next (parked infoQueueDelete p t q none t)) ∧
    (∀ q v clk, q < 64 → v < 2 ^ 16 → (queueAt s q).state = 1 → v ≤ (queueAt s q).sqM1 →
      ((∀ c, (queueAt s q).extWait = some c → clk ≤ c + 983040) →
        exec (.sqTailWrite q { tail := v, clk := clk }) s = .next (modQueue q (fun y => { y with sqTail := v, extWait := none }) s))
      ∧ ((∃ c, (queueAt s q).extWait = some c ∧ c + 983040 < clk) →
        exec (.sqTailWrite q { tail := v, clk := clk }) s = .next
          (modQueue q (fun y => { y with sqTail := v, extTail := some (y.extTail.getD y.sqTail) }) s))) ∧
    (∀ q v, q < 64 → v < 2 ^ 16 → (queueAt s q).state = 1 →
      let x := queueAt s q
      v ≤ x.cqM1 → (v + (x.cqM1 + 1) - x.cqHead) % (x.cqM1 + 1) ≤ cqUsed x →
      exec (.cqHeadWrite q v) s = .next (modQueue q (fun y => { y with cqHead := v }) s)) ∧
    ((queueAt s 0).sqM1 ≠ 0 → (queueAt s 0).cqM1 ≠ 0 → exec .queue0Enable s = .next (arrive (.write (.queue true)) s)) ∧
    exec .queue0Disable s = .next (arrive (.write (.queue false)) s) ∧
    (∀ on, captureArrival (.write (.queue on)) s = { s with sys := { s.sys with late := s.sys.late ++ [.queue on] } }) ∧
    ((queueAt s 0).state = 0 → applyWrite (.queue true) s = modQueue 0 (fun y => { y with
        state := 1, sqHead := 0, sqTail := 0, sqSeen := 0, cqHead := 0, cqTail := 0, phase := true, reserved := 0, extWait := none, extTail := none }) s) ∧
    ((queueAt s 0).state ≠ 0 →
      applyWrite (.queue false) s = modQueue 0 (fun y => { y with state := 0, reserved := 0, extWait := none, extTail := none }) (dropQueueHeld 0 s)) ∧
    (∀ q c, q < 64 → (queueAt s q).state = 1 → (queueAt s q).extWait = some c → c + 983040 < s.tbu.clock + s.tbu.tickLen → queuesSleep s = false →
      cqUsed (queueAt s q) + (queueAt s q).reserved + 1 ≤ (queueAt s q).cqM1 → s.pkg ≠ .doused →
      let u := takeSlots q 1 (fun y => { y with
        sqHead := y.extTail.getD y.sqTail, sqSeen := y.extTail.getD y.sqTail, extWait := none, extTail := none }) s
      exec (.sqExtensionTimeout q p) s = .next (sendReply { heldOf infoPad { p with src := q } with reserve := 1 } .badLength [] u)) ∧
    (∀ opens time c, c.src ≠ c.key → queueAt (finishDelete opens time c s) c.key = {}) ∧
    (s.pkg ≠ .doused → exec .cpxCntClr s = .next { s with cpx := { s.cpx with
      leaderDup := 0, queues := s.cpx.queues.map fun q => { q with packets := 0, errors := 0 } } })

/-- DMP_STRANGER_CLEAR takes no payload word. Accepted on a section that is not COLD, by a source that may act on it,
it completes: no branch of the section keeps a mask, and nothing else of the section's Damper, and nothing outside it,
changes but for the reply. (R155). -/
def Obligations.StrangerClearEndsEveryMask : Prop :=
  infoDmpStrangerClear.op = 0x0403 ∧ infoDmpStrangerClear.lenLo = 0 ∧ infoDmpStrangerClear.lenHi = 0
    ∧ ∀ (p : Packet) (s t : State), Accepted infoDmpStrangerClear true p s t → groupRule p t = true → (secAt t p.hearth p.sect).state ≠ .cold →
      ∃ f : Dmp → Dmp, exec (.dmpStrangerClear p) s = .next (answered infoDmpStrangerClear p t [] (modDmp p.hearth p.sect f t))
        ∧ ∀ x : Dmp, (∀ y ∈ (f x).br, y.masks = []) ∧ { f x with br := x.br } = x
            ∧ (f x).br.map (fun y => { y with masks := [] }) = x.br.map (fun y => { y with masks := [] })

/-- SPA_HISTORY_CLEAR takes no payload word. Accepted on a section that is not COLD, by a source that may act on it,
it completes: Q_SEQ is 0 and no quench boundary stays recorded; the latch, the scheduled retry and everything else of
the section's Arrestor stay. (R184). -/
def Obligations.HistoryClearKeepsLatchAndRetry : Prop :=
  infoSpaHistoryClear.op = 0x0503 ∧ infoSpaHistoryClear.lenLo = 0 ∧ infoSpaHistoryClear.lenHi = 0
    ∧ ∀ (p : Packet) (s t : State), Accepted infoSpaHistoryClear true p s t → groupRule p t = true → (secAt t p.hearth p.sect).state ≠ .cold →
      ∃ f : Spa → Spa, exec (.spaHistoryClear p) s = .next (answered infoSpaHistoryClear p t [] (modSpa p.hearth p.sect f t))
        ∧ ∀ x : Spa, (f x).qSeq = 0 ∧ (f x).history = [] ∧ (f x).latched = x.latched ∧ (f x).retryAt = x.retryAt
            ∧ { f x with qSeq := x.qSeq, history := x.history } = x

/-- On a slot that is not OPEN, LOOP_CONFIG and LOOP_TABLE from a source that may act on it answer LOOP_CLOSED and
change nothing; an OK from either needs an OPEN slot. LOOP_MODE with a mode the slot may take, and LOOP_SETPOINT,
complete whatever the loop state. (R208). -/
def Obligations.LoopConfigurationOnlyWhileOpen : Prop :=
  ∀ (p : Packet) (s t : State),
    (Accepted infoLoopConfig true p s t → loopGroup p t = true → (loopIn p t).state ≠ 0 →
      exec (.loopConfig p) s = .next (sendReply (heldOf infoLoopConfig p) .loopClosed [] t))
    ∧ (Accepted infoLoopTable (lengthRule s (.loopTable p)) p s t → loopGroup p t = true → (loopIn p t).state ≠ 0 →
      exec (.loopTable p) s = .next (sendReply (heldOf infoLoopTable p) .loopClosed [] t))
    ∧ (Accepted infoLoopConfig true p s t → ∀ u, exec (.loopConfig p) s = .next (answered infoLoopConfig p t [] u) →
      loopConfig p t = .reply .ok [] u → (loopIn p t).state = 0)
    ∧ (Accepted infoLoopMode true p s t → loopGroup p t = true → loopModeOk t.ident.part p.payload (loopIn p t) = true →
      exec (.loopMode p) s = .next (answered infoLoopMode p t [] (modLoop p.hearth (slotIn p) (modeSet t.setpt p.payload) t)))
    ∧ (Accepted infoLoopSetpoint true p s t → loopGroup p t = true → zeroAt (wordAt p.payload 0) 6 10 = true →
      exec (.loopSetpoint p) s = .next (answered infoLoopSetpoint p t []
        (modLoop p.hearth (slotIn p) (fun l => { l with spTgt := sfld (wordAt p.payload 0) 16 16 }) t)))

/-- TIME_SET has three words. While the time discipline takes it, with AT_PPS = 0 it completes with the value due at
the next tick boundary, and the tick that the boundary opens has that package time, with TIME_STATUS 1; with AT_PPS =
1 it completes with the value waiting, and the next PPS_IN edge sets package time at the edge to the value, with
TIME_STATUS 2. A word 2 with another bit set answers BAD_PARAM and changes nothing. (R66). -/
def Obligations.TimeSetApplies : Prop :=
  infoTimeSet.op = 0x0E04 ∧ infoTimeSet.lenLo = 3 ∧ infoTimeSet.lenHi = 3
    ∧ (∀ (p : Packet) (s t : State), Accepted infoTimeSet true p s t →
      (zeroAt (wordAt p.payload 2) 1 31 = false →
        exec (.timeSet p) s = .next (sendReply (heldOf infoTimeSet p) .badParam [] t))
      ∧ (zeroAt (wordAt p.payload 2) 1 31 = true → t.tbu.timeStatus ≠ 3 → t.tbu.timeStatus ≠ 4 →
        (bitOf (wordAt p.payload 2) 0 = true →
          exec (.timeSet p) s = .next (answered infoTimeSet p t [] { t with tbu := { t.tbu with timeSetPps := some (pairAt p.payload 0) } }))
        ∧ (bitOf (wordAt p.payload 2) 0 = false →
          exec (.timeSet p) s = .next (answered infoTimeSet p t []
            { t with tbu := { t.tbu with timeSetNext := some (pairAt p.payload 0), timeSetPps := none } }))))
    ∧ (∀ (v : Nat) (s : State), s.tbu.timeSetNext = some v → v < 2 ^ 64 →
      nextTime s = v ∧ (openTick s).tbu.time = v * 2 ^ 32 ∧ openTime (openTick s) = v ∧ (openTick s).tbu.timeStatus = 1
        ∧ (openTick s).tbu.timeSetNext = none)
    ∧ ∀ (clk v : Nat) (s : State), s.tbu.timeSetPps = some v → v < 2 ^ 64 → inTick s clk = true →
      ∃ u, exec (.ppsInEdge clk) s = .next u ∧ u.tbu.timeStatus = 2 ∧ u.tbu.timeSetPps = none ∧ u.tbu.incr = s.tbu.incr
        ∧ (u.tbu.time + (clk - s.tbu.clock) * u.tbu.incr) % 2 ^ 96 = v * 2 ^ 32

/-- Accepted while hearth 0's LOG queue has room, ALOG_MARK completes, and the newest entry of that queue is event
0x0C41 whose data byte k, for k below 20, is byte k of the payload words, or 0 where no word supplies it. (R548). -/
def Obligations.MarkEventCarriesItsWords : Prop :=
  ∀ (p : Packet) (s t : State), Accepted infoAlogMark true p s t → 0 < t.hearths.length → (hearthAt t 0).dfb.logQ.length < 1024 →
    ∃ u e, exec (.alogMark p) s = .next (answered infoAlogMark p t [] u)
      ∧ (hearthAt u 0).dfb.logQ = (hearthAt t 0).dfb.logQ ++ [e] ∧ e.code = 0x0C41
      ∧ ∀ k, k < 20 → e.data.getD k 0 = if k / 4 < p.payload.length then (wordAt p.payload (k / 4)).toNat / 2 ^ (8 * (k % 4)) % 256 else 0

/-- For every command row: a packet that the tick captures is answered, and nothing of its payload is acted on, with
DOUSED while the package is in DOUSED; else with BAD_OPCODE from a source that the command index does not give the
opcode; else with BAD_LENGTH when it runs past what carries it or breaks a length rule; else with BAD_PARAM when a
reserved flag or header bit is set; else with NOT_PERMITTED without the privilege or group role; else with STATE in a
package state that is not valid for the opcode; else with BAD_PARAM when its target is not one the opcode takes.
(R352, R353, R369, R370, R377). -/
def Obligations.PacketChecksInOrder : Prop :=
  ∀ (c : Instr) (ci : CmdInfo) (p : Packet) (s t : State), commandOf c = some (ci, p) → captures ci p s = true → t = afterCapture ci p s →
    let answers (st : Status) : Prop := exec c s = .next (sendReply (heldOf ci p) st [] t)
    let longOk : Prop := p.whole = true ∧ ci.lenLo ≤ p.payload.length ∧ p.payload.length ≤ ci.lenHi ∧ lengthRule s c = true
    (t.pkg = .doused → answers .doused)
    ∧ (t.pkg ≠ .doused → sourceOk ci p.src = false → answers .badOpcode)
    ∧ (t.pkg ≠ .doused → sourceOk ci p.src = true → ¬ longOk → answers .badLength)
    ∧ (t.pkg ≠ .doused → sourceOk ci p.src = true → longOk → (8 ≤ p.flags ∨ p.rsv = true) → answers .badParam)
    ∧ (t.pkg ≠ .doused → sourceOk ci p.src = true → longOk → p.flags < 8 → p.rsv = false → permitted ci p.src t = false → answers .notPermitted)
    ∧ (t.pkg ≠ .doused → sourceOk ci p.src = true → longOk → p.flags < 8 → p.rsv = false → permitted ci p.src t = true → stateOk ci t = false →
        answers .state)
    ∧ (t.pkg ≠ .doused → sourceOk ci p.src = true → longOk → p.flags < 8 → p.rsv = false → permitted ci p.src t = true → stateOk ci t = true →
        targetOk ci p t = false → answers .badParam)

/-- For every command row: a packet of a PF0 queue changes nothing while the queue is not ACTIVE or has nothing
submitted, while PF0 or PF1 is in D3hot, while the tick has captured its 64 packets or 16 of the source, while FENCE
finds a packet of the queue before it that has not replied, or while the completion ring lacks the slots that its
reply reserves; a packet of the script changes nothing out of its turn; a packet of the group leader without an acting
leader, or in a frame that the device does not take because it came before or on a port without the GROUP role,
changes nothing, and one in a frame that it takes that is not later, by serial-number arithmetic, than the last
accepted one only counts as a duplicate. (R353, R354, R360, R364, R366, R367, R370). -/
def Obligations.PacketsWaitOrAreDiscarded : Prop :=
  ∀ (c : Instr) (ci : CmdInfo) (p : Packet) (s : State), commandOf c = some (ci, p) →
    (p.src < 64 →
      let x := queueAt s p.src
      ((x.state ≠ 1 ∨ sqUsed x = 0 ∨ queuesSleep s = true ∨ 64 ≤ s.cpx.capTotal ∨ 16 ≤ kgetD s.cpx.capBy p.src 0 → exec c s = .next s)
      ∧ (maskHas p.flags 0 = true → ((∃ d ∈ s.cpx.held, d.src = p.src) ∨ ∃ d ∈ s.cpx.due, d.cmd.src = p.src) → exec c s = .next s)
      ∧ (x.sqHead + slotsOf p.payload.length ≤ x.sqM1 + 1 → slotsOf p.payload.length ≤ sqUsed x → reservation ci.reply ≤ x.cqM1 →
          x.cqM1 < cqUsed x + x.reserved + reservation ci.reply → exec c s = .next s)))
    ∧ (p.src = 0x40 → s.cpx.script.turn.any (spelledBy · ci.op p) = false → exec c s = .next s)
    ∧ (p.src = 0x41 → (s.flu.acting = 0 ∨ s.flu.versionMismatch = true ∨ leaderFrame p s = false) → exec c s = .next s)
    ∧ (p.src = 0x41 → captureRoom 0x41 s = true → s.flu.acting ≠ 0 → s.flu.versionMismatch = false → leaderFrame p s = true →
        s.cpx.leaderAny = false → serialGt p.seq s.cpx.leaderSeq = false →
        exec c s = .next (modCpx (fun x => { x with leaderDup := incSat 16 x.leaderDup }) (tookFrame p s)))
    ∧ (0x42 < p.src → exec c s = .next s)

/-- A command of any opcode whose handling would wait while 256 commands are held replies BUSY, and nothing of it
applies; with fewer it joins the held commands, with its completion slots reserved. (R364, R368). -/
def Obligations.AtMost256CommandsAreHeld : Prop :=
  ∀ (ci : CmdInfo) (rule : Bool) (body : Packet → State → Done) (p : Packet) (s t u : State) (key : Nat) (deadline : Option Nat),
    Accepted ci rule p s t → body p t = .hold key deadline u →
      (256 ≤ t.cpx.held.length → runCommandWith ci rule body p s = sendReply (heldOf ci p) .busy [] t)
      ∧ (t.cpx.held.length < 256 → runCommandWith ci rule body p s = parked ci p t key deadline u)

/-- None of the commands that only read (of sections, paths, Damper, Arrestor, loop slots, live calibration, cells,
Firebrick rows, the calibration set, the package, captures, the group, the coupling map, fault collectors, the log,
embers, temperatures, certificates), and not NOP, changes package state, holds, timebase, set-points, security,
limits, temperature control, pins, free values, the queue, or anything of a hearth but its log queue and a capture
that waits for an event. (R88, R130, R154, R183, R223, R292, R325, R345, R346, R392, R541, R565). -/
def Obligations.QueriesLeaveEverythingUntouched : Prop :=
  ∀ (p : Packet) (c : Instr) (s t : State),
    c ∈ [.sectionQuery p, .bdcPathQuery p, .dmpQuery p, .spaQuery p, .loopQuery p, .lcalQuery p, .airCellRead p, .firebrickRead p, .calsetQuery p,
      .calsetExport p, .identify p, .nop p, .packageStatus p, .wideRead p, .captureQuery p, .groupQuery p, .probeRead p, .fcolQuery p, .alogRead p,
      .embersRead p, .thermalQuery p, .certRead p] →
    exec c s = .next t → Untouched s t

/-- A retrained link, PERST_N going high, entering or leaving D3hot, a function-level reset of PF1 or of a VF, and,
while no command is held, a function-level reset of PF0 or a reset of the link, change neither the package state nor a
section (but for its streams to the host), a loop slot or a canceller path. (R407, R415, R433). -/
def Obligations.LinkAndHostLeaveSections : Prop :=
  ∀ (c : Instr) (s t : State), exec c s = .next t →
    ((∃ gen width, c = .linkRetrain gen width) ∨ c = .perstNRise ∨ (∃ pf enter, c = .d3hotChange pf enter) ∨ c = .flrPf1 ∨ (∃ n, c = .flrVf n) →
      SameSections s t)
    ∧ ((c = .flrPf0 ∨ ∃ cause, c = .linkReset cause) → s.cpx.held = [] → SameSections s t)

/-- A register write of a master that is not privileged (PF0 without privilege, PF1, a VF, or a configuration write,
which is the model's operand form of log entry 147) leaves every system register, the timebase, the pins, the fault
collectors and the rest of every hearth, security, limits and the package state alone, writes no LOCKED_WRITE notice,
and locks nothing: only queue 0's group, MSI-X tables, the configuration of error messages to the host and the log's
rate selector, which need no privilege, can change, what waits for the boundary is at most a write of the vectors of
capture and of queue 0, of PF1 or a VF only its own MSI-X table, and of a configuration write only the configuration
of the functions with their MSI-X enables. (R13, R411, R593, R602, R603, R605). -/
def Obligations.UnprivilegedWritesReachNoPrivilegedField : Prop :=
  ∀ (m a : Nat) (v : Word) (s t : State), masterPriv s m = false → exec (.registerWrite m a v) s = .next t →
    t = { s with cpx := t.cpx, hif := t.hif, alog := t.alog, arrivals := t.arrivals }
      ∧ (t.arrivals = s.arrivals ∨ m ≤ 2 ∧ (a = 0x1010004 ∨ a = 0x1021014) ∧ t.arrivals = s.arrivals ++ [.write (.register m a v)])
      ∧ { t.cpx with queues := s.cpx.queues } = s.cpx ∧ { t.alog with rateSel := s.alog.rateSel } = s.alog
      ∧ (3 ≤ m → t = { s with hif := t.hif } ∧ (m = 3 → { t.hif with pf1 := s.hif.pf1 } = s.hif)
          ∧ (3 < m → m < 64 → { t.hif with vfs := s.hif.vfs } = s.hif)
          ∧ (64 ≤ m → { t.hif with pf0 := s.hif.pf0, cfg0 := s.hif.cfg0, pf1 := s.hif.pf1, cfg1 := s.hif.cfg1, vfEnable := s.hif.vfEnable,
                                   vfs := s.hif.vfs } = s.hif))

/-- Handled outside the Kindling stages, for a flash target and an offset that fits, an accepted IMAGE_WRITE that
continues or starts a transfer waits for the program; every word of flash outside its target reads as before, each
word it carries reads back at its offset, and, when it starts a transfer, every other word of the target reads erased.
(R574, R586). -/
def Obligations.ImageWriteStaysInItsTarget : Prop :=
  ∀ (p : Packet) (s t : State), Accepted infoImageWrite true p s t → t.cpx.held.length < 256 → stagesRun t = false → heldFor t 0x0D0A 0 = [] →
    let w := wordAt p.payload 0
    let target := fld w 0 2
    let offset := (wordAt p.payload 1).toNat
    let data := p.payload.drop 2
    let base := (targetArea t target).1
    let size := (targetArea t target).2
    zeroAt w 2 6 = true → zeroAt w 10 22 = true → target ≠ 2 → (2 ≤ target ∨ t.sec.record.isSome = true) → base % 4 = 0 →
    offset % 4 = 0 → offset + 4 * data.length ≤ size →
    (bitOf w 8 = true → offset = 0) → (bitOf w 8 = false → ∃ x, t.sec.xfer = some x ∧ x.target = target ∧ x.offset = offset) →
    ∃ u, exec (.imageWrite p) s = .next (parked infoImageWrite p t 0 none u)
      ∧ (∀ a, a % 4 = 0 → a < base ∨ base + size ≤ a → flashWord u a = flashWord t a)
      ∧ (∀ k, k < data.length → flashWord u (base + offset + 4 * k) = wordAt data k)
      ∧ (∀ a, a % 4 = 0 → base ≤ a → a < base + size → a < base + offset ∨ base + offset + 4 * data.length ≤ a →
          flashWord u a = if bitOf w 8 = true then 0xFFFFFFFF else flashWord t a)

/-- While any hold is present, a SECTION_START on a section in READY or QUENCHED that no other SECTION_START awaits,
from a source that may start it, answers STATE and changes nothing; the end of a down-ramp's cause resumes no section;
a SECTION_START of the tick that precedes the hold's leaves the section's state as it is when the tick closes; and a
retry of a quench whose time has come leaves the section in READY with RESUME set, in no transmitting state. (R34,
R37, R173, R177). -/
def Obligations.NoSectionStartsUnderAHold : Prop :=
  (∀ (p : Packet) (s t : State), Accepted infoSectionStart true p s t → anyHold t = true → roleRule p t = true →
    ((secAt t p.hearth p.sect).state = .ready ∨ (secAt t p.hearth p.sect).state = .quenched) → startHeld t p.hearth p.sect = [] → (secAt t p.hearth p.sect).startDue = false →
    exec (.sectionStart p) s = .next (sendReply (heldOf infoSectionStart p) .state [] t))
  ∧ (∀ (h i : Nat) (s : State), anyHold s = true → exec (.sectionResume h i) s = .next s)
  ∧ (∀ (h i : Nat) (s : State), Shape s → present s h = true → i < 8 → anyHold s = true → (secAt s h i).state = .quenched →
      (secAt s h i).spa.latched = false → (secAt s h i).spa.retryAt.any (fun t => decide (t ≤ s.tbu.tick)) = true →
      ∃ t, exec (.quenchRetry h i) s = .next t ∧ (secAt t h i).state = .ready ∧ (secAt t h i).resume = true)
  ∧ ∀ (h i : Nat) (s : State), (secAt s h i).startDue = true → anyHold s = true →
      ∀ k j, (secAt (closeStart h i s) k j).state = (secAt s k j).state

/-- A warm reset that takes effect in EMBER or ALIGHT leaves the package in KINDLING at stage K1 with every section
COLD and undefined, every loop slot, path and pattern at its reset value, TBU_TICK and package time 0, and queues 1 to
63 deleted; it keeps one-time programmable memory, the flash with the calibration set in it, the log's entries and the
unlock failures. RESET_N low, outside DOUSED, clears the log and the fault records too, and the package waits in
KINDLING for the rise of RESET_N. (R32, R37, R41, R206, R332, R368, R399, R519, R537, R571, R573). -/
def Obligations.ResetsLeave : Prop :=
  ∀ s t : State,
    (s.warmDue = true → (s.pkg = .ember ∨ s.pkg = .alight) → exec .warmReset s = .next t →
      t.pkg = .kindling ∧ t.sec.stage = 1 ∧ t.sec.warm = true ∧ t.sec.fwVersion = 0 ∧ t.sec.fwSvn = 0 ∧ t.warmDue = false ∧ t.tbu.tick = 0 ∧ t.tbu.time = 0
        ∧ (∀ h i, (secAt t h i).state = .cold ∧ (secAt t h i).defn = none ∧ (secAt t h i).resume = false)
        ∧ (∀ x ∈ t.hearths, x.loops = List.replicate 64 {} ∧ x.paths = List.replicate 64 {} ∧ x.patterns = List.replicate 8 {})
        ∧ (∀ q, 0 < q → queueAt t q = {}) ∧ (queueAt t 0).state = 0 ∧ (queueAt t 0).sqAddr = (queueAt s 0).sqAddr
        ∧ t.cpx.held = [] ∧ t.cpx.unlocked = false ∧ t.cpx.unlockFails = s.cpx.unlockFails
        ∧ t.limits.rows = s.limits.rows ∧ t.sec.flash = s.sec.flash
        ∧ t.sec.rollback = s.sec.rollback ∧ t.sec.oemKey = s.sec.oemKey ∧ t.sec.hostKey = s.sec.hostKey)
    ∧ (s.pkg ≠ .doused → exec .resetNLow s = .next t →
      t.pkg = .kindling ∧ t.sec.resetLow = true ∧ t.hearths = List.replicate 8 {} ∧ t.tbu = {} ∧ t.flu = {} ∧ t.alog.seq = 0 ∧ t.alog.ring = []
        ∧ t.cpx.queues = List.replicate 64 {} ∧ t.cpx.held = [] ∧ t.cpx.unlockFails = s.cpx.unlockFails
        ∧ t.limits.rows = s.limits.rows ∧ t.sec.flash = s.sec.flash
        ∧ t.sec.rollback = s.sec.rollback ∧ t.sec.oemKey = s.sec.oemKey ∧ t.sec.hostKey = s.sec.hostKey)

/-- A VF whose number is the TENANT of a section on a present hearth reads in that section's window, word for word,
what PF0, CPX and SEC read in the section's GRT, DMP, SPA, BDC, AIR, RFC and split-section groups and in the eight
path groups of the section. In the window of every other section it reads 0. (R95, R412, R599). -/
def Obligations.TenantWindowsMirrorTheirGroups : Prop :=
  ∀ (n h i m : Nat) (s : State), 1 ≤ n → h < 8 → i < 8 → m ≤ 2 →
    let w := 0x300 * (8 * h + i)
    let b := 0x1000000 * (h + 1)
    (vfSees s n (8 * h + i) = false → ∀ off < 0x300, regRead s (3 + n) (w + off) = 0)
    ∧ (vfSees s n (8 * h + i) = true →
      (∀ k < 8, regRead s (3 + n) (w + 4 * k) = regRead s m (b + 0x90100 + 0x20 * i + 4 * k))
      ∧ (∀ k < 8, regRead s (3 + n) (w + 0x20 + 4 * k) = regRead s m (b + 0xB0100 + 0x20 * i + 4 * k))
      ∧ (∀ k < 16, regRead s (3 + n) (w + 0x40 + 4 * k) = regRead s m (b + 0xD0100 + 0x40 * i + 4 * k))
      ∧ (∀ k < 4, regRead s (3 + n) (w + 0x80 + 4 * k) = regRead s m (b + 0xA0900 + 0x10 * i + 4 * k))
      ∧ (∀ k < 4, regRead s (3 + n) (w + 0xA0 + 4 * k) = regRead s m (b + 0x50200 + 0x10 * i + 4 * k))
      ∧ (∀ k < 4, regRead s (3 + n) (w + 0x90 + 4 * k) = regRead s m (b + 0xE0100 + 0x10 * i + 4 * k))
      ∧ (∀ k < 4, regRead s (3 + n) (w + 0xB0 + 4 * k) = regRead s m (b + 0x100200 + 0x10 * i + 4 * k))
      ∧ (∀ j < 8, ∀ k < 8, regRead s (3 + n) (w + 0x100 + 0x20 * j + 4 * k) = regRead s m (b + 0xA0100 + 0x20 * (8 * i + j) + 4 * k)))

/-- The rise and the fall of RESET_N, the end of a boot stage, the end of Kindling, a warm reset that is due, and the
loss of power each answer the next state the spec gives. (R569, R572, R32, R571, R570). -/
def Obligations.BootAndResetEvents : Prop :=
    (∀ (bootSrc : Nat) (refsel : Bool) (s : State),
      s.sec.resetLow →
      exec (.resetNRise bootSrc refsel) s = .next (
        { s with pkg := .kindling, sec := { s.sec with bootSrc := bootSrc % 4, refsel := refsel, stage := 0, resetLow := false, powered := true }
                 hif := { s.hif with training := true } })) ∧
    (∀ (b : BootIn) (s : State),
      kindles s →
      s.sec.stage = 0 →
      s.limits.prog.isSome = false →
      exec (.bootStageComplete b) s = .next (loadEmbers (modBoot (fun x => { x with stage := 1 }) s))) ∧
    (∀ (b : BootIn) (s : State),
      kindles s →
      s.sec.stage = 1 →
      s.limits.prog.isSome = false →
      ¬(!s.alog.emberRead && s.alog.emberWriting) →
      exec (.bootStageComplete b) s = .next (endK1 b (onlyIf (!s.alog.emberRead) loadEmbers s))) ∧
    (∀ (b : BootIn) (s : State),
      kindles s →
      s.sec.stage = 2 →
      exec (.bootStageComplete b) s = .next (endK2 b s)) ∧
    (∀ (b : BootIn) (s : State),
      kindles s →
      s.sec.stage = 3 →
      exec (.bootStageComplete b) s = .next (modBoot (fun x => { x with stage := 4 }) s)) ∧
    (∀ (b : BootIn) (s : State),
      kindles s →
      s.sec.stage = 4 →
      exec (.bootStageComplete b) s = .next (endK4 s)) ∧
    (∀ (b : BootIn) (s : State),
      kindles s →
      s.sec.stage = 5 →
      exec (.bootStageComplete b) s = .next (endK5 s)) ∧
    (∀ (_ms : Nat) (s : State),
      kindles s →
      s.sec.stage = 6 →
      let t := bootDone { modBoot (fun x => { x with result := 1, bootMs := bootTime s }) s with pkg := .ember }
      t.sec.scriptOk →
      exec (.kindlingComplete _ms) s = .next (scriptStart 0 0x40 t)) ∧
    (∀ (_ms : Nat) (s : State),
      kindles s →
      s.sec.stage = 6 →
      let t := bootDone { modBoot (fun x => { x with result := 1, bootMs := bootTime s }) s with pkg := .ember }
      t.sec.scriptOk = false →
      exec (.kindlingComplete _ms) s = .next (t)) ∧
    (∀ (s : State),
      s.pkg ≠ .doused →
      exec .resetNLow s = .next (
        { ({} : State) with
          ident := s.ident, sec := coldSec s.sec, limits := keptLimits s.limits, alog := { ({} : Alog) with areas := cutEmbers s }
          cpx := { ({} : Cpx) with replies := s.cpx.replies, unlockFails := s.cpx.unlockFails, lockoutEnd := s.cpx.lockoutEnd.map (· - s.tbu.tick) }, free := s.free, pending := s.pending })) ∧
    (∀ (s : State),
      exec .powerLoss s = .next (
        let t := cutPrograms s
        { ({} : State) with
          ident := s.ident
          sec := { coldSec t.sec with bootSrc := 0, refsel := false, keyProg := none, rollbackProg := none, powered := false }
          limits := { keptLimits t.limits with prog := none, calProg := none }
          alog := { ({} : Alog) with areas := cutEmbers s }, cpx := { ({} : Cpx) with replies := s.cpx.replies }, free := t.free, pending := s.pending })) ∧
    (∀ (s : State),
      s.warmDue →
      s.pkg ≠ .doused →
      s.pkg ≠ .kindling →
      exec .warmReset s = .next (
        let t := setPkg .kindling (writeDue s.tbu.tickLen (s.tbu.tick + 1) (nextTime s) s)
        let t := each (allSections t) (fun g => setSec g.1 g.2 .cold) t
        let t := dropStreams 3 t
        let t := each (hearthsOf t) (fun h => each (List.range 64) (warmSlot h)) t
        let t := each (hearthsOf t) clearMarks t
        let t := setHolds (fun x => { ({} : Holds) with thermal := x.thermal }) t
        thermalDrain (warmState t))) ∧
    (∀ (s : State),
      ¬(s.warmDue && s.pkg != .doused && s.pkg != .kindling) →
      exec .warmReset s = .next { s with warmDue := false })

/-- A control tick, a frame boundary, an alignment, an edge of PPS_IN, SYNC_N or PPS_OUT, the loss of the frame
source, the end of holdover, a pulse that did not come and a scheduled action each answer the next state the spec
gives. (R42, R47, R55, R53, R61, R59, R54, R62). -/
def Obligations.TimebaseEvents : Prop :=
    (∀ (x : TickIn) (s : State),
      s.sec.powered →
      s.sec.resetLow = false →
      s.pkg = .doused →
      exec (.controlTick x) s = .next (
        let t := applyConfigs (openTick s)
        captureWrites (writeDue 0 t.tbu.tick (openTime t) t))) ∧
    (∀ (x : TickIn) (s : State),
      s.sec.powered →
      s.sec.resetLow = false →
      s.pkg ≠ .doused →
      exec (.controlTick x) s = .next (
        let r := closeTick x s
        workTick x r.1 (passBoundary r.2))) ∧
    (∀ (clk : Nat) (s : State),
      s.sec.powered →
      s.sec.resetLow = false →
      ¬(clk ≠ nextFrameClock s) →
      clk < s.tbu.clock + s.tbu.tickLen →
      let r := frameAdvance s
      s.pkg = .doused →
      exec (.frameBoundary clk) s = .next (r.2)) ∧
    (∀ (clk : Nat) (s : State),
      s.sec.powered →
      s.sec.resetLow = false →
      ¬(clk ≠ nextFrameClock s) →
      clk < s.tbu.clock + s.tbu.tickLen →
      let r := frameAdvance s
      s.pkg ≠ .doused →
      exec (.frameBoundary clk) s = .next (
        let t := modTbu (fun y => { y with endedInvalid := y.frameInvalidSeen, frameInvalidSeen := !y.frameValid }) r.2
        arriveInOrder (.frameTick r.1.1 r.1.2 clk t.tbu.frameTime) (restartDuty clk (followPatterns clk t)))) ∧
    (∀ (clk : Int) (sfn : Option Nat) (s : State),
      sourceAlignment s = some (clk, sfn) →
      exec (.frameAlignment clk sfn) s = .next (arrive (.alignment clk sfn) (onlyIf (s.tbu.source == some 2)
          (modTbu fun x => { x with airAlign := none }) s))) ∧
    (∀ (clk : Int) (sfn : Option Nat) (s : State),
      (s.tbu.source = some 1 ∨ s.tbu.source = some 2) →
      captureArrival (.alignment clk sfn) s = (align clk sfn s)) ∧
    (∀ (clk : Nat) (s : State),
      inTick s clk →
      exec (.ppsInEdge clk) s = .next (ppsFrames clk (ppsTime (clk - s.tbu.clock) s))) ∧
    (∀ (clk : Nat) (s : State),
      inTick s clk →
      exec (.syncNEdge clk) s = .next (
        let a := onlyIf s.tbu.syncGrt (grateReset 1 (clk + 1)) s
        let b := onlyIf (s.tbu.syncFrame && s.tbu.source == some 3) (fun t => arrive (.align (clk + t.tbu.frameOffset)) t) a
        let c := { b with hearths := b.hearths.map fun x =>
          if x.cap.state = 1 ∧ x.cap.trig = 2 ∧ x.cap.trigDue = none then { x with cap := { x.cap with trigDue := some clk } } else x }
        onlyIf s.tbu.syncTick (tickAlign clk) c)) ∧
    (∀ (rise : Bool) (s : State),
      let clk := ppsEdgeClock rise s
      s.tbu.ppsOut ≠ rise →
      clk < s.tbu.clock + s.tbu.tickLen →
      exec (.ppsOutEdge rise) s = .next (modTbu
          (fun x => { x with ppsOut := rise, ppsAt := if rise then clk else x.ppsAt }) s)) ∧
    (∀ (s : State),
      sourceLapsed s →
      exec .frameSourceInvalid s = .next (loseSource s)) ∧
    (∀ (s : State),
      s.tbu.inHoldover →
      s.tbu.holdoverLeft = 0 →
      exec .holdoverExpiry s = .next (setFrameValid emit false (modTbu (fun x => { x with inHoldover := false }) s))) ∧
    (∀ (s : State),
      ∀ c, s.tbu.ppsOpen = some c →
      s.tbu.source = some 4 →
      c + secondClocks + 983 < s.tbu.clock →
      exec .ppsWindowClose s = .next (loseSource (modTbu (fun x => { x with ppsOpen := none }) s))) ∧
    (∀ (handle : Nat) (clk : Nat) (s : State),
      ∀ a, kget s.tbu.sched handle = some a →
      inTick s clk →
      actionDue s a clk →
      actionFirst s handle clk →
      exec (.scheduledAction handle clk) s = .next (
        let t :=
          if a.select then followPatterns clk (each (hearthsOf s) (fun h => each (maskBits 8 a.mask) fun n =>
            modPattern h n fun x => { x with activeB := maskHas a.banks n }) s)
          else grateReset 3 clk s
        note 0 0x0E20 [handle] (modTbu (fun x => { x with sched := kerase x.sched handle }) t)))

/-- An accepted TDD_PATTERN_WRITE, TDD_PATTERN_SELECT, FRAME_SOURCE, TIME_SET, TIME_SCHEDULE, TIME_SCHEDULE_CANCEL or
GRATE_SYNC, in each of its forms, answers a next state with the effect the spec gives. (R63, R64, R65, R66, R67, R90).
-/
def Obligations.TimeCommandsComplete : Prop :=
    (∀ (p : Packet) (s0 s : State),
      Accepted infoTddPatternWrite (patternLength p.payload) p s0 s →
      let n := fld (wordAt p.payload 0) 0 3
      let b := bankFrom p.payload
      patternOk p.payload →
      ((targets p s).all fun h => !selectionPending s h n) →
      exec (.tddPatternWrite p) s0 = .next (
        answered infoTddPatternWrite p s [] (each (targets p s) (fun h => modPattern h n fun x =>
          if x.activeB then { x with bankA := some b } else { x with bankB := some b }) s))) ∧
    (∀ (p : Packet) (s0 s : State),
      Accepted infoTddPatternSelect true p s0 s →
      let w := wordAt p.payload 0
      let ns := maskBits 8 (fld w 0 8)
      zeroAt w 16 16 →
      ((targets p s).all fun h => ns.all fun n => (bankOf (patternAt s h n) (bitOf w (8 + n))).isSome) →
      s.cpx.held.length < 256 →
      exec (.tddPatternSelect p) s0 = .next (
        parked infoTddPatternSelect p s 0 none (each (targets p s) (fun h => each ns fun n => modPattern h n fun x =>
          { x with pending := some (bitOf w (8 + n)) }) s))) ∧
    (∀ (p : Packet) (s0 s : State),
      Accepted infoFrameSource true p s0 s →
      let w0 := wordAt p.payload 0
      let w2 := wordAt p.payload 2
      let w3 := wordAt p.payload 3
      let src := fld w0 0 3
      let off := sfld (wordAt p.payload 1) 0 32
      let hold := fld w3 0 13
      let g := fld w0 3 6
      let pci := fld w0 9 10
      src ≤ 4 →
      zeroAt w0 19 13 →
      off.natAbs < frameClocks →
      zeroAt w2 10 22 →
      zeroAt w3 21 11 →
      hold ≤ 6000 →
      pci ≤ 1007 →
      (src != 2 || airTracks s g pci) →
      let t := modTbu (fun x => { x with
        source := some src, srcSection := g, srcPci := pci, frameOffset := off, sfnOffset := fld w2 0 10
        holdoverCfg := hold, stepLimit := fld w3 13 8, firstAlign := true, slew := 0
        ppsOpen := none, ppsFirst := src == 4, airAlign := none, airAge := if src = 2 then sourceAge s g pci else 0 }) s
      src = 0 →
      exec (.frameSource p) s0 = .next (answered infoFrameSource p s [] (align
          (t.tbu.clock + t.tbu.tickLen + off) none t))) ∧
    (∀ (p : Packet) (s0 s : State),
      Accepted infoFrameSource true p s0 s →
      let w0 := wordAt p.payload 0
      let w2 := wordAt p.payload 2
      let w3 := wordAt p.payload 3
      let src := fld w0 0 3
      let off := sfld (wordAt p.payload 1) 0 32
      let hold := fld w3 0 13
      let g := fld w0 3 6
      let pci := fld w0 9 10
      src ≤ 4 →
      zeroAt w0 19 13 →
      off.natAbs < frameClocks →
      zeroAt w2 10 22 →
      zeroAt w3 21 11 →
      hold ≤ 6000 →
      pci ≤ 1007 →
      (src != 2 || airTracks s g pci) →
      let t := modTbu (fun x => { x with
        source := some src, srcSection := g, srcPci := pci, frameOffset := off, sfnOffset := fld w2 0 10
        holdoverCfg := hold, stepLimit := fld w3 13 8, firstAlign := true, slew := 0
        ppsOpen := none, ppsFirst := src == 4, airAlign := none, airAge := if src = 2 then sourceAge s g pci else 0 }) s
      src ≠ 0 →
      ((src = 2 ∧ t.tbu.airAge ≤ 16) ∨ (src = 1 ∧ t.tbu.timeStatus = 3)) →
      exec (.frameSource p) s0 = .next (answered infoFrameSource p s [] (modTbu
          (fun x => { x with srcValid := true }) t))) ∧
    (∀ (p : Packet) (s0 s : State),
      Accepted infoFrameSource true p s0 s →
      let w0 := wordAt p.payload 0
      let w2 := wordAt p.payload 2
      let w3 := wordAt p.payload 3
      let src := fld w0 0 3
      let off := sfld (wordAt p.payload 1) 0 32
      let hold := fld w3 0 13
      let g := fld w0 3 6
      let pci := fld w0 9 10
      src ≤ 4 →
      zeroAt w0 19 13 →
      off.natAbs < frameClocks →
      zeroAt w2 10 22 →
      zeroAt w3 21 11 →
      hold ≤ 6000 →
      pci ≤ 1007 →
      (src != 2 || airTracks s g pci) →
      let t := modTbu (fun x => { x with
        source := some src, srcSection := g, srcPci := pci, frameOffset := off, sfnOffset := fld w2 0 10
        holdoverCfg := hold, stepLimit := fld w3 13 8, firstAlign := true, slew := 0
        ppsOpen := none, ppsFirst := src == 4, airAlign := none, airAge := if src = 2 then sourceAge s g pci else 0 }) s
      src ≠ 0 →
      ¬(src = 2 ∧ t.tbu.airAge ≤ 16) →
      ¬(src = 1 ∧ t.tbu.timeStatus = 3) →
      exec (.frameSource p) s0 = .next (answered infoFrameSource p s [] (loseSource t))) ∧
    (∀ (p : Packet) (s0 s : State),
      Accepted infoTimeSet true p s0 s →
      let w2 := wordAt p.payload 2
      let v := pairAt p.payload 0
      zeroAt w2 1 31 →
      s.tbu.timeStatus ≠ 3 →
      s.tbu.timeStatus ≠ 4 →
      bitOf w2 0 →
      exec (.timeSet p) s0 = .next (answered infoTimeSet p s [] (modTbu (fun x => { x with timeSetPps := some v }) s))) ∧
    (∀ (p : Packet) (s0 s : State),
      Accepted infoTimeSet true p s0 s →
      let w2 := wordAt p.payload 2
      let v := pairAt p.payload 0
      zeroAt w2 1 31 →
      s.tbu.timeStatus ≠ 3 →
      s.tbu.timeStatus ≠ 4 →
      bitOf w2 0 = false →
      exec (.timeSet p) s0 = .next (answered infoTimeSet p s [] (modTbu
          (fun x => { x with timeSetNext := some v, timeSetPps := none }) s))) ∧
    (∀ (p : Packet) (s0 s : State),
      Accepted infoTimeSchedule true p s0 s →
      let w := wordAt p.payload 2
      let act := fld w 0 4
      let t := pairAt p.payload 0
      let d := timeDiff t (openTime s)
      let mask := fld w 8 8
      let banks := fld w 16 8
      (act == 1 || act == 2) →
      zeroAt w 4 4 →
      zeroAt w 24 8 →
      (act == 1 || (hearthsOf s).all fun h => (maskBits 8 mask).all fun n => (bankOf (patternAt s h n)
          (maskHas banks n)).isSome) →
      d ≤ 2 ^ 63 →
      0 < d →
      ∀ k, freeHandle s = some k →
      exec (.timeSchedule p) s0 = .next (
        let a : SchedAction := { time := t, select := act == 2, mask := mask, banks := banks }
        answered infoTimeSchedule p s [BitVec.ofNat 32 k] (modTbu (fun x => { x with sched := kset x.sched k a }) s))) ∧
    (∀ (p : Packet) (s0 s : State),
      Accepted infoTimeScheduleCancel true p s0 s →
      let k := fld (wordAt p.payload 0) 0 4
      (s.tbu.sched.any fun e => e.1 == k) →
      exec (.timeScheduleCancel p) s0 = .next (answered infoTimeScheduleCancel p s [] (modTbu
          (fun x => { x with sched := kerase x.sched k }) s))) ∧
    (∀ (p : Packet) (s0 s : State),
      Accepted infoGrateSync true p s0 s →
      exec (.grateSync p) s0 = .next (answered infoGrateSync p s [] (modTbu (fun x => { x with grateDue := true }) s)))

/-- An accepted SECTION_DEFINE, SECTION_DELETE, SECTION_QUERY, SECTION_START or SECTION_STOP, in each of its forms,
answers a next state with the effect the spec gives. (R72, R87, R88, R37). -/
def Obligations.SectionCommandsComplete : Prop :=
    (∀ (p : Packet) (s0 s : State),
      Accepted infoSectionDefine true p s0 s →
      let h := p.hearth
      let i := p.sect
      let d := defOf p.payload
      let st := secNow (secAt s h i)
      defineRule p d s →
      (st == .cold || st == .ready) →
      defFieldsOk p.payload →
      ratioOk d →
      passbandsOk d →
      profileOk d →
      bandsFit s h i d →
      bandsClear s h i d →
      losFree s h i d →
      (!d.tdd || (activeBank (patternAt s h d.pattern)).isSome) →
      slotsFree s h i d →
      slotsOpen s h i d →
      exec (.sectionDefine p) s0 = .next (answered infoSectionDefine p s [] (applyDefine h i p.payload s))) ∧
    (∀ (p : Packet) (s0 s : State),
      Accepted infoSectionDelete true p s0 s →
      let st := secNow (secAt s p.hearth p.sect)
      roleRule p s →
      (st == .ready || st == .quenched) →
      exec (.sectionDelete p) s0 = .next (answered infoSectionDelete p s [] (applyDelete p.hearth p.sect s))) ∧
    (∀ (p : Packet) (s0 s : State),
      Accepted infoSectionQuery true p s0 s →
      exec (.sectionQuery p) s0 = .next (
        let x := secAt s p.hearth p.sect
        answered infoSectionQuery p s ((List.range 8).map (wordAt x.raw) ++ [secStatus s p.hearth p.sect, wordOf [(0, 24, x.latDl)], wordOf [(0, 24, x.latUl)]]) s)) ∧
    (∀ (p : Packet) (s0 s : State),
      Accepted infoSectionStart true p s0 s →
      let h := p.hearth
      let i := p.sect
      let st := secNow (secAt s h i)
      roleRule p s →
      st ≠ .cold →
      transmits st →
      exec (.sectionStart p) s0 = .next (answered infoSectionStart p s [] s)) ∧
    (∀ (p : Packet) (s0 s : State),
      Accepted infoSectionStart true p s0 s →
      let h := p.hearth
      let i := p.sect
      let st := secNow (secAt s h i)
      roleRule p s →
      st ≠ .cold →
      transmits st = false →
      (startHeld s h i).isEmpty →
      startBar s h i = none →
      losLocked s h i →
      exec (.sectionStart p) s0 = .next (answered infoSectionStart p s [] (modSec h i
          (fun x => { x with startDue := true }) s))) ∧
    (∀ (p : Packet) (s0 s : State),
      Accepted infoSectionStart true p s0 s →
      let h := p.hearth
      let i := p.sect
      let st := secNow (secAt s h i)
      roleRule p s →
      st ≠ .cold →
      transmits st = false →
      (startHeld s h i).isEmpty →
      startBar s h i = none →
      losLocked s h i = false →
      s.cpx.held.length < 256 →
      exec (.sectionStart p) s0 = .next (parked infoSectionStart p s (globalOf h i) (some (s.tbu.tick +
          (hearthAt s h).rfc.synthWait)) s)) ∧
    (∀ (p : Packet) (s0 s : State),
      Accepted infoSectionStop true p s0 s →
      let h := p.hearth
      let i := p.sect
      roleRule p s →
      (secAt s h i).state ≠ .cold →
      exec (.sectionStop p) s0 = .next (
        let t := if p.src = 0x42 then s else modSec h i (fun x => { x with split := { x.split with stoppedByLoss := false } }) s
        answered infoSectionStop p s [] (applyStop h i (settleStart h i t))))

/-- Leaving DAMPED, the end of a ramp or a down-ramp, a resumption, the end of a Grate reset in a section, and the
clears of the saturation counts each answer the next state the spec gives. (R37, R203, R34, R85, R92, R94). -/
def Obligations.SectionEvents : Prop :=
    (∀ (h : Nat) (i : Nat) (s : State),
      let x := secAt s h i
      present s h →
      x.state = .damped →
      x.downRamp.isNone →
      x.next.held.any id = false →
      480 ≤ x.heldFalse →
      exec (.sectionUndamp h i) s = .next (setSec h i .live s)) ∧
    (∀ (h : Nat) (i : Nat) (s : State),
      let x := secAt s h i
      present s h →
      x.state = .ramping →
      x.downRamp.isNone →
      0 < x.rampTicks →
      rampDone s h i →
      exec (.sectionRampDone h i) s = .next (each (gainSlots s h i)
          (fun g => modLoop h g.1 fun l => { l with ramping := false }) (enterLive h i s))) ∧
    (∀ (h : Nat) (i : Nat) (s : State),
      ∀ r, (secAt s h i).downRamp = some r →
      present s h →
      r.endTick ≤ s.tbu.tick →
      exec (.downRampEnd h i) s = .next (endDown h i r s)) ∧
    (∀ (h : Nat) (i : Nat) (s : State),
      let x := secAt s h i
      present s h →
      x.state = .ready →
      x.resume →
      anyHold s = false →
      anyWait x = false →
      (s.pkg == .ember || s.pkg == .alight) →
      ¬((hearthAt s h).fbCopyBad) →
      losLocked s h i →
      (tableMissing s h i || !firebrickOk s h i) →
      exec (.sectionResume h i) s = .next (modSec h i (fun y => { y with resume := false }) s)) ∧
    (∀ (h : Nat) (i : Nat) (s : State),
      let x := secAt s h i
      present s h →
      x.state = .ready →
      x.resume →
      anyHold s = false →
      anyWait x = false →
      (s.pkg == .ember || s.pkg == .alight) →
      ¬((hearthAt s h).fbCopyBad) →
      losLocked s h i →
      tableMissing s h i = false →
      firebrickOk s h i →
      exec (.sectionResume h i) s = .next (enterRamping h i s)) ∧
    (∀ (h : Nat) (i : Nat) (s : State),
      let x := secAt s h i
      x.syncSettle →
      x.blankEnd ≤ s.tbu.tick →
      exec (.grtBlankEnd h i) s = .next (modSec h i (fun y => { y with syncSettle := false }) s)) ∧
    (∀ (h : Nat) (s : State),
      present s h →
      writable s →
      exec (.grtTxsatClr h) s = .next (modHearth h
          (fun x => { x with grt := { x.grt with txSat := [0, 0, 0, 0] } }) s)) ∧
    (∀ (h : Nat) (i : Nat) (s : State),
      present s h →
      writable s →
      exec (.secSatClr h i) s = .next (modSec h i
          (fun x => { x with satRx := 0, satTx := 0, grtShown := x.grtShown.set 5 0 }) s))

/-- An accepted BDC_PATH_CONFIG, BDC_PATH_QUERY, BDC_PATH_MODE, BDC_TAP_RESET, BDC_SNAPSHOT or BDC_RESTORE, in each of
its forms, answers a next state with the effect the spec gives. (R129, R130, R131, R132, R133). -/
def Obligations.CancellerCommandsComplete : Prop :=
    (∀ (p : Packet) (s0 s : State),
      Accepted infoBdcPathConfig true p s0 s →
      let ws := p.payload
      let w := wordAt ws 0
      let h := p.hearth
      let i := p.sect
      let ps := maskPaths i (fld w 0 8)
      let on := bitOf w 8
      let orx := bitOf w 9
      let st := secNow (secAt s h i)
      let idle := st == .ready || st == .quenched
      let changes := ps.any fun q =>
        let x := pathAt s h q
        if on then !x.enabled || x.len != fld (wordAt ws 1) 0 13 || x.decor != fld (wordAt ws 1) 16 12
          || x.orx != orx else x.enabled
      maskOk s h i (fld w 0 8) →
      zeroAt w 10 22 →
      (!on || pathFieldsOk ws) →
      !(on && (secAt s h i).split.role != 0) →
      st ≠ .cold →
      (idle || !changes) →
      on = false →
      exec (.bdcPathConfig p) s0 = .next (
        let t := zeroBare h i (refreshBudget h (each ps (releasePath h) s))
        answered infoBdcPathConfig p s (loadWords t h) t)) ∧
    (∀ (p : Packet) (s0 s : State),
      Accepted infoBdcPathConfig true p s0 s →
      let ws := p.payload
      let w := wordAt ws 0
      let h := p.hearth
      let i := p.sect
      let ps := maskPaths i (fld w 0 8)
      let on := bitOf w 8
      let orx := bitOf w 9
      let d := ((secAt s h i).defn).getD {}
      let st := secNow (secAt s h i)
      let idle := st == .ready || st == .quenched
      let changes := ps.any fun q =>
        let x := pathAt s h q
        if on then !x.enabled || x.len != fld (wordAt ws 1) 0 13 || x.decor != fld (wordAt ws 1) 16 12
          || x.orx != orx else x.enabled
      maskOk s h i (fld w 0 8) →
      zeroAt w 10 22 →
      (!on || pathFieldsOk ws) →
      !(on && (secAt s h i).split.role != 0) →
      st ≠ .cold →
      (idle || !changes) →
      on →
      (!orx || orxFree s h ps) →
      stepOf (fld (wordAt ws 2) 0 11) ≤ stepMax (hearthAt s h).bdc.gradDiv (fld (wordAt ws 1) 0 13) (rateOf d) →
      let t := each ps (configurePath ws h) s
      budgetOk t h →
      let t := if orx then each ps (fun q => moveOrx h (pathOrx q) (pathDir q)) t else t
      let t := refreshBudget h (if (hearthAt s h).bdc.reloc then t else placePaths h t)
      allPlaced t h →
      exec (.bdcPathConfig p) s0 = .next (answered infoBdcPathConfig p s (loadWords t h) t)) ∧
    (∀ (p : Packet) (s0 s : State),
      Accepted infoBdcPathConfig true p s0 s →
      let ws := p.payload
      let w := wordAt ws 0
      let h := p.hearth
      let i := p.sect
      let ps := maskPaths i (fld w 0 8)
      let on := bitOf w 8
      let orx := bitOf w 9
      let d := ((secAt s h i).defn).getD {}
      let st := secNow (secAt s h i)
      let idle := st == .ready || st == .quenched
      let changes := ps.any fun q =>
        let x := pathAt s h q
        if on then !x.enabled || x.len != fld (wordAt ws 1) 0 13 || x.decor != fld (wordAt ws 1) 16 12
          || x.orx != orx else x.enabled
      maskOk s h i (fld w 0 8) →
      zeroAt w 10 22 →
      (!on || pathFieldsOk ws) →
      !(on && (secAt s h i).split.role != 0) →
      st ≠ .cold →
      (idle || !changes) →
      on →
      (!orx || orxFree s h ps) →
      stepOf (fld (wordAt ws 2) 0 11) ≤ stepMax (hearthAt s h).bdc.gradDiv (fld (wordAt ws 1) 0 13) (rateOf d) →
      let t := each ps (configurePath ws h) s
      budgetOk t h →
      let t := if orx then each ps (fun q => moveOrx h (pathOrx q) (pathDir q)) t else t
      let t := refreshBudget h (if (hearthAt s h).bdc.reloc then t else placePaths h t)
      allPlaced t h = false →
      s.cpx.held.length < 256 →
      exec (.bdcPathConfig p) s0 = .next (
        parked infoBdcPathConfig p s h none (if (hearthAt s h).bdc.reloc then t
          else modBdc h (fun b => { b with reloc := true, relocStart := s.tbu.tick + 1, relocMoved := 0 }) t))) ∧
    (∀ (p : Packet) (s0 s : State),
      Accepted infoBdcPathQuery true p s0 s →
      let w := wordAt p.payload 0
      zeroAt w 3 29 →
      (secAt s p.hearth p.sect).state ≠ .cold →
      exec (.bdcPathQuery p) s0 = .next (answered infoBdcPathQuery p s (pathWords (pathAt s p.hearth
          (8 * p.sect + fld w 0 3))) s)) ∧
    (∀ (p : Packet) (s0 s : State),
      Accepted infoBdcPathMode true p s0 s →
      let w := wordAt p.payload 0
      let ps := maskPaths p.sect (fld w 0 8)
      maskOk s p.hearth p.sect (fld w 0 8) →
      zeroAt w 10 22 →
      fld w 8 2 ≠ 3 →
      (secAt s p.hearth p.sect).state ≠ .cold →
      (ps.all fun q => (pathAt s p.hearth q).enabled) →
      exec (.bdcPathMode p) s0 = .next (answered infoBdcPathMode p s [] (each ps (setMode (fld w 8 2) p.hearth) s))) ∧
    (∀ (p : Packet) (s0 s : State),
      Accepted infoBdcTapReset true p s0 s →
      let w := wordAt p.payload 0
      maskOk s p.hearth p.sect (fld w 0 8) →
      zeroAt w 8 24 →
      (secAt s p.hearth p.sect).state ≠ .cold →
      exec (.bdcTapReset p) s0 = .next (answered infoBdcTapReset p s [] (each (maskPaths p.sect (fld w 0 8))
          (resetTaps p.hearth) s))) ∧
    (∀ (p : Packet) (s0 s : State),
      Accepted infoBdcSnapshot true p s0 s →
      let w := wordAt p.payload 0
      let h := p.hearth
      let pairs := slotPairs p.sect w
      maskOk s h p.sect (fld w 0 8) → zeroAt w 8 8 → zeroAt w 26 6 → pairs.all (fun e => decide (e.2 ≤ 1023)) →
      (secAt s h p.sect).state ≠ .cold → pairs.all (fun e => (pathAt s h e.1).enabled) → s.cpx.held.length < 256 →
      (hearthAt s h).bdc.stage.isSome →
      exec (.bdcSnapshot p) s0 = .next (parked infoBdcSnapshot p s (h * 8 + p.sect) none s)) ∧
    (∀ (p : Packet) (s0 s : State),
      Accepted infoBdcSnapshot true p s0 s →
      let w := wordAt p.payload 0
      let h := p.hearth
      let pairs := slotPairs p.sect w
      maskOk s h p.sect (fld w 0 8) → zeroAt w 8 8 → zeroAt w 26 6 → pairs.all (fun e => decide (e.2 ≤ 1023)) →
      (secAt s h p.sect).state ≠ .cold → pairs.all (fun e => (pathAt s h e.1).enabled) → s.cpx.held.length < 256 →
      (hearthAt s h).bdc.stage.isSome = false →
      exec (.bdcSnapshot p) s0 = .next (parked infoBdcSnapshot p s (h * 8 + p.sect) none (stageFor false h p.sect w s))) ∧
    (∀ (p : Packet) (s0 s : State),
      Accepted infoBdcRestore true p s0 s →
      let w := wordAt p.payload 0
      let h := p.hearth
      let pairs := slotPairs p.sect w
      maskOk s h p.sect (fld w 0 8) → zeroAt w 8 8 → zeroAt w 26 6 → pairs.all (fun e => decide (e.2 ≤ 1023)) →
      (secAt s h p.sect).state ≠ .cold → pairs.all (fun e => (pathAt s h e.1).enabled) → s.cpx.held.length < 256 →
      (hearthAt s h).bdc.stage.isSome →
      exec (.bdcRestore p) s0 = .next (parked infoBdcRestore p s (h * 8 + p.sect) none s)) ∧
    (∀ (p : Packet) (s0 s : State),
      Accepted infoBdcRestore true p s0 s →
      let w := wordAt p.payload 0
      let h := p.hearth
      let pairs := slotPairs p.sect w
      maskOk s h p.sect (fld w 0 8) → zeroAt w 8 8 → zeroAt w 26 6 → pairs.all (fun e => decide (e.2 ≤ 1023)) →
      (secAt s h p.sect).state ≠ .cold → pairs.all (fun e => (pathAt s h e.1).enabled) → s.cpx.held.length < 256 →
      (hearthAt s h).bdc.stage.isSome = false → pairs.all (fun e => restorable s h e.1 e.2) →
      exec (.bdcRestore p) s0 = .next (parked infoBdcRestore p s (h * 8 + p.sect) none (stageFor true h p.sect w s)))

/-- The end of a snapshot or a restore, the publication of a measurement, the end of acquisition, a freeze, a step of
the compaction of tap memory, and the clear of its counts each answer the next state the spec gives. (R133, R127,
R119, R114, R118, R107, R135). -/
def Obligations.CancellerEvents : Prop :=
    (∀ (h : Nat) (i : Nat) (s : State),
      ∀ g, (hearthAt s h).bdc.stage = some g →
      present s h →
      g.restore = false →
      g.sect = i →
      exec (.snapshotDramDone h i) s = .next (
        let t := modBdc h (fun b => { b with slots := g.items.foldl (fun m e => kset m e.2.1 e.2.2) b.slots }) s
        let t := each g.items (fun e => emit h 0x0313 ([e.1] ++ bytesOf 2 e.2.1)) t
        let time := (g.items.head?.map fun e => e.2.2.time).getD (nextTime s)
        let t := match stageOwner t h g with | some c => endHeldAt (some time) c .ok [] t | none => t
        freeStage h t)) ∧
    (∀ (h : Nat) (i : Nat) (s : State),
      ∀ g, (hearthAt s h).bdc.stage = some g →
      present s h →
      g.restore →
      g.sect = i →
      exec (.restoreApply h i) s = .next (modBdc h
          (fun b => { b with stage := some { g with tick := s.tbu.tick + 1 } }) s)) ∧
    (∀ (h : Nat) (n : Nat) (s : State),
      let x := pathAt s h n
      present s h →
      x.enabled →
      2 ^ (x.measLog2 - 3) ≤ x.cur.ticks →
      let bs := (x.cur :: x.blocks).take 8
      let eh := tapEnergy x
      let shut := modPath h n (fun y => { y with cur := {}, blocks := bs }) s
      residualEnergy x.len eh bs = none →
      exec (.bdcMeasPublish h n) s = .next (shut)) ∧
    (∀ (h : Nat) (n : Nat) (s : State),
      let x := pathAt s h n
      present s h →
      x.enabled →
      2 ^ (x.measLog2 - 3) ≤ x.cur.ticks →
      let bs := (x.cur :: x.blocks).take 8
      let eh := tapEnergy x
      let shut := modPath h n (fun y => { y with cur := {}, blocks := bs }) s
      ∀ all, residualEnergy x.len eh bs = some all →
      exec (.bdcMeasPublish h n) s = .next (
        let ed := match residualEnergy x.len eh [x.cur] with
          | some one => if 1536 ≤ logRatio (one.1 * all.2) (one.2 * all.1) then one else all
          | none => all
        let coupling := logRatio eh.1 eh.2
        let residual := logRatio ed.1 ed.2
        let supp := clampInt 0 20480 (coupling - residual)
        let t := modPath h n (fun y => { y with
          coupling := coupling, residual := residual, supp := supp, published := true, pubTick := s.tbu.tick + 1, stale := false
          ehEd := (eh.1 * ed.2, ed.1 * eh.2, eh.2 * ed.2), peakLag := y.decor + peakTap y.taps
          acq := y.acq && decide (supp < 7680) }) shut
        publishSupp h (n / 8) (pathRx n) t)) ∧
    (∀ (h : Nat) (n : Nat) (s : State),
      let x := pathAt s h n
      present s h →
      x.enabled →
      x.acq →
      x.acqTick + 96 * x.track ≤ s.tbu.tick →
      exec (.acquisitionEnd h n) s = .next (modPath h n (fun y => { y with acq := false }) s)) ∧
    (∀ (h : Nat) (n : Nat) (s : State),
      let x := pathAt s h n
      present s h →
      x.enabled →
      x.mode = 0 →
      x.frozen = false →
      480 ≤ x.suspRun →
      exec (.pathFreeze h n) s = .next (setFrozen h n true
          (if x.susp % 2 = 1 then 1 else if x.susp / 2 % 2 = 1 then 2 else 3) s)) ∧
    (∀ (h : Nat) (s : State),
      let b := (hearthAt s h).bdc
      present s h →
      b.reloc →
      (¬((enabledPaths s h).any (fun p => (pathAt s h p).moveTo.isSome))) →
      ∀ p slot, nextMove (runs s h) 0 = some (p, slot) →
      exec (.bdcCompactionStep h) s = .next (modPath h p (fun x => { x with moveTo := some slot }) (modBdc h
          (fun y => { y with relocMoved := y.relocMoved + 1 }) s))) ∧
    (∀ (h : Nat) (s : State),
      let b := (hearthAt s h).bdc
      present s h →
      b.reloc →
      (¬((enabledPaths s h).any (fun p => (pathAt s h p).moveTo.isSome))) →
      nextMove (runs s h) 0 = none →
      exec (.bdcCompactionStep h) s = .next (
        let t := modBdc h (fun y => { y with reloc := false }) (placePaths h s)
        let t := emit h 0x0315 (bytesOf 2 b.relocMoved ++ bytesOf 2 (s.tbu.tick - b.relocStart)) t
        endHeldFor 0x0301 h .ok (loadWords t h) t)) ∧
    (∀ (h : Nat) (s : State),
      present s h →
      writable s →
      exec (.bdcCntClr h) s = .next (
        let t := each (List.range 64) (fun p => modPath h p fun x => { x with skip := 0, tapSat := 0, shown := x.shown.set 7 0 }) (modBdc h (fun b => { b with deferCount := 0 }) s)
        each (List.range 8) (fun i => modSec h i fun x => { x with bdc := { x.bdc with esat := 0 } }) t))

/-- The damper's commands, its line detection, a half-period of a tone test, the expiry of a mask, a stale input and
the clear of its counts each answer the next state the spec gives. (R153, R154, R155, R156, R147, R149, R151, R159,
R157). -/
def Obligations.DamperRows : Prop :=
    (∀ (p : Packet) (s0 s : State),
      Accepted infoDmpConfig true p s0 s →
      let w (k : Nat) : Word := wordAt p.payload k
      let backoff := fld (w 2) 0 4
      let marginOk (lo : Nat) : Bool := decide (0x600 ≤ fld (w 0) lo 16) && decide (fld (w 0) lo 16 ≤ 0x2800)
      let isoOk (lo : Nat) : Bool := decide (fld (w 1) lo 16 ≤ 0x7800)
      groupRule p s →
      (secAt s p.hearth p.sect).state ≠ .cold →
      marginOk 0 →
      marginOk 16 →
      isoOk 0 →
      isoOk 16 →
      1 ≤ backoff →
      backoff ≤ 12 →
      zeroAt (w 2) 4 28 →
      exec (.dmpConfig p) s0 = .next (
        let set (lo : Nat) (y : DmpDir) : DmpDir := { y with margin := fld (w 0) lo 16, isoCfg := fld (w 1) lo 16 }
        answered infoDmpConfig p s [] (modDir p.hearth p.sect 1 (set 16) (modDir p.hearth p.sect 0 (set 0)
          (modDmp p.hearth p.sect (fun x => { x with backoff := backoff }) s))))) ∧
    (∀ (p : Packet) (s0 s : State),
      Accepted infoDmpQuery true p s0 s →
      (secAt s p.hearth p.sect).state ≠ .cold →
      exec (.dmpQuery p) s0 = .next (answered infoDmpQuery p s (dmpWords s p.hearth p.sect) s)) ∧
    (∀ (p : Packet) (s0 s : State),
      Accepted infoDmpStrangerClear true p s0 s →
      groupRule p s →
      (secAt s p.hearth p.sect).state ≠ .cold →
      exec (.dmpStrangerClear p) s0 = .next (answered infoDmpStrangerClear p s [] (modDmp p.hearth p.sect
          (fun x => { x with br := x.br.map fun y => { y with masks := [] } }) s))) ∧
    (∀ (p : Packet) (s0 s : State),
      Accepted infoDmpGroupCeil true p s0 s →
      let w := wordAt p.payload 0
      (secAt s p.hearth p.sect).defn.any (·.group) →
      exec (.dmpGroupCeil p) s0 = .next (answered infoDmpGroupCeil p s [] (setGroupCeil p.hearth p.sect (sfld w 0 16)
          (sfld w 16 16) s))) ∧
    (∀ (h : Nat) (i : Nat) (d : Nat) (b : Nat) (first : Nat) (last : Nat) (s : State),
      let x := secAt s h i
      ∀ e, x.defn = some e →
      present s h →
      transmits x.state →
      d < 2 →
      b < 2 →
      maskHas e.branchMask b →
      (brOf s h i (2 * d + b)).winTick = first →
      last = s.tbu.tick →
      first + windowTicks e ≤ last + 1 →
      ¬(s.arrivals.contains (.spectrum h i (2 * d + b))) →
      exec (.lineDetect h i d b first last) s = .next (arrive (.spectrum h i (2 * d + b)) s)) ∧
    (∀ (h : Nat) (i : Nat) (k : Nat) (s : State),
      captureArrival (.spectrum h i k) s = (
        modBr h i k (fun y =>
          if y.fresh < 64 then { y with fresh := 0, winTick := s.tbu.tick }
          else
            let sp := spectrumOf y.buf
            let age (m : Mask) : Mask := { m with quiet := if binAt sp m.bin < -12800 then min 480 (m.quiet + 1) else 0 }
            { y with masks := (y.masks.map age).filter (·.quiet < 480), spectra := (sp :: y.spectra).take 5, fresh := 0
                     winFrom := y.winTick, winTick := s.tbu.tick, due := true }) s)) ∧
    (∀ (h : Nat) (i : Nat) (d : Nat) (s : State),
      present s h →
      d < 2 →
      exec (.toneTestHalfPeriod h i d) s = .next (endHalf h i d s)) ∧
    (∀ (h : Nat) (i : Nat) (d : Nat) (b : Nat) (bin : Nat) (s : State),
      present s h →
      exec (.strangerMaskExpiry h i d b bin) s = .next (modBr h i (2 * d + b)
          (fun y => { y with masks := y.masks.filter fun m => !(m.bin == bin && decide (480 ≤ m.quiet)) }) s)) ∧
    (∀ (h : Nat) (n : Nat) (s : State),
      let x := pathAt s h n
      present s h →
      x.enabled →
      x.mode ≠ 2 →
      x.stale = false →
      x.pubTick + 2 * 2 ^ x.measLog2 ≤ s.tbu.tick →
      exec (.inputStale h n) s = .next (raiseSource h 226 (modPath h n (fun y => { y with stale := true }) s))) ∧
    (∀ (h : Nat) (s : State),
      present s h →
      writable s →
      exec (.dmpCntClr h) s = .next (
        each (List.range 8) (fun i => modSec h i fun x => { x with
          dmp := { x.dmp with onsets := 0, strangers := 0, tests := 0 }, dmpShown := x.dmpShown.set 6 0 }) s ))

/-- The arrestor's commands, its activity windows, the noise floor, the duty limit, a switch mismatch, a retry, the
end of the quench history, a reload of the limits, an edge of a TDD pattern and the clear of its counts each answer
the next state the spec gives. (R182, R183, R184, R164, R166, R165, R176, R172, R179, R187, R171, R185). -/
def Obligations.ArrestorRows : Prop :=
    (∀ (p : Packet) (s0 s : State),
      Accepted infoSpaConfig true p s0 s →
      groupRule p s →
      (secAt s p.hearth p.sect).state ≠ .cold →
      spaCfgOk p.payload →
      exec (.spaConfig p) s0 = .next (answered infoSpaConfig p s [] (modSpa p.hearth p.sect
          (fun sp => { sp with cfg := spaCfgOf p.payload }) s))) ∧
    (∀ (p : Packet) (s0 s : State),
      Accepted infoSpaQuery true p s0 s →
      (secAt s p.hearth p.sect).state ≠ .cold →
      exec (.spaQuery p) s0 = .next (answered infoSpaQuery p s (spaWords s p.hearth p.sect) s)) ∧
    (∀ (p : Packet) (s0 s : State),
      Accepted infoSpaHistoryClear true p s0 s →
      groupRule p s →
      (secAt s p.hearth p.sect).state ≠ .cold →
      exec (.spaHistoryClear p) s0 = .next (answered infoSpaHistoryClear p s [] (modSpa p.hearth p.sect
          (fun sp => { sp with qSeq := 0, history := [] }) s))) ∧
    (∀ (h : Nat) (i : Nat) (b : Nat) (first : Nat) (s : State),
      let x := secAt s h i
      ∀ d, x.defn = some d →
      present s h →
      transmits x.state →
      b < 2 →
      maskHas d.branchMask b →
      x.spa.sqTick.getD b 0 = first →
      first + squelchTicks d ≤ s.tbu.tick + 1 →
      exec (.squelchWindow h i b first) s = .next (arrive (.squelch h i b) (modSpa h i
          (fun sp => { sp with sqTick := sp.sqTick.set b (s.tbu.tick + 1) }) s))) ∧
    (∀ (h : Nat) (i : Nat) (b : Nat) (s : State),
      let x := secAt s h i
      let u := modSpa h i (fun sp => { sp with sqSum := sp.sqSum.set b (0, 0) }) s
      x.defn = none →
      captureArrival (.squelch h i b) s = (u)) ∧
    (∀ (h : Nat) (i : Nat) (b : Nat) (s : State),
      let x := secAt s h i
      let w := x.spa.sqSum.getD b (0, 0)
      let u := modSpa h i (fun sp => { sp with sqSum := sp.sqSum.set b (0, 0) }) s
      ∀ d, x.defn = some d →
      transmits x.state →
      32 ≤ w.2 →
      let nw := windowDensity x d b (meanOf w)
      let t := updateFloor h i (modSpa h i (fun sp => { sp with subMins := sp.subMins.modify b (minInto nw) }) u)
      let sp := (secAt t h i).spa
      sp.noiseUse.getD b logMax + 256 * (sp.cfg.actThresh : Int) ≤ nw →
      captureArrival (.squelch h i b) s = (setIdle h i false (modSpa h i
          (fun y => { y with activeTick := u.tbu.tick }) t))) ∧
    (∀ (h : Nat) (i : Nat) (b : Nat) (s : State),
      let x := secAt s h i
      let w := x.spa.sqSum.getD b (0, 0)
      let u := modSpa h i (fun sp => { sp with sqSum := sp.sqSum.set b (0, 0) }) s
      ∀ d, x.defn = some d →
      transmits x.state →
      32 ≤ w.2 →
      let nw := windowDensity x d b (meanOf w)
      let t := updateFloor h i (modSpa h i (fun sp => { sp with subMins := sp.subMins.modify b (minInto nw) }) u)
      let sp := (secAt t h i).spa
      nw < sp.noiseUse.getD b logMax + 256 * (sp.cfg.actThresh : Int) →
      captureArrival (.squelch h i b) s = (t)) ∧
    (∀ (h : Nat) (i : Nat) (b : Nat) (s : State),
      let x := secAt s h i
      let w := x.spa.sqSum.getD b (0, 0)
      let u := modSpa h i (fun sp => { sp with sqSum := sp.sqSum.set b (0, 0) }) s
      ∀ d, x.defn = some d →
      ¬(transmits x.state && decide (32 ≤ w.2)) →
      captureArrival (.squelch h i b) s = (u)) ∧
    (∀ (h : Nat) (i : Nat) (s : State),
      let x := secAt s h i
      present s h →
      transmits x.state →
      x.spa.ulIdle = false →
      x.spa.activeTick < s.tbu.tick →
      x.spa.activeTick + x.spa.cfg.hang ≤ s.tbu.tick →
      exec (.uplinkIdle h i) s = .next (setIdle h i true s)) ∧
    (∀ (h : Nat) (i : Nat) (s : State),
      let x := secAt s h i
      present s h →
      transmits x.state →
      30000 ≤ x.spa.subTick →
      exec (.noiseFloorSubperiod h i) s = .next (
        updateFloor h i (modSpa h i (fun sp => { sp with
          subTick := sp.subTick - 30000, subMins := sp.subMins.map fun m => (logMax :: m).take 16 }) s))) ∧
    (∀ (h : Nat) (i : Nat) (d : Nat) (s : State),
      let x := secAt s h i
      ∀ e, x.defn = some e →
      let limit := dutyLimit s h e d
      ∀ clk, dutyClock x.spa d limit = some clk →
      present s h →
      d < 2 →
      e.tdd →
      x.spa.dutyClosed.getD d true = false →
      clk ≤ s.tbu.clock + s.tbu.tickLen →
      exec (.dutyLimitReached h i d) s = .next (
        arrive (.dutyGate h i d limit)
          (updateGates (max clk s.tbu.clock) h i (modSpa h i (fun sp => { sp with
            dutyClosed := sp.dutyClosed.set d true, dutyAt := sp.dutyAt.set d clk }) s)))) ∧
    (∀ (h : Nat) (x : PinChange) (s : State),
      let g := (hearthAt s h).fes.gpio.getD x.pin {}
      present s h →
      x.pin < 16 →
      (g.func == 2 || g.func == 3) →
      inTick s x.clk →
      lineDisagrees s h x.pin x.clk x.level →
      exec (.switchMismatch h x) s = .next (
        let c := 2 * (g.func - 2) + g.idx % 2
        arrive (.mismatch h c) (each ((tddUsers s h c).filter fun i => transmits (secAt s h i).state) (fun i t =>
          updateGates x.clk h i (shutGate x.clk h i t)) s))) ∧
    (∀ (h : Nat) (i : Nat) (s : State),
      let x := secAt s h i
      present s h →
      x.state = .quenched →
      x.spa.latched = false →
      (x.spa.retryAt.any (fun t => decide (t ≤ s.tbu.tick))) →
      exec (.quenchRetry h i) s = .next (retry h i s)) ∧
    (∀ (h : Nat) (i : Nat) (s : State),
      present s h →
      latchWindow ≤ (secAt s h i).spa.okTicks →
      exec (.quenchHistoryReset h i) s = .next (modSpa h i (fun sp => { sp with qSeq := 0 }) s)) ∧
    (∀ (h : Nat) (s : State),
      present s h →
      (hearthAt s h).fbCopyBad →
      exec (.limitCopyReload h) s = .next (reloadLimits h s)) ∧
    (∀ (h : Nat) (n : Nat) (clk : Nat) (s : State),
      present s h →
      n < 8 →
      inTick s clk →
      exec (.tddPatternEdge h n clk) s = .next (followPattern h n clk s)) ∧
    (∀ (h : Nat) (s : State),
      present s h →
      writable s →
      exec (.spaCntClr h) s = .next (
        each (List.range 8) (fun i => modSec h i fun x => { x with
          spa := { x.spa with quenches := 0, latches := 0, squelches := 0 }, spaShown := x.spaShown.set 12 0 }) s ))

/-- An accepted LOOP_CONFIG, LOOP_QUERY, LOOP_CLOSE, LOOP_OPEN, LOOP_MODE, LOOP_SETPOINT, LOOP_TUNE, LOOP_TABLE or
SETPT_CONFIG, in each of its forms, answers a next state with the effect the spec gives. (R218, R219, R220, R206,
R221, R222, R223, R224, R225). -/
def Obligations.LoopCommandsComplete : Prop :=
    (∀ (p : Packet) (s0 s : State),
      Accepted infoLoopConfig true p s0 s →
      let h := p.hearth
      let n := slotIn p
      let x := loopIn p s
      let c := loopCfgOf p.payload
      let full : LoopCfg := { c with act := if x.bound.isSome then 1 else c.act }
      loopGroup p s →
      x.state = 0 →
      loopZeroBits p.payload →
      loopCfgOk x.bound.isSome x.mode c →
      actTaken s h n c = false →
      (c.measSrc != 4 || decide (channelsBut s h n < 16)) →
      costMax (cfgsWith s h n full) ≤ costBudget →
      exec (.loopConfig p) s0 = .next (answered infoLoopConfig p s [] (applyLoop h n c s))) ∧
    (∀ (p : Packet) (s0 s : State),
      Accepted infoLoopQuery true p s0 s →
      zeroAt (wordAt p.payload 0) 6 26 →
      exec (.loopQuery p) s0 = .next (answered infoLoopQuery p s (loopCfgWords (slotIn p)
          (loopIn p s).cfg ++ loopRegs (loopIn p s)) s)) ∧
    (∀ (p : Packet) (s0 s : State),
      Accepted infoLoopClose true p s0 s →
      let x := loopIn p s
      zeroAt (wordAt p.payload 0) 6 26 →
      !(modeNeeds x.mode && x.cfg.measSrc == 0) →
      !(x.mode == 3 && x.table.isEmpty) →
      x.state ≠ 2 →
      x.state = 1 →
      exec (.loopClose p) s0 = .next (answered infoLoopClose p s [] s)) ∧
    (∀ (p : Packet) (s0 s : State),
      Accepted infoLoopClose true p s0 s →
      let x := loopIn p s
      zeroAt (wordAt p.payload 0) 6 26 →
      !(modeNeeds x.mode && x.cfg.measSrc == 0) →
      !(x.mode == 3 && x.table.isEmpty) →
      x.state ≠ 2 →
      x.state ≠ 1 →
      exec (.loopClose p) s0 = .next (answered infoLoopClose p s [] (closeSlot p.hearth (slotIn p) s))) ∧
    (∀ (p : Packet) (s0 s : State),
      Accepted infoLoopOpen true p s0 s →
      let x := loopIn p s
      zeroAt (wordAt p.payload 0) 6 26 →
      x.state = 0 →
      exec (.loopOpen p) s0 = .next (answered infoLoopOpen p s [] s)) ∧
    (∀ (p : Packet) (s0 s : State),
      Accepted infoLoopOpen true p s0 s →
      let n := slotIn p
      let x := loopIn p s
      zeroAt (wordAt p.payload 0) 6 26 →
      x.state ≠ 0 →
      x.state = 2 →
      exec (.loopOpen p) s0 = .next (answered infoLoopOpen p s [] (endTune p.hearth n 4 x.cfg s))) ∧
    (∀ (p : Packet) (s0 s : State),
      Accepted infoLoopOpen true p s0 s →
      let n := slotIn p
      let x := loopIn p s
      zeroAt (wordAt p.payload 0) 6 26 →
      x.state ≠ 0 →
      x.state ≠ 2 →
      exec (.loopOpen p) s0 = .next (answered infoLoopOpen p s [] (openSlot p.hearth n s))) ∧
    (∀ (p : Packet) (s0 s : State),
      Accepted infoLoopMode true p s0 s →
      loopGroup p s →
      loopModeOk s.ident.part p.payload (loopIn p s) →
      exec (.loopMode p) s0 = .next (answered infoLoopMode p s [] (modLoop p.hearth (slotIn p)
          (modeSet s.setpt p.payload) s))) ∧
    (∀ (p : Packet) (s0 s : State),
      Accepted infoLoopSetpoint true p s0 s →
      let w := wordAt p.payload 0
      loopGroup p s →
      zeroAt w 6 10 →
      exec (.loopSetpoint p) s0 = .next (answered infoLoopSetpoint p s [] (modLoop p.hearth (slotIn p)
          (fun l => { l with spTgt := sfld w 16 16 }) s))) ∧
    (∀ (p : Packet) (s0 s : State),
      Accepted infoLoopTune true p s0 s →
      let h := p.hearth
      let n := slotIn p
      let w := wordAt p.payload 0
      let x := loopIn p s
      let amp : Int := x.cfg.relayAmp
      zeroAt w 6 2 →
      zeroAt w 9 23 →
      loopGroup p s →
      x.state = 0 →
      tuneSection s h x →
      x.cfg.measSrc ≠ 0 →
      x.cfg.outMin ≤ x.openOut - amp →
      x.openOut + amp ≤ x.cfg.outMax →
      s.cpx.held.length < 256 →
      exec (.loopTune p) s0 = .next (parked infoLoopTune p s (h * 64 + n) none (setLoop h n 2 (modLoop h n
          (fun l => { l with tune := some { apply := bitOf w 8 }, tuneStatus := 1, upswitch := 0 }) s)))) ∧
    (∀ (p : Packet) (s0 s : State),
      Accepted infoLoopTable (p.payload.length == 1 + fld (wordAt p.payload 0) 8 5) p s0 s →
      let x := loopIn p s
      loopGroup p s →
      x.state = 0 →
      loopTableOk p.payload x.cfg →
      exec (.loopTable p) s0 = .next (answered infoLoopTable p s [] (modLoop p.hearth (slotIn p)
          (fun l => { l with table := tablePoints p.payload }) s))) ∧
    (∀ (p : Packet) (s0 s : State),
      Accepted infoSetptConfig true p s0 s →
      let ws := p.payload
      s.ident.part = .brd880 →
      setptOk ws →
      exec (.setptConfig p) s0 = .next (
        answered infoSetptConfig p s [] { s with setpt := { s.setpt with
          pfm := bitOf (wordAt ws 0) 0, aMin := fld (wordAt ws 0) 16 12, aMax := fld (wordAt ws 1) 0 12, fLo := (wordAt ws 2).toNat
          fHi := (wordAt ws 3).toNat } }))

/-- The end of a hand-over, of a lost hold, of a relay test out of time, of a ramp in EXTERNAL mode, a change of a
set-point pin's validity, and the clear of the counts each answer the next state the spec gives. (R209, R212, R215,
R203, R205, R226). -/
def Obligations.LoopEvents : Prop :=
    (∀ (h : Nat) (n : Nat) (s : State),
      present s h →
      exec (.handoverEnd h n) s = .next (endHandover h n s)) ∧
    (∀ (h : Nat) (n : Nat) (s : State),
      present s h →
      exec (.lostHoldExpiry h n) s = .next (lostHoldEnd h n s)) ∧
    (∀ (h : Nat) (n : Nat) (s : State),
      present s h →
      exec (.tuneTimeout h n) s = .next (tuneTimeout h n s)) ∧
    (∀ (h : Nat) (n : Nat) (s : State),
      present s h →
      exec (.externalRampTimeout h n) s = .next (externalRampEnd h n s)) ∧
    (∀ (pin : Nat) (x : SetptChange) (s : State),
      s.ident.part = .brd880 →
      pin < 2 →
      pin = 0 →
      exec (.setptValidityChange pin x) s = .next { s with setpt := { s.setpt with aCode := x.code % 4096 } }) ∧
    (∀ (pin : Nat) (x : SetptChange) (s : State),
      s.ident.part = .brd880 →
      pin < 2 →
      pin ≠ 0 →
      exec (.setptValidityChange pin x) s = .next { s with setpt := { s.setpt with pin := x.shows } }) ∧
    (∀ (h : Nat) (s : State),
      present s h →
      writable s →
      exec (.blwCntClr h) s = .next (modHearth h
          (fun x => { x with loops := x.loops.map fun l => { l with sat := 0, losses := 0, handovers := 0, shown := l.shown.set 7 0 } }) s))

/-- A lock, a failed attempt, a lost lock, the end of a wait for lock, a supply read, the evaluation of a port, the
end of a trim delay and a reload of a step table each answer the next state the spec gives. (R237, R238, R240, R248,
R251, R249, R274). -/
def Obligations.SynthesiserAndPortEvents : Prop :=
    (∀ (h : Nat) (n : Nat) (ns : Nat) (s : State),
      present s h →
      n < 4 →
      tuning (synAt s h n) →
      exec (.synLocked h n ns) s = .next (arrive (.synLocked h n ns) s)) ∧
    (∀ (h : Nat) (n : Nat) (ns : Nat) (s : State),
      tuning (synAt s h n) →
      captureArrival (.synLocked h n ns) s = (
        let time := satCount 8 (ceilDiv ns 250)
        let t := clearSource h (64 + n) (modSyn h n (fun x => { x with changes := incSat 16 x.changes, time := time, tries := 0 }) s)
        let t := emit h 0x0711 ([n] ++ bytesOf 4 (synAt t h n).freq ++ [time]) (setSyn h n 3 t)
        locksArrived h (hearthGates h t))) ∧
    (∀ (h : Nat) (n : Nat) (s : State),
      present s h →
      n < 4 →
      tuning (synAt s h n) →
      exec (.synAttemptFail h n) s = .next (arrive (.synFailed h n) s)) ∧
    (∀ (h : Nat) (n : Nat) (s : State),
      tuning (synAt s h n) →
      let t := modSyn h n (fun x => { x with fails := incSat 8 x.fails, tries := x.tries + 1 }) s
      3 ≤ (synAt t h n).tries →
      captureArrival (.synFailed h n) s = (holdSource h (68 + n) (clearSource h (64 + n) (setSyn h n 4 t)))) ∧
    (∀ (h : Nat) (n : Nat) (s : State),
      tuning (synAt s h n) →
      let t := modSyn h n (fun x => { x with fails := incSat 8 x.fails, tries := x.tries + 1 }) s
      (synAt t h n).tries < 3 →
      captureArrival (.synFailed h n) s = (setSyn h n 1 t)) ∧
    (∀ (h : Nat) (x : LockLoss) (s : State),
      present s h →
      x.n < 4 →
      inTick s x.clk →
      (synAt s h x.n).state = 3 →
      (synAt s h x.n).lostAt.isNone →
      exec (.synLockLost h x) s = .next (arrive (.synLost h x.n) (each (List.range 8) (updateGates x.clk h)
          (modSyn h x.n (fun y => { y with lostAt := some x.clk }) s)))) ∧
    (∀ (h : Nat) (n : Nat) (s : State),
      (synAt s h n).state = 3 →
      (synAt s h n).lostAt.isSome →
      captureArrival (.synLost h n) s = (
        let users := (List.range 8).filter fun i => (synsOf s h i).contains n
        let t := holdSource h (64 + n) (modSyn h n (fun x => { x with lockLoss := incSat 8 x.lockLoss }) s)
        hearthGates h (repeatSyn h n (each users (quench 2 n h) t)))) ∧
    (∀ (h : Nat) (i : Nat) (s : State),
      present s h →
      exec (.synthWaitExpiry h i) s = .next (
        each ((startHeld s h i).filter fun c => c.deadline.any fun d => decide (d ≤ s.tbu.tick)) (fun c t =>
          if losLocked t h i then retryStart h i c t
          else endHeld c .synthNotReady [] (noLockEvent h i t)) s)) ∧
    (∀ (h : Nat) (n : Nat) (value : Option Nat) (s : State),
      let x := portAt s h n
      present s h →
      n < 4 →
      x.cfg.supSrc = 2 →
      exec (.pmbusSupplyRead h n value) s = .next (modPort h n (takeSupply (value.bind fun v => voutMv x.voutMode
          (v % 65536))) s)) ∧
    (∀ (h : Nat) (n : Nat) (s : State),
      let x := portAt s h n
      present s h →
      n < 4 →
      x.cfg.auto →
      s.tbu.tick % 480 = 0 →
      let d := if x.change.isSome then 0 else if missAt s h n 0 ≠ 0 then rangeMove s h n else sumMove s h n
      let t := modPort h n (fun y => { y with sumPk := y.pkNow.getD y.sumPk, pkNow := none, satSince := false }) s
      d = 0 →
      exec (.portEvaluation h n) s = .next (t)) ∧
    (∀ (h : Nat) (n : Nat) (s : State),
      let x := portAt s h n
      present s h →
      n < 4 →
      x.cfg.auto →
      s.tbu.tick % 480 = 0 →
      let d := if x.change.isSome then 0 else if missAt s h n 0 ≠ 0 then rangeMove s h n else sumMove s h n
      let t := modPort h n (fun y => { y with sumPk := y.pkNow.getD y.sumPk, pkNow := none, satSince := false }) s
      d ≠ 0 →
      let target := (clampInt x.cfg.stepMin x.cfg.stepMax ((x.step : Int) + d)).toNat
      target = x.step →
      exec (.portEvaluation h n) s = .next (t)) ∧
    (∀ (h : Nat) (n : Nat) (s : State),
      let x := portAt s h n
      present s h →
      n < 4 →
      x.cfg.auto →
      s.tbu.tick % 480 = 0 →
      let d := if x.change.isSome then 0 else if missAt s h n 0 ≠ 0 then rangeMove s h n else sumMove s h n
      let t := modPort h n (fun y => { y with sumPk := y.pkNow.getD y.sumPk, pkNow := none, satSince := false }) s
      d ≠ 0 →
      let target := (clampInt x.cfg.stepMin x.cfg.stepMax ((x.step : Int) + d)).toNat
      target ≠ x.step →
      exec (.portEvaluation h n) s = .next (stageStep h n target 1 t)) ∧
    (∀ (h : Nat) (n : Nat) (s : State),
      let x := portAt s h n
      present s h →
      x.trimWant ≠ x.trim →
      (x.trimSince.any (fun t => decide (t + 480 ≤ s.tbu.tick + 1))) →
      exec (.trimDelayExpiry h n) s = .next (modPort h n (fun y => { y with trimDue := true }) s)) ∧
    (∀ (h : Nat) (n : Nat) (s : State),
      present s h →
      (portAt s h n).eccReload.isSome →
      exec (.stepTableReload h n) s = .next (reloadTable h n s))

/-- An accepted RADIO_CONFIG, PWR_TABLE_WRITE, PWR_PORT_CONFIG, FES_CONFIG, FES_GPIO_CONFIG, FES_SEQ_WRITE or
FES_BUS_ACCESS answers a next state with the effect the spec gives. (R262, R263, R264, R265, R266, R267, R268). -/
def Obligations.RadioCommandsComplete : Prop :=
    (∀ (p : Packet) (s0 s : State),
      Accepted infoRadioConfig true p s0 s →
      radioOk p.payload →
      (¬((targets p s).any fun h => radioBusy p.payload h s)) →
      exec (.radioConfig p) s0 = .next (answered infoRadioConfig p s [] (each (targets p s) (applyRadio p.payload) s))) ∧
    (∀ (p : Packet) (s0 s : State),
      Accepted infoPwrTableWrite (tableLength p.payload) p s0 s →
      let w := wordAt p.payload 0
      let c := fld w 0 2
      let first := fld w 8 8
      let count := fld w 16 9
      let es := stepPairs (p.payload.drop 1) first count
      let ok (h : Nat) : Bool := tableRises (es.foldl (fun m e => kset m e.1 e.2) (portAt s h c).table)
      zeroAt w 2 6 →
      zeroAt w 25 7 →
      count ≠ 0 →
      first + count ≤ 256 →
      (es.all (fun e => stepOk e.2)) →
      (targets p s).all ok →
      (¬((targets p s).any fun h => busyIdx s h c)) →
      exec (.pwrTableWrite p) s0 = .next (answered infoPwrTableWrite p s [] (each (targets p s)
          (fun h t => refreshPort h (modPort h c (putSteps es) t)) s))) ∧
    (∀ (p : Packet) (s0 s : State),
      Accepted infoPwrPortConfig true p s0 s →
      portCfgOk p.payload →
      exec (.pwrPortConfig p) s0 = .next (answered infoPwrPortConfig p s [] (each (targets p s)
          (applyPort p.payload) s))) ∧
    (∀ (p : Packet) (s0 s : State),
      Accepted infoFesConfig true p s0 s →
      let ws := p.payload
      fesOk ws →
      ¬((targets p s).any (sequencesRun s)) →
      ((targets p s).all fun h => limitsOk (hearthAt s h).fes (rffeOf ws) (spiOf ws)) →
      exec (.fesConfig p) s0 = .next (
        answered infoFesConfig p s [] (each (targets p s) (fun h => modFes h fun f => { f with
          rffeDiv := rffeOf ws, spiDiv := spiOf ws, spiMode := [fld (wordAt ws 2) 12 2, fld (wordAt ws 2) 28 2] }) s))) ∧
    (∀ (p : Packet) (s0 s : State),
      Accepted infoFesGpioConfig true p s0 s →
      let n := fld (wordAt p.payload 0) 0 4
      ((targets p s).all fun h => gpioOk p.payload h s) →
      ¬((targets p s).any (hearthTransmits s)) →
      exec (.fesGpioConfig p) s0 = .next (
        answered infoFesGpioConfig p s [] (each (targets p s) (fun h t =>
          driveTdd h (t.tbu.clock + t.tbu.tickLen) (modFes h (fun f => { f with
            gpio := f.gpio.set n (gpioOf p.payload), tddLine := kerase f.tddLine n }) t)) s))) ∧
    (∀ (p : Packet) (s0 s : State),
      Accepted infoFesSeqWrite (seqLength p.payload) p s0 s →
      let ws := p.payload
      let fes (h : Nat) : Fes := (hearthAt s h).fes
      ((targets p s).all fun h => seqFieldsOk ws (fes h)) →
      ((targets p s).all fun h => limitsOk (seqApplied ws (fes h)) (fes h).rffeDiv (fes h).spiDiv) →
      (¬((targets p s).any fun h => (seqTouched ws (fes h)).any (eventRuns s h))) →
      exec (.fesSeqWrite p) s0 = .next (answered infoFesSeqWrite p s [] (each (targets p s) (fun h => modFes h
          (seqApplied ws)) s))) ∧
    (∀ (p : Packet) (s0 s : State),
      Accepted infoFesBusAccess true p s0 s →
      let e : SeqEntry := (wordAt p.payload 0, wordAt p.payload 1)
      accessOk e →
      s.cpx.held.length < 256 →
      exec (.fesBusAccess p) s0 = .next (parked infoFesBusAccess p s p.hearth none (modFes p.hearth
          (fun f => if f.bus.isNone then { f with bus := some e, busHeld := true, busEnd := none } else f) s)))

/-- The end of an ACT or STEP sequence, of a bus operation, a read without an answer and the clear of the counts each
answer the next state the spec gives. (R260, R258, R268, R261, R269). -/
def Obligations.FrontEndEvents : Prop :=
    (∀ (h : Nat) (n : Nat) (s : State),
      present s h →
      actDone s h n →
      exec (.actSequenceEnd h n) s = .next (actEnded h n s)) ∧
    (∀ (h : Nat) (n : Nat) (s : State),
      let f := (hearthAt s h).fes
      present s h →
      f.stepSeq.getD n 0 = 2 →
      f.bndEnd.getD n 0 ≤ s.tbu.clock + s.tbu.tickLen →
      exec (.stepSequenceEnd h n) s = .next (modFes h (fun f => { f with stepSeq := f.stepSeq.set n 0 }) s)) ∧
    (∀ (h : Nat) (data : Option Nat) (clk : Nat) (s : State),
      ∀ e stop, (hearthAt s h).fes.bus = some e → (hearthAt s h).fes.busEnd = some stop →
      present s h →
      inTick s clk →
      opOf e = 7 →
      ∀ v, data = some v →
      clk ≤ stop →
      exec (.busOperationDone h data clk) s = .next (endBus .ok [BitVec.ofNat 32 (v % 2 ^ (8 * bytesIn e))] h
          (modFes h (freeBus e stop clk) s))) ∧
    (∀ (h : Nat) (data : Option Nat) (clk : Nat) (s : State),
      ∀ e stop, (hearthAt s h).fes.bus = some e → (hearthAt s h).fes.busEnd = some stop →
      present s h →
      inTick s clk →
      opOf e = 7 →
      ∀ v, data = some v →
      stop < clk →
      exec (.busOperationDone h data clk) s = .next (failRead h s)) ∧
    (∀ (h : Nat) (data : Option Nat) (clk : Nat) (s : State),
      ∀ e stop, (hearthAt s h).fes.bus = some e → (hearthAt s h).fes.busEnd = some stop →
      present s h →
      inTick s clk →
      opOf e = 7 →
      data = none →
      exec (.busOperationDone h data clk) s = .next (failRead h (modFes h (freeBus e stop clk) s))) ∧
    (∀ (h : Nat) (data : Option Nat) (clk : Nat) (s : State),
      ∀ e stop, (hearthAt s h).fes.bus = some e → (hearthAt s h).fes.busEnd = some stop →
      present s h →
      inTick s clk →
      opOf e ≠ 7 →
      stop ≤ clk →
      exec (.busOperationDone h data clk) s = .next (endBus .ok [] h s)) ∧
    (∀ (h : Nat) (s : State),
      let f := (hearthAt s h).fes
      present s h →
      (f.bus.any (fun e => opOf e == 7)) →
      (f.busEnd.any (fun c => decide (c < s.tbu.clock + s.tbu.tickLen))) →
      exec (.rffeReadTimeout h) s = .next (failRead h s)) ∧
    (∀ (h : Nat) (s : State),
      present s h →
      writable s →
      exec (.rfcCntClr h) s = .next (modFes h (fun f => { f with busErr := 0, swClip := 0, actDrop := 0 }) (modRfc h
          (fun r => { r with ovl := [0, 0, 0, 0] }) s)))

/-- The commands of live calibration, the start, completion and abandonment of an estimate, the withdrawal of a delta,
the alternation of an observation receiver and the clear of the counts each answer the next state the spec gives.
(R291, R292, R293, R294, R276, R282, R279, R288, R280, R295). -/
def Obligations.LiveCalibrationRows : Prop :=
    (∀ (p : Packet) (s0 s : State),
      Accepted infoLcalConfig true p s0 s →
      let w0 := wordAt p.payload 0
      let w1 := wordAt p.payload 1
      let mask := fld w0 0 10
      let item := fld w0 16 4
      let period := fld w1 0 13
      let win := fld w1 16 3
      item ≤ 8 →
      period ≤ 6000 →
      zeroAt w0 10 6 →
      zeroAt w0 21 11 →
      zeroAt w1 13 3 →
      zeroAt w1 19 13 →
      mask &&& (1023 - itemChains item) == 0 →
      win &&& (7 - itemWindows item) == 0 →
      exec (.lcalConfig p) s0 = .next (
        let apply (h : Nat) (t : State) : State :=
          let u := modLcalH h (fun l => { l with
            period := if period = 0 then l.period else l.period.set item period
            windows := if win = 0 ∨ item = 6 ∨ item = 7 then l.windows else l.windows.set item win }) t
          each (maskBits 10 mask) (fun n => enableItem (bitOf w0 20) h n item) u
        answered infoLcalConfig p s [] (each (targets p s) apply s))) ∧
    (∀ (p : Packet) (s0 s : State),
      Accepted infoLcalRun true p s0 s →
      let w := wordAt p.payload 0
      let n := fld w 0 4
      let item := fld w 8 4
      let h := p.hearth
      n ≤ 9 →
      zeroAt w 4 4 →
      zeroAt w 12 20 →
      maskHas (itemChains item) n →
      ¬(maskHas (hearthAt s h).lcal.hold n) →
      (heldFor s 0x0802 (runKey h n item)).isEmpty →
      s.cpx.held.length < 256 →
      exec (.lcalRun p) s0 = .next (
        parked infoLcalRun p s (runKey h n item) none (if (kget (lcalAt s h n).est item).isSome then
            modLcal h n (fun c => { c with est := c.est.map fun e => if e.1 = item then (item, { e.2 with forced := true }) else e }) s
          else startEst true h n item s))) ∧
    (∀ (p : Packet) (s0 s : State),
      Accepted infoLcalQuery true p s0 s →
      let w := wordAt p.payload 0
      fld w 0 4 ≤ 9 →
      zeroAt w 4 28 →
      exec (.lcalQuery p) s0 = .next (answered infoLcalQuery p s (chainWords s p.hearth (fld w 0 4)) s)) ∧
    (∀ (p : Packet) (s0 s : State),
      Accepted infoLcalHold true p s0 s →
      let w := wordAt p.payload 0
      let mask := fld w 0 10
      let on := bitOf w 16
      zeroAt w 10 6 →
      zeroAt w 17 15 →
      exec (.lcalHold p) s0 = .next (
        let apply (h : Nat) (t : State) : State :=
          let u := modLcalH h (fun l => { l with hold := if on then l.hold ||| mask else l.hold &&& (1023 - mask) }) t
          if on then each (maskBits 10 mask) (holdChain h) u else u
        answered infoLcalHold p s [] (each (targets p s) apply s))) ∧
    (∀ (h : Nat) (c : Nat) (item : Nat) (s : State),
      let x := lcalAt s h c
      let due : Bool := match kget x.last item with
        | none => true
        | some t => decide (t + itemPeriod s h item ≤ s.tbu.tick)
      let lock := item == 6 || item == 7 || lockedIdx s h (chainIdx s h c)
      present s h →
      (s.pkg == .ember || s.pkg == .alight) →
      itemOn s h c item →
      due →
      lock →
      (kget x.est item).isNone →
      exec (.lcalEstimateStart h c item) s = .next (startEst false h c item s)) ∧
    (∀ (h : Nat) (c : Nat) (item : Nat) (r : LcalResult) (s : State),
      ∀ e, kget (lcalAt s h c).est item = some e →
      let dead := (item == 6 || item == 7) && (hearthAt s h).lcal.detStop
      present s h →
      c < 10 →
      item < 9 →
      itemSamples item ≤ e.got →
      dead = false →
      r.good →
      exec (.lcalEstimateComplete h c item r) s = .next (completeEst h c item e.win r s)) ∧
    (∀ (h : Nat) (c : Nat) (item : Nat) (r : LcalResult) (s : State),
      ∀ e, kget (lcalAt s h c).est item = some e →
      let dead := (item == 6 || item == 7) && (hearthAt s h).lcal.detStop
      present s h →
      c < 10 →
      item < 9 →
      itemSamples item ≤ e.got →
      dead = false →
      r.good = false →
      exec (.lcalEstimateComplete h c item r) s = .next (modLcal h c
          (fun x => { x with est := kset x.est item { e with win := 0, got := 0 } }) s)) ∧
    (∀ (h : Nat) (c : Nat) (item : Nat) (s : State),
      ∀ e, kget (lcalAt s h c).est item = some e →
      present s h →
      e.start + 2 * itemPeriod s h item ≤ s.tbu.tick →
      let t := modLcal h c (fun x => { x with noWindow := x.noWindow ||| 2 ^ item }) (endEst h c item s)
      let t := emit h 0x0813 [c, item] t
      let t := onlyIf (!maskHas (runsStaged (lcalAt t h c)) item) (endHeldFor 0x0802 (runKey h c item) .timeout []) t
      itemOn t h c item →
      exec (.lcalEstimateAbandon h c item) s = .next (startEst false h c item t)) ∧
    (∀ (h : Nat) (c : Nat) (item : Nat) (s : State),
      ∀ e, kget (lcalAt s h c).est item = some e →
      present s h →
      e.start + 2 * itemPeriod s h item ≤ s.tbu.tick →
      let t := modLcal h c (fun x => { x with noWindow := x.noWindow ||| 2 ^ item }) (endEst h c item s)
      let t := emit h 0x0813 [c, item] t
      let t := onlyIf (!maskHas (runsStaged (lcalAt t h c)) item) (endHeldFor 0x0802 (runKey h c item) .timeout []) t
      itemOn t h c item = false →
      exec (.lcalEstimateAbandon h c item) s = .next (t)) ∧
    (∀ (h : Nat) (c : Nat) (s : State),
      let x := lcalAt s h c
      ∀ d, x.delta = some d →
      present s h →
      d.tick + 480 ≤ s.tbu.tick →
      exec (.deltaWithdraw h c) s = .next (
        let items := d.items ||| (x.rest.map (·.items)).getD 0
        each (maskBits 9 items) (fun item u =>
          if itemOn u h c item && (kget (lcalAt u h c).est item).isNone then startEst false h c item u else u) (withdrawDelta h c s))) ∧
    (∀ (h : Nat) (n : Nat) (s : State),
      let r := (hearthAt s h).rfc
      present s h →
      n < 2 →
      orxInUse s h n = false →
      r.orxTurn.getD n 0 + 480 ≤ s.tbu.tick + 1 →
      exec (.orxAlternate h n) s = .next (moveOrx h n (1 - r.orxTo.getD n 0) s)) ∧
    (∀ (h : Nat) (s : State),
      present s h →
      writable s →
      exec (.lcalCntClr h) s = .next (modLcalH h
          (fun l => { l with deferCount := 0, ch := l.ch.map fun c => { c with commits := 0, defers := 0, discards := 0, shown := c.shown.set 6 0 } }) s))

/-- The air monitor's commands, a visit, a scan dwell and the clear of its counts each answer the next state the spec
gives. (R319, R320, R321, R322, R323, R310, R302, R324). -/
def Obligations.AirMonitorRows : Prop :=
    (∀ (p : Packet) (s0 s : State),
      Accepted infoAirConfig true p s0 s →
      let w := wordAt p.payload 0
      let on := bitOf w 0
      let n := fld w 4 4
      let period := fld w 8 8
      let lost := fld w 16 5
      let k := fld w 24 3
      zeroAt w 2 2 →
      zeroAt w 21 3 →
      zeroAt w 27 5 →
      wordAt p.payload 1 = 0 →
      1 ≤ n →
      n ≤ 8 →
      1 ≤ period →
      period ≤ 100 →
      1 ≤ lost →
      lost ≤ 16 →
      k ≤ 4 →
      (!on || (targets p s).all fun h => decide (otherChannels s h + n ≤ 16)) →
      exec (.airConfig p) s0 = .next (
        answered infoAirConfig p s [] (each (targets p s) (fun h t =>
          let keep := if on then n else 0
          let t := modHearth h (fun x => { x with
            grt := { x.grt with meas := giveChannels { owner := 1 } (keep - channelsOf s h (· == 1)) (dropChannels 1 keep x.grt.meas) }
            air := { x.air with
              enabled := on, channels := n, trackPeriod := period, nLost := lost, levelK := k
              cells := if bitOf w 1 then [] else x.air.cells, strangers := if bitOf w 1 then [] else x.air.strangers
              tableFull := x.air.tableFull && !bitOf w 1 } }) t
          retrack h t) s))) ∧
    (∀ (p : Packet) (s0 s : State),
      Accepted infoAirScanRange true p s0 s →
      let w := wordAt p.payload 0
      let start := (wordAt p.payload 1).toNat
      let stop := (wordAt p.payload 2).toNat
      let step := (wordAt p.payload 3).toNat
      let r : ScanRange := { enable := bitOf w 4, chain := fld w 5 1, rats := fld w 8 3, caseC := bitOf w 12, ssbPeriod := fld w 14 2
                             start := start, stop := stop, step := step }
      zeroAt w 6 2 →
      zeroAt w 11 1 →
      zeroAt w 13 1 →
      zeroAt w 16 16 →
      41000000 ≤ start →
      start ≤ stop →
      stop ≤ 712500000 →
      (!r.enable || r.rats != 0) →
      (step == 0 || decide (1000 ≤ step)) →
      exec (.airScanRange p) s0 = .next (answered infoAirScanRange p s [] (each (targets p s)
          (fun h => modAir h fun a => { a with ranges := a.ranges.set (fld w 0 4) r }) s))) ∧
    (∀ (p : Packet) (s0 s : State),
      Accepted infoAirSectionConfig true p s0 s →
      let w := wordAt p.payload 0
      let w1 := wordAt p.payload 1
      let d := ((secAt s p.hearth p.sect).defn).getD {}
      let n := fld w 12 4
      let margin := sfld w 16 16
      let fl := sfld w1 0 16
      groupRule p s →
      (secAt s p.hearth p.sect).state ≠ .cold →
      zeroAt w 7 1 →
      zeroAt w 10 2 →
      zeroAt w1 16 16 →
      1 ≤ n →
      768 ≤ margin →
      margin ≤ 7680 →
      fl ≤ 0 →
      (d.tdd || !bitOf w 8) →
      exec (.airSectionConfig p) s0 = .next (
        answered infoAirSectionConfig p s [] (retrack p.hearth (modAirSec p.hearth p.sect (fun a => { a with
          trackEn := bitOf w 0, rats := fld w 1 3, caseC := bitOf w 4, ssbPeriod := fld w 5 2, pwEn := bitOf w 8, pwUlRx := bitOf w 9
          pwN := n, pwMargin := margin, pwFloor := fl, results := [] }) s)))) ∧
    (∀ (p : Packet) (s0 s : State),
      Accepted infoAirCellRead true p s0 s →
      let w := wordAt p.payload 0
      let first := fld w 0 10
      let n := fld w 16 7
      let cs := (hearthAt s p.hearth).air.cells
      zeroAt w 10 6 →
      zeroAt w 23 1 →
      zeroAt w 25 7 →
      1 ≤ n →
      n ≤ 64 →
      first + n ≤ 1024 →
      bitOf w 24 →
      exec (.airCellRead p) s0 = .next (
        let used := (cs.filter fun e => decide (first ≤ e.1)).take n
        answered infoAirCellRead p s ([BitVec.ofNat 32 used.length] ++ used.flatMap fun e => cellWords (some e.2)) s)) ∧
    (∀ (p : Packet) (s0 s : State),
      Accepted infoAirCellRead true p s0 s →
      let w := wordAt p.payload 0
      let first := fld w 0 10
      let n := fld w 16 7
      let cs := (hearthAt s p.hearth).air.cells
      zeroAt w 10 6 →
      zeroAt w 23 1 →
      zeroAt w 25 7 →
      1 ≤ n →
      n ≤ 64 →
      first + n ≤ 1024 →
      bitOf w 24 = false →
      exec (.airCellRead p) s0 = .next (answered infoAirCellRead p s ((List.range n).flatMap fun j => cellWords
          (kget cs (first + j))) s)) ∧
    (∀ (p : Packet) (s0 s : State),
      Accepted infoAirStrangerRead true p s0 s →
      let w := wordAt p.payload 0
      let xs := (hearthAt s p.hearth).air.strangers
      zeroAt w 1 31 →
      exec (.airStrangerRead p) s0 = .next (answered infoAirStrangerRead p s
          ((List.range 64).flatMap fun n => strangerWords (kget xs n)) (onlyIf (bitOf w 0)
          (modAir p.hearth fun a => { a with strangers := [] }) s))) ∧
    (∀ (h : Nat) (x : VisitIn) (s : State),
      let v := onlyDetectable x fun _ => visitCase s h x
      visitTaken s h v →
      let t := startVisit h v s
      (hearthAt s h).air.visitBad →
      exec (.airVisit h x) s = .next (modAir h (fun a => { a with visitBad := false }) t)) ∧
    (∀ (h : Nat) (x : VisitIn) (s : State),
      let v := onlyDetectable x fun _ => visitCase s h x
      visitTaken s h v →
      let t := startVisit h v s
      ¬((hearthAt s h).air.visitBad) →
      exec (.airVisit h x) s = .next (
        let t := each v.found (enterCell h true (visitCase s h v) v) (missCells h true v (fun _ => true) t)
        let t := passCell h v (retrack h t)
        each (v.lines.filter (lineStands t h v.chain))
          (fun l => reportStranger h l.sect l.branch false l.freq l.bin (lineLevel t h l)) t)) ∧
    (∀ (h : Nat) (x : DwellIn) (s : State),
      let case (rat : Nat) : Bool := ((scanOf s h x rat).map (·.1)).getD true
      let v := onlyDetectable x case
      let rats := [0, 1, 2].filter (scanVisits s h v)
      airHears s h v →
      ¬((hearthAt s h).air.starved) →
      rats.isEmpty = false →
      let t := tuneAir h ((hearthAt s h).air.channels - 1) v.chain v.freq (rats.headD 0) s
      (hearthAt s h).air.visitBad →
      exec (.airScanDwell h x) s = .next (modAir h (fun a => { a with visitBad := false }) t)) ∧
    (∀ (h : Nat) (x : DwellIn) (s : State),
      let case (rat : Nat) : Bool := ((scanOf s h x rat).map (·.1)).getD true
      let v := onlyDetectable x case
      let rats := [0, 1, 2].filter (scanVisits s h v)
      airHears s h v →
      ¬((hearthAt s h).air.starved) →
      rats.isEmpty = false →
      let t := tuneAir h ((hearthAt s h).air.channels - 1) v.chain v.freq (rats.headD 0) s
      ¬((hearthAt s h).air.visitBad) →
      exec (.airScanDwell h x) s = .next (
        let t := missCells h false v (scanVisits s h v) t
        passCell h v (retrack h (each (v.found.filter fun r => scanVisits s h v r.rat) (fun r => enterCell h false (case r.rat) v r) t)))) ∧
    (∀ (h : Nat) (s : State),
      present s h →
      writable s →
      exec (.airCntClr h) s = .next (each (List.range 8)
          (fun i => modAirSec h i fun a => { a with frames := 0, quenches := 0 }) s))

/-- The commands of the Firebrick and of the calibration set, the end of their programming and a row coming into force
each answer the next state the spec gives. (R344, R345, R334, R335, R346, R347, R348, R349, R343). -/
def Obligations.LimitsAndCalibrationRows : Prop :=
    (∀ (p : Packet) (s0 s : State),
      Accepted infoFirebrickWrite true p s0 s →
      let w := wordAt p.payload 0
      let row := fld w 0 6
      let ws := (p.payload.drop 1).take 5
      rowsBusy s = false → (rowAt s row).written = false → zeroAt w 6 26 → lowestBlank s = some row → rowFieldsOk ws →
      s.cpx.held.length < 256 →
      exec (.firebrickWrite p) s0 = .next (if rowSigned s (rowMessage s 1 row ws) (p.payload.drop 6) then
          parked infoFirebrickWrite p s row none { s with limits := { s.limits with
            prog := some { row := row, words := ws ++ [rowCrc ws] } } }
        else sendReply (heldOf infoFirebrickWrite p) .authFailed [] s)) ∧
    (∀ (p : Packet) (s0 s : State),
      Accepted infoFirebrickRevoke true p s0 s →
      let w := wordAt p.payload 0
      let row := fld w 0 6
      rowsBusy s = false → (rowAt s row).revoked = false → zeroAt w 6 26 → rowBlank (rowAt s row) = false →
      revokeWidens s row = false → s.cpx.held.length < 256 →
      exec (.firebrickRevoke p) s0 = .next (if rowSigned s (rowMessage s 2 row []) (p.payload.drop 1) then
          parked infoFirebrickRevoke p s row none { s with limits := { s.limits with prog := some { row := row, revoke := true } } }
        else sendReply (heldOf infoFirebrickRevoke p) .authFailed [] s)) ∧
    (∀ (p : Packet) (s0 s : State),
      Accepted infoFirebrickRead true p s0 s →
      exec (.firebrickRead p) s0 = .next (answered infoFirebrickRead p s (firebrickWords s) s)) ∧
    (∀ (ok : Bool) (left : List Word) (s : State),
      ∀ g, s.limits.prog = some g →
      let t := { s with limits := { s.limits with prog := none } }
      g.revoke →
      ok →
      exec (.firebrickProgramDone ok left) s = .next (
        let u := modRow g.row (fun r => { r with revoked := true }) t
        { u with limits := { u.limits with due := dueRow s (g.row, true, false), dueBy := s.tbu.tick + 64 } })) ∧
    (∀ (ok : Bool) (left : List Word) (s : State),
      ∀ g, s.limits.prog = some g →
      let t := { s with limits := { s.limits with prog := none } }
      g.revoke →
      ok = false →
      exec (.firebrickProgramDone ok left) s = .next (
        raiseSource 0 481 { t with limits := { t.limits with
          treated := g.row :: t.limits.treated, due := dueRow s (g.row, true, true), dueBy := s.tbu.tick + 64 } })) ∧
    (∀ (ok : Bool) (left : List Word) (s : State),
      ∀ g, s.limits.prog = some g →
      let t := { s with limits := { s.limits with prog := none } }
      g.revoke = false →
      ok →
      exec (.firebrickProgramDone ok left) s = .next (
        let u := modRow g.row (fun r => { r with words := g.words, written := true }) t
        { u with limits := { u.limits with due := dueRow s (g.row, false, false), dueBy := s.tbu.tick + 64 } })) ∧
    (∀ (ok : Bool) (left : List Word) (s : State),
      ∀ g, s.limits.prog = some g →
      let t := { s with limits := { s.limits with prog := none } }
      g.revoke = false →
      ok = false →
      exec (.firebrickProgramDone ok left) s = .next (
        let kept := keptWords left g.words
        let u := modRow g.row (fun r => { r with words := kept, revoked := kept.any (· != 0) }) t
        endRowCommand g.row .internal (raiseSource 0 481 u))) ∧
    (∀ (row : Nat) (s : State),
      ∀ k revoke failed, s.limits.due = some (k, revoke, failed) →
      k = row →
      exec (.firebrickRowInForce row) s = .next (rowInForce k revoke failed s)) ∧
    (∀ (p : Packet) (s0 s : State),
      Accepted infoCalsetQuery true p s0 s →
      calBusy s = false →
      exec (.calsetQuery p) s0 = .next (
        answered infoCalsetQuery p s ([wordOf [(0, 16, setCount s (calBase s)), (16, 1, bit s.limits.digestBad)]] ++ wordsOf 12 s.limits.calDigest
          ++ (List.range (setCount s (calBase s))).flatMap (dirEntry s (calBase s))) s)) ∧
    (∀ (p : Packet) (s0 s : State),
      Accepted infoCalsetExport true p s0 s →
      let w := wordAt p.payload 0
      let id := fld w 0 16
      calBusy s = false →
      zeroAt w 16 16 →
      ∀ n, dirIndex s (calBase s) id = some n →
      exec (.calsetExport p) s0 = .next (answered infoCalsetExport p s (dirEntry s (calBase s) n ++ (storedItem s
          (calBase s) n).words) s)) ∧
    (∀ (p : Packet) (s0 s : State),
      Accepted infoCalsetImport (importLength p.payload) p s0 s →
      let w := wordAt p.payload 0
      let id := fld w 0 16
      let ws := p.payload.drop 1
      calBusy s = false → stagesRun s = false → zeroAt w 17 15 → itemKnown s id → itemOk id ws → itemRoom s id ws.length →
      (itemType id = 4 → busyIdx s (itemHearth id) (itemIndex id) = false) → s.cpx.held.length < 256 →
      exec (.calsetImport p) s0 = .next (parked infoCalsetImport p s 0 none { s with limits := { s.limits with
        calProg := some { id := id, origin := bitOf w 16, words := ws, op := 0x0D06, base := calBase s } } })) ∧
    (∀ (p : Packet) (s0 s : State) (ws : List Word),
      Accepted infoCalsetStore true p s0 s →
      let w := wordAt p.payload 0
      let id := fld w 0 16
      calBusy s = false → stagesRun s = false → zeroAt w 17 15 → itemKnown s id → storeWords s id = some ws →
      itemRoom s id ws.length → s.cpx.held.length < 256 →
      exec (.calsetStore p) s0 = .next (parked infoCalsetStore p s 0 none { s with limits := { s.limits with
        calProg := some { id := id, origin := bitOf w 16, words := ws, op := 0x0D07, base := calBase s } } })) ∧
    (∀ (ok : Bool) (s : State),
      ∀ g, s.limits.calProg = some g →
      let t : State := { s with limits := { s.limits with calProg := none } }
      ok →
      exec (.calsetWriteDone ok) s = .next (endHeldFor g.op 0 .ok [] (putItem g t))) ∧
    (∀ (ok : Bool) (s : State),
      ∀ g, s.limits.calProg = some g →
      let t : State := { s with limits := { s.limits with calProg := none } }
      ok = false →
      exec (.calsetWriteDone ok) s = .next (endHeldFor g.op 0 .internal [] t))

/-- Writes and reads of the wide-value mailbox, the snapshot, the heartbeat, the package interrupts, and a register
write that keeps every reserved field each answer the next state the spec gives. (R607, R608, R614, R613, R603). -/
def Obligations.SysRegisterRows : Prop :=
    (∀ (m : Nat) (id : Nat) (s : State),
      s.sec.wideMode = false →
      writable s →
      exec (.wideReqWrite m id) s = .next (
        let v := wideValue s (id % 2 ^ 16) 0
        modSys (fun x => { x with wide := x.wide.modify m fun _ =>
          { req := id % 2 ^ 16, valid := v.isSome, bad := v.isNone, data := v.getD 0 } }) s)) ∧
    (∀ (m : Nat) (s : State),
      s.sec.wideMode = false →
      exec (.wideData3Read m) s = .next (modSys
          (fun x => { x with wide := x.wide.modify m fun r => { r with valid := false } }) s)) ∧
    (∀ (go : Bool) (s : State),
      go →
      s.sec.wideMode →
      writable s →
      exec (.snapCmdWrite go) s = .next (arrive (.write (.register 0 0x60 1)) s)) ∧
    (∀ (s : State),
      s.sys.snapPending →
      exec .snapCopy s = .next (copyWide s.tbu.tickLen s)) ∧
    (∀ (m : Nat) (count : Nat) (s : State),
      masterPriv s m →
      writable s →
      exec (.sysHbWrite m count) s = .next (modSys
          (fun x => { x with hbCount := count % 2 ^ 16, hbLast := count % 2 ^ 16 }) s)) ∧
    (∀ (s : State),
      s.sys.hbCount ≠ 0 →
      480 ≤ s.sys.hbPhase →
      let t := modSys (fun x => { x with hbCount := x.hbCount - 1, hbPhase := x.hbPhase - 480 }) s
      s.sys.hbCount = 1 →
      exec .heartbeatDecrement s = .next (emit 0 0x0128 (bytesOf 2 s.sys.hbLast) t)) ∧
    (∀ (s : State),
      s.sys.hbCount ≠ 0 →
      480 ≤ s.sys.hbPhase →
      let t := modSys (fun x => { x with hbCount := x.hbCount - 1, hbPhase := x.hbPhase - 480 }) s
      s.sys.hbCount ≠ 1 →
      exec .heartbeatDecrement s = .next (t)) ∧
    (∀ (m : Nat) (en : Nat) (s : State),
      masterPriv s m →
      writable s →
      exec (.sysIntEnWrite m en) s = .next (evalSysInt (modSys (fun x => { x with intEn := en % 2 ^ 10 }) s))) ∧
    (∀ (mask : Nat) (s : State),
      writable s →
      exec (.sysIntPendClear mask) s = .next (evalSysInt (modSys
          (fun x => { x with intPend := x.intPend &&& (1023 - mask % 1024) }) s))) ∧
    (∀ (f a : Nat) (v : Word) (s : State),
      a % 4 = 0 → s.sec.powered → s.sec.resetLow = false →
      exec (.registerWrite (64 + f) a v) s = .next (writeConfig f a v s)) ∧
    (∀ (m a : Nat) (v : Word) (s : State),
      (a % 4 ≠ 0 ∨ s.sec.powered = false ∨ s.sec.resetLow = true) →
      exec (.registerWrite m a v) s = .next s) ∧
    (∀ (m a : Nat) (v : Word) (s : State),
      a % 4 = 0 → s.sec.powered → s.sec.resetLow = false → m < 64 → breaksReserved m a v s = false → m ≤ 2 → s.pkg ≠ .doused →
      exec (.registerWrite m a v) s = .next (writePf0 m a v (writeAlways m a v s))) ∧
    (∀ (m a : Nat) (v : Word) (s : State),
      a % 4 = 0 → s.sec.powered → s.sec.resetLow = false → m < 64 → breaksReserved m a v s = false → (2 < m ∨ s.pkg = .doused) →
      exec (.registerWrite m a v) s = .next (writeAlways m a v s)) ∧
    (∀ (m a : Nat) (v : Word) (s : State),
      a ≠ 0x60 → rwoLocked s a = false →
      captureArrival (.write (.register m a v)) s = modSys (fun x => { x with late := x.late ++ [.register m a v] }) s) ∧
    (∀ (m a : Nat) (v : Word) (s : State),
      rwoLocked s a → captureArrival (.write (.register m a v)) s = lockedWrite m a v s) ∧
    (∀ (s : State),
      applyWrites s = each s.sys.late applyWrite (modSys (fun x => { x with late := [] }) s)) ∧
    (∀ (m a : Nat) (v : Word) (s : State),
      (s.pkg ≠ .doused ∨ a = 0x1021014) → applyWrite (.register m a v) s = applyRegister a v s) ∧
    (∀ (m : Nat) (v : Word) (s : State),
      s.pkg ≠ .doused →
      captureArrival (.write (.register m 0x60 v)) s = modSys (fun x => { x with snapPending := true }) s)

/-- The turn, the time-out and the retry of a script record, the end of a signature check, the expiry of a challenge
and the end of a lockout each answer the next state the spec gives. (R581, R399, R397). -/
def Obligations.ScriptAndUnlockEvents : Prop :=
    (∀ (s : State),
      scriptIdle s →
      s.cpx.script.retryAt.isNone →
      scriptDue s ≤ s.tbu.tick →
      scriptWait s s.cpx.script.next →
      exec .scriptRecord s = .next (scriptTurn s)) ∧
    (∀ (s : State),
      let n := s.cpx.script.next
      let ws := fld (scriptHeader s n) 24 8
      scriptIdle s →
      s.cpx.script.retryAt.isNone →
      ws ≠ 0 →
      scriptWait s n = false →
      scriptDue s + ws * ticksPerSecond ≤ s.tbu.tick →
      exec .scriptWaitTimeout s = .next (scriptReplied (fld (wordAt (scriptPacket s n) 0) 0 16) .timeout
          (s.tbu.tick + 1) (nextTime s) s)) ∧
    (∀ (s : State),
      scriptIdle s →
      (s.cpx.script.retryAt.any fun t => decide (t ≤ s.tbu.tick)) →
      exec .scriptRetry s = .next (scriptTurn (modCpx
          (fun c => { c with script := { c.script with retryAt := none } }) s))) ∧
    (∀ (nonce : Nat) (sig : List Word) (s : State),
      s.cpx.verifying = some (nonce, sig) →
      let n := incSat 8 s.cpx.unlockFails
      let good := modCpx (fun c => { c with verifying := none, unlockFails := 0, lockoutEnd := none, unlocked := true, privFrom := privNext s }) s
      let bad := modCpx (fun c => { c with
        verifying := none, unlockFails := n, lockoutEnd := if n = 8 then some (s.tbu.tick + 1 + unlockTicks) else c.lockoutEnd }) s
      let waits := s.cpx.held.any (fun c => c.op == 0x0103)
      let src := s.cpx.verifySrc
      exec .unlockVerifyDone s = .next (if Config.ecdsaVerify ((hostKeyNow s).getD 0) (unlockMessage s nonce) sig then
          (if waits then endHeldFor 0x0103 0 .ok [] (emit 0 0x0122 [src, 0, 0] good) else good)
        else (if waits then endHeldFor 0x0103 0 .authFailed [] (emit 0 0x0122 [src, 2, n] bad) else bad))) ∧
    (∀ (s : State),
      (s.cpx.challenge.any fun c => decide (c.2 ≤ s.tbu.tick)) →
      exec .challengeExpiry s = .next (modCpx (fun c => { c with challenge := none }) s)) ∧
    (∀ (s : State),
      (s.cpx.lockoutEnd.any fun e => decide (e ≤ s.tbu.tick)) →
      exec .unlockLockoutEnd s = .next (modCpx (fun c => { c with lockoutEnd := none }) s))

/-- A link reset, a function-level reset, a power state, a retraining, a failed DMA read, the rise of PERST_N and the
clear of the stream counts each answer the next state the spec gives. (R433, R423, R417, R434, R435). -/
def Obligations.LinkEvents : Prop :=
    (∀ (cause : Nat) (s : State),
      exec (.linkReset cause) s = .next (
        let t := onlyIf (cause == 2) (raiseSource 0 0) s
        let u := dropStreams 3 (resetPf0 t)
        setLink 0 0 (modHif (fun x => { x with
          training := true, d3pf1 := false, vfEnable := false, pf1 := {}, cfg1 := {}, vfs := List.replicate 30 {} }) u))) ∧
    (∀ (n : Nat) (s : State),
      n ≠ 0 →
      exec (.flrVf n) s = .next (modHif (fun x => { x with vfs := x.vfs.modify (n - 1) fun _ => {} }) s)) ∧
    (∀ (s : State),
      exec .flrPf0 s = .next (
        let t := each (List.range 64) (fun q u => modQueue q (fun _ => {}) (dropQueueHeld q u)) s
        modCpx (fun c => { c with unlocked := false, privFrom := s.tbu.tick + 1 }) (modHif (fun x => { x with pf0 := {}, cfg0 := {}, d3pf0 := false }) (abortCaptures t)))) ∧
    (∀ (s : State),
      exec .flrPf1 s = .next (dropStreams 3 (modHif
          (fun x => { x with vfEnable := false, pf1 := {}, cfg1 := {}, d3pf1 := false, vfs := List.replicate 30 {} }) s))) ∧
    (∀ (pf : Nat) (enter : Bool) (s : State),
      let t := modHif
          (fun x => if pf = 0 then { x with d3pf0 := enter } else if pf = 1 then { x with d3pf1 := enter } else x) s
      enter →
      exec (.d3hotChange pf enter) s = .next (t)) ∧
    (∀ (pf : Nat) (enter : Bool) (s : State),
      let t := modHif
          (fun x => if pf = 0 then { x with d3pf0 := enter } else if pf = 1 then { x with d3pf1 := enter } else x) s
      enter = false →
      exec (.d3hotChange pf enter) s = .next (each (allSections t) (fun g => drainStaging g.1 g.2 8) t)) ∧
    (∀ (gen : Nat) (width : Nat) (s : State),
      1 ≤ gen →
      gen ≤ 5 →
      (width = 4 ∨ width = 8 ∨ width = 16) →
      exec (.linkRetrain gen width) s = .next (fitStreams 1 (fitStreams 0 (setLink gen width (modHif
          (fun x => { x with training := false }) s))))) ∧
    (∀ (d : DmaErr) (s : State),
      d.capture →
      (hearthAt s d.hearth).cap.state ≠ 0 →
      exec (.dmaReadErr d) s = .next (
        let t := onlyIf d.timeout (modHif fun x => { x with cfg0 := noteTimeout x.cfg0 }) s
        raiseSource 0 2 (stopCapture d.hearth (endHeldFor 0x0B04 d.hearth .internal [] t)))) ∧
    (∀ (d : DmaErr) (s : State),
      d.capture = false →
      2 ≤ (streamAt s d.hearth d.sect d.kind).state →
      exec (.dmaReadErr d) s = .next (
        let t := onlyIf d.timeout (modHif fun x => { x with cfg1 := noteTimeout x.cfg1 }) s
        raiseSource 0 2 (stopStream 4 d.hearth d.sect d.kind t))) ∧
    (∀ (s : State),
      exec .perstNRise s = .next (modHif (fun x => { x with training := true }) s)) ∧
    (∀ (s : State),
      s.pkg ≠ .doused →
      exec .hifCntClr s = .next (
        { s with hearths := s.hearths.map fun x => { x with sections := x.sections.map fun y =>
          { y with
            exportS := { y.exportS with blocks := 0, lost := 0, bad := 0 }
            importS := { y.importS with blocks := 0, lost := 0, bad := 0 } } } }))

/-- The stream commands, a block exported or imported, a start time reached and a write of the host pointer each
answer the next state the spec gives. (R424, R425, R420, R422, R436). -/
def Obligations.StreamRows : Prop :=
    (∀ (p : Packet) (s0 s : State),
      Accepted infoStreamConfig true p s0 s →
      let kind := fld (wordAt p.payload 0) 0 1
      let old := streamAt s p.hearth p.sect kind
      ∀ d, (secAt s p.hearth p.sect).defn = some d →
      old.state ≤ 1 →
      streamOk d p.payload →
      let x := streamFrom p.payload old
      bandwidthSum s kind 1 - bandwidthAt s p.hearth p.sect kind 1 + streamBandwidth d x ≤ linkLimit s →
      exec (.streamConfig p) s0 = .next (answered infoStreamConfig p s [] (modStream p.hearth p.sect kind
          (fun _ => x) s))) ∧
    (∀ (p : Packet) (s0 s : State),
      Accepted infoStreamControl true p s0 s →
      let w := wordAt p.payload 0
      let op := fld w 0 2
      let kind := fld w 4 1
      op ≤ 1 →
      zeroAt w 2 2 →
      zeroAt w 5 27 →
      op = 0 →
      exec (.streamControl p) s0 = .next (answered infoStreamControl p s [] (stopStream 0 p.hearth p.sect kind s))) ∧
    (∀ (p : Packet) (s0 s : State),
      Accepted infoStreamControl true p s0 s →
      let w := wordAt p.payload 0
      let op := fld w 0 2
      let kind := fld w 4 1
      let x := streamAt s p.hearth p.sect kind
      op ≤ 1 →
      zeroAt w 2 2 →
      zeroAt w 5 27 →
      op ≠ 0 →
      x.state ≠ 0 →
      2 ≤ x.state →
      exec (.streamControl p) s0 = .next (answered infoStreamControl p s [] s)) ∧
    (∀ (p : Packet) (s0 s : State),
      Accepted infoStreamControl true p s0 s →
      let w := wordAt p.payload 0
      let op := fld w 0 2
      let kind := fld w 4 1
      let x := streamAt s p.hearth p.sect kind
      op ≤ 1 →
      zeroAt w 2 2 →
      zeroAt w 5 27 →
      op ≠ 0 →
      x.state ≠ 0 →
      x.state < 2 →
      (x.startTime = 0 ∨ timeDiff x.startTime (nextTime s) ≤ 0) →
      exec (.streamControl p) s0 = .next (answered infoStreamControl p s [] (streamEvent p.hearth p.sect kind 2 0
          (modStream p.hearth p.sect kind (startStream (s.tbu.clock + s.tbu.tickLen) 2) s)))) ∧
    (∀ (p : Packet) (s0 s : State),
      Accepted infoStreamControl true p s0 s →
      let w := wordAt p.payload 0
      let op := fld w 0 2
      let kind := fld w 4 1
      let x := streamAt s p.hearth p.sect kind
      op ≤ 1 →
      zeroAt w 2 2 →
      zeroAt w 5 27 →
      op ≠ 0 →
      x.state ≠ 0 →
      x.state < 2 →
      x.startTime ≠ 0 →
      0 < timeDiff x.startTime (nextTime s) →
      exec (.streamControl p) s0 = .next (answered infoStreamControl p s [] (modStream p.hearth p.sect kind
          (startStream (s.tbu.clock + s.tbu.tickLen) 3) s))) ∧
    (∀ (h : Nat) (i : Nat) (b : BlockIn) (s : State),
      let x := streamAt s h i 0
      let es := exportGives x s.tbu.clock
      es.isEmpty = false →
      let t := modStream h i 0 (fun y => { y with
        seq := incWrap 32 y.seq, entries := y.entries.drop es.length, ending := y.ending && decide
          (es.length < y.entries.length) }) s
      b.memErr →
      exec (.streamExportBlock h i b) s = .next (dropBlock h i (raiseSource 0 3 t))) ∧
    (∀ (h : Nat) (i : Nat) (b : BlockIn) (s : State),
      let x := streamAt s h i 0
      let es := exportGives x s.tbu.clock
      es.isEmpty = false →
      let t := modStream h i 0 (fun y => { y with
        seq := incWrap 32 y.seq, entries := y.entries.drop es.length, ending := y.ending && decide
          (es.length < y.entries.length) }) s
      b.memErr = false →
      (s.hif.d3pf0 || s.hif.d3pf1) →
      exec (.streamExportBlock h i b) s = .next (dropBlock h i t)) ∧
    (∀ (h : Nat) (i : Nat) (b : BlockIn) (s : State),
      let x := streamAt s h i 0
      let es := exportGives x s.tbu.clock
      es.isEmpty = false →
      let ws := blockOf s h i x es
      let t := modStream h i 0 (fun y => { y with
        seq := incWrap 32 y.seq, entries := y.entries.drop es.length, ending := y.ending && decide
          (es.length < y.entries.length) }) s
      b.memErr = false →
      s.hif.d3pf0 = false →
      s.hif.d3pf1 = false →
      x.staged = [] →
      ringRoom x (4 * ws.length) →
      exec (.streamExportBlock h i b) s = .next (deliverBlock h i ws t)) ∧
    (∀ (h : Nat) (i : Nat) (b : BlockIn) (s : State),
      let x := streamAt s h i 0
      let es := exportGives x s.tbu.clock
      es.isEmpty = false →
      let ws := blockOf s h i x es
      let t := modStream h i 0 (fun y => { y with
        seq := incWrap 32 y.seq, entries := y.entries.drop es.length, ending := y.ending && decide
          (es.length < y.entries.length) }) s
      b.memErr = false →
      s.hif.d3pf0 = false →
      s.hif.d3pf1 = false →
      ¬(x.staged = [] ∧ ringRoom x (4 * ws.length) = true) →
      x.staged.length < 8 →
      exec (.streamExportBlock h i b) s = .next (modStream h i 0 (fun y => { y with staged := y.staged ++ [ws] }) t)) ∧
    (∀ (h : Nat) (i : Nat) (b : BlockIn) (s : State),
      let x := streamAt s h i 0
      let es := exportGives x s.tbu.clock
      es.isEmpty = false →
      let ws := blockOf s h i x es
      let t := modStream h i 0 (fun y => { y with
        seq := incWrap 32 y.seq, entries := y.entries.drop es.length, ending := y.ending && decide
          (es.length < y.entries.length) }) s
      b.memErr = false →
      s.hif.d3pf0 = false →
      s.hif.d3pf1 = false →
      ¬(x.staged = [] ∧ ringRoom x (4 * ws.length) = true) →
      8 ≤ x.staged.length →
      exec (.streamExportBlock h i b) s = .next (dropBlock h i t)) ∧
    (∀ (h : Nat) (i : Nat) (b : BlockIn) (s : State),
      let x := streamAt s h i 1
      x.state = 2 →
      (!b.ready || x.devPtr == x.hostPtr || s.hif.d3pf0 || s.hif.d3pf1) →
      exec (.streamImportBlock h i b) s = .next ((if x.entries.isEmpty then underrun h i s else s))) ∧
    (∀ (h : Nat) (i : Nat) (b : BlockIn) (s : State),
      let x := streamAt s h i 1
      let w := wordAt b.words 0
      x.state = 2 →
      b.ready →
      x.devPtr ≠ x.hostPtr →
      s.hif.d3pf0 = false →
      s.hif.d3pf1 = false →
      bitOf w 12 →
      exec (.streamImportBlock h i b) s = .next (consumeTo h i 0 s)) ∧
    (∀ (h : Nat) (i : Nat) (b : BlockIn) (s : State),
      let x := streamAt s h i 1
      let w := wordAt b.words 0
      x.state = 2 →
      b.ready →
      x.devPtr ≠ x.hostPtr →
      s.hif.d3pf0 = false →
      s.hif.d3pf1 = false →
      bitOf w 12 = false →
      let count := blockCount b.words
      let ptr := (x.devPtr + blockBytes x count) % 2 ^ x.ringLog2
      importMatches h i x w →
      exec (.streamImportBlock h i b) s = .next (
        let es := (List.range count).map fun n => if b.memErr then { v := [(0, 0), (0, 0)] } else importSample x b.words n
        let t := modStream h i 1 (fun y => { y with
          underrun := false, blocks := incWrap 16 y.blocks, seq := incWrap 32 y.seq, entries := y.entries ++ es }) (consumeTo h i ptr s)
        onlyIf b.memErr (raiseSource 0 3) t)) ∧
    (∀ (h : Nat) (i : Nat) (b : BlockIn) (s : State),
      let x := streamAt s h i 1
      let w := wordAt b.words 0
      x.state = 2 →
      b.ready →
      x.devPtr ≠ x.hostPtr →
      s.hif.d3pf0 = false →
      s.hif.d3pf1 = false →
      bitOf w 12 = false →
      let count := blockCount b.words
      let ptr := (x.devPtr + blockBytes x count) % 2 ^ x.ringLog2
      importMatches h i x w = false →
      exec (.streamImportBlock h i b) s = .next (modStream h i 1 (fun y => { y with bad := incSat 8 y.bad })
          (consumeTo h i ptr s))) ∧
    (∀ (h : Nat) (i : Nat) (kind : Nat) (s : State),
      let x := streamAt s h i kind
      x.state = 3 →
      timeDiff x.startTime (nextTime s) ≤ 0 →
      exec (.streamStartTime h i kind) s = .next (streamEvent h i kind 2 0 (modStream h i kind (startStream
          (max x.fromClk s.tbu.clock) 2) s))) ∧
    (∀ (h : Nat) (i : Nat) (kind : Nat) (ptr : Nat) (s : State),
      let x := streamAt s h i kind
      let v := ptr / 64 * 64 % 2 ^ 30
      present s h →
      i < 8 →
      s.pkg ≠ .doused →
      (x.state = 0 ∨ 2 ^ x.ringLog2 ≤ v) →
      exec (.strHostPtrWrite h i kind ptr) s = .next (modStream h i kind
          (fun y => { y with bad := incSat 8 y.bad }) s)) ∧
    (∀ (h : Nat) (i : Nat) (kind : Nat) (ptr : Nat) (s : State),
      let x := streamAt s h i kind
      let v := ptr / 64 * 64 % 2 ^ 30
      present s h →
      i < 8 →
      s.pkg ≠ .doused →
      x.state ≠ 0 →
      v < 2 ^ x.ringLog2 →
      let t := modStream h i kind (fun y => { y with hostPtr := v }) s
      kind = 0 →
      exec (.strHostPtrWrite h i kind ptr) s = .next (drainStaging h i 8 t)) ∧
    (∀ (h : Nat) (i : Nat) (kind : Nat) (ptr : Nat) (s : State),
      let x := streamAt s h i kind
      let v := ptr / 64 * 64 % 2 ^ 30
      present s h →
      i < 8 →
      s.pkg ≠ .doused →
      x.state ≠ 0 →
      v < 2 ^ x.ringLog2 →
      let t := modStream h i kind (fun y => { y with hostPtr := v }) s
      kind ≠ 0 →
      exec (.strHostPtrWrite h i kind ptr) s = .next (t))

/-- The capture commands, a trigger, the end of a record, of a read-out and of a wait each answer the next state the
spec gives. (R430, R431, R432, R428, R429). -/
def Obligations.CaptureRows : Prop :=
    (∀ (p : Packet) (s0 s : State),
      Accepted infoCaptureConfig true p s0 s →
      let h := p.hearth
      let x := captureFrom p.payload
      let m := (hearthAt s h).xmc
      captureOk p.payload →
      (hearthAt s h).cap.state = 0 →
      (x.spectrum || decide (x.srcs.length * (x.length * 4096) ≤ captureMib m * 2 ^ 20)) →
      demandFits s h x.srcs.length →
      exec (.captureConfig p) s0 = .next (answered infoCaptureConfig p s [] (modCap h
          (fun c => { c with cfg := some x }) s))) ∧
    (∀ (p : Packet) (s0 s : State),
      Accepted infoCaptureArm true p s0 s →
      let h := p.hearth
      let w := wordAt p.payload 0
      let w1 := wordAt p.payload 1
      let op := fld w 0 2
      let trig := fld w 4 3
      let x := (hearthAt s h).cap
      op ≤ 1 →
      trig ≤ 4 →
      zeroAt w 2 2 →
      zeroAt w 7 9 →
      zeroAt w1 16 16 →
      op = 1 →
      x.state ≠ 0 →
      exec (.captureArm p) s0 = .next (answered infoCaptureArm p s [] (stopCapture h
          (endHeldFor 0x0B04 h .aborted [] s)))) ∧
    (∀ (p : Packet) (s0 s : State),
      Accepted infoCaptureArm true p s0 s →
      let h := p.hearth
      let w := wordAt p.payload 0
      let w1 := wordAt p.payload 1
      let op := fld w 0 2
      let trig := fld w 4 3
      let x := (hearthAt s h).cap
      let clk := s.tbu.clock + s.tbu.tickLen
      op ≤ 1 →
      trig ≤ 4 →
      zeroAt w 2 2 →
      zeroAt w 7 9 →
      zeroAt w1 16 16 →
      op ≠ 1 →
      x.state = 0 →
      x.cfg.isSome →
      let dl := if fld w1 0 16 = 0 then none else some (s.tbu.tick + fld w1 0 16 * 480)
      s.cpx.held.length < 256 →
      exec (.captureArm p) s0 = .next (
        parked infoCaptureArm p s h dl (modCap h (fun c => { c with
          state := 1, buf := [], bufClk := clk, trig := trig, event := fld w 16 16, armClock := clk, deadline := dl
          shortPre := false, dramErr := false, lost := [], trigDue := if trig = 0 then some clk else none }) s))) ∧
    (∀ (p : Packet) (s0 s : State),
      Accepted infoCaptureQuery true p s0 s →
      let x := hearthAt s p.hearth
      exec (.captureQuery p) s0 = .next (answered infoCaptureQuery p s
        ([capStatus x.cap, BitVec.ofNat 32 (captureMib x.xmc)] ++ x.cap.last ++ [0, 0]) s)) ∧
    (∀ (h : Nat) (clk : Nat) (s : State),
      let c := (hearthAt s h).cap
      let cfg := c.cfg.getD {}
      inTick s clk →
      triggersAt s c clk →
      exec (.captureTrigger h clk) s = .next (
        let before := if cfg.spectrum then 0 else min (cfg.pre * 1024) (clk - c.armClock)
        let short := !cfg.spectrum && decide (before < cfg.pre * 1024)
        modCap h (fun x => { x with
          state := 2, trigDue := none, deadline := none, shortPre := short
          buf := x.buf.map fun l => l.drop (clk - before - x.bufClk), bufClk := clk - before
          trigTime := timeAtClock s clk, firstTime := timeValue ((s.tbu.time + 2 ^ 96 + (clk - s.tbu.clock) * s.tbu.incr - before * s.tbu.incr) % 2 ^ 96)
          entries := if cfg.spectrum then 2 ^ cfg.avgLog2 else cfg.length * 1024 - (cfg.pre * 1024 - before) }) s)) ∧
    (∀ (h : Nat) (s : State),
      let c := (hearthAt s h).cap
      c.state = 2 →
      (c.buf.all (fun l => decide (captureNeeds c ≤ l.length)) = true) →
      exec (.captureRecordDone h) s = .next (modCap h (fun x => { x with state := 3 }) s)) ∧
    (∀ (h : Nat) (s : State),
      let c := (hearthAt s h).cap
      c.state = 3 →
      s.hif.d3pf0 ≠ true →
      s.hif.d3pf1 ≠ true →
      exec (.captureReadoutDone h) s = .next (
        let words := wordsOf 2 c.trigTime ++ [BitVec.ofNat 32 c.entries, BitVec.ofNat 32 (captureFlags c)]
        let t := modCap h (fun x => { x with state := 0, captures := incWrap 16 x.captures, last := words, image := captureImage c, imageRo := s.hif.cfg0.relaxed, buf := [] }) s
        let u := emit h 0x0B13 ([h, captureFlags c] ++ bytesOf 8 c.trigTime) (endHeldFor 0x0B04 h .ok words t)
        onlyIf u.hif.capIen (signalPf0 u.hif.capVector) u)) ∧
    (∀ (h : Nat) (s : State),
      ¬(triggerArrived s (hearthAt s h).cap) →
      exec (.captureTimeout h) s = .next (captureExpiry h s))

/-- An accepted FLUE_PORT_CONFIG, GROUP_CONFIG, GROUP_QUERY, PTP_CONFIG, SPLIT_CONFIG, PROBE_SCHEDULE or PROBE_READ,
and the clear of the flue counts, answer a next state with the effect the spec gives. (R479, R480, R481, R482, R483,
R484, R485, R486). -/
def Obligations.FlueCommandsComplete : Prop :=
    (∀ (p : Packet) (s0 s : State),
      Accepted infoFluePortConfig true p s0 s →
      let ws := p.payload
      let w := wordAt ws 0
      let h := p.hearth
      let port := fld w 0 1
      let old := s.flu.ports.getD (2 * h + port) {}
      let mode := fld w 4 2
      let gone := mode != old.mode || (old.transport && !bitOf w 13)
      fluePortOk ws →
      !(gone && portSplits s h port) →
      exec (.fluePortConfig p) s0 = .next (
        let t := if mode != old.mode then setFlueLink h port false s else s
        answered infoFluePortConfig p s [] (modFlu (fun x => { x with ports := x.ports.modify (2 * h + port) fun q => { q with
          mode := mode, fec := bitOf w 8, group := bitOf w 12, transport := bitOf w 13, ptp := bitOf w 14, vid := fld (wordAt ws 1) 0 12
          pcp := fld (wordAt ws 1) 12 3, tag := bitOf (wordAt ws 1) 16, asym := sfld (wordAt ws 2) 0 16, slave := q.slave && bitOf w 14 } }) t))) ∧
    (∀ (p : Packet) (s0 s : State),
      Accepted infoGroupConfig true p s0 s →
      let w (k : Nat) : Word := wordAt p.payload k
      let expect := fld (w 2) 0 8
      groupFieldsOk p.payload →
      (expect == 0 || expect == s.sec.protoMajor) →
      groupBusy s = false →
      exec (.groupConfig p) s0 = .next (
        let dup := s.flu.dupIndex
        let t := modFlu (fun x => { x with
          role := fld (w 0) 0 2, deviceIndex := fld (w 0) 16 10, groupId := fld (w 1) 0 16, etype := fld (w 1) 16 16, expectMajor := expect
          margin := sfld (w 3) 0 16, coldCeil := sfld (w 3) 16 16, surveyPeriod := fld (w 4) 0 16, probeRel := fld (w 4) 16 6
          duration := fld (w 4) 22 10, ceilRise := sfld (w 5) 0 16, joinDue := true, dupIndex := false, appliedDigest := 0 }) s
        answered infoGroupConfig p s [] (agreeChanged false (if dup then setLost false t else t)))) ∧
    (∀ (p : Packet) (s0 s : State),
      Accepted infoGroupQuery true p s0 s →
      exec (.groupQuery p) s0 = .next (answered infoGroupQuery p s (groupWords s) s)) ∧
    (∀ (p : Packet) (s0 s : State),
      Accepted infoPtpConfig true p s0 s →
      let w (k : Nat) : Word := wordAt p.payload k
      let old := s.flu.ptp
      let domain := fld (w 0) 0 8
      let mode := fld (w 0) 8 2
      let moved := domain != old.domain || mode != old.mode
      ptpOk p.payload s →
      (!(moved && s.tbu.timeStatus == 3) || mode == 0) →
      exec (.ptpConfig p) s0 = .next (
        let f := takeFree s
        let grand := mode == 3 && old.mode != 3
        let t := if grand then f.2 else s
        answered infoPtpConfig p s [] (evalTime (modPtp (fun x => { x with
          domain := domain, mode := mode, p2p := bitOf (w 0) 12, twoStep := bitOf (w 0) 13, portMask := fld (w 1) 0 16, addr := bitOf (w 1) 16
          logSync := sfld (w 2) 0 8, logAnnounce := sfld (w 2) 8 8, logDelay := sfld (w 2) 16 8, timeout := fld (w 2) 24 8
          priority1 := fld (w 3) 0 8, priority2 := fld (w 3) 8 8, clockClass := fld (w 3) 16 8, lockNs := fld (w 4) 0 16
          stepNs := fld (w 4) 16 16, gmId := if grand then f.1.toNat % 2 ^ 64 else x.gmId, lockRun := if moved then 0 else x.lockRun }) t)))) ∧
    (∀ (p : Packet) (s0 s : State),
      Accepted infoSplitConfig true p s0 s →
      let h := p.hearth
      let i := p.sect
      let x := splitFrom p.payload
      groupRule p s →
      secNow (secAt s h i) = .ready →
      splitOk p.payload h i s →
      (x.role == 0 || (s.flu.ports.getD (2 * h + x.port) {}).link) →
      let t := applySplit h i x s
      (x.role == 0 || splitFits h x.port t && demandFits t h (liveSources (hearthAt t h).cap)) →
      exec (.splitConfig p) s0 = .next (answered infoSplitConfig p s [] t)) ∧
    (∀ (p : Packet) (s0 s : State),
      Accepted infoProbeSchedule true p s0 s →
      let x := windowFrom p.payload
      windowOk p.payload →
      s.flu.windows.length < 4 →
      ¬(s.flu.windows.any (windowsOverlap x)) →
      openTime s < x.start →
      exec (.probeSchedule p) s0 = .next (answered infoProbeSchedule p s [] (modFlu
          (fun y => { y with windows := y.windows ++ [x] }) s))) ∧
    (∀ (p : Packet) (s0 s : State),
      Accepted infoProbeRead true p s0 s →
      let w := wordAt p.payload 0
      zeroAt w 10 6 →
      zeroAt w 22 2 →
      zeroAt w 25 7 →
      2 ≤ s.flu.acting →
      let c := copyWords s
      s.flu.acting = 3 →
      exec (.probeRead p) s0 = .next (answered infoProbeRead p s c.1 c.2)) ∧
    (∀ (p : Packet) (s0 s : State),
      Accepted infoProbeRead true p s0 s →
      let w := wordAt p.payload 0
      zeroAt w 10 6 →
      zeroAt w 22 2 →
      zeroAt w 25 7 →
      2 ≤ s.flu.acting →
      s.flu.acting ≠ 3 →
      exec (.probeRead p) s0 = .next (answered infoProbeRead p s (probeWords s (fld w 0 10) (fld w 16 6)
          (bitOf w 24)) s)) ∧
    (∀ (h : Nat) (s : State),
      present s h →
      writable s →
      exec (.fluCntClr h) s = .next (
        let clear (p : FluePort) : FluePort := { p with rx := 0, bad := 0, uncorr := 0 }
        let t := modFlu (fun x => { x with ports := (x.ports.modify (2 * h) clear).modify (2 * h + 1) clear }) s
        each (List.range 8) (fun i => modSplit h i fun x => { x with late := 0, gaps := 0 }) t))

/-- A beacon, the end and the retry of a plan round, a reply frame, a discarded frame, a take-over, a digest that does
not agree in time and a change of a link each answer the next state the spec gives. (R448, R457, R446, R445, R462,
R460, R486). -/
def Obligations.GroupEvents : Prop :=
    (∀ (b : Beacon) (s : State),
      groupPort s b.port →
      exec (.beaconReceive b) s = .next (arriveInOrder (.beacon b) s)) ∧
    (∀ (b : Beacon) (s : State),
      groupPort s b.port →
      let u := noteTwin b s
      b.src = u.flu.deviceIndex →
      captureArrival (.beacon b) s = ((if ownMac u b.mac then u else takeDup u))) ∧
    (∀ (b : Beacon) (s : State),
      groupPort s b.port →
      let u := noteTwin b s
      b.src ≠ u.flu.deviceIndex →
      frameNew u b.src 1 b.seq = false →
      captureArrival (.beacon b) s = (u)) ∧
    (∀ (b : Beacon) (s : State),
      groupPort s b.port →
      let u := noteTwin b s
      b.src ≠ u.flu.deviceIndex →
      frameNew u b.src 1 b.seq →
      let t := acceptFrame b.port b.src 1 b.seq u
      let t := rivalBeacon b t
      let t := if isLeader u b then leaderBeacon b t else t
      2 ≤ u.flu.acting →
      captureArrival (.beacon b) s = (memberBeacon b t)) ∧
    (∀ (b : Beacon) (s : State),
      groupPort s b.port →
      let u := noteTwin b s
      b.src ≠ u.flu.deviceIndex →
      frameNew u b.src 1 b.seq →
      let t := acceptFrame b.port b.src 1 b.seq u
      let t := rivalBeacon b t
      let t := if isLeader u b then leaderBeacon b t else t
      u.flu.acting < 2 →
      captureArrival (.beacon b) s = (t)) ∧
    (∀ (s : State),
      ∀ e, s.flu.roundEnd = some e →
      s.flu.roundReplied →
      exec .planRoundEnd s = .next (
        let bad := s.flu.roundBad
        let own := s.flu.acting == 2
        let again := some (s.tbu.tick + ticksPerSecond)
        let cold := own && !bad && !s.flu.ownCold
        let t := agreeChanged false (modFlu (fun x => { x with
          appliedDigest := if bad then x.appliedDigest else e.2, roundBad := false, roundEnd := none, roundReplied := false
          rounds := if !own then x.rounds else if bad then kset x.rounds x.deviceIndex { failed := true, retryAt := again }
            else kerase x.rounds x.deviceIndex, ownCold := x.ownCold || cold }) s)
        onlyIf cold (sendCold t.flu.deviceIndex) t)) ∧
    (∀ (member : Nat) (s : State),
      let due := (kget s.flu.rounds member).any fun r => r.retryAt.any fun t => decide (t ≤ s.tbu.tick)
      s.flu.acting = 2 →
      due →
      let t := modFlu (fun x => { x with rounds := kerase x.rounds member }) s
      mayCommand s member →
      exec (.planRoundRetry member) s = .next (sendRound member t)) ∧
    (∀ (member : Nat) (s : State),
      let due := (kget s.flu.rounds member).any fun r => r.retryAt.any fun t => decide (t ≤ s.tbu.tick)
      s.flu.acting = 2 →
      due →
      let t := modFlu (fun x => { x with rounds := kerase x.rounds member }) s
      mayCommand s member = false →
      exec (.planRoundRetry member) s = .next (t)) ∧
    (∀ (member : Nat) (seq : Nat) (a : ReplyIn) (s : State),
      exec (.replyFrameReceive member seq a) s = .next (arrive (.groupReply member seq a) s)) ∧
    (∀ (member : Nat) (seq : Nat) (a : ReplyIn) (s : State),
      s.flu.acting = 2 →
      groupPort s a.port →
      frameNew s member 3 seq →
      let t := acceptFrame a.port member 3 seq s
      (kget s.flu.rounds member).filter (inRound · a.cmd) = none →
      captureArrival (.groupReply member seq a) s = (t)) ∧
    (∀ (member : Nat) (seq : Nat) (a : ReplyIn) (s : State),
      s.flu.acting = 2 →
      groupPort s a.port →
      frameNew s member 3 seq →
      let t := acceptFrame a.port member 3 seq s
      ∀ r, (kget s.flu.rounds member).filter (inRound · a.cmd) = some r →
      captureArrival (.groupReply member seq a) s = (
        let n := r.left - 1
        let fails := a.status != 0
        let r2 : PlanRound := { r with left := n, failed := r.failed || fails, retryAt := if fails then some (s.tbu.tick + ticksPerSecond) else r.retryAt }
        modFlu (fun x => { x with rounds := if n = 0 ∧ r2.failed = false then kerase x.rounds member else kset x.rounds member r2 }) t)) ∧
    (∀ (port : Nat) (frame : List (BitVec 8)) (s : State),
      port < 2 * hearthCount s →
      ftfBad s port frame →
      exec (.ftfDiscard port frame) s = .next (modFlu
          (fun x => { x with ports := x.ports.modify port fun p => { p with bad := incSat 16 p.bad } }) s)) ∧
    (∀ (s : State),
      s.flu.acting = 3 →
      5 ≤ s.flu.missed →
      exec .leaderTakeover s = .next (takeOver s)) ∧
    (∀ (s : State),
      let x := s.flu
      followsLeader s →
      x.digestAgree = false →
      x.digestWait = false →
      x.digestSince + ticksPerSecond ≤ s.tbu.tick + 1 →
      exec .digestTimeout s = .next (groupWaits (modFlu (fun y => { y with digestWait := true }) s))) ∧
    (∀ (h : Nat) (port : Nat) (up : Bool) (s : State),
      let p := s.flu.ports.getD (2 * h + port) {}
      present s h →
      port < 2 →
      p.mode ≠ 0 →
      p.link ≠ up →
      exec (.flueLinkChange h port up) s = .next (setFlueLink h port up (if up then s else raiseSource h
          (416 + port) s)))

/-- A Sync, another PTP message, a time-out, the end of PTP holdover, and a transport frame sent, received, lost or
restored each answer the next state the spec gives. (R465, R464, R469, R470, R471). -/
def Obligations.PtpAndTransportEvents : Prop :=
    (∀ (x : PtpSync) (s : State),
      exec (.ptpSyncReceive x) s = .next (arrive (.ptpSync x) s)) ∧
    (∀ (x : PtpSync) (s : State),
      ptpPort s x.port →
      x.domain = s.flu.ptp.domain →
      (s.flu.ptp.mode == 1 || s.flu.ptp.mode == 2) →
      (s.flu.ports.getD x.port {}).slave →
      captureArrival (.ptpSync x) s = (evalTime (syncServo (syncOffset x s) s))) ∧
    (∀ (m : PtpMsg) (s : State),
      exec (.ptpMessageReceive m) s = .next (arrive (.ptpMessage m) s)) ∧
    (∀ (m : PtpMsg) (s : State),
      ptpPort s m.port →
      m.domain = s.flu.ptp.domain →
      s.flu.ptp.mode ≠ 0 →
      captureArrival (.ptpMessage m) s = (
        let t := if m.announce && s.flu.ptp.mode != 3 then
            modFlu (fun x => { x with ports := x.ports.modify m.port fun p => { p with slave := m.slave } })
              (modPtp (fun p => { p with gmId := m.gmId, lastAnnounce := s.tbu.tick }) s)
          else s
        evalTime (modPtp (fun p => { p with delay := delayAfter m p }) t))) ∧
    (∀ (s : State),
      let p := s.flu.ptp
      let late := decide (p.lastAnnounce + p.timeout * intervalTicks p.logAnnounce ≤ s.tbu.tick)
        || decide (p.lastSync + 4 * intervalTicks p.logSync ≤ s.tbu.tick)
      s.tbu.timeStatus = 3 →
      late →
      exec .ptpTimeout s = .next (evalTime (loseLock s))) ∧
    (∀ (s : State),
      s.tbu.timeStatus = 4 →
      s.flu.ptp.holdFrom + 60 * ticksPerSecond ≤ s.tbu.tick + 1 →
      exec .ptpHoldoverExpiry s = .next (evalTime (setTimeStatus 0 s))) ∧
    (∀ (h : Nat) (i : Nat) (s : State),
      let x := secAt s h i
      let n := 2 ^ x.split.samplesLog2
      present s h →
      x.split.role ≠ 0 →
      n ≤ x.split.out.length →
      exec (.transportSend h i) s = .next (
        let f : FlueTx := { typ := 4, dst := x.split.peerIndex, seq := nextSeq s 4 % 2 ^ 32, words := transportWords h i x (x.split.out.take n)
                            via := some (2 * h + x.split.port, x.split.peerMac) }
        modSplit h i (fun y => { y with out := y.out.drop n }) (modFlu (fun y => { y with txSeq := kset y.txSeq 4 (nextSeq s 4), sent := y.sent ++ [f] }) s))) ∧
    (∀ (h : Nat) (i : Nat) (f : TransportIn) (s : State),
      let x := secAt s h i
      let w := wordAt f.words 0
      present s h →
      x.split.role ≠ 0 →
      (s.flu.ports.getD f.port {}).transport →
      fld w 16 6 = globalOf h i →
      fld w 6 1 = splitDir x.split →
      exec (.transportReceive h i f) s = .next (
        let d := x.defn.getD {}
        let es := transportSamples d x.split f.words
        let late := es.filter fun e => instantPast s h d f.clk e.due
        let time := pairAt f.words 2
        modSplit h i (fun y => { y with
          eq := y.eq ++ es.filter (fun e => !instantPast s h d f.clk e.due), late := satCount 16 (y.late + late.length)
          gaps := satCount 16 (y.gaps + blocksMissed d y time es.length), lastTime := some (max time (y.lastTime.getD 0))
          rxg := [sfld (wordAt f.words 4) 0 16, sfld (wordAt f.words 4) 16 16] })
          (modFlu (fun x => { x with ports := x.ports.modify f.port fun p => { p with rx := incWrap 32 p.rx } }) s))) ∧
    (∀ (h : Nat) (i : Nat) (s : State),
      let x := secAt s h i
      present s h →
      x.split.role ≠ 0 →
      x.split.lost = false →
      x.state ≠ .cold →
      480 ≤ x.split.starved →
      exec (.transportLost h i) s = .next (
        let t := modSplit h i (fun y => { y with lost := true, stoppedByLoss := true }) (raiseSource h 422 s)
        let t := emit h 0x0A16 [globalOf h i, splitDir x.split, 1] t
        runCommand infoSectionStop sectionStop (servicePacket h i) t)) ∧
    (∀ (h : Nat) (i : Nat) (s : State),
      let x := secAt s h i
      present s h →
      x.split.role ≠ 0 →
      x.split.lost →
      4800 ≤ x.split.fed →
      let t := modSplit h i (fun y => { y with lost := false, stoppedByLoss := false }) s
      let t := emit h 0x0A16 [globalOf h i, splitDir x.split, 0] t
      x.state = .ready →
      x.split.stoppedByLoss →
      exec (.transportRestored h i) s = .next (runCommand infoSectionStart sectionStart (servicePacket h i) t)) ∧
    (∀ (h : Nat) (i : Nat) (s : State),
      let x := secAt s h i
      present s h →
      x.split.role ≠ 0 →
      x.split.lost →
      4800 ≤ x.split.fed →
      let t := modSplit h i (fun y => { y with lost := false, stoppedByLoss := false }) s
      let t := emit h 0x0A16 [globalOf h i, splitDir x.split, 0] t
      ¬(x.state = .ready ∧ x.split.stoppedByLoss = true) →
      exec (.transportRestored h i) s = .next (t))

/-- The start and the end of a probe window, a probe report, the expiry of a coupling and the start of a survey round
each answer the next state the spec gives. (R473, R476, R478). -/
def Obligations.ProbeEvents : Prop :=
    (∀ (n : Nat) (s : State),
      ∀ w, s.flu.windows[n]? = some w →
      w.running = false →
      w.start < nextTime s →
      let me := decide (w.first ≤ s.flu.deviceIndex ∧ s.flu.deviceIndex < w.first + w.count) && s.flu.acting != 0
      let gs := if me then probingSections s else []
      let t := modWindow n (openWindow s gs) s
      s.flu.acting = 2 →
      exec (.probeWindowStart n) s = .next (modFlu
          (fun x => { x with report := [], reported := [], reportStart := w.start, reportDir := w.dir }) t)) ∧
    (∀ (n : Nat) (s : State),
      ∀ w, s.flu.windows[n]? = some w →
      w.running = false →
      w.start < nextTime s →
      let me := decide (w.first ≤ s.flu.deviceIndex ∧ s.flu.deviceIndex < w.first + w.count) && s.flu.acting != 0
      let gs := if me then probingSections s else []
      let t := modWindow n (openWindow s gs) s
      s.flu.acting ≠ 2 →
      exec (.probeWindowStart n) s = .next (t)) ∧
    (∀ (n : Nat) (start : Nat) (s : State),
      ∀ w, s.flu.windows[n]? = some w →
      w.running →
      w.start = start →
      w.start + milliTime w.duration ≤ openTime s →
      let sent : List ProbeItem := w.sending.map fun g =>
        { sect := g, sent := true, level := if w.stayed.contains g then kgetD w.dbm g logMin else logMin }
      let items := heardEntries s w ++ sent
      let t := modFlu (fun x => { x with windows := x.windows.eraseIdx n }) s
      s.flu.acting = 2 →
      exec (.probeWindowEnd n start) s = .next (
        let own : List ProbeEntry := items.map fun e =>
          { device := s.flu.deviceIndex, section_ := e.sect, sent := e.sent, index := e.index, level := e.level }
        let t := modFlu (fun x => { x with
          report := x.report ++ own, reported := x.reported ++ [x.deviceIndex], surveyWin := if x.surveyRun then x.surveyWin + 1 else x.surveyWin }) t
        takeReports (scheduleNext t))) ∧
    (∀ (n : Nat) (start : Nat) (s : State),
      ∀ w, s.flu.windows[n]? = some w →
      w.running →
      w.start = start →
      w.start + milliTime w.duration ≤ openTime s →
      let t := modFlu (fun x => { x with windows := x.windows.eraseIdx n }) s
      s.flu.acting ≠ 2 →
      s.flu.acting = 0 →
      exec (.probeWindowEnd n start) s = .next (t)) ∧
    (∀ (n : Nat) (start : Nat) (s : State),
      ∀ w, s.flu.windows[n]? = some w →
      w.running →
      w.start = start →
      w.start + milliTime w.duration ≤ openTime s →
      let sent : List ProbeItem := w.sending.map fun g =>
        { sect := g, sent := true, level := if w.stayed.contains g then kgetD w.dbm g logMin else logMin }
      let items := heardEntries s w ++ sent
      let t := modFlu (fun x => { x with windows := x.windows.eraseIdx n }) s
      s.flu.acting ≠ 2 →
      s.flu.acting ≠ 0 →
      exec (.probeWindowEnd n start) s = .next (sendFrame 5 s.flu.leader false (reportWords w.start items) t)) ∧
    (∀ (r : ProbeReport) (s : State),
      groupPort s r.port →
      s.flu.acting = 2 →
      frameNew s r.src 5 r.seq →
      let t := acceptFrame r.port r.src 5 r.seq s
      r.start = s.flu.reportStart →
      exec (.probeReportReceive r) s = .next (
        let es : List ProbeEntry := r.items.map fun e =>
          { device := r.src, section_ := e.sect, sent := e.sent, index := e.index, level := e.level }
        takeReports (modFlu (fun x => { x with report := x.report ++ es, reported := x.reported ++ [r.src] }) t))) ∧
    (∀ (r : ProbeReport) (s : State),
      groupPort s r.port →
      s.flu.acting = 2 →
      frameNew s r.src 5 r.seq →
      let t := acceptFrame r.port r.src 5 r.seq s
      r.start ≠ s.flu.reportStart →
      exec (.probeReportReceive r) s = .next (t)) ∧
    (∀ (n : Nat) (s : State),
      ∀ c, s.flu.couplings[n]? = some c →
      couplingOld s c →
      exec (.couplingExpiry n) s = .next (modFlu (fun x => { x with couplings := x.couplings.eraseIdx n }) s)) ∧
    (∀ (s : State),
      let x := s.flu
      x.acting = 2 →
      x.surveyPeriod ≠ 0 →
      (x.surveyAt.any (fun t => decide (t ≤ s.tbu.tick)) = true) →
      exec .surveyRoundStart s = .next (
        let t := if x.surveyRun then finishRound s else s
        let t := modFlu (fun y => { y with
          surveyRun := true, surveyWin := 0, surveyLeft := surveyWindows s, surveyNext := (nextTime s + milliTime 100) % 2 ^ 64
          surveyAt := some (s.tbu.tick + ticksPerSecond * y.surveyPeriod) }) t
        scheduleNext (scheduleNext (scheduleNext (scheduleNext t)))))

/-- A corrected or an uncorrectable read, a scrubbed line, a page that fails its CRC, a frame sent again, a failed
link, the clears of the memory counts and marks, and an error that a block detects each answer the next state the spec
gives. (R500, R504, R502, R503, R493, R507, R506, R30). -/
def Obligations.MemoryAndErrorRows : Prop :=
    (∀ (h : Nat) (sub : Nat) (rank : Nat) (line : DramLine) (s : State),
      rankOk s h sub rank →
      exec (.dramCorrectedRead h sub rank line) s = .next (correctRead h sub rank line s)) ∧
    (∀ (h : Nat) (region : Nat) (r : LineRead) (s : State),
      rankOk s h r.sub r.rank →
      regionOf (hearthAt s h).xmc h r.address = some region →
      lineUce (markOf s h r.sub r.rank) r.line →
      exec (.dramUce h region r) s = .next (uceEffect h region r.address (noteUce h region r.address s))) ∧
    (∀ (h : Nat) (sub : Nat) (rank : Nat) (line : DramLine) (_overwritten : Bool) (s : State),
      rankOk s h sub rank →
      exec (.scrubLine h sub rank line _overwritten) s = .next (
        let x := (hearthAt s h).xmc
        let t := onlyIf (lineUce (markOf s h sub rank) line) (noteUce h ((regionOf x h (64 * x.scrubAt)).getD 6) (64 * x.scrubAt))
          (correctRead h sub rank line s)
        modXmc h (fun x =>
          let n := x.scrubAt + 1
          if memoryLines x ≤ n then { x with scrubAt := 0, progress := 0, passes := incWrap 16 x.passes }
          else { x with scrubAt := n, progress := 256 * n / memoryLines x }) t)) ∧
    (∀ (h : Nat) (region : Nat) (page : Nat) (s : State),
      present s h →
      (region == 0 || region == 4) →
      let t := raiseSource h 36 (emit h 0x0133 ([h, region] ++ bytesOf 4 page) s)
      region = 4 →
      exec (.pageCrcMismatch h region page) s = .next { t with flu := { t.flu with couplings := [] } } ) ∧
    (∀ (h : Nat) (region : Nat) (page : Nat) (s : State),
      present s h →
      (region == 0 || region == 4) →
      let t := raiseSource h 36 (emit h 0x0133 ([h, region] ++ bytesOf 4 page) s)
      region ≠ 4 →
      exec (.pageCrcMismatch h region page) s = .next (t)) ∧
    (∀ (h : Nat) (link : Nat) (again : Bool) (s : State),
      present s h →
      link < 2 →
      exec (.linkFrameRetry h link again) s = .next (
        raiseSource h 12 (modHearth h (fun x => { x with dfb := { x.dfb with
          retry := incSat 16 x.dfb.retry
          retryRun := x.dfb.retryRun.modify link fun n => if again then incSat 5 n else 1 } }) s))) ∧
    (∀ (h : Nat) (link : Nat) (s : State),
      present s h →
      16 ≤ (hearthAt s h).dfb.retryRun.getD link 0 →
      exec (.linkFail h link) s = .next (raiseSource h 14 s)) ∧
    (∀ (h : Nat) (s : State),
      s.pkg ≠ .doused →
      present s h →
      exec (.xmcCntClr h) s = .next (modXmc h (fun x => { x with ce := 0, uce := 0, devCe := [] }) s)) ∧
    (∀ (m : Nat) (h : Nat) (s : State),
      masterPriv s m →
      s.pkg ≠ .doused →
      present s h →
      exec (.xmcMarkClr m h) s = .next (clearMarks h s)) ∧
    (∀ (h : Nat) (source : Nat) (data : Nat) (s : State),
      let package := decide (source ≤ 3) || source == 8 || source == 9 || decide (480 ≤ source ∧ source ≤ 495)
          || decide (504 ≤ source)
      present s h →
      source < 512 →
      assigned source →
      ownRow source = false →
      ¬(package && h != 0) →
      let t := deviceAction h source data s
      (448 ≤ source ∧ source ≤ 463 ∨ 320 ≤ source ∧ source ≤ 383 ∧ (loopAt s h (source - 320)).state = 1) →
      exec (.errorDetected h source data) s = .next (t)) ∧
    (∀ (h : Nat) (source : Nat) (data : Nat) (s : State),
      let package := decide (source ≤ 3) || source == 8 || source == 9 || decide (480 ≤ source ∧ source ≤ 495)
          || decide (504 ≤ source)
      present s h →
      source < 512 →
      assigned source →
      ownRow source = false →
      ¬(package && h != 0) →
      let t := deviceAction h source data s
      ¬(448 ≤ source ∧ source ≤ 463) →
      ¬(320 ≤ source ∧ source ≤ 383 ∧ (loopAt s h (source - 320)).state = 1) →
      exec (.errorDetected h source data) s = .next (raiseSource h source t))

/-- The fault collector's commands, a capture, a rail fault and its end, the end of a sequence, the release of block
resets, an injection, the end of the FAULT_N pulse and the clears each answer the next state the spec gives. (R524,
R521, R525, R510, R511, R515, R514, R512, R531, R526). -/
def Obligations.FaultCollectorRows : Prop :=
    (∀ (p : Packet) (s0 s : State),
      Accepted infoFcolSourceConfig true p s0 s →
      let a := wordAt p.payload 0
      let b := wordAt p.payload 1
      let dflt := bitOf b 16
      let ns := (List.range 512).filter fun n => decide (fld a 0 9 ≤ n) && decide (n ≤ fld a 16 9)
      let cls := fld b 0 2
      let react := fld b 4 5
      zeroAt a 9 7 →
      zeroAt a 25 7 →
      zeroAt b 2 2 →
      zeroAt b 9 7 →
      zeroAt b 17 15 →
      fld a 0 9 ≤ fld a 16 9 →
      (dflt || (cls != 3 && ns.all (fun n => !lockedSources.contains n || cls == (sourceDefault n).1) &&
          (!maskHas react 2 || ns.all blockAllowed))) →
      exec (.fcolSourceConfig p) s0 = .next (
        answered infoFcolSourceConfig p s [] (each (targets p s) (fun h => modFcol h fun x =>
          let old := x.cfgNext.getD x.cfg
          { x with cfgNext := some (if dflt then old.filter fun e => !ns.contains e.1 else ns.foldl (fun m n => kset m n (cls, react)) old) }) s))) ∧
    (∀ (p : Packet) (s0 s : State),
      Accepted infoFcolInject true p s0 s →
      let w := wordAt p.payload 0
      let f := (hearthAt s p.hearth).fcol
      fld w 12 2 ≠ 3 →
      zeroAt w 9 3 →
      zeroAt w 14 18 →
      f.injPending = false →
      (kget f.rails (fld w 0 9)).isNone →
      exec (.fcolInject p) s0 = .next (
        answered infoFcolInject p s [] (modFcol p.hearth (fun x => { x with
          injSource := fld w 0 9, injMode := fld w 12 2, injPending := true, injFrom := s.tbu.clock + s.tbu.tickLen, injCaptured := false, injCoincident := false }) s))) ∧
    (∀ (p : Packet) (s0 s : State),
      Accepted infoFcolQuery true p s0 s →
      exec (.fcolQuery p) s0 = .next (answered infoFcolQuery p s (fcolWords (hearthAt s p.hearth).fcol) s)) ∧
    (∀ (h : Nat) (clk : Nat) (s : State),
      present s h →
      inTick s clk →
      let t := takeLostFatal h clk s
      let f := (hearthAt t h).fcol
      f.seqActive →
      exec (.fcolCapture h clk) s = .next (t)) ∧
    (∀ (h : Nat) (clk : Nat) (s : State),
      present s h →
      inTick s clk →
      let t := takeLostFatal h clk s
      let f := (hearthAt t h).fcol
      f.seqActive = false →
      exec (.fcolCapture h clk) s = .next (startSequence h clk ((catchesOf f).map (·.2)) t)) ∧
    (∀ (h : Nat) (source : Nat) (clk : Nat) (data : Nat) (s : State),
      present s h →
      source < 512 →
      inTick s clk →
      (kget (hearthAt s h).fcol.rails source).isNone →
      let t := modFcol h (fun x => { x with
        rails := kset x.rails source (data % 2 ^ 32), seen := x.seen.erase source
        err := if x.hold.contains source then x.err else kerase x.err source }) s
      let f := (hearthAt t h).fcol
      f.seqActive →
      exec (.railFault h source clk data) s = .next (t)) ∧
    (∀ (h : Nat) (source : Nat) (clk : Nat) (data : Nat) (s : State),
      present s h →
      source < 512 →
      inTick s clk →
      (kget (hearthAt s h).fcol.rails source).isNone →
      let t := modFcol h (fun x => { x with
        rails := kset x.rails source (data % 2 ^ 32), seen := x.seen.erase source
        err := if x.hold.contains source then x.err else kerase x.err source }) s
      let f := (hearthAt t h).fcol
      f.seqActive = false →
      exec (.railFault h source clk data) s = .next (startSequence h clk ((catchesOf f).map (·.2)) t)) ∧
    (∀ (h : Nat) (source : Nat) (error : Option Nat) (s : State),
      present s h →
      (kget (hearthAt s h).fcol.rails source).isSome →
      exec (.railFaultEnd h source error) s = .next (
        modFcol h (fun x => { x with
          rails := kerase x.rails source, railSeen := x.railSeen.erase source
          err := match error with
            | some d => kset x.err source (d % 2 ^ 32)
            | none => if x.hold.contains source then x.err else kerase x.err source }) s)) ∧
    (∀ (h : Nat) (s : State),
      let clk := (hearthAt s h).fcol.seqEnd
      present s h →
      (hearthAt s h).fcol.seqActive →
      clk < s.tbu.clock + s.tbu.tickLen →
      let t := takeLostFatal h clk s
      let chip := (hearthAt t h).fcol.chipDue && t.pkg != .doused && t.pkg != .kindling
      let t := modFcol h (fun x => { x with seqActive := false, chipDue := false }) t
      chip →
      exec (.fcolSequenceEnd h) s = .next { t with warmDue := true }) ∧
    (∀ (h : Nat) (s : State),
      let clk := (hearthAt s h).fcol.seqEnd
      present s h →
      (hearthAt s h).fcol.seqActive →
      clk < s.tbu.clock + s.tbu.tickLen →
      let t := takeLostFatal h clk s
      let chip := (hearthAt t h).fcol.chipDue && t.pkg != .doused && t.pkg != .kindling
      let t := modFcol h (fun x => { x with seqActive := false, chipDue := false }) t
      chip = false →
      exec (.fcolSequenceEnd h) s = .next (startSequence h clk ((catchesOf (hearthAt t h).fcol).map (·.2)) t)) ∧
    (∀ (h : Nat) (s : State),
      let clk := s.tbu.clock + s.tbu.tickLen
      present s h →
      exec (.blockResetRelease h) s = .next (
        each ((List.range 8).filter fun i => (secAt s h i).blockMuted && decide ((secAt s h i).muteEnd < clk)) (fun i t =>
          updateGates clk h i (modSec h i (fun x => { x with blockMuted := false, muteTo := clk }) t)) s)) ∧
    (∀ (h : Nat) (clk : Nat) (data : Nat) (s : State),
      let f := (hearthAt s h).fcol
      present s h →
      f.injPending →
      f.seqActive = false →
      inTick s clk →
      clk = injectionClock s f →
      exec (.fcolInjectionApply h clk data) s = .next (
        let n := f.injSource
        let r := injectedCatches f n f.injMode (data % 2 ^ 32)
        let mine := kget r.1 n
        let t := modFcol h (fun x => { x with
          injPending := false, injCaptured := mine.any fun c => c.inj || c.coinc, injCoincident := r.2
          err := if x.injMode = 2 ∧ !x.hold.contains n then kerase x.err n else x.err }) s
        let cs := r.1.map (·.2)
        let react := reactTaken s (cs.any (catchDouses f)) cs
        let flags := (mine.map fun c => catchFlags c (decide (1 < cs.length)) (c.src == (leadOf cs).src)).getD (1 + 2 * bitNat r.2)
        startSequence h (clk + bitNat (f.injMode == 2)) cs (emitFrom n h 0x0C34 (faultData h n flags react (data % 2 ^ 32) (clk - s.tbu.clock)) t))) ∧
    (∀ (s : State),
      (s.pins.faultPulse.any fun e => decide (e < s.tbu.clock + s.tbu.tickLen)) →
      exec .faultPinPulseEnd s = .next { s with pins := { s.pins with faultPulse := none } } ) ∧
    (∀ (h : Nat) (k : Nat) (mask : Word) (s : State),
      present s h →
      k < 16 →
      writable s →
      exec (.fcolPendClear h k mask) s = .next (modFcol h
          (fun x => { x with pend := x.pend.filter fun n => !(n / 32 == k && bitOf mask (n % 32)) }) s)) ∧
    (∀ (h : Nat) (s : State),
      present s h →
      writable s →
      exec (.fcolAlertClear h) s = .next (modFcol h (fun x => { x with alert := false }) s)) ∧
    (∀ (h : Nat) (s : State),
      present s h →
      writable s →
      exec (.fcolLostClear h) s = .next (modFcol h (fun x => { x with lost := false }) s)) ∧
    (∀ (m : Nat) (h : Nat) (s : State),
      present s h →
      writable s →
      masterPriv s m →
      exec (.fcolFfClr m h) s = .next (modFcol h
          (fun x => { x with ffValid := false, ff := {}, prior := none, sec := [] }) s)) ∧
    (∀ (h : Nat) (s : State),
      present s h →
      writable s →
      exec (.fcolCntClr h) s = .next (modFcol h
          (fun x => { x with ce := 0, uce := 0, sequences := 0, fatal := 0, count := [] }) s))

/-- The log's commands, an entry that arrives or is lost, a token that refills, and the writing of embers each answer
the next state the spec gives. (R545, R546, R547, R548, R538, R491, R542, R549, R543, R544). -/
def Obligations.AshLogRows : Prop :=
    (∀ (p : Packet) (s0 s : State),
      Accepted infoAlogRead true p s0 s →
      let w := wordAt p.payload 0
      let index := fld w 0 14
      let n := entryNumber s.alog index
      let newest := (s.alog.seq + 2 ^ 32 - n) % 2 ^ 32
      logReadOk w →
      (kget s.alog.ring index).isSome →
      exec (.alogRead p) s0 = .next (answered infoAlogRead p s ([BitVec.ofNat 32 n] ++ (entriesFrom s.alog.mirror n
          (min (fld w 16 8) newest)).flatMap entryWords) s)) ∧
    (∀ (p : Packet) (s0 s : State),
      Accepted infoEmbersRead true p s0 s →
      let w := wordAt p.payload 0
      let index := fld w 0 14
      let set := s.alog.loadedSet
      logReadOk w →
      index < 1024 →
      s.alog.emberValid →
      index < set.entries.length →
      exec (.embersRead p) s0 = .next (
        let es := (set.entries.drop index).take (fld w 16 8)
        answered infoEmbersRead p s ([BitVec.ofNat 32 (set.firstSeq + index)] ++ es.flatMap fun e => entryWords { e with ember := true }) s)) ∧
    (∀ (p : Packet) (s0 s : State),
      Accepted infoAlogRateConfig true p s0 s →
      let w0 := wordAt p.payload 0
      let w1 := wordAt p.payload 1
      let code := fld w0 0 16
      let dflt := bitOf w0 24
      ∀ d, codeDefaults code = some d →
      let burst := if dflt then d.1 else fld w0 16 8
      let refill := if dflt then d.2 else fld w1 0 16
      (bucketOf s code).isSome →
      zeroAt w0 25 7 →
      zeroAt w1 16 16 →
      burst ≠ 0 →
      refill ≠ 0 →
      exec (.alogRateConfig p) s0 = .next (answered infoAlogRateConfig p s [] (emit 0 0x0C44
          (bytesOf 2 code ++ [burst] ++ bytesOf 2 refill) (modAlog
          (fun a => { a with rateNext := a.rateNext ++ [(code, burst, refill)] }) s)))) ∧
    (∀ (p : Packet) (s0 s : State),
      Accepted infoAlogMark true p s0 s →
      exec (.alogMark p) s0 = .next (answered infoAlogMark p s [] (emit 0 0x0C41
          ((wordBytes p.payload).map BitVec.toNat) s))) ∧
    (∀ (h : Nat) (s : State),
      ∀ e rest, (hearthAt s h).dfb.logQ = e :: rest →
      exec (.logEntryArrival h) s = .next (acceptEvent e (acceptOverflow h (modHearth h
          (fun x => { x with dfb := { x.dfb with logQ := rest } }) s)))) ∧
    (∀ (h : Nat) (e : LogIn) (s : State),
      1024 ≤ (hearthAt s h).dfb.logQ.length →
      exec (.logDrop h e) s = .next (emit h e.code e.data s)) ∧
    (∀ (code : Nat) (s : State),
      ∀ b, kget s.alog.buckets code = some b →
      refillBucket b ≠ b →
      exec (.bucketRefill code) s = .next (setBucket code (refillBucket b) s)) ∧
    (∀ (s : State),
      bitOf (recordWord s 6) 3 →
      ¬(maskHas (hearthAt s 0).fes.gpioIn (fld (recordWord s 6) 4 4)) →
      exec .powerFailWarning s = .next (triggerEmbers 1 (modAlog (fun a => { a with pfWarned := true }) s))) ∧
    (∀ (m : Nat) (s : State),
      masterPriv s m →
      s.pkg ≠ .doused →
      exec (.emberNow m) s = .next (triggerEmbers 3 s)) ∧
    (∀ (ok : Bool) (s : State),
      s.alog.emberWriting →
      let t := emberWritten ok s
      t.thmPkg.stop = 2 →
      exec (.emberWriteDone ok) s = .next (powerDownRf t)) ∧
    (∀ (ok : Bool) (s : State),
      s.alog.emberWriting →
      let t := emberWritten ok s
      t.thmPkg.stop ≠ 2 →
      exec (.emberWriteDone ok) s = .next (t)) ∧
    (∀ (ok : Bool) (s : State),
      s.alog.erasing →
      ok →
      exec (.emberEraseDone ok) s = .next (modAlog
          (fun a => { a with erasing := false, emberReady := true, areas := a.areas.modify (spareArea s) fun _ => .erased }) s)) ∧
    (∀ (ok : Bool) (s : State),
      s.alog.erasing →
      ok = false →
      exec (.emberEraseDone ok) s = .next (raiseSource 0 505 (modAlog (fun a => { a with erasing := false }) s))) ∧
    (∀ (s : State),
      s.pkg ≠ .doused →
      exec .alogCntClr s = .next (modAlog (fun a => { a with ovw := 0, supp := 0 }) s))

/-- The thermal commands, a conversion, a step of shedding, a trip, RESUME_OK and the clear of the counts each answer
the next state the spec gives. (R563, R562, R564, R553, R559, R561, R565). -/
def Obligations.ThermalRows : Prop :=
    (∀ (p : Packet) (s0 s : State),
      Accepted infoThermalConfig true p s0 s →
      thmCfgOk p.payload →
      exec (.thermalConfig p) s0 = .next (answered infoThermalConfig p s [] (each (targets p s)
          (fun h => modThm h fun x => { x with cfg := thmCfgOf p.payload }) s))) ∧
    (∀ (p : Packet) (s0 s : State),
      Accepted infoThermalResume true p s0 s →
      s.holds.thermal → s.thmPkg.resumeOk →
      exec (.thermalResume p) s0 = .next (answered infoThermalResume p s [] (thermalRelease 1 s))) ∧
    (∀ (p : Packet) (s0 s : State),
      Accepted infoThermalQuery true p s0 s →
      exec (.thermalQuery p) s0 = .next (answered infoThermalQuery p s (thermalWords s p.hearth) s)) ∧
    (∀ (h : Nat) (temps : List Int) (s : State),
      present s h →
      s.tbu.tick % 48 = 47 →
      s.pkg ≠ .doused →
      exec (.thmConversion h temps) s = .next (convert h temps s)) ∧
    (∀ (h : Nat) (s : State),
      let x := (hearthAt s h).thm
      let n := x.cfg.shedTime * 480
      present s h →
      n ≤ x.fullRun →
      ∀ p, lowestUnshed s h = some p →
      exec (.shedTimer h) s = .next (shedLevel true h p s)) ∧
    (∀ (h : Nat) (s : State),
      let x := (hearthAt s h).thm
      let n := x.cfg.shedTime * 480
      present s h →
      x.fullRun < n →
      x.shed.isEmpty = false →
      n ≤ x.coolRun →
      exec (.shedTimer h) s = .next (shedLevel false h (x.shed.foldl max 0) s)) ∧
    (∀ (h : Nat) (zone : Nat) (s : State),
      present s h →
      zone < 8 →
      s.pkg ≠ .doused →
      exec (.thermalTrip h zone) s = .next (trip h zone s)) ∧
    (∀ (s : State),
      s.thmPkg.resumeOk = false →
      480000 ≤ s.thmPkg.resumeTicks →
      s.pkg ≠ .doused →
      let t := modThmPkg (fun x => { x with resumeOk := true }) s
      bitOf (recordWord s 6) 1 →
      s.holds.thermal →
      exec .resumeOkSet s = .next (thermalRelease 0 t)) ∧
    (∀ (s : State),
      s.thmPkg.resumeOk = false →
      480000 ≤ s.thmPkg.resumeTicks →
      s.pkg ≠ .doused →
      let t := modThmPkg (fun x => { x with resumeOk := true }) s
      ¬(bitOf (recordWord s 6) 1 && s.holds.thermal) →
      exec .resumeOkSet s = .next (t)) ∧
    (∀ (h : Nat) (s : State),
      present s h →
      writable s →
      exec (.thmCntClr h) s = .next (modThm h (fun x => { x with sheds := 0, stops := 0, trips := 0 }) s))

/-- The security commands, in each of their forms, and the ends of a write, of a programming and of a signature each
answer the next state the spec gives. (R592, R591, R586, R587, R585, R589). -/
def Obligations.SecurityRows : Prop :=
    (∀ (p : Packet) (s0 s : State),
      Accepted infoAttest true p s0 s →
      s.cpx.held.length < 256 →
      exec (.attest p) s0 = .next (parked infoAttest p s s.sec.reportNext none (modBoot
          (fun x => { x with reportNext := x.reportNext + 1 }) s))) ∧
    (∀ (p : Packet) (s0 s : State),
      Accepted infoCertRead true p s0 s →
      let w := wordAt p.payload 0
      fld w 0 2 ≤ 1 →
      zeroAt w 2 30 →
      exec (.certRead p) s0 = .next (
        let der := (if fld w 0 2 = 0 then Config.deviceCert else Config.nareriCert).take 2044
        answered infoCertRead p s (BitVec.ofNat 32 der.length :: packBytes der) s)) ∧
    (∀ (p : Packet) (s0 s : State),
      Accepted infoImageWrite true p s0 s →
      let w := wordAt p.payload 0
      let target := fld w 0 2
      let offset := (wordAt p.payload 1).toNat
      let data := p.payload.drop 2
      let first := bitOf w 8
      let room := if target = 3 then 0x10000 else 0x1000000
      stagesRun s = false →
      (heldFor s 0x0D0A 0).isEmpty →
      zeroAt w 2 6 →
      zeroAt w 10 22 →
      (decide (2 ≤ target) || s.sec.record.isSome) →
      (if first then offset == 0 else s.sec.xfer.any fun x => x.target == target && x.offset == offset) →
      offset + 4 * data.length ≤ room →
      let t := onlyIf first (eraseTarget target) s
      let t := modBoot
          (fun x => { x with xfer := some { target := target, copy := spareCopy s, offset := offset + 4 * data.length } }) t
      let t := writeTarget target offset data t
      target = 2 →
      exec (.imageWrite p) s0 = .next (answered infoImageWrite p s [] (onlyIf (bitOf w 9)
          (modBoot fun x => { x with xfer := none }) t))) ∧
    (∀ (p : Packet) (s0 s : State),
      Accepted infoImageWrite true p s0 s →
      let w := wordAt p.payload 0
      let target := fld w 0 2
      let offset := (wordAt p.payload 1).toNat
      let data := p.payload.drop 2
      let first := bitOf w 8
      let room := if target = 3 then 0x10000 else 0x1000000
      stagesRun s = false →
      (heldFor s 0x0D0A 0).isEmpty →
      zeroAt w 2 6 →
      zeroAt w 10 22 →
      (decide (2 ≤ target) || s.sec.record.isSome) →
      (if first then offset == 0 else s.sec.xfer.any fun x => x.target == target && x.offset == offset) →
      offset + 4 * data.length ≤ room →
      let t := onlyIf first (eraseTarget target) s
      let t := modBoot
          (fun x => { x with xfer := some { target := target, copy := spareCopy s, offset := offset + 4 * data.length } }) t
      let t := writeTarget target offset data t
      target ≠ 2 →
      s.cpx.held.length < 256 →
      exec (.imageWrite p) s0 = .next (parked infoImageWrite p s 0 none t)) ∧
    (∀ (ok : Bool) (s : State),
      ∀ c, (heldFor s 0x0D0A 0).head? = some c →
      let last := bitOf (wordAt c.words 0) 9
      let t := onlyIf last (modBoot fun x => { x with xfer := none }) s
      last →
      ok = false →
      exec (.imageWriteDone ok) s = .next (endHeld c .internal [] (spoilChunk c t))) ∧
    (∀ (ok : Bool) (s : State),
      ∀ c, (heldFor s 0x0D0A 0).head? = some c →
      let last := bitOf (wordAt c.words 0) 9
      let t := onlyIf last (modBoot fun x => { x with xfer := none }) s
      ¬(last && !ok) →
      exec (.imageWriteDone ok) s = .next (endHeld c .ok [] t)) ∧
    (∀ (p : Packet) (s0 s : State),
      Accepted infoImageActivate true p s0 s →
      let w := wordAt p.payload 0
      let op := fld w 0 2
      let target := fld w 4 2
      let bad := activated w .authFailed s
      stagesRun s = false → zeroAt w 2 2 → zeroAt w 6 26 →
      (target < 2 → s.sec.record.isSome) →
      op = 0 →
      exec (.imageActivate p) s0 = .next (if targetVerifies s target then answered infoImageActivate p s [] (activated w .ok s)
        else sendReply (heldOf infoImageActivate p) .authFailed [] bad)) ∧
    (∀ (p : Packet) (s0 s : State),
      Accepted infoImageActivate true p s0 s →
      let w := wordAt p.payload 0
      let op := fld w 0 2
      let target := fld w 4 2
      let bad := activated w .authFailed s
      stagesRun s = false → zeroAt w 2 2 → zeroAt w 6 26 →
      (target < 2 → s.sec.record.isSome) →
      op = 1 → target < 2 →
      exec (.imageActivate p) s0 = .next (if targetVerifies s target then answered infoImageActivate p s [] (activated w .ok (selectSlot target s))
        else sendReply (heldOf infoImageActivate p) .authFailed [] bad)) ∧
    (∀ (p : Packet) (s0 s : State),
      Accepted infoImageActivate true p s0 s →
      let w := wordAt p.payload 0
      let op := fld w 0 2
      stagesRun s = false → zeroAt w 2 2 → zeroAt w 6 26 →
      op = 3 → s.sec.rollbackProg = none → s.sec.fwSvn ≤ s.sec.rollback →
      exec (.imageActivate p) s0 = .next (answered infoImageActivate p s [] (activated w .ok s))) ∧
    (∀ (p : Packet) (s0 s : State),
      Accepted infoImageActivate true p s0 s →
      let w := wordAt p.payload 0
      let op := fld w 0 2
      stagesRun s = false → zeroAt w 2 2 → zeroAt w 6 26 →
      op = 3 → s.sec.rollbackProg = none → s.sec.rollback < s.sec.fwSvn → s.cpx.held.length < 256 →
      exec (.imageActivate p) s0 = .next (parked infoImageActivate p s 3 none
        { s with sec := { s.sec with rollbackProg := some s.sec.fwSvn } })) ∧
    (∀ (p : Packet) (s0 s : State),
      Accepted infoImageActivate true p s0 s →
      let w := wordAt p.payload 0
      let op := fld w 0 2
      let target := fld w 4 2
      let bad := activated w .authFailed s
      stagesRun s = false → zeroAt w 2 2 → zeroAt w 6 26 →
      (target < 2 → s.sec.record.isSome) →
      let t := modBoot (fun x => { x with bootNext := if target = 3 then none else some target })
        (if target < 2 then selectSlot target s else s)
      op = 2 → s.pkg = .kindling →
      exec (.imageActivate p) s0 = .next (if targetVerifies s target then answered infoImageActivate p s [] (activated w .ok (restartBoot t))
        else sendReply (heldOf infoImageActivate p) .authFailed [] bad)) ∧
    (∀ (p : Packet) (s0 s : State),
      Accepted infoImageActivate true p s0 s →
      let w := wordAt p.payload 0
      let op := fld w 0 2
      let target := fld w 4 2
      let bad := activated w .authFailed s
      stagesRun s = false → zeroAt w 2 2 → zeroAt w 6 26 →
      (target < 2 → s.sec.record.isSome) →
      let t := modBoot (fun x => { x with bootNext := if target = 3 then none else some target })
        (if target < 2 then selectSlot target s else s)
      let u := setHolds (fun x => { x with reset := true }) t
      op = 2 → s.pkg ≠ .kindling → s.holds.reset = false → s.cpx.held.length < 256 →
      exec (.imageActivate p) s0 = .next (if targetVerifies s target then parked infoImageActivate p s 1 none u
        else sendReply (heldOf infoImageActivate p) .authFailed [] bad)) ∧
    (∀ (ok : Bool) (s : State),
      ∀ v, s.sec.rollbackProg = some v →
      exec (.rollbackProgramDone ok) s = .next (
        let old := s.sec.rollback
        let f := takeFree s
        let new := if ok then v else old + f.1.toNat % (v - old)
        let t := modBoot (fun x => { x with rollback := new, rollbackProg := none }) (if ok then s else f.2)
        let t := onlyIf (!ok) (raiseSource 0 488) t
        let t := onlyIf (new != old) (emit 0 0x0D19 [old, new]) t
        let st : Status := if ok then .ok else .internal
        let t := each (heldFor t 0x0D0B 3) (fun c u => activated (wordAt c.words 0) st u) t
        endHeldFor 0x0D0B 3 st [] t)) ∧
    (∀ (p : Packet) (s0 s : State),
      Accepted infoOemKeyWrite true p s0 s →
      let w := wordAt p.payload 0
      let id := fld w 0 2
      let bs := keyBytes p.payload
      let signer := if id = 0 then some Config.nareriProvisioningKey else oemKeyNow s
      let msg := uidBytes s ++ asBytes [4, id] ++ bs
      stagesRun s = false → s.sec.keyProg = none → id ≤ 1 → (if id = 0 then s.sec.oemKey else s.sec.hostKey) = none →
      zeroAt w 2 30 → bs.head? = some 4 → zeroAt (wordAt p.payload 25) 8 24 → s.cpx.held.length < 256 →
      exec (.oemKeyWrite p) s0 = .next (
        if Config.pointOnCurve (bytesValue bs) = false then sendReply (heldOf infoOemKeyWrite p) .badParam [] s
        else if signer.any (fun k => Config.ecdsaVerify k msg (p.payload.drop 26)) then
          parked infoOemKeyWrite p s 0 none { s with sec := { s.sec with keyProg := some (id, bytesValue bs) } }
        else sendReply (heldOf infoOemKeyWrite p) .authFailed [] s)) ∧
    (∀ (ok : Bool) (s : State),
      ∀ id key, s.sec.keyProg = some (id, key) →
      exec (.keyProgramDone ok) s = .next (
        let t := modBoot (fun x => { x with
          keyProg := none
          oemKey := if ok && id == 0 then some key else x.oemKey
          hostKey := if ok && id == 1 then some key else x.hostKey
          oemFrom := if ok && id == 0 then s.tbu.tick + 1 else x.oemFrom, hostFrom := if ok && id == 1 then s.tbu.tick + 1 else x.hostFrom }) s
        let t := onlyIf ok (emit 0 0x0D18 [id]) t
        endHeldFor 0x0D0C 0 (if ok then .ok else .internal) [] t)) ∧
    (∀ (s : State),
      ∀ c, (s.cpx.held.find? fun c => c.op == 0x0D08) = some c →
      ∀ ws, kget s.sec.reports c.key = some ws →
      exec .attestSignDone s = .next (
        let t := modBoot (fun x => { x with reports := kerase x.reports c.key }) s
        endHeld c .ok (ws ++ Config.ecdsaSign (asBytes [8] ++ wordBytes ws)) t))
end

