-- ==== Sys2Proof/Laws/Capture.lean ====
section
/-! SUPPORT. Laws/Capture.lean: what a command row does once its packet is captured, said once for all of them. -/

namespace Sys2Proof.Machine

/-- A captured packet is handled in the state that its capture leaves. -/
theorem runCommandWith_taken {ci : CmdInfo} {l : Bool} {body : Packet → State → Done} {p : Packet} {s : State}
    (hc : captures ci p s = true) : runCommandWith ci l body p s = handle ci l body p (afterCapture ci p s) := by
  unfold captures at hc
  unfold runCommandWith afterCapture
  split at hc
  · rename_i hq
    rw [if_pos hq, if_pos hq]
    unfold queueTakes at hc
    simp only [Bool.and_eq_true, beq_iff_eq, decide_eq_true_eq, Bool.not_eq_true'] at hc
    obtain ⟨⟨⟨⟨⟨⟨h1, h2⟩, h3⟩, h4⟩, h5⟩, h6⟩, h7⟩ := hc
    have n1 : 1 ≤ slotsOf p.payload.length := by unfold slotsOf ceilDiv; omega
    unfold captureQueue
    dsimp only
    rw [if_neg (by rw [h4, h5, h6]; simp; omega), if_neg (by omega), if_neg (by omega)]
    have fits : reservation ci.reply ≤ (queueAt s p.src).cqM1 := by omega
    simp only [fits, decide_true, if_true]
    rw [if_pos h7]
  · rename_i hq
    rw [Bool.and_eq_true] at hc
    obtain ⟨h1, h2⟩ := hc
    rw [if_neg hq, if_neg hq, if_neg (by rw [h1]; simp)]
    split at h2
    · rename_i h40
      simp only [if_pos h40]
      rw [if_pos (by simpa using h2)]
    · rename_i h40
      rw [if_neg h40, if_neg h40]
      split at h2
      · rename_i h41
        simp only [Bool.and_eq_true, bne_iff_ne, Bool.not_eq_true'] at h2
        rw [if_pos h41, if_pos h41, if_neg (by simp [h2.1.1, h2.1.2]), if_pos h2.2]
        unfold afterLeader
        cases p.roundEnd <;> rfl
      · rename_i h41
        rw [if_neg h41, if_neg h41, if_pos (by simpa using h2)]

/-- An accepted command whose handling replies OK. -/
theorem Accepted.reply {ci : CmdInfo} {l : Bool} {body : Packet → State → Done} {p : Packet} {s t u : State} {ws : List Word}
    (ha : Accepted ci l p s t) (hb : body p t = .reply .ok ws u) : runCommandWith ci l body p s = answered ci p t ws u := by
  obtain ⟨h1, rfl, h3⟩ := ha
  rw [runCommandWith_taken h1]
  unfold handle answered
  simp only [h3, hb, if_true]

/-- An accepted command whose handling replies with another status. -/
theorem Accepted.fail {ci : CmdInfo} {l : Bool} {body : Packet → State → Done} {p : Packet} {s t u : State} {ws : List Word}
    {st : Status} (ha : Accepted ci l p s t) (hs : st ≠ .ok) (hb : body p t = .reply st ws u) :
    runCommandWith ci l body p s = sendReply (heldOf ci p) st ws u := by
  obtain ⟨h1, rfl, h3⟩ := ha
  rw [runCommandWith_taken h1]
  unfold handle
  simp only [h3, hb, if_neg hs]

/-- An accepted command whose handling waits, while fewer than 256 commands wait (spec/12 R368). -/
theorem Accepted.hold {ci : CmdInfo} {l : Bool} {body : Packet → State → Done} {p : Packet} {s t u : State} {key : Nat}
    {dl : Option Nat} (ha : Accepted ci l p s t) (hn : t.cpx.held.length < 256) (hb : body p t = .hold key dl u) :
    runCommandWith ci l body p s = parked ci p t key dl u := by
  obtain ⟨h1, rfl, h3⟩ := ha
  rw [runCommandWith_taken h1]
  unfold handle parked
  simp only [h3, hb]
  rw [if_neg (by omega)]

end Sys2Proof.Machine
end

