-- ==== Sys2Proof/Laws/State.lean ====
section
/-! SUPPORT. Laws/State.lean: for each named change of a part of the state and each field, what the field then reads. -/

namespace Sys2Proof.Machine

/-! ### modHearth -/

@[simp] theorem modHearth_ident (h : Nat) (f : Hearth → Hearth) (s : State) : (modHearth h f s).ident = s.ident := rfl
@[simp] theorem modHearth_pkg (h : Nat) (f : Hearth → Hearth) (s : State) : (modHearth h f s).pkg = s.pkg := rfl
@[simp] theorem modHearth_holds (h : Nat) (f : Hearth → Hearth) (s : State) : (modHearth h f s).holds = s.holds := rfl
@[simp] theorem modHearth_warmDue (h : Nat) (f : Hearth → Hearth) (s : State) : (modHearth h f s).warmDue = s.warmDue := rfl
@[simp] theorem modHearth_tbu (h : Nat) (f : Hearth → Hearth) (s : State) : (modHearth h f s).tbu = s.tbu := rfl
@[simp] theorem modHearth_setpt (h : Nat) (f : Hearth → Hearth) (s : State) : (modHearth h f s).setpt = s.setpt := rfl
@[simp] theorem modHearth_cpx (h : Nat) (f : Hearth → Hearth) (s : State) : (modHearth h f s).cpx = s.cpx := rfl
@[simp] theorem modHearth_hif (h : Nat) (f : Hearth → Hearth) (s : State) : (modHearth h f s).hif = s.hif := rfl
@[simp] theorem modHearth_alog (h : Nat) (f : Hearth → Hearth) (s : State) : (modHearth h f s).alog = s.alog := rfl
@[simp] theorem modHearth_sys (h : Nat) (f : Hearth → Hearth) (s : State) : (modHearth h f s).sys = s.sys := rfl
@[simp] theorem modHearth_sec (h : Nat) (f : Hearth → Hearth) (s : State) : (modHearth h f s).sec = s.sec := rfl
@[simp] theorem modHearth_flu (h : Nat) (f : Hearth → Hearth) (s : State) : (modHearth h f s).flu = s.flu := rfl
@[simp] theorem modHearth_limits (h : Nat) (f : Hearth → Hearth) (s : State) : (modHearth h f s).limits = s.limits := rfl
@[simp] theorem modHearth_thmPkg (h : Nat) (f : Hearth → Hearth) (s : State) : (modHearth h f s).thmPkg = s.thmPkg := rfl
@[simp] theorem modHearth_pins (h : Nat) (f : Hearth → Hearth) (s : State) : (modHearth h f s).pins = s.pins := rfl
@[simp] theorem modHearth_hearths (h : Nat) (f : Hearth → Hearth) (s : State) : (modHearth h f s).hearths = s.hearths.modify h f := rfl
@[simp] theorem modHearth_arrivals (h : Nat) (f : Hearth → Hearth) (s : State) : (modHearth h f s).arrivals = s.arrivals := rfl
@[simp] theorem modHearth_free (h : Nat) (f : Hearth → Hearth) (s : State) : (modHearth h f s).free = s.free := rfl
@[simp] theorem modHearth_pending (h : Nat) (f : Hearth → Hearth) (s : State) : (modHearth h f s).pending = s.pending := rfl

/-! ### modTbu -/

@[simp] theorem modTbu_ident (f : Tbu → Tbu) (s : State) : (modTbu f s).ident = s.ident := rfl
@[simp] theorem modTbu_pkg (f : Tbu → Tbu) (s : State) : (modTbu f s).pkg = s.pkg := rfl
@[simp] theorem modTbu_holds (f : Tbu → Tbu) (s : State) : (modTbu f s).holds = s.holds := rfl
@[simp] theorem modTbu_warmDue (f : Tbu → Tbu) (s : State) : (modTbu f s).warmDue = s.warmDue := rfl
@[simp] theorem modTbu_tbu (f : Tbu → Tbu) (s : State) : (modTbu f s).tbu = f s.tbu := rfl
@[simp] theorem modTbu_setpt (f : Tbu → Tbu) (s : State) : (modTbu f s).setpt = s.setpt := rfl
@[simp] theorem modTbu_cpx (f : Tbu → Tbu) (s : State) : (modTbu f s).cpx = s.cpx := rfl
@[simp] theorem modTbu_hif (f : Tbu → Tbu) (s : State) : (modTbu f s).hif = s.hif := rfl
@[simp] theorem modTbu_alog (f : Tbu → Tbu) (s : State) : (modTbu f s).alog = s.alog := rfl
@[simp] theorem modTbu_sys (f : Tbu → Tbu) (s : State) : (modTbu f s).sys = s.sys := rfl
@[simp] theorem modTbu_sec (f : Tbu → Tbu) (s : State) : (modTbu f s).sec = s.sec := rfl
@[simp] theorem modTbu_flu (f : Tbu → Tbu) (s : State) : (modTbu f s).flu = s.flu := rfl
@[simp] theorem modTbu_limits (f : Tbu → Tbu) (s : State) : (modTbu f s).limits = s.limits := rfl
@[simp] theorem modTbu_thmPkg (f : Tbu → Tbu) (s : State) : (modTbu f s).thmPkg = s.thmPkg := rfl
@[simp] theorem modTbu_pins (f : Tbu → Tbu) (s : State) : (modTbu f s).pins = s.pins := rfl
@[simp] theorem modTbu_hearths (f : Tbu → Tbu) (s : State) : (modTbu f s).hearths = s.hearths := rfl
@[simp] theorem modTbu_arrivals (f : Tbu → Tbu) (s : State) : (modTbu f s).arrivals = s.arrivals := rfl
@[simp] theorem modTbu_free (f : Tbu → Tbu) (s : State) : (modTbu f s).free = s.free := rfl
@[simp] theorem modTbu_pending (f : Tbu → Tbu) (s : State) : (modTbu f s).pending = s.pending := rfl

/-! ### modCpx -/

@[simp] theorem modCpx_ident (f : Cpx → Cpx) (s : State) : (modCpx f s).ident = s.ident := rfl
@[simp] theorem modCpx_pkg (f : Cpx → Cpx) (s : State) : (modCpx f s).pkg = s.pkg := rfl
@[simp] theorem modCpx_holds (f : Cpx → Cpx) (s : State) : (modCpx f s).holds = s.holds := rfl
@[simp] theorem modCpx_warmDue (f : Cpx → Cpx) (s : State) : (modCpx f s).warmDue = s.warmDue := rfl
@[simp] theorem modCpx_tbu (f : Cpx → Cpx) (s : State) : (modCpx f s).tbu = s.tbu := rfl
@[simp] theorem modCpx_setpt (f : Cpx → Cpx) (s : State) : (modCpx f s).setpt = s.setpt := rfl
@[simp] theorem modCpx_cpx (f : Cpx → Cpx) (s : State) : (modCpx f s).cpx = f s.cpx := rfl
@[simp] theorem modCpx_hif (f : Cpx → Cpx) (s : State) : (modCpx f s).hif = s.hif := rfl
@[simp] theorem modCpx_alog (f : Cpx → Cpx) (s : State) : (modCpx f s).alog = s.alog := rfl
@[simp] theorem modCpx_sys (f : Cpx → Cpx) (s : State) : (modCpx f s).sys = s.sys := rfl
@[simp] theorem modCpx_sec (f : Cpx → Cpx) (s : State) : (modCpx f s).sec = s.sec := rfl
@[simp] theorem modCpx_flu (f : Cpx → Cpx) (s : State) : (modCpx f s).flu = s.flu := rfl
@[simp] theorem modCpx_limits (f : Cpx → Cpx) (s : State) : (modCpx f s).limits = s.limits := rfl
@[simp] theorem modCpx_thmPkg (f : Cpx → Cpx) (s : State) : (modCpx f s).thmPkg = s.thmPkg := rfl
@[simp] theorem modCpx_pins (f : Cpx → Cpx) (s : State) : (modCpx f s).pins = s.pins := rfl
@[simp] theorem modCpx_hearths (f : Cpx → Cpx) (s : State) : (modCpx f s).hearths = s.hearths := rfl
@[simp] theorem modCpx_arrivals (f : Cpx → Cpx) (s : State) : (modCpx f s).arrivals = s.arrivals := rfl
@[simp] theorem modCpx_free (f : Cpx → Cpx) (s : State) : (modCpx f s).free = s.free := rfl
@[simp] theorem modCpx_pending (f : Cpx → Cpx) (s : State) : (modCpx f s).pending = s.pending := rfl

/-! ### modSys -/

@[simp] theorem modSys_ident (f : Sys → Sys) (s : State) : (modSys f s).ident = s.ident := rfl
@[simp] theorem modSys_pkg (f : Sys → Sys) (s : State) : (modSys f s).pkg = s.pkg := rfl
@[simp] theorem modSys_holds (f : Sys → Sys) (s : State) : (modSys f s).holds = s.holds := rfl
@[simp] theorem modSys_warmDue (f : Sys → Sys) (s : State) : (modSys f s).warmDue = s.warmDue := rfl
@[simp] theorem modSys_tbu (f : Sys → Sys) (s : State) : (modSys f s).tbu = s.tbu := rfl
@[simp] theorem modSys_setpt (f : Sys → Sys) (s : State) : (modSys f s).setpt = s.setpt := rfl
@[simp] theorem modSys_cpx (f : Sys → Sys) (s : State) : (modSys f s).cpx = s.cpx := rfl
@[simp] theorem modSys_hif (f : Sys → Sys) (s : State) : (modSys f s).hif = s.hif := rfl
@[simp] theorem modSys_alog (f : Sys → Sys) (s : State) : (modSys f s).alog = s.alog := rfl
@[simp] theorem modSys_sys (f : Sys → Sys) (s : State) : (modSys f s).sys = f s.sys := rfl
@[simp] theorem modSys_sec (f : Sys → Sys) (s : State) : (modSys f s).sec = s.sec := rfl
@[simp] theorem modSys_flu (f : Sys → Sys) (s : State) : (modSys f s).flu = s.flu := rfl
@[simp] theorem modSys_limits (f : Sys → Sys) (s : State) : (modSys f s).limits = s.limits := rfl
@[simp] theorem modSys_thmPkg (f : Sys → Sys) (s : State) : (modSys f s).thmPkg = s.thmPkg := rfl
@[simp] theorem modSys_pins (f : Sys → Sys) (s : State) : (modSys f s).pins = s.pins := rfl
@[simp] theorem modSys_hearths (f : Sys → Sys) (s : State) : (modSys f s).hearths = s.hearths := rfl
@[simp] theorem modSys_arrivals (f : Sys → Sys) (s : State) : (modSys f s).arrivals = s.arrivals := rfl
@[simp] theorem modSys_free (f : Sys → Sys) (s : State) : (modSys f s).free = s.free := rfl
@[simp] theorem modSys_pending (f : Sys → Sys) (s : State) : (modSys f s).pending = s.pending := rfl

/-! ### modBoot -/

@[simp] theorem modBoot_ident (f : Sec → Sec) (s : State) : (modBoot f s).ident = s.ident := rfl
@[simp] theorem modBoot_pkg (f : Sec → Sec) (s : State) : (modBoot f s).pkg = s.pkg := rfl
@[simp] theorem modBoot_holds (f : Sec → Sec) (s : State) : (modBoot f s).holds = s.holds := rfl
@[simp] theorem modBoot_warmDue (f : Sec → Sec) (s : State) : (modBoot f s).warmDue = s.warmDue := rfl
@[simp] theorem modBoot_tbu (f : Sec → Sec) (s : State) : (modBoot f s).tbu = s.tbu := rfl
@[simp] theorem modBoot_setpt (f : Sec → Sec) (s : State) : (modBoot f s).setpt = s.setpt := rfl
@[simp] theorem modBoot_cpx (f : Sec → Sec) (s : State) : (modBoot f s).cpx = s.cpx := rfl
@[simp] theorem modBoot_hif (f : Sec → Sec) (s : State) : (modBoot f s).hif = s.hif := rfl
@[simp] theorem modBoot_alog (f : Sec → Sec) (s : State) : (modBoot f s).alog = s.alog := rfl
@[simp] theorem modBoot_sys (f : Sec → Sec) (s : State) : (modBoot f s).sys = s.sys := rfl
@[simp] theorem modBoot_sec (f : Sec → Sec) (s : State) : (modBoot f s).sec = f s.sec := rfl
@[simp] theorem modBoot_flu (f : Sec → Sec) (s : State) : (modBoot f s).flu = s.flu := rfl
@[simp] theorem modBoot_limits (f : Sec → Sec) (s : State) : (modBoot f s).limits = s.limits := rfl
@[simp] theorem modBoot_thmPkg (f : Sec → Sec) (s : State) : (modBoot f s).thmPkg = s.thmPkg := rfl
@[simp] theorem modBoot_pins (f : Sec → Sec) (s : State) : (modBoot f s).pins = s.pins := rfl
@[simp] theorem modBoot_hearths (f : Sec → Sec) (s : State) : (modBoot f s).hearths = s.hearths := rfl
@[simp] theorem modBoot_arrivals (f : Sec → Sec) (s : State) : (modBoot f s).arrivals = s.arrivals := rfl
@[simp] theorem modBoot_free (f : Sec → Sec) (s : State) : (modBoot f s).free = s.free := rfl
@[simp] theorem modBoot_pending (f : Sec → Sec) (s : State) : (modBoot f s).pending = s.pending := rfl

/-! ### modAlog -/

@[simp] theorem modAlog_ident (f : Alog → Alog) (s : State) : (modAlog f s).ident = s.ident := rfl
@[simp] theorem modAlog_pkg (f : Alog → Alog) (s : State) : (modAlog f s).pkg = s.pkg := rfl
@[simp] theorem modAlog_holds (f : Alog → Alog) (s : State) : (modAlog f s).holds = s.holds := rfl
@[simp] theorem modAlog_warmDue (f : Alog → Alog) (s : State) : (modAlog f s).warmDue = s.warmDue := rfl
@[simp] theorem modAlog_tbu (f : Alog → Alog) (s : State) : (modAlog f s).tbu = s.tbu := rfl
@[simp] theorem modAlog_setpt (f : Alog → Alog) (s : State) : (modAlog f s).setpt = s.setpt := rfl
@[simp] theorem modAlog_cpx (f : Alog → Alog) (s : State) : (modAlog f s).cpx = s.cpx := rfl
@[simp] theorem modAlog_hif (f : Alog → Alog) (s : State) : (modAlog f s).hif = s.hif := rfl
@[simp] theorem modAlog_alog (f : Alog → Alog) (s : State) : (modAlog f s).alog = f s.alog := rfl
@[simp] theorem modAlog_sys (f : Alog → Alog) (s : State) : (modAlog f s).sys = s.sys := rfl
@[simp] theorem modAlog_sec (f : Alog → Alog) (s : State) : (modAlog f s).sec = s.sec := rfl
@[simp] theorem modAlog_flu (f : Alog → Alog) (s : State) : (modAlog f s).flu = s.flu := rfl
@[simp] theorem modAlog_limits (f : Alog → Alog) (s : State) : (modAlog f s).limits = s.limits := rfl
@[simp] theorem modAlog_thmPkg (f : Alog → Alog) (s : State) : (modAlog f s).thmPkg = s.thmPkg := rfl
@[simp] theorem modAlog_pins (f : Alog → Alog) (s : State) : (modAlog f s).pins = s.pins := rfl
@[simp] theorem modAlog_hearths (f : Alog → Alog) (s : State) : (modAlog f s).hearths = s.hearths := rfl
@[simp] theorem modAlog_arrivals (f : Alog → Alog) (s : State) : (modAlog f s).arrivals = s.arrivals := rfl
@[simp] theorem modAlog_free (f : Alog → Alog) (s : State) : (modAlog f s).free = s.free := rfl
@[simp] theorem modAlog_pending (f : Alog → Alog) (s : State) : (modAlog f s).pending = s.pending := rfl

/-! ### modHif -/

@[simp] theorem modHif_ident (f : Hif → Hif) (s : State) : (modHif f s).ident = s.ident := rfl
@[simp] theorem modHif_pkg (f : Hif → Hif) (s : State) : (modHif f s).pkg = s.pkg := rfl
@[simp] theorem modHif_holds (f : Hif → Hif) (s : State) : (modHif f s).holds = s.holds := rfl
@[simp] theorem modHif_warmDue (f : Hif → Hif) (s : State) : (modHif f s).warmDue = s.warmDue := rfl
@[simp] theorem modHif_tbu (f : Hif → Hif) (s : State) : (modHif f s).tbu = s.tbu := rfl
@[simp] theorem modHif_setpt (f : Hif → Hif) (s : State) : (modHif f s).setpt = s.setpt := rfl
@[simp] theorem modHif_cpx (f : Hif → Hif) (s : State) : (modHif f s).cpx = s.cpx := rfl
@[simp] theorem modHif_hif (f : Hif → Hif) (s : State) : (modHif f s).hif = f s.hif := rfl
@[simp] theorem modHif_alog (f : Hif → Hif) (s : State) : (modHif f s).alog = s.alog := rfl
@[simp] theorem modHif_sys (f : Hif → Hif) (s : State) : (modHif f s).sys = s.sys := rfl
@[simp] theorem modHif_sec (f : Hif → Hif) (s : State) : (modHif f s).sec = s.sec := rfl
@[simp] theorem modHif_flu (f : Hif → Hif) (s : State) : (modHif f s).flu = s.flu := rfl
@[simp] theorem modHif_limits (f : Hif → Hif) (s : State) : (modHif f s).limits = s.limits := rfl
@[simp] theorem modHif_thmPkg (f : Hif → Hif) (s : State) : (modHif f s).thmPkg = s.thmPkg := rfl
@[simp] theorem modHif_pins (f : Hif → Hif) (s : State) : (modHif f s).pins = s.pins := rfl
@[simp] theorem modHif_hearths (f : Hif → Hif) (s : State) : (modHif f s).hearths = s.hearths := rfl
@[simp] theorem modHif_arrivals (f : Hif → Hif) (s : State) : (modHif f s).arrivals = s.arrivals := rfl
@[simp] theorem modHif_free (f : Hif → Hif) (s : State) : (modHif f s).free = s.free := rfl
@[simp] theorem modHif_pending (f : Hif → Hif) (s : State) : (modHif f s).pending = s.pending := rfl

/-! ### modFlu -/

@[simp] theorem modFlu_ident (f : Flu → Flu) (s : State) : (modFlu f s).ident = s.ident := rfl
@[simp] theorem modFlu_pkg (f : Flu → Flu) (s : State) : (modFlu f s).pkg = s.pkg := rfl
@[simp] theorem modFlu_holds (f : Flu → Flu) (s : State) : (modFlu f s).holds = s.holds := rfl
@[simp] theorem modFlu_warmDue (f : Flu → Flu) (s : State) : (modFlu f s).warmDue = s.warmDue := rfl
@[simp] theorem modFlu_tbu (f : Flu → Flu) (s : State) : (modFlu f s).tbu = s.tbu := rfl
@[simp] theorem modFlu_setpt (f : Flu → Flu) (s : State) : (modFlu f s).setpt = s.setpt := rfl
@[simp] theorem modFlu_cpx (f : Flu → Flu) (s : State) : (modFlu f s).cpx = s.cpx := rfl
@[simp] theorem modFlu_hif (f : Flu → Flu) (s : State) : (modFlu f s).hif = s.hif := rfl
@[simp] theorem modFlu_alog (f : Flu → Flu) (s : State) : (modFlu f s).alog = s.alog := rfl
@[simp] theorem modFlu_sys (f : Flu → Flu) (s : State) : (modFlu f s).sys = s.sys := rfl
@[simp] theorem modFlu_sec (f : Flu → Flu) (s : State) : (modFlu f s).sec = s.sec := rfl
@[simp] theorem modFlu_flu (f : Flu → Flu) (s : State) : (modFlu f s).flu = f s.flu := rfl
@[simp] theorem modFlu_limits (f : Flu → Flu) (s : State) : (modFlu f s).limits = s.limits := rfl
@[simp] theorem modFlu_thmPkg (f : Flu → Flu) (s : State) : (modFlu f s).thmPkg = s.thmPkg := rfl
@[simp] theorem modFlu_pins (f : Flu → Flu) (s : State) : (modFlu f s).pins = s.pins := rfl
@[simp] theorem modFlu_hearths (f : Flu → Flu) (s : State) : (modFlu f s).hearths = s.hearths := rfl
@[simp] theorem modFlu_arrivals (f : Flu → Flu) (s : State) : (modFlu f s).arrivals = s.arrivals := rfl
@[simp] theorem modFlu_free (f : Flu → Flu) (s : State) : (modFlu f s).free = s.free := rfl
@[simp] theorem modFlu_pending (f : Flu → Flu) (s : State) : (modFlu f s).pending = s.pending := rfl

/-! ### modThmPkg -/

@[simp] theorem modThmPkg_ident (f : ThmPkg → ThmPkg) (s : State) : (modThmPkg f s).ident = s.ident := rfl
@[simp] theorem modThmPkg_pkg (f : ThmPkg → ThmPkg) (s : State) : (modThmPkg f s).pkg = s.pkg := rfl
@[simp] theorem modThmPkg_holds (f : ThmPkg → ThmPkg) (s : State) : (modThmPkg f s).holds = s.holds := rfl
@[simp] theorem modThmPkg_warmDue (f : ThmPkg → ThmPkg) (s : State) : (modThmPkg f s).warmDue = s.warmDue := rfl
@[simp] theorem modThmPkg_tbu (f : ThmPkg → ThmPkg) (s : State) : (modThmPkg f s).tbu = s.tbu := rfl
@[simp] theorem modThmPkg_setpt (f : ThmPkg → ThmPkg) (s : State) : (modThmPkg f s).setpt = s.setpt := rfl
@[simp] theorem modThmPkg_cpx (f : ThmPkg → ThmPkg) (s : State) : (modThmPkg f s).cpx = s.cpx := rfl
@[simp] theorem modThmPkg_hif (f : ThmPkg → ThmPkg) (s : State) : (modThmPkg f s).hif = s.hif := rfl
@[simp] theorem modThmPkg_alog (f : ThmPkg → ThmPkg) (s : State) : (modThmPkg f s).alog = s.alog := rfl
@[simp] theorem modThmPkg_sys (f : ThmPkg → ThmPkg) (s : State) : (modThmPkg f s).sys = s.sys := rfl
@[simp] theorem modThmPkg_sec (f : ThmPkg → ThmPkg) (s : State) : (modThmPkg f s).sec = s.sec := rfl
@[simp] theorem modThmPkg_flu (f : ThmPkg → ThmPkg) (s : State) : (modThmPkg f s).flu = s.flu := rfl
@[simp] theorem modThmPkg_limits (f : ThmPkg → ThmPkg) (s : State) : (modThmPkg f s).limits = s.limits := rfl
@[simp] theorem modThmPkg_thmPkg (f : ThmPkg → ThmPkg) (s : State) : (modThmPkg f s).thmPkg = f s.thmPkg := rfl
@[simp] theorem modThmPkg_pins (f : ThmPkg → ThmPkg) (s : State) : (modThmPkg f s).pins = s.pins := rfl
@[simp] theorem modThmPkg_hearths (f : ThmPkg → ThmPkg) (s : State) : (modThmPkg f s).hearths = s.hearths := rfl
@[simp] theorem modThmPkg_arrivals (f : ThmPkg → ThmPkg) (s : State) : (modThmPkg f s).arrivals = s.arrivals := rfl
@[simp] theorem modThmPkg_free (f : ThmPkg → ThmPkg) (s : State) : (modThmPkg f s).free = s.free := rfl
@[simp] theorem modThmPkg_pending (f : ThmPkg → ThmPkg) (s : State) : (modThmPkg f s).pending = s.pending := rfl

/-! ### takeFree -/

@[simp] theorem takeFree_ident (s : State) : (takeFree s).2.ident = s.ident := rfl
@[simp] theorem takeFree_pkg (s : State) : (takeFree s).2.pkg = s.pkg := rfl
@[simp] theorem takeFree_holds (s : State) : (takeFree s).2.holds = s.holds := rfl
@[simp] theorem takeFree_warmDue (s : State) : (takeFree s).2.warmDue = s.warmDue := rfl
@[simp] theorem takeFree_tbu (s : State) : (takeFree s).2.tbu = s.tbu := rfl
@[simp] theorem takeFree_setpt (s : State) : (takeFree s).2.setpt = s.setpt := rfl
@[simp] theorem takeFree_cpx (s : State) : (takeFree s).2.cpx = s.cpx := rfl
@[simp] theorem takeFree_hif (s : State) : (takeFree s).2.hif = s.hif := rfl
@[simp] theorem takeFree_alog (s : State) : (takeFree s).2.alog = s.alog := rfl
@[simp] theorem takeFree_sys (s : State) : (takeFree s).2.sys = s.sys := rfl
@[simp] theorem takeFree_sec (s : State) : (takeFree s).2.sec = s.sec := rfl
@[simp] theorem takeFree_flu (s : State) : (takeFree s).2.flu = s.flu := rfl
@[simp] theorem takeFree_limits (s : State) : (takeFree s).2.limits = s.limits := rfl
@[simp] theorem takeFree_thmPkg (s : State) : (takeFree s).2.thmPkg = s.thmPkg := rfl
@[simp] theorem takeFree_pins (s : State) : (takeFree s).2.pins = s.pins := rfl
@[simp] theorem takeFree_hearths (s : State) : (takeFree s).2.hearths = s.hearths := rfl
@[simp] theorem takeFree_free (s : State) : (takeFree s).2.free = s.free + 1 := rfl
@[simp] theorem takeFree_pending (s : State) : (takeFree s).2.pending = s.pending := rfl

/-! ### arrive -/

@[simp] theorem arrive_ident (a : Arrival) (s : State) : (arrive a s).ident = s.ident := rfl
@[simp] theorem arrive_pkg (a : Arrival) (s : State) : (arrive a s).pkg = s.pkg := rfl
@[simp] theorem arrive_holds (a : Arrival) (s : State) : (arrive a s).holds = s.holds := rfl
@[simp] theorem arrive_warmDue (a : Arrival) (s : State) : (arrive a s).warmDue = s.warmDue := rfl
@[simp] theorem arrive_tbu (a : Arrival) (s : State) : (arrive a s).tbu = s.tbu := rfl
@[simp] theorem arrive_setpt (a : Arrival) (s : State) : (arrive a s).setpt = s.setpt := rfl
@[simp] theorem arrive_cpx (a : Arrival) (s : State) : (arrive a s).cpx = s.cpx := rfl
@[simp] theorem arrive_hif (a : Arrival) (s : State) : (arrive a s).hif = s.hif := rfl
@[simp] theorem arrive_alog (a : Arrival) (s : State) : (arrive a s).alog = s.alog := rfl
@[simp] theorem arrive_sys (a : Arrival) (s : State) : (arrive a s).sys = s.sys := rfl
@[simp] theorem arrive_sec (a : Arrival) (s : State) : (arrive a s).sec = s.sec := rfl
@[simp] theorem arrive_flu (a : Arrival) (s : State) : (arrive a s).flu = s.flu := rfl
@[simp] theorem arrive_limits (a : Arrival) (s : State) : (arrive a s).limits = s.limits := rfl
@[simp] theorem arrive_thmPkg (a : Arrival) (s : State) : (arrive a s).thmPkg = s.thmPkg := rfl
@[simp] theorem arrive_pins (a : Arrival) (s : State) : (arrive a s).pins = s.pins := rfl
@[simp] theorem arrive_hearths (a : Arrival) (s : State) : (arrive a s).hearths = s.hearths := rfl
@[simp] theorem arrive_free (a : Arrival) (s : State) : (arrive a s).free = s.free := rfl
@[simp] theorem arrive_pending (a : Arrival) (s : State) : (arrive a s).pending = s.pending := rfl
@[simp] theorem arrive_arrivals (a : Arrival) (s : State) : (arrive a s).arrivals = s.arrivals ++ [a] := rfl

end Sys2Proof.Machine
end

