-- ==== Sys2Proof/Laws/Ops.lean ====
section
/-! SUPPORT. Laws/Ops.lean: what the shared operations of Machine/Ops.lean leave alone and what they change, so that a proof
cites them and does not unfold them. -/

namespace Sys2Proof.Machine

/-! ### Reading a hearth or a section after a change -/

theorem hearthAt_modHearth (h k : Nat) (f : Hearth → Hearth) (s : State) :
    hearthAt (modHearth h f s) k = if h = k ∧ k < s.hearths.length then f (hearthAt s k) else hearthAt s k := by
  simp only [hearthAt, modHearth, List.getD_eq_getElem?_getD, List.getElem?_modify]
  by_cases e : h = k
  · subst e
    by_cases l : h < s.hearths.length
    · simp [l]
    · simp [l]
  · simp [e]

theorem hearthAt_modHearth_ne {h k : Nat} (e : h ≠ k) (f : Hearth → Hearth) (s : State) :
    hearthAt (modHearth h f s) k = hearthAt s k := by
  rw [hearthAt_modHearth, if_neg (fun c => e c.1)]

theorem hearthAt_modHearth_self {h : Nat} {s : State} (l : h < s.hearths.length) (f : Hearth → Hearth) :
    hearthAt (modHearth h f s) h = f (hearthAt s h) := by
  rw [hearthAt_modHearth, if_pos ⟨rfl, l⟩]

/-- A section after its own change. -/
theorem secAt_modSec_self {h i : Nat} {s : State} (l : h < s.hearths.length) (k : i < (hearthAt s h).sections.length)
    (f : Section → Section) : secAt (modSec h i f s) h i = f (secAt s h i) := by
  unfold secAt modSec
  rw [hearthAt_modHearth_self l]
  simp [List.getD_eq_getElem?_getD, k]

/-- A section after the change of another. -/
theorem secAt_modSec_ne {h i k j : Nat} (e : h ≠ k ∨ i ≠ j) (f : Section → Section) (s : State) :
    secAt (modSec h i f s) k j = secAt s k j := by
  unfold secAt modSec
  rw [hearthAt_modHearth]
  split
  · rename_i c
    obtain ⟨rfl, _⟩ := c
    have : i ≠ j := e.resolve_left (fun n => n rfl)
    simp [List.getD_eq_getElem?_getD, this]
  · rfl

/-- A change of a hearth that leaves its sections alone. -/
theorem secAt_modHearth {h : Nat} {f : Hearth → Hearth} (hf : ∀ x, (f x).sections = x.sections) (k j : Nat) (s : State) :
    secAt (modHearth h f s) k j = secAt s k j := by
  unfold secAt
  rw [hearthAt_modHearth]
  split
  · rw [hf]
  · rfl

/-! ### Log events -/

theorem evalSysInt_hearths (s : State) : (evalSysInt s).hearths = s.hearths := by
  unfold evalSysInt; dsimp only; split <;> rfl

/-- A log event changes, in a hearth, the capture trigger and the LOG queue alone. -/
theorem emitFrom_hearth (source h code : Nat) (data : List Nat) (s : State) (k : Nat) :
    ∃ c d, hearthAt (emitFrom source h code data s) k = { hearthAt s k with cap := c, dfb := d } := by
  have trig : ∀ u : State, ∃ c, hearthAt (eventTrigger code u) k = { hearthAt u k with cap := c } := by
    intro u
    simp only [eventTrigger, hearthAt, List.getD_eq_getElem?_getD, List.getElem?_map]
    cases u.hearths[k]? with
    | none => exact ⟨_, rfl⟩
    | some x => simp only [Option.map_some, Option.getD_some]; split <;> exact ⟨_, rfl⟩
  have queue : ∀ (e : LogEntry) (u : State), ∃ d, hearthAt (queueEntry h e u) k = { hearthAt u k with dfb := d } := by
    intro e u
    unfold queueEntry
    split
    · show ∃ d, hearthAt (modHearth h _ u) k = _
      rw [hearthAt_modHearth]
      split <;> exact ⟨_, rfl⟩
    · rw [hearthAt_modHearth]
      split <;> exact ⟨_, rfl⟩
  have raise : hearthAt (raiseSys (sysCauses code) s) k = hearthAt s k := by
    unfold hearthAt raiseSys; rw [evalSysInt_hearths]; rfl
  obtain ⟨c, hc⟩ := trig (raiseSys (sysCauses code) s)
  unfold emitFrom
  obtain ⟨d, hd⟩ := queue { time := openTime s, code := code, hearth := h, source := source, data := data }
    (eventTrigger code (raiseSys (sysCauses code) s))
  rw [raise] at hc
  rw [hc] at hd
  exact ⟨c, d, hd⟩

theorem signalPf0_parts (v : Nat) (s : State) : ∃ x, signalPf0 v s = { s with hif := x } := ⟨_, rfl⟩

theorem evalSysInt_parts (s : State) : ∃ x y, evalSysInt s = { s with sys := x, hif := y } := by
  unfold evalSysInt
  dsimp only
  split
  · obtain ⟨x, e⟩ := signalPf0_parts s.sys.intVector (modSys (fun x => { x with intOr := decide (s.sys.intPend &&& s.sys.intEn ≠ 0) }) s)
    exact ⟨_, x, e⟩
  · exact ⟨_, _, rfl⟩

theorem raiseSys_parts (mask : Nat) (s : State) : ∃ x y, raiseSys mask s = { s with sys := x, hif := y } := by
  unfold raiseSys
  obtain ⟨x, y, e⟩ := evalSysInt_parts (modSys (fun x => { x with intPend := (x.intPend ||| mask) % 2 ^ 10 }) s)
  exact ⟨x, y, e⟩

theorem queueEntry_parts (h : Nat) (e : LogEntry) (s : State) : ∃ x y, queueEntry h e s = { s with hearths := x, alog := y } := by
  unfold queueEntry
  split
  · exact ⟨_, _, rfl⟩
  · exact ⟨_, _, rfl⟩

/-- A log event changes the hearths' capture and LOG queue, the log's loss counts and the package interrupt, nothing else. -/
theorem emitFrom_parts (source h code : Nat) (data : List Nat) (s : State) :
    ∃ x y z w, emitFrom source h code data s = { s with hearths := x, alog := y, sys := z, hif := w } := by
  unfold emitFrom
  obtain ⟨z, w, e1⟩ := raiseSys_parts (sysCauses code) s
  obtain ⟨x, y, e2⟩ := queueEntry_parts h { time := openTime s, code := code, hearth := h, source := source, data := data }
    (eventTrigger code (raiseSys (sysCauses code) s))
  refine ⟨x, y, z, w, ?_⟩
  rw [e2, e1]
  rfl

theorem emitFrom_length (source h code : Nat) (data : List Nat) (s : State) :
    (emitFrom source h code data s).hearths.length = s.hearths.length := by
  unfold emitFrom queueEntry
  split <;> simp [eventTrigger, raiseSys, evalSysInt_hearths]

@[simp] theorem emitFrom_ident (source h code : Nat) (data : List Nat) (s : State) :
    (emitFrom source h code data s).ident = s.ident := by
  obtain ⟨_, _, _, _, e⟩ := emitFrom_parts source h code data s; rw [e]

@[simp] theorem emitFrom_pkg (source h code : Nat) (data : List Nat) (s : State) :
    (emitFrom source h code data s).pkg = s.pkg := by
  obtain ⟨_, _, _, _, e⟩ := emitFrom_parts source h code data s; rw [e]

@[simp] theorem emitFrom_holds (source h code : Nat) (data : List Nat) (s : State) :
    (emitFrom source h code data s).holds = s.holds := by
  obtain ⟨_, _, _, _, e⟩ := emitFrom_parts source h code data s; rw [e]

@[simp] theorem emitFrom_warmDue (source h code : Nat) (data : List Nat) (s : State) :
    (emitFrom source h code data s).warmDue = s.warmDue := by
  obtain ⟨_, _, _, _, e⟩ := emitFrom_parts source h code data s; rw [e]

@[simp] theorem emitFrom_tbu (source h code : Nat) (data : List Nat) (s : State) :
    (emitFrom source h code data s).tbu = s.tbu := by
  obtain ⟨_, _, _, _, e⟩ := emitFrom_parts source h code data s; rw [e]

@[simp] theorem emitFrom_setpt (source h code : Nat) (data : List Nat) (s : State) :
    (emitFrom source h code data s).setpt = s.setpt := by
  obtain ⟨_, _, _, _, e⟩ := emitFrom_parts source h code data s; rw [e]

@[simp] theorem emitFrom_cpx (source h code : Nat) (data : List Nat) (s : State) :
    (emitFrom source h code data s).cpx = s.cpx := by
  obtain ⟨_, _, _, _, e⟩ := emitFrom_parts source h code data s; rw [e]

@[simp] theorem emitFrom_sec (source h code : Nat) (data : List Nat) (s : State) :
    (emitFrom source h code data s).sec = s.sec := by
  obtain ⟨_, _, _, _, e⟩ := emitFrom_parts source h code data s; rw [e]

@[simp] theorem emitFrom_flu (source h code : Nat) (data : List Nat) (s : State) :
    (emitFrom source h code data s).flu = s.flu := by
  obtain ⟨_, _, _, _, e⟩ := emitFrom_parts source h code data s; rw [e]

@[simp] theorem emitFrom_limits (source h code : Nat) (data : List Nat) (s : State) :
    (emitFrom source h code data s).limits = s.limits := by
  obtain ⟨_, _, _, _, e⟩ := emitFrom_parts source h code data s; rw [e]

@[simp] theorem emitFrom_thmPkg (source h code : Nat) (data : List Nat) (s : State) :
    (emitFrom source h code data s).thmPkg = s.thmPkg := by
  obtain ⟨_, _, _, _, e⟩ := emitFrom_parts source h code data s; rw [e]

@[simp] theorem emitFrom_pins (source h code : Nat) (data : List Nat) (s : State) :
    (emitFrom source h code data s).pins = s.pins := by
  obtain ⟨_, _, _, _, e⟩ := emitFrom_parts source h code data s; rw [e]

@[simp] theorem emitFrom_arrivals (source h code : Nat) (data : List Nat) (s : State) :
    (emitFrom source h code data s).arrivals = s.arrivals := by
  obtain ⟨_, _, _, _, e⟩ := emitFrom_parts source h code data s; rw [e]

@[simp] theorem emitFrom_free (source h code : Nat) (data : List Nat) (s : State) :
    (emitFrom source h code data s).free = s.free := by
  obtain ⟨_, _, _, _, e⟩ := emitFrom_parts source h code data s; rw [e]

@[simp] theorem emitFrom_pending (source h code : Nat) (data : List Nat) (s : State) :
    (emitFrom source h code data s).pending = s.pending := by
  obtain ⟨_, _, _, _, e⟩ := emitFrom_parts source h code data s; rw [e]

@[simp] theorem emitFrom_sections (source h code : Nat) (data : List Nat) (s : State) (k : Nat) :
    (hearthAt (emitFrom source h code data s) k).sections = (hearthAt s k).sections := by
  obtain ⟨c, d, e⟩ := emitFrom_hearth source h code data s k; rw [e]

@[simp] theorem emitFrom_patterns (source h code : Nat) (data : List Nat) (s : State) (k : Nat) :
    (hearthAt (emitFrom source h code data s) k).patterns = (hearthAt s k).patterns := by
  obtain ⟨c, d, e⟩ := emitFrom_hearth source h code data s k; rw [e]

@[simp] theorem emitFrom_grt (source h code : Nat) (data : List Nat) (s : State) (k : Nat) :
    (hearthAt (emitFrom source h code data s) k).grt = (hearthAt s k).grt := by
  obtain ⟨c, d, e⟩ := emitFrom_hearth source h code data s k; rw [e]

@[simp] theorem emitFrom_bdc (source h code : Nat) (data : List Nat) (s : State) (k : Nat) :
    (hearthAt (emitFrom source h code data s) k).bdc = (hearthAt s k).bdc := by
  obtain ⟨c, d, e⟩ := emitFrom_hearth source h code data s k; rw [e]

@[simp] theorem emitFrom_paths (source h code : Nat) (data : List Nat) (s : State) (k : Nat) :
    (hearthAt (emitFrom source h code data s) k).paths = (hearthAt s k).paths := by
  obtain ⟨c, d, e⟩ := emitFrom_hearth source h code data s k; rw [e]

@[simp] theorem emitFrom_loops (source h code : Nat) (data : List Nat) (s : State) (k : Nat) :
    (hearthAt (emitFrom source h code data s) k).loops = (hearthAt s k).loops := by
  obtain ⟨c, d, e⟩ := emitFrom_hearth source h code data s k; rw [e]

@[simp] theorem emitFrom_xmc (source h code : Nat) (data : List Nat) (s : State) (k : Nat) :
    (hearthAt (emitFrom source h code data s) k).xmc = (hearthAt s k).xmc := by
  obtain ⟨c, d, e⟩ := emitFrom_hearth source h code data s k; rw [e]

@[simp] theorem emitFrom_syns (source h code : Nat) (data : List Nat) (s : State) (k : Nat) :
    (hearthAt (emitFrom source h code data s) k).syns = (hearthAt s k).syns := by
  obtain ⟨c, d, e⟩ := emitFrom_hearth source h code data s k; rw [e]

@[simp] theorem emitFrom_rfc (source h code : Nat) (data : List Nat) (s : State) (k : Nat) :
    (hearthAt (emitFrom source h code data s) k).rfc = (hearthAt s k).rfc := by
  obtain ⟨c, d, e⟩ := emitFrom_hearth source h code data s k; rw [e]

@[simp] theorem emitFrom_ports (source h code : Nat) (data : List Nat) (s : State) (k : Nat) :
    (hearthAt (emitFrom source h code data s) k).ports = (hearthAt s k).ports := by
  obtain ⟨c, d, e⟩ := emitFrom_hearth source h code data s k; rw [e]

@[simp] theorem emitFrom_fes (source h code : Nat) (data : List Nat) (s : State) (k : Nat) :
    (hearthAt (emitFrom source h code data s) k).fes = (hearthAt s k).fes := by
  obtain ⟨c, d, e⟩ := emitFrom_hearth source h code data s k; rw [e]

@[simp] theorem emitFrom_lcal (source h code : Nat) (data : List Nat) (s : State) (k : Nat) :
    (hearthAt (emitFrom source h code data s) k).lcal = (hearthAt s k).lcal := by
  obtain ⟨c, d, e⟩ := emitFrom_hearth source h code data s k; rw [e]

@[simp] theorem emitFrom_thm (source h code : Nat) (data : List Nat) (s : State) (k : Nat) :
    (hearthAt (emitFrom source h code data s) k).thm = (hearthAt s k).thm := by
  obtain ⟨c, d, e⟩ := emitFrom_hearth source h code data s k; rw [e]

@[simp] theorem emitFrom_air (source h code : Nat) (data : List Nat) (s : State) (k : Nat) :
    (hearthAt (emitFrom source h code data s) k).air = (hearthAt s k).air := by
  obtain ⟨c, d, e⟩ := emitFrom_hearth source h code data s k; rw [e]

@[simp] theorem emitFrom_fbCopy (source h code : Nat) (data : List Nat) (s : State) (k : Nat) :
    (hearthAt (emitFrom source h code data s) k).fbCopy = (hearthAt s k).fbCopy := by
  obtain ⟨c, d, e⟩ := emitFrom_hearth source h code data s k; rw [e]

@[simp] theorem emitFrom_fbCopyBad (source h code : Nat) (data : List Nat) (s : State) (k : Nat) :
    (hearthAt (emitFrom source h code data s) k).fbCopyBad = (hearthAt s k).fbCopyBad := by
  obtain ⟨c, d, e⟩ := emitFrom_hearth source h code data s k; rw [e]

@[simp] theorem emitFrom_fcol (source h code : Nat) (data : List Nat) (s : State) (k : Nat) :
    (hearthAt (emitFrom source h code data s) k).fcol = (hearthAt s k).fcol := by
  obtain ⟨c, d, e⟩ := emitFrom_hearth source h code data s k; rw [e]

@[simp] theorem emitFrom_secAt (source h code : Nat) (data : List Nat) (s : State) (k i : Nat) :
    secAt (emitFrom source h code data s) k i = secAt s k i := by
  unfold secAt; rw [emitFrom_sections]

@[simp] theorem emit_ident (h code : Nat) (data : List Nat) (s : State) : (emit h code data s).ident = s.ident := emitFrom_ident ..

@[simp] theorem emit_pkg (h code : Nat) (data : List Nat) (s : State) : (emit h code data s).pkg = s.pkg := emitFrom_pkg ..

@[simp] theorem emit_holds (h code : Nat) (data : List Nat) (s : State) : (emit h code data s).holds = s.holds := emitFrom_holds ..

@[simp] theorem emit_warmDue (h code : Nat) (data : List Nat) (s : State) : (emit h code data s).warmDue = s.warmDue := emitFrom_warmDue ..

@[simp] theorem emit_tbu (h code : Nat) (data : List Nat) (s : State) : (emit h code data s).tbu = s.tbu := emitFrom_tbu ..

@[simp] theorem emit_setpt (h code : Nat) (data : List Nat) (s : State) : (emit h code data s).setpt = s.setpt := emitFrom_setpt ..

@[simp] theorem emit_cpx (h code : Nat) (data : List Nat) (s : State) : (emit h code data s).cpx = s.cpx := emitFrom_cpx ..

@[simp] theorem emit_sec (h code : Nat) (data : List Nat) (s : State) : (emit h code data s).sec = s.sec := emitFrom_sec ..

@[simp] theorem emit_flu (h code : Nat) (data : List Nat) (s : State) : (emit h code data s).flu = s.flu := emitFrom_flu ..

@[simp] theorem emit_limits (h code : Nat) (data : List Nat) (s : State) : (emit h code data s).limits = s.limits := emitFrom_limits ..

@[simp] theorem emit_thmPkg (h code : Nat) (data : List Nat) (s : State) : (emit h code data s).thmPkg = s.thmPkg := emitFrom_thmPkg ..

@[simp] theorem emit_pins (h code : Nat) (data : List Nat) (s : State) : (emit h code data s).pins = s.pins := emitFrom_pins ..

@[simp] theorem emit_arrivals (h code : Nat) (data : List Nat) (s : State) : (emit h code data s).arrivals = s.arrivals := emitFrom_arrivals ..

@[simp] theorem emit_free (h code : Nat) (data : List Nat) (s : State) : (emit h code data s).free = s.free := emitFrom_free ..

@[simp] theorem emit_pending (h code : Nat) (data : List Nat) (s : State) : (emit h code data s).pending = s.pending := emitFrom_pending ..

@[simp] theorem emit_sections (h code : Nat) (data : List Nat) (s : State) (k : Nat) :
    (hearthAt (emit h code data s) k).sections = (hearthAt s k).sections := emitFrom_sections ..

@[simp] theorem emit_patterns (h code : Nat) (data : List Nat) (s : State) (k : Nat) :
    (hearthAt (emit h code data s) k).patterns = (hearthAt s k).patterns := emitFrom_patterns ..

@[simp] theorem emit_grt (h code : Nat) (data : List Nat) (s : State) (k : Nat) :
    (hearthAt (emit h code data s) k).grt = (hearthAt s k).grt := emitFrom_grt ..

@[simp] theorem emit_bdc (h code : Nat) (data : List Nat) (s : State) (k : Nat) :
    (hearthAt (emit h code data s) k).bdc = (hearthAt s k).bdc := emitFrom_bdc ..

@[simp] theorem emit_paths (h code : Nat) (data : List Nat) (s : State) (k : Nat) :
    (hearthAt (emit h code data s) k).paths = (hearthAt s k).paths := emitFrom_paths ..

@[simp] theorem emit_loops (h code : Nat) (data : List Nat) (s : State) (k : Nat) :
    (hearthAt (emit h code data s) k).loops = (hearthAt s k).loops := emitFrom_loops ..

@[simp] theorem emit_xmc (h code : Nat) (data : List Nat) (s : State) (k : Nat) :
    (hearthAt (emit h code data s) k).xmc = (hearthAt s k).xmc := emitFrom_xmc ..

@[simp] theorem emit_syns (h code : Nat) (data : List Nat) (s : State) (k : Nat) :
    (hearthAt (emit h code data s) k).syns = (hearthAt s k).syns := emitFrom_syns ..

@[simp] theorem emit_rfc (h code : Nat) (data : List Nat) (s : State) (k : Nat) :
    (hearthAt (emit h code data s) k).rfc = (hearthAt s k).rfc := emitFrom_rfc ..

@[simp] theorem emit_ports (h code : Nat) (data : List Nat) (s : State) (k : Nat) :
    (hearthAt (emit h code data s) k).ports = (hearthAt s k).ports := emitFrom_ports ..

@[simp] theorem emit_fes (h code : Nat) (data : List Nat) (s : State) (k : Nat) :
    (hearthAt (emit h code data s) k).fes = (hearthAt s k).fes := emitFrom_fes ..

@[simp] theorem emit_lcal (h code : Nat) (data : List Nat) (s : State) (k : Nat) :
    (hearthAt (emit h code data s) k).lcal = (hearthAt s k).lcal := emitFrom_lcal ..

@[simp] theorem emit_thm (h code : Nat) (data : List Nat) (s : State) (k : Nat) :
    (hearthAt (emit h code data s) k).thm = (hearthAt s k).thm := emitFrom_thm ..

@[simp] theorem emit_air (h code : Nat) (data : List Nat) (s : State) (k : Nat) :
    (hearthAt (emit h code data s) k).air = (hearthAt s k).air := emitFrom_air ..

@[simp] theorem emit_fbCopy (h code : Nat) (data : List Nat) (s : State) (k : Nat) :
    (hearthAt (emit h code data s) k).fbCopy = (hearthAt s k).fbCopy := emitFrom_fbCopy ..

@[simp] theorem emit_fbCopyBad (h code : Nat) (data : List Nat) (s : State) (k : Nat) :
    (hearthAt (emit h code data s) k).fbCopyBad = (hearthAt s k).fbCopyBad := emitFrom_fbCopyBad ..

@[simp] theorem emit_fcol (h code : Nat) (data : List Nat) (s : State) (k : Nat) :
    (hearthAt (emit h code data s) k).fcol = (hearthAt s k).fcol := emitFrom_fcol ..

@[simp] theorem emit_secAt (h code : Nat) (data : List Nat) (s : State) (k i : Nat) : secAt (emit h code data s) k i = secAt s k i :=
  emitFrom_secAt ..

@[simp] theorem emit_length (h code : Nat) (data : List Nat) (s : State) : (emit h code data s).hearths.length = s.hearths.length :=
  emitFrom_length ..

end Sys2Proof.Machine
end

