-- ==== Sys2Proof/Laws/Keeps.lean ====
section
/-! SUPPORT. Laws/Keeps.lean: sparse tables keep their canonical form, and what it takes for a change of one part of the state
to be among those that `Keeps` describes. -/

namespace Sys2Proof.Machine

/-! ### Sparse tables -/

theorem kwf_nil {α : Type} : kwf ([] : KMap α) = true := rfl

theorem kwf_iff {α : Type} (m : KMap α) : kwf m = true ↔ (m.map (·.1)).Pairwise (· < ·) := by simp [kwf]

theorem kset_keys {α : Type} (m : KMap α) (k : Nat) (v : α) (x : Nat) : x ∈ (kset m k v).map (·.1) → x = k ∨ x ∈ m.map (·.1) := by
  induction m with
  | nil => intro h; simpa [kset] using h
  | cons e m ih =>
    unfold kset
    split
    · intro h; simpa using h
    · split
      · rename_i h1 h2
        subst h2
        intro h
        simpa using h
      · intro h
        simp only [List.map_cons, List.mem_cons] at h ⊢
        rcases h with h | h
        · exact .inr (.inl h)
        · rcases ih h with h | h
          · exact .inl h
          · exact .inr (.inr h)

/-- Setting a key keeps the canonical form. -/
theorem kset_kwf {α : Type} (m : KMap α) (k : Nat) (v : α) (hm : kwf m = true) : kwf (kset m k v) = true := by
  rw [kwf_iff] at hm ⊢
  induction m with
  | nil => simp [kset]
  | cons e m ih =>
    simp only [List.map_cons, List.pairwise_cons] at hm
    unfold kset
    split
    · rename_i h1
      simp only [List.map_cons, List.pairwise_cons, List.mem_cons]
      refine ⟨fun a ha => ?_, fun a ha => hm.1 a ha, hm.2⟩
      rcases ha with rfl | ha
      · exact h1
      · exact Nat.lt_trans h1 (hm.1 a ha)
    · split
      · rename_i h1 h2
        simp only [List.map_cons, List.pairwise_cons]
        exact ⟨fun a ha => by rw [h2]; exact hm.1 a ha, hm.2⟩
      · rename_i h1 h2
        simp only [List.map_cons, List.pairwise_cons]
        refine ⟨fun a ha => ?_, ih hm.2⟩
        rcases kset_keys m k v a ha with rfl | ha
        · omega
        · exact hm.1 a ha

/-- Removing entries keeps the canonical form. -/
theorem kfilter_kwf {α : Type} (m : KMap α) (f : Nat × α → Bool) (hm : kwf m = true) : kwf (m.filter f) = true := by
  rw [kwf_iff] at hm ⊢
  exact hm.sublist (List.Sublist.map _ List.filter_sublist)

theorem kerase_kwf {α : Type} (m : KMap α) (k : Nat) (hm : kwf m = true) : kwf (kerase m k) = true := kfilter_kwf m _ hm

/-! ### Shape and power of a hearth -/

/-- What a change of a hearth leaves alone: its section states and the lengths of its lists. -/
structure HearthKeeps (x y : Hearth) : Prop where
  states : y.sections.map (·.state) = x.sections.map (·.state)
  shape : hearthShape x → hearthShape y

theorem HearthKeeps.refl (x : Hearth) : HearthKeeps x x := ⟨rfl, id⟩

theorem HearthKeeps.sections_length {x y : Hearth} (h : HearthKeeps x y) : y.sections.length = x.sections.length := by
  simpa using congrArg List.length h.states

/-- Transmitting sections depend on the section states alone. -/
theorem transmitting_eq {s t : State} (hi : t.ident = s.ident)
    (hs : ∀ h, (hearthAt t h).sections.map (·.state) = (hearthAt s h).sections.map (·.state)) :
    transmitting t = transmitting s := by
  have state_eq : ∀ h i, (secAt t h i).state = (secAt s h i).state := by
    intro h i
    have e := congrArg (fun l => l.getD i SecState.cold) (hs h)
    simp only [List.getD_eq_getElem?_getD, List.getElem?_map] at e
    simp only [secAt, List.getD_eq_getElem?_getD]
    cases h1 : (hearthAt t h).sections[i]? <;> cases h2 : (hearthAt s h).sections[i]? <;> simp_all
  unfold transmitting allSections hearthsOf hearthCount
  simp only [hi, state_eq]

theorem getD_modify_states (l : List Hearth) (k : Nat) (f : Hearth → Hearth) (hf : ∀ x, HearthKeeps x (f x)) (h : Nat) :
    ((l.modify k f).getD h {}).sections.map (·.state) = (l.getD h {}).sections.map (·.state) := by
  simp only [List.getD_eq_getElem?_getD, List.getElem?_modify]
  by_cases hk : k = h
  · subst hk
    cases l[k]? with
    | none => rfl
    | some x => simpa using (hf x).states
  · simp [hk]

theorem mem_modify {α : Type} {l : List α} {k : Nat} {f : α → α} {y : α} (hy : y ∈ l.modify k f) :
    y ∈ l ∨ ∃ x ∈ l, y = f x := by
  obtain ⟨n, hn⟩ := List.getElem?_of_mem hy
  rw [List.getElem?_modify] at hn
  cases h : l[n]? with
  | none => simp [h] at hn
  | some x =>
    rw [h] at hn
    by_cases hk : k = n
    · subst hk
      exact .inr ⟨x, List.mem_of_getElem? h, by simpa using hn.symm⟩
    · exact .inl (by simpa [hk] using (List.mem_of_getElem? h) |> fun m => by simpa [hk] using (show x = y by simpa [hk] using hn) ▸ m)

/-! ### The relation is a preorder -/

theorem Keeps.refl (s : State) : Keeps s s :=
  ⟨rfl, rfl, rfl, rfl, rfl, rfl, rfl, rfl, rfl, rfl, id, List.prefix_refl _, Nat.le_refl _, id, id, id⟩

theorem Keeps.trans {s t u : State} (a : Keeps s t) (b : Keeps t u) : Keeps s u :=
  ⟨b.ident.trans a.ident, b.pending.trans a.pending, b.resetLow.trans a.resetLow, b.rollback.trans a.rollback,
   b.rollbackProg.trans a.rollbackProg, b.keyProg.trans a.keyProg, b.oemKey.trans a.oemKey, b.hostKey.trans a.hostKey,
   b.rows.trans a.rows, b.prog.trans a.prog, b.doused ∘ a.doused, a.replies.trans b.replies, Nat.le_trans a.free b.free,
   b.shape ∘ a.shape, b.canon ∘ a.canon, b.power ∘ a.power⟩

/-- A change that leaves alone every field that `Keeps` reads. -/
theorem Keeps.of_eq {s t : State} (h1 : t.ident = s.ident) (h2 : t.pending = s.pending) (h3 : t.sec = s.sec)
    (h4 : t.limits = s.limits) (h5 : t.pkg = s.pkg) (h6 : t.cpx = s.cpx) (h7 : s.free ≤ t.free) (h8 : t.flu = s.flu)
    (h9 : t.hearths = s.hearths) : Keeps s t where
  ident := h1
  pending := h2
  resetLow := by rw [h3]
  rollback := by rw [h3]
  rollbackProg := by rw [h3]
  keyProg := by rw [h3]
  oemKey := by rw [h3]
  hostKey := by rw [h3]
  rows := by rw [h4]
  prog := by rw [h4]
  doused := by rw [h5]; exact id
  replies := by simp [h6]
  free := h7
  shape := by unfold Shape; rw [h9, h4]; exact id
  canon := by unfold Canon; rw [h3, h4, h8, h6]; exact id
  power := by
    unfold PkgOk
    rw [h5, transmitting_eq h1 (fun h => by unfold hearthAt; rw [h9])]
    exact id

theorem Keeps.modHearth {h : Nat} {f : Hearth → Hearth} {s0 s : State} (hk : Keeps s0 s) (hf : ∀ x, HearthKeeps x (f x)) :
    Keeps s0 (modHearth h f s) :=
  hk.trans
    { ident := rfl, pending := rfl, resetLow := rfl, rollback := rfl, rollbackProg := rfl, keyProg := rfl, oemKey := rfl
      hostKey := rfl, rows := rfl, prog := rfl, doused := id, replies := List.prefix_refl _, free := Nat.le_refl _
      canon := id
      shape := fun ⟨⟨a, b⟩, c⟩ => by
        refine ⟨⟨by simpa [Machine.modHearth] using a, fun y hy => ?_⟩, c⟩
        rcases mem_modify hy with hy | ⟨x, hx, rfl⟩
        · exact b y hy
        · exact (hf x).shape (b x hx)
      power := by
        have e : transmitting (Machine.modHearth h f s) = transmitting s := by
          refine transmitting_eq (t := Machine.modHearth h f s) (s := s) rfl (fun k => ?_)
          exact getD_modify_states s.hearths h f hf k
        unfold PkgOk
        rw [e]
        exact id }

theorem Keeps.mapHearths {f : Hearth → Hearth} {s0 s : State} (hk : Keeps s0 s) (hf : ∀ x, HearthKeeps x (f x)) :
    Keeps s0 { s with hearths := s.hearths.map f } :=
  hk.trans
    { ident := rfl, pending := rfl, resetLow := rfl, rollback := rfl, rollbackProg := rfl, keyProg := rfl, oemKey := rfl
      hostKey := rfl, rows := rfl, prog := rfl, doused := id, replies := List.prefix_refl _, free := Nat.le_refl _
      canon := id
      shape := fun ⟨⟨a, b⟩, c⟩ => by
        refine ⟨⟨by simpa using a, fun y hy => ?_⟩, c⟩
        obtain ⟨x, hx, rfl⟩ := List.mem_map.1 hy
        exact (hf x).shape (b x hx)
      power := by
        have e : transmitting { s with hearths := s.hearths.map f } = transmitting s := by
          refine transmitting_eq (t := { s with hearths := s.hearths.map f }) (s := s) rfl (fun k => ?_)
          simp only [hearthAt, List.getD_eq_getElem?_getD, List.getElem?_map]
          cases s.hearths[k]? with
          | none => rfl
          | some x => simpa using (hf x).states
        unfold PkgOk
        rw [e]
        exact id }

/-- A section whose change keeps its state. -/
theorem Keeps.modSec {h i : Nat} {f : Section → Section} {s0 s : State} (hk : Keeps s0 s) (hf : ∀ x, (f x).state = x.state) :
    Keeps s0 (modSec h i f s) := by
  refine hk.modHearth fun x => ⟨?_, fun g => ⟨?_, g.2⟩⟩
  · refine List.ext_getElem? fun n => ?_
    simp only [List.getElem?_map, List.getElem?_modify]
    cases x.sections[n]? with
    | none => simp
    | some y => by_cases e : i = n <;> simp [e, hf]
  · simpa using g.1

theorem Keeps.each {α : Type} {xs : List α} {f : α → State → State} {s0 s : State} (hk : Keeps s0 s)
    (hf : ∀ x u, Keeps s0 u → Keeps s0 (f x u)) : Keeps s0 (each xs f s) := by
  induction xs generalizing s with
  | nil => exact hk
  | cons x xs ih => exact ih (hf x s hk)

theorem Keeps.onlyIf {c : Bool} {f : State → State} {s0 s : State} (hk : Keeps s0 s)
    (hf : ∀ u, Keeps s0 u → Keeps s0 (f u)) : Keeps s0 (onlyIf c f s) := by
  unfold Machine.onlyIf
  split
  · exact hf s hk
  · exact hk

theorem Keeps.modTbu {f : Tbu → Tbu} {s0 s : State} (hk : Keeps s0 s) : Keeps s0 (modTbu f s) :=
  hk.trans (.of_eq rfl rfl rfl rfl rfl rfl (Nat.le_refl _) rfl rfl)

theorem Keeps.modSys {f : Sys → Sys} {s0 s : State} (hk : Keeps s0 s) : Keeps s0 (modSys f s) :=
  hk.trans (.of_eq rfl rfl rfl rfl rfl rfl (Nat.le_refl _) rfl rfl)

theorem Keeps.modAlog {f : Alog → Alog} {s0 s : State} (hk : Keeps s0 s) : Keeps s0 (modAlog f s) :=
  hk.trans (.of_eq rfl rfl rfl rfl rfl rfl (Nat.le_refl _) rfl rfl)

theorem Keeps.modHif {f : Hif → Hif} {s0 s : State} (hk : Keeps s0 s) : Keeps s0 (modHif f s) :=
  hk.trans (.of_eq rfl rfl rfl rfl rfl rfl (Nat.le_refl _) rfl rfl)

theorem Keeps.modThmPkg {f : ThmPkg → ThmPkg} {s0 s : State} (hk : Keeps s0 s) : Keeps s0 (modThmPkg f s) :=
  hk.trans (.of_eq rfl rfl rfl rfl rfl rfl (Nat.le_refl _) rfl rfl)

/-- A change of the command processor that takes back no reply. -/
theorem Keeps.modCpx {f : Cpx → Cpx} {s0 s : State} (hk : Keeps s0 s) (hr : ∀ c, c.replies <+: (f c).replies)
    (hc : ∀ c, kwf c.capBy = true → kwf (f c).capBy = true) : Keeps s0 (modCpx f s) :=
  hk.trans
    { ident := rfl, pending := rfl, resetLow := rfl, rollback := rfl, rollbackProg := rfl, keyProg := rfl, oemKey := rfl
      hostKey := rfl, rows := rfl, prog := rfl, doused := id, replies := hr _, free := Nat.le_refl _, shape := id, power := id
      canon := fun ⟨a, b, d, e, g, i, j, k⟩ => ⟨a, b, d, e, g, i, j, hc _ k⟩ }

/-- What a change of boot and security leaves alone. -/
structure SecKeeps (x y : Sec) : Prop where
  resetLow : y.resetLow = x.resetLow
  rollback : y.rollback = x.rollback
  rollbackProg : y.rollbackProg = x.rollbackProg
  keyProg : y.keyProg = x.keyProg
  oemKey : y.oemKey = x.oemKey
  hostKey : y.hostKey = x.hostKey
  flash : kwf x.flash = true → kwf y.flash = true
  staging : kwf x.staging = true → kwf y.staging = true

theorem Keeps.modBoot {f : Sec → Sec} {s0 s : State} (hk : Keeps s0 s) (hf : ∀ x, SecKeeps x (f x)) : Keeps s0 (modBoot f s) :=
  hk.trans
    { ident := rfl, pending := rfl, resetLow := (hf _).resetLow, rollback := (hf _).rollback, rollbackProg := (hf _).rollbackProg
      keyProg := (hf _).keyProg, oemKey := (hf _).oemKey, hostKey := (hf _).hostKey, rows := rfl, prog := rfl, doused := id
      replies := List.prefix_refl _, free := Nat.le_refl _, shape := id, power := id
      canon := fun ⟨a, b, d, e, g, i, j, k⟩ => ⟨(hf _).flash a, (hf _).staging b, d, e, g, i, j, k⟩ }

/-- What a change of the flue leaves alone. -/
structure FluKeeps (x y : Flu) : Prop where
  txSeq : kwf x.txSeq = true → kwf y.txSeq = true
  rxSeq : kwf x.rxSeq = true → kwf y.rxSeq = true
  rounds : kwf x.rounds = true → kwf y.rounds = true
  heard : kwf x.heard = true → kwf y.heard = true

theorem Keeps.withFlu {s0 s : State} {y : Flu} (hk : Keeps s0 s) (hf : FluKeeps s.flu y) : Keeps s0 { s with flu := y } :=
  hk.trans
    { ident := rfl, pending := rfl, resetLow := rfl, rollback := rfl, rollbackProg := rfl, keyProg := rfl, oemKey := rfl
      hostKey := rfl, rows := rfl, prog := rfl, doused := id, replies := List.prefix_refl _, free := Nat.le_refl _, shape := id
      power := id
      canon := fun ⟨a, b, d, e, g, i, j, k⟩ => ⟨a, b, d, hf.txSeq e, hf.rxSeq g, hf.rounds i, hf.heard j, k⟩ }

theorem Keeps.modFlu {f : Flu → Flu} {s0 s : State} (hk : Keeps s0 s) (hf : ∀ x, FluKeeps x (f x)) : Keeps s0 (modFlu f s) :=
  hk.withFlu (hf _)

/-- What a change of the Firebrick rows and the calibration set leaves alone. -/
structure LimKeeps (x y : Limits) : Prop where
  rows : y.rows = x.rows
  prog : y.prog = x.prog
  working : kwf x.working = true → kwf y.working = true

theorem Keeps.withLimits {s0 s : State} {y : Limits} (hk : Keeps s0 s) (hf : LimKeeps s.limits y) :
    Keeps s0 { s with limits := y } :=
  hk.trans
    { ident := rfl, pending := rfl, resetLow := rfl, rollback := rfl, rollbackProg := rfl, keyProg := rfl, oemKey := rfl
      hostKey := rfl, rows := hf.rows, prog := hf.prog, doused := id, replies := List.prefix_refl _, free := Nat.le_refl _
      shape := fun ⟨a, b⟩ => ⟨a, by rw [hf.rows]; exact b⟩, power := id
      canon := fun ⟨a, b, d, e, g, i, j, k⟩ => ⟨a, b, hf.working d, e, g, i, j, k⟩ }

theorem iteKeeps {c : Prop} [Decidable c] {a b s0 : State} (ha : Keeps s0 a) (hb : Keeps s0 b) : Keeps s0 (if c then a else b) := by
  split
  · exact ha
  · exact hb

/-! ### Fields that no clause reads -/

theorem Keeps.withHolds {s0 s : State} {y : Holds} (hk : Keeps s0 s) : Keeps s0 { s with holds := y } :=
  hk.trans (.of_eq rfl rfl rfl rfl rfl rfl (Nat.le_refl _) rfl rfl)

theorem Keeps.withWarmDue {s0 s : State} {y : Bool} (hk : Keeps s0 s) : Keeps s0 { s with warmDue := y } :=
  hk.trans (.of_eq rfl rfl rfl rfl rfl rfl (Nat.le_refl _) rfl rfl)

theorem Keeps.withPins {s0 s : State} {y : Pins} (hk : Keeps s0 s) : Keeps s0 { s with pins := y } :=
  hk.trans (.of_eq rfl rfl rfl rfl rfl rfl (Nat.le_refl _) rfl rfl)

theorem Keeps.withSetpt {s0 s : State} {y : Setpt} (hk : Keeps s0 s) : Keeps s0 { s with setpt := y } :=
  hk.trans (.of_eq rfl rfl rfl rfl rfl rfl (Nat.le_refl _) rfl rfl)

theorem Keeps.withArrivals {s0 s : State} {y : List Arrival} (hk : Keeps s0 s) : Keeps s0 { s with arrivals := y } :=
  hk.trans (.of_eq rfl rfl rfl rfl rfl rfl (Nat.le_refl _) rfl rfl)

/-- A fold that carries a result beside the state. -/
theorem Keeps.fold {α β : Type} {f : β × State → α → β × State} {s0 : State} (hf : ∀ a x, Keeps s0 a.2 → Keeps s0 (f a x).2)
    (xs : List α) {a : β × State} (hk : Keeps s0 a.2) : Keeps s0 (xs.foldl f a).2 := by
  induction xs generalizing a with
  | nil => exact hk
  | cons x xs ih => exact ih (hf a x hk)

theorem Keeps.withTbu {s0 s : State} {y : Tbu} (hk : Keeps s0 s) : Keeps s0 { s with tbu := y } :=
  hk.trans (.of_eq rfl rfl rfl rfl rfl rfl (Nat.le_refl _) rfl rfl)

theorem Keeps.withHif {s0 s : State} {y : Hif} (hk : Keeps s0 s) : Keeps s0 { s with hif := y } :=
  hk.trans (.of_eq rfl rfl rfl rfl rfl rfl (Nat.le_refl _) rfl rfl)

/-! ### The end of a command's handling -/

/-- A command's handling keeps what `Keeps` describes, whether it replies or waits. -/
def DoneKeeps (s0 : State) : Done → Prop
  | .reply _ _ t => Keeps s0 t
  | .hold _ _ t => Keeps s0 t

theorem DoneKeeps.reply {s0 t : State} {st : Status} {ws : List Word} (hk : Keeps s0 t) : DoneKeeps s0 (.reply st ws t) := hk

theorem DoneKeeps.hold {s0 t : State} {k : Nat} {d : Option Nat} (hk : Keeps s0 t) : DoneKeeps s0 (.hold k d t) := hk

theorem DoneKeeps.check {s0 s : State} {ok : Bool} {st : Status} {next : Done} (hk : Keeps s0 s) (hn : DoneKeeps s0 next) :
    DoneKeeps s0 (check ok st s next) := by
  unfold Machine.check
  split
  · exact hn
  · exact hk

/-- A row that answers a next state keeps what `Keeps` describes. -/
def OutKeeps (s0 : State) : Out → Prop
  | .next t => Keeps s0 t
  | _ => True

theorem OutKeeps.next {s0 t : State} (hk : Keeps s0 t) : OutKeeps s0 (.next t) := hk

theorem OutKeeps.fault {s0 : State} {f : Fault} : OutKeeps s0 (.fault f) := trivial

end Sys2Proof.Machine
end

