-- ==== Sys2Proof/Laws/KeepsOps.lean ====
section
/-! SUPPORT. Laws/KeepsOps.lean: every operation of Machine/Ops.lean is among those that `Keeps` describes. -/

namespace Sys2Proof.Machine

theorem takeFree_keeps {s s0 : State} (hk : Keeps s0 s) : Keeps s0 (takeFree s).2 :=
  hk.trans (.of_eq rfl rfl rfl rfl rfl rfl (Nat.le_succ _) rfl rfl)

theorem signalPf0_keeps {v : Nat} {s : State} {s0 : State} (hk : Keeps s0 s) : Keeps s0 (signalPf0 v s) := by
  unfold signalPf0
  try dsimp only
  repeat first
    | with_reducible assumption
    | (with_reducible first | apply Keeps.modHif)
    | intro

theorem signalPf1_keeps {v : Nat} {s : State} {s0 : State} (hk : Keeps s0 s) : Keeps s0 (signalPf1 v s) := by
  unfold signalPf1
  try dsimp only
  repeat first
    | with_reducible assumption
    | (with_reducible first | apply Keeps.modHif)
    | intro

theorem signalVf_keeps {n : Nat} {v : Nat} {s : State} {s0 : State} (hk : Keeps s0 s) : Keeps s0 (signalVf n v s) := by
  unfold signalVf
  try dsimp only
  repeat first
    | with_reducible assumption
    | (with_reducible first | apply Keeps.modHif)
    | split
    | intro

theorem evalSysInt_keeps {s : State} {s0 : State} (hk : Keeps s0 s) : Keeps s0 (evalSysInt s) := by
  unfold evalSysInt
  try dsimp only
  repeat first
    | with_reducible assumption
    | (with_reducible first | apply signalPf0_keeps | apply Keeps.modSys)
    | split
    | intro

theorem raiseSys_keeps {mask : Nat} {s : State} {s0 : State} (hk : Keeps s0 s) : Keeps s0 (raiseSys mask s) := by
  unfold raiseSys
  try dsimp only
  repeat first
    | with_reducible assumption
    | (with_reducible first | apply evalSysInt_keeps | apply Keeps.modSys)
    | intro

theorem eventTrigger_keeps {code : Nat} {s : State} {s0 : State} (hk : Keeps s0 s) : Keeps s0 (eventTrigger code s) := by
  unfold eventTrigger
  try dsimp only
  repeat first
    | with_reducible assumption
    | split
    | (with_reducible first | apply Keeps.mapHearths)
    | ((with_reducible refine HearthKeeps.mk ?_ ?_) <;> first | rfl | exact fun g => g | exact fun g => by simpa [hearthShape] using g)
    | intro

theorem queueEntry_keeps {h : Nat} {e : LogEntry} {s : State} {s0 : State} (hk : Keeps s0 s) : Keeps s0 (queueEntry h e s) := by
  unfold queueEntry
  try dsimp only
  repeat first
    | with_reducible assumption
    | (with_reducible first | apply Keeps.modAlog | apply Keeps.modHearth)
    | split
    | ((with_reducible refine HearthKeeps.mk ?_ ?_) <;> first | rfl | exact fun g => g | exact fun g => by simpa [hearthShape] using g)
    | intro

theorem emitFrom_keeps {source : Nat} {h : Nat} {code : Nat} {data : List Nat} {s : State} {s0 : State} (hk : Keeps s0 s) : Keeps s0 (emitFrom source h code data s) := by
  unfold emitFrom
  try dsimp only
  repeat first
    | with_reducible assumption
    | (with_reducible first | apply queueEntry_keeps | apply eventTrigger_keeps | apply raiseSys_keeps)

theorem emit_keeps {h : Nat} {code : Nat} {data : List Nat} {s : State} {s0 : State} (hk : Keeps s0 s) : Keeps s0 (emit h code data s) := by
  unfold emit
  try dsimp only
  repeat first
    | with_reducible assumption
    | (with_reducible first | apply emitFrom_keeps)

theorem arrive_keeps {a : Arrival} {s : State} {s0 : State} (hk : Keeps s0 s) : Keeps s0 (arrive a s) := by
  unfold arrive
  try dsimp only
  repeat first
    | with_reducible assumption
    | (with_reducible first | apply Keeps.withArrivals)

theorem arriveInOrder_keeps {a : Arrival} {s : State} {s0 : State} (hk : Keeps s0 s) : Keeps s0 (arriveInOrder a s) := by
  unfold arriveInOrder
  try dsimp only
  repeat first
    | with_reducible assumption
    | (with_reducible first | apply Keeps.withArrivals)

theorem note_keeps {h : Nat} {code : Nat} {data : List Nat} {s : State} {s0 : State} (hk : Keeps s0 s) : Keeps s0 (note h code data s) := by
  unfold note
  try dsimp only
  repeat first
    | with_reducible assumption
    | (with_reducible first | apply arrive_keeps)

theorem freeDetail_keeps {s : State} {s0 : State} (hk : Keeps s0 s) : Keeps s0 (freeDetail s).2 := by
  unfold freeDetail
  try dsimp only
  repeat first
    | with_reducible assumption
    | (with_reducible first | apply takeFree_keeps)

theorem modFcol_keeps {h : Nat} {f : Fcol → Fcol} {s : State} {s0 : State} (hk : Keeps s0 s) : Keeps s0 (modFcol h f s) := by
  unfold modFcol
  try dsimp only
  repeat first
    | with_reducible assumption
    | (with_reducible first | apply Keeps.modHearth)
    | ((with_reducible refine HearthKeeps.mk ?_ ?_) <;> first | rfl | exact fun g => g | exact fun g => by simpa [hearthShape] using g)
    | intro

theorem raiseSource_keeps {h : Nat} {n : Nat} {s : State} {s0 : State} (hk : Keeps s0 s) : Keeps s0 (raiseSource h n s) := by
  unfold raiseSource
  try dsimp only
  repeat first
    | with_reducible assumption
    | (with_reducible first | apply modFcol_keeps | apply freeDetail_keeps | apply emit_keeps)
    | split
    | intro

theorem holdSource_keeps {h : Nat} {n : Nat} {s : State} {s0 : State} (hk : Keeps s0 s) : Keeps s0 (holdSource h n s) := by
  unfold holdSource
  try dsimp only
  repeat first
    | with_reducible assumption
    | (with_reducible first | apply modFcol_keeps | apply freeDetail_keeps)
    | split
    | intro

theorem clearSource_keeps {h : Nat} {n : Nat} {s : State} {s0 : State} (hk : Keeps s0 s) : Keeps s0 (clearSource h n s) := by
  unfold clearSource
  try dsimp only
  repeat first
    | with_reducible assumption
    | (with_reducible first | apply modFcol_keeps | apply emit_keeps)
    | split
    | intro

theorem showPkg_keeps {s0 s : State} (hk : Keeps s0 s) : Keeps s0 (showPkg s) := by
  unfold showPkg
  split
  · exact hk
  · exact emit_keeps (hk.trans (.of_eq rfl rfl rfl rfl rfl rfl (Nat.le_refl _) rfl rfl))

/-- A change of the package state keeps all but what `Keeps` says of the package state itself. -/
theorem withPkg_keeps {p : PkgState} {s0 s : State} (hk : Keeps s0 s) (hd : s.pkg = .doused → p = .doused)
    (hp : PkgOk s → PkgOk { s with pkg := p }) : Keeps s0 { s with pkg := p } :=
  hk.trans {
    ident := rfl, pending := rfl, resetLow := rfl, rollback := rfl, rollbackProg := rfl, keyProg := rfl, oemKey := rfl
    hostKey := rfl, rows := rfl, prog := rfl, doused := hd, replies := List.prefix_refl _, free := Nat.le_refl _
    shape := id, canon := id, power := hp }

theorem setPkg_keeps {p : PkgState} {s0 s : State} (hk : Keeps s0 s) (hd : s.pkg = .doused → p = .doused)
    (hp : PkgOk s → PkgOk { s with pkg := p }) : Keeps s0 (setPkg p s) := by
  unfold setPkg
  split
  · exact hk
  · exact showPkg_keeps (withPkg_keeps hk hd hp)

/-- EMBER and ALIGHT follow the sections, whatever they were before (spec/01 R32). -/
theorem evalPkg_power (s : State) : PkgOk (evalPkg s) := by
  unfold evalPkg
  split
  · rename_i e
    split
    · rename_i n
      exact ⟨fun c => by simp at c, fun _ => n⟩
    · rename_i n
      exact ⟨fun _ => by simpa using n, fun c => by rw [e] at c; cases c⟩
  · rename_i e
    split
    · rename_i n
      exact ⟨fun _ => n, fun c => by simp at c⟩
    · rename_i n
      exact ⟨fun c => (by rw [e] at c; cases c), fun _ => n⟩
  · rename_i n1 n2
    exact ⟨fun c => absurd c n1, fun c => absurd c n2⟩

theorem evalPkg_keeps {s0 s : State} (hk : Keeps s0 s) : Keeps s0 (evalPkg s) := by
  unfold evalPkg
  split
  · rename_i e
    split
    · rename_i n
      exact withPkg_keeps hk (fun c => by rw [e] at c; cases c) (fun _ => ⟨fun c => by simp at c, fun _ => n⟩)
    · exact hk
  · rename_i e
    split
    · rename_i n
      exact withPkg_keeps hk (fun c => by rw [e] at c; cases c) (fun _ => ⟨fun _ => n, fun c => by simp at c⟩)
    · exact hk
  · exact hk

theorem modSec_shape {h i : Nat} {f : Section → Section} {s : State} : Shape s → Shape (modSec h i f s) := by
  rintro ⟨⟨a, b⟩, c⟩
  refine ⟨⟨by simpa [modSec, modHearth] using a, fun y hy => ?_⟩, c⟩
  obtain hy | ⟨x, hx, rfl⟩ := mem_modify hy
  · exact b y hy
  · obtain ⟨b1, b2⟩ := b x hx
    exact ⟨by simpa using b1, b2⟩

/-- Whatever changes a section's state, the package state follows it. -/
theorem modSec_evalPkg_keeps {h i : Nat} {f : Section → Section} {s0 s u : State} (hk : Keeps s0 s) (hu : Keeps (modSec h i f s) u) :
    Keeps s0 (evalPkg u) :=
  hk.trans <| by
    have k := evalPkg_keeps hu
    exact {
      ident := k.ident, pending := k.pending, resetLow := k.resetLow, rollback := k.rollback, rollbackProg := k.rollbackProg
      keyProg := k.keyProg, oemKey := k.oemKey, hostKey := k.hostKey, rows := k.rows, prog := k.prog, doused := k.doused
      replies := k.replies, free := k.free, shape := k.shape ∘ modSec_shape, canon := k.canon, power := fun _ => evalPkg_power u }

theorem setSec_keeps {h i : Nat} {st : SecState} {s0 s : State} (hk : Keeps s0 s) : Keeps s0 (setSec h i st s) := by
  unfold setSec
  dsimp only
  split
  · exact hk
  · exact modSec_evalPkg_keeps hk (signalVf_keeps (emit_keeps (.refl _)))

theorem emitVf_keeps {v : Nat} {h : Nat} {i : Nat} {code : Nat} {data : List Nat} {s : State} {s0 : State} (hk : Keeps s0 s) : Keeps s0 (emitVf v h i code data s) := by
  unfold emitVf
  try dsimp only
  repeat first
    | with_reducible assumption
    | (with_reducible first | apply emit_keeps | apply signalVf_keeps)

theorem startDown_keeps {len : Nat} {resume : Bool} {h : Nat} {i : Nat} {s : State} {s0 : State} (hk : Keeps s0 s) : Keeps s0 (startDown len resume h i s) := by
  unfold startDown
  try dsimp only
  repeat first
    | with_reducible assumption
    | (with_reducible first | apply Keeps.modSec)
    | split
    | exact fun _ => @rfl SecState _
    | intro

theorem setHolds_keeps {f : Holds → Holds} {s0 s : State} (hk : Keeps s0 s) : Keeps s0 (setHolds f s) := by
  have k : Keeps s0 (emit 0 0x0126 [holdBits s.holds, holdBits (f s.holds)] { s with holds := f s.holds }) := emit_keeps hk.withHolds
  unfold setHolds
  dsimp only
  split
  · exact hk
  · split
    · exact k.each fun _ _ hu => startDown_keeps hu
    · exact k

theorem modQueue_keeps {q : Nat} {f : Queue → Queue} {s : State} {s0 : State} (hk : Keeps s0 s) : Keeps s0 (modQueue q f s) := by
  unfold modQueue
  try dsimp only
  repeat first
    | with_reducible assumption
    | (with_reducible first | apply Keeps.modCpx)
    | exact fun _ => List.prefix_refl _
    | exact fun _ => List.prefix_append _ _
    | exact fun _ h => h
    | exact fun _ h => kset_kwf _ _ _ h
    | exact fun _ _ => rfl
    | intro

theorem queueReply_keeps {q : Nat} {r : Reply} {n : Bool} {s0 s : State} (hk : Keeps s0 s) : Keeps s0 (queueReply q r n s) := by
  unfold queueReply
  dsimp only
  generalize (if (queueAt s q).ien && !n then some (queueAt s q).vector else none : Option Nat) = irq
  cases irq with
  | none =>
    exact (modQueue_keeps hk).modCpx (fun _ => by rw [List.append_assoc]; exact List.prefix_append _ _) (fun _ h => h)
  | some v =>
    exact signalPf0_keeps
      ((modQueue_keeps hk).modCpx (fun _ => by rw [List.append_assoc]; exact List.prefix_append _ _) (fun _ h => h))

theorem acceptFrame_keeps {port : Nat} {src : Nat} {typ : Nat} {seq : Nat} {s : State} {s0 : State} (hk : Keeps s0 s) : Keeps s0 (acceptFrame port src typ seq s) := by
  unfold acceptFrame
  try dsimp only
  repeat first
    | with_reducible assumption
    | (with_reducible first | apply Keeps.modFlu)
    | ((with_reducible refine FluKeeps.mk ?_ ?_ ?_ ?_) <;> first | exact fun g => g | exact fun g => kset_kwf _ _ _ g | exact fun g => kerase_kwf _ _ g | exact fun _ => rfl)
    | intro

theorem tookFrame_keeps {p : Packet} {s : State} {s0 : State} (hk : Keeps s0 s) : Keeps s0 (tookFrame p s) := by
  unfold tookFrame
  try dsimp only
  repeat first
    | with_reducible assumption
    | (with_reducible first | apply acceptFrame_keeps)
    | split

theorem sendFrame_keeps {typ : Nat} {dst : Nat} {last : Bool} {words : List Word} {s : State} {s0 : State} (hk : Keeps s0 s) : Keeps s0 (sendFrame typ dst last words s) := by
  unfold sendFrame
  try dsimp only
  repeat first
    | with_reducible assumption
    | (with_reducible first | apply Keeps.modFlu)
    | ((with_reducible refine FluKeeps.mk ?_ ?_ ?_ ?_) <;> first | exact fun g => g | exact fun g => kset_kwf _ _ _ g | exact fun g => kerase_kwf _ _ g | exact fun _ => rfl)
    | intro

theorem replyFrame_keeps {r : Reply} {s : State} {s0 : State} (hk : Keeps s0 s) : Keeps s0 (replyFrame r s) := by
  unfold replyFrame
  try dsimp only
  repeat first
    | with_reducible assumption
    | (with_reducible first | apply sendFrame_keeps)
    | split

theorem roundReply_keeps {seq : Nat} {st : Status} {s : State} {s0 : State} (hk : Keeps s0 s) : Keeps s0 (roundReply seq st s) := by
  unfold roundReply
  try dsimp only
  repeat first
    | with_reducible assumption
    | (with_reducible first | apply Keeps.withFlu)
    | ((with_reducible refine FluKeeps.mk ?_ ?_ ?_ ?_) <;> first | exact fun g => g | exact fun g => kset_kwf _ _ _ g | exact fun g => kerase_kwf _ _ g | exact fun _ => rfl)
    | intro

theorem writePlain_keeps {c : Held} {st : Status} {words : List Word} {time : Nat} {s : State} {s0 : State} (hk : Keeps s0 s) : Keeps s0 (writePlain c st words time s) := by
  unfold writePlain
  try dsimp only
  repeat first
    | with_reducible assumption
    | (with_reducible first | apply roundReply_keeps | apply replyFrame_keeps | apply queueReply_keeps)
    | (with_reducible first | apply modQueue_keeps | apply Keeps.modCpx)
    | split
    | exact fun _ => List.prefix_refl _
    | exact fun _ => List.prefix_append _ _
    | exact fun _ h => h
    | exact fun _ h => kset_kwf _ _ _ h
    | exact fun _ _ => rfl
    | intro

theorem dueReply_keeps {time : Option Nat} {c : Held} {st : Status} {words : List Word} {s : State} {s0 : State} (hk : Keeps s0 s) : Keeps s0 (dueReply time c st words s) := by
  unfold dueReply
  try dsimp only
  repeat first
    | with_reducible assumption
    | (with_reducible first | apply emit_keeps | apply Keeps.modCpx)
    | split
    | exact fun _ => List.prefix_refl _
    | exact fun _ => List.prefix_append _ _
    | exact fun _ h => h
    | exact fun _ h => kset_kwf _ _ _ h
    | exact fun _ _ => rfl
    | intro

theorem sendReply_keeps {c : Held} {st : Status} {words : List Word} {s : State} {s0 : State} (hk : Keeps s0 s) : Keeps s0 (sendReply c st words s) := by
  unfold sendReply
  try dsimp only
  repeat first
    | with_reducible assumption
    | (with_reducible first | apply dueReply_keeps)

theorem putWords_kwf {m : KMap Word} {base : Nat} {ws : List Word} (h : kwf m = true) : kwf (putWords m base ws) = true := by
  have put (l : List (Word × Nat)) : ∀ m : KMap Word, kwf m = true → kwf (l.foldl (fun m e =>
      if e.1 = 0xFFFFFFFF then kerase m (base + e.2) else kset m (base + e.2) e.1) m) = true := by
    induction l with
    | nil => exact fun _ h => h
    | cons e l ih =>
      intro m h
      refine ih _ ?_
      show kwf (if e.1 = 0xFFFFFFFF then kerase m (base + e.2) else kset m (base + e.2) e.1) = true
      split
      · exact kerase_kwf _ _ h
      · exact kset_kwf _ _ _ h
  exact put _ _ h

theorem putFlash_keeps {n : Nat} {ws : List Word} {s s0 : State} (hk : Keeps s0 s) : Keeps s0 (putFlash n ws s) :=
  hk.modBoot (f := fun x => { x with flash := putWords x.flash (n / 4) ws })
    fun _ => SecKeeps.mk rfl rfl rfl rfl rfl rfl (fun g => putWords_kwf g) id

theorem scriptReplied_keeps {op : Nat} {st : Status} {opens : Nat} {time : Nat} {s : State} {s0 : State} (hk : Keeps s0 s) : Keeps s0 (scriptReplied op st opens time s) := by
  unfold scriptReplied
  try dsimp only
  repeat first
    | with_reducible assumption
    | (with_reducible first | apply writePlain_keeps | apply emit_keeps | apply Keeps.modCpx | apply Keeps.each)
    | split
    | exact fun _ => List.prefix_refl _
    | exact fun _ => List.prefix_append _ _
    | exact fun _ h => h
    | exact fun _ h => kset_kwf _ _ _ h
    | exact fun _ _ => rfl
    | intro

theorem writeReply_keeps {opens : Nat} {c : Held} {st : Status} {words : List Word} {time : Nat} {s : State} {s0 : State} (hk : Keeps s0 s) : Keeps s0 (writeReply opens c st words time s) := by
  unfold writeReply
  try dsimp only
  repeat first
    | with_reducible assumption
    | (with_reducible first | apply scriptReplied_keeps | apply writePlain_keeps)
    | split

theorem endHeldAt_keeps {time : Option Nat} {c : Held} {st : Status} {words : List Word} {s : State} {s0 : State} (hk : Keeps s0 s) : Keeps s0 (endHeldAt time c st words s) := by
  unfold endHeldAt
  try dsimp only
  repeat first
    | with_reducible assumption
    | (with_reducible first | apply dueReply_keeps | apply Keeps.modCpx)
    | exact fun _ => List.prefix_refl _
    | exact fun _ => List.prefix_append _ _
    | exact fun _ h => h
    | exact fun _ h => kset_kwf _ _ _ h
    | exact fun _ _ => rfl
    | intro

theorem endHeld_keeps {c : Held} {st : Status} {words : List Word} {s : State} {s0 : State} (hk : Keeps s0 s) : Keeps s0 (endHeld c st words s) := by
  unfold endHeld
  try dsimp only
  repeat first
    | with_reducible assumption
    | (with_reducible first | apply endHeldAt_keeps)

theorem dropHeld_keeps {c : Held} {s : State} {s0 : State} (hk : Keeps s0 s) : Keeps s0 (dropHeld c s) := by
  unfold dropHeld
  try dsimp only
  repeat first
    | with_reducible assumption
    | (with_reducible first | apply modQueue_keeps | apply Keeps.modCpx)
    | split
    | exact fun _ => List.prefix_refl _
    | exact fun _ => List.prefix_append _ _
    | exact fun _ h => h
    | exact fun _ h => kset_kwf _ _ _ h
    | exact fun _ _ => rfl
    | intro

theorem endHeldFor_keeps {op : Nat} {key : Nat} {st : Status} {words : List Word} {s : State} {s0 : State} (hk : Keeps s0 s) : Keeps s0 (endHeldFor op key st words s) := by
  unfold endHeldFor
  try dsimp only
  repeat first
    | with_reducible assumption
    | (with_reducible first | apply endHeld_keeps | apply Keeps.each)
    | intro

theorem evalDigest_keeps {s : State} {s0 : State} (hk : Keeps s0 s) : Keeps s0 (evalDigest s) := by
  unfold evalDigest
  try dsimp only
  repeat first
    | with_reducible assumption
    | (with_reducible first | apply emit_keeps)
    | split
    | (with_reducible first | apply Keeps.withFlu)
    | ((with_reducible refine FluKeeps.mk ?_ ?_ ?_ ?_) <;> first | exact fun g => g | exact fun g => kset_kwf _ _ _ g | exact fun g => kerase_kwf _ _ g | exact fun _ => rfl)

theorem groupTouched_keeps {op : Nat} {p : Packet} {s : State} {t : State} {s0 : State} (hk : Keeps s0 t) : Keeps s0 (groupTouched op p s t) := by
  unfold groupTouched
  try dsimp only
  repeat first
    | with_reducible assumption
    | (with_reducible first | apply evalDigest_keeps)
    | split
    | (with_reducible first | apply Keeps.withFlu)
    | ((with_reducible refine FluKeeps.mk ?_ ?_ ?_ ?_) <;> first | exact fun g => g | exact fun g => kset_kwf _ _ _ g | exact fun g => kerase_kwf _ _ g | exact fun _ => rfl)

theorem groupTouched_keeps' {op : Nat} {p : Packet} {s t s0 : State} (c : Prop) [Decidable c] (hk : Keeps s0 t) :
    Keeps s0 (if c then groupTouched op p s t else t) := by
  split
  · exact groupTouched_keeps hk
  · exact hk

/-- What handling a captured packet keeps, when its opcode's own handling keeps it. -/
theorem handle_keeps {ci : CmdInfo} {l : Bool} {body : Packet → State → Done} {p : Packet} {s0 s : State} (hk : Keeps s0 s)
    (hb : ∀ u, Keeps s0 u → DoneKeeps s0 (body p u)) : Keeps s0 (handle ci l body p s) := by
  have hd := hb s hk
  unfold handle
  dsimp only
  split
  · exact sendReply_keeps hk
  · split
    · rename_i e
      rw [e] at hd
      exact sendReply_keeps (groupTouched_keeps' _ hd)
    · rename_i e
      rw [e] at hd
      split
      · exact sendReply_keeps hk
      · refine Keeps.modCpx (groupTouched_keeps hd) (fun _ => ?_) (fun _ h => h)
        exact List.prefix_refl _

theorem countCapture_keeps {src : Nat} {s : State} {s0 : State} (hk : Keeps s0 s) : Keeps s0 (countCapture src s) := by
  unfold countCapture
  try dsimp only
  repeat first
    | with_reducible assumption
    | (with_reducible first | apply Keeps.modCpx)
    | exact fun _ => List.prefix_refl _
    | exact fun _ => List.prefix_append _ _
    | exact fun _ h => h
    | exact fun _ h => kset_kwf _ _ _ h
    | exact fun _ _ => rfl
    | intro

theorem takeSlots_keeps {q : Nat} {want : Nat} {f : Queue → Queue} {s : State} {s0 : State} (hk : Keeps s0 s) : Keeps s0 (takeSlots q want f s) := by
  unfold takeSlots
  try dsimp only
  repeat first
    | with_reducible assumption
    | (with_reducible first | apply countCapture_keeps | apply modQueue_keeps)
    | intro

theorem refuseLength_keeps {ci : CmdInfo} {p : Packet} {s : State} {s0 : State} (hk : Keeps s0 s) : Keeps s0 (refuseLength ci p s) := by
  unfold refuseLength
  try dsimp only
  repeat first
    | with_reducible assumption
    | (with_reducible first | apply sendReply_keeps)
    | split

theorem captureQueue_keeps {ci : CmdInfo} {l : Bool} {body : Packet → State → Done} {p : Packet} {s0 s : State} (hk : Keeps s0 s)
    (hb : ∀ u, Keeps s0 u → DoneKeeps s0 (body p u)) : Keeps s0 (captureQueue ci l body p s) := by
  unfold captureQueue
  dsimp only
  repeat first
    | with_reducible assumption
    | (with_reducible first | apply refuseLength_keeps | apply handle_keeps | apply takeSlots_keeps | apply modQueue_keeps)
    | split

/-- Every command row keeps what its own handling keeps. -/
theorem runCommandWith_keeps {ci : CmdInfo} {l : Bool} {body : Packet → State → Done} {p : Packet} {s0 s : State} (hk : Keeps s0 s)
    (hb : ∀ u, Keeps s0 u → DoneKeeps s0 (body p u)) : Keeps s0 (runCommandWith ci l body p s) := by
  unfold runCommandWith
  split
  · exact captureQueue_keeps hk hb
  split
  · exact hk
  split
  · split
    · refine handle_keeps (countCapture_keeps (hk.modCpx (fun _ => ?_) (fun _ h => h))) hb
      exact List.prefix_refl _
    · exact hk
  split
  · split
    · exact hk
    split
    · extract_lets t1 f1 t2
      have k1 : Keeps s0 t1 := (tookFrame_keeps hk).modCpx (fun _ => List.prefix_refl _) (fun _ h => h)
      have k2 : Keeps s0 t2 := by
        unfold t2
        split
        · exact k1.withFlu (FluKeeps.mk id id id id)
        · exact k1
      exact handle_keeps (countCapture_keeps k2) hb
    · exact (tookFrame_keeps hk).modCpx (fun _ => List.prefix_refl _) (fun _ h => h)
  split
  · exact handle_keeps (countCapture_keeps hk) hb
  · exact hk

theorem runCommand_keeps {ci : CmdInfo} {body : Packet → State → Done} {p : Packet} {s0 s : State} (hk : Keeps s0 s)
    (hb : ∀ u, Keeps s0 u → DoneKeeps s0 (body p u)) : Keeps s0 (runCommand ci body p s) := runCommandWith_keeps hk hb

end Sys2Proof.Machine
end

