-- ==== Sys2Proof/Laws/KeepsQueues.lean ====
section
/-! SUPPORT. Laws/KeepsQueues.lean: every operation of Machine/Queues.lean is among those that `Keeps` describes. -/

namespace Sys2Proof.Machine

theorem stopCapture_keeps {h : Nat} {s : State} {s0 : State} (hk : Keeps s0 s) : Keeps s0 (stopCapture h s) := by
  unfold stopCapture
  try dsimp only
  repeat first
    | with_reducible assumption
    | (with_reducible first | apply Keeps.modHearth)
    | ((with_reducible refine HearthKeeps.mk ?_ ?_) <;> first | rfl | exact fun g => g | exact fun g => by simpa [hearthShape] using g)
    | intro

theorem modLoop_keeps {h : Nat} {n : Nat} {f : Loop → Loop} {s : State} {s0 : State} (hk : Keeps s0 s) : Keeps s0 (modLoop h n f s) := by
  unfold modLoop
  try dsimp only
  repeat first
    | with_reducible assumption
    | (with_reducible first | apply Keeps.modHearth)
    | ((with_reducible refine HearthKeeps.mk ?_ ?_) <;> first | rfl | exact fun g => g | exact fun g => by simpa [hearthShape] using g)
    | intro

theorem setLoop_keeps {h : Nat} {n : Nat} {st : Nat} {s : State} {s0 : State} (hk : Keeps s0 s) : Keeps s0 (setLoop h n st s) := by
  unfold setLoop
  try dsimp only
  repeat first
    | with_reducible assumption
    | (with_reducible first | apply modLoop_keeps | apply emit_keeps)
    | split
    | intro

theorem dropTune_keeps {h : Nat} {n : Nat} {code : Nat} {s : State} {s0 : State} (hk : Keeps s0 s) : Keeps s0 (dropTune h n code s) := by
  unfold dropTune
  try dsimp only
  repeat first
    | with_reducible assumption
    | (with_reducible first | apply setLoop_keeps | apply modLoop_keeps | apply emit_keeps)
    | intro

theorem modChannels_keeps {h : Nat} {f : List MeasCh → List MeasCh} {s : State} {s0 : State} (hk : Keeps s0 s) : Keeps s0 (modChannels h f s) := by
  unfold modChannels
  try dsimp only
  repeat first
    | with_reducible assumption
    | (with_reducible first | apply Keeps.modHearth)
    | ((with_reducible refine HearthKeeps.mk ?_ ?_) <;> first | rfl | exact fun g => g | exact fun g => by simpa [hearthShape] using g)
    | intro

theorem modLcal_keeps {h : Nat} {n : Nat} {f : LcalCh → LcalCh} {s : State} {s0 : State} (hk : Keeps s0 s) : Keeps s0 (modLcal h n f s) := by
  unfold modLcal
  try dsimp only
  repeat first
    | with_reducible assumption
    | (with_reducible first | apply Keeps.modHearth)
    | ((with_reducible refine HearthKeeps.mk ?_ ?_) <;> first | rfl | exact fun g => g | exact fun g => by simpa [hearthShape] using g)
    | intro

theorem endEst_keeps {h : Nat} {n : Nat} {item : Nat} {s : State} {s0 : State} (hk : Keeps s0 s) : Keeps s0 (endEst h n item s) := by
  unfold endEst
  try dsimp only
  repeat first
    | with_reducible assumption
    | (with_reducible first | apply modLcal_keeps | apply modChannels_keeps)
    | split
    | intro

theorem withdrawDelta_keeps {h : Nat} {n : Nat} {s : State} {s0 : State} (hk : Keeps s0 s) : Keeps s0 (withdrawDelta h n s) := by
  unfold withdrawDelta
  try dsimp only
  repeat first
    | with_reducible assumption
    | (with_reducible first | apply modLcal_keeps | apply endHeldFor_keeps | apply emit_keeps | apply Keeps.each)
    | split
    | intro

theorem dropRun_keeps {key : Nat} {s : State} {s0 : State} (hk : Keeps s0 s) : Keeps s0 (dropRun key s) := by
  unfold dropRun
  try dsimp only
  repeat first
    | with_reducible assumption
    | (with_reducible first | apply withdrawDelta_keeps | apply endEst_keeps)
    | split

theorem abortEffect_keeps {c : Held} {s : State} {s0 : State} (hk : Keeps s0 s) : Keeps s0 (abortEffect c s) := by
  unfold abortEffect
  try dsimp only
  repeat first
    | with_reducible assumption
    | (with_reducible first | apply dropRun_keeps | apply dropTune_keeps | apply stopCapture_keeps)
    | (with_reducible first | apply Keeps.modHearth)
    | split
    | ((with_reducible refine HearthKeeps.mk ?_ ?_) <;> first | rfl | exact fun g => g | exact fun g => by simpa [hearthShape] using g)
    | intro

theorem dropQueueHeld_keeps {q : Nat} {s : State} {s0 : State} (hk : Keeps s0 s) : Keeps s0 (dropQueueHeld q s) := by
  unfold dropQueueHeld
  try dsimp only
  repeat first
    | with_reducible assumption
    | (with_reducible first | apply abortEffect_keeps | apply dropHeld_keeps | apply Keeps.modCpx | apply Keeps.each)
    | exact fun _ => List.prefix_refl _
    | exact fun _ => List.prefix_append _ _
    | exact fun _ h => h
    | exact fun _ h => kset_kwf _ _ _ h
    | exact fun _ _ => rfl
    | intro

theorem queueError_keeps {q : Nat} {err : Nat} {value : Nat} {s : State} {s0 : State} (hk : Keeps s0 s) : Keeps s0 (queueError q err value s) := by
  unfold queueError
  try dsimp only
  repeat first
    | with_reducible assumption
    | (with_reducible first | apply dropQueueHeld_keeps | apply modQueue_keeps | apply emit_keeps)
    | split
    | intro

theorem execSqTailWrite_keeps {q : Nat} {x : TailWrite} {s : State} {s0 : State} (hk : Keeps s0 s) : OutKeeps s0 (execSqTailWrite q x s) := by
  unfold execSqTailWrite
  try dsimp only
  repeat first
    | with_reducible assumption
    | (with_reducible first | apply OutKeeps.next | apply queueError_keeps | apply modQueue_keeps)
    | (with_reducible first | apply DoneKeeps.reply | apply DoneKeeps.hold | apply DoneKeeps.check)
    | split
    | intro

theorem execCqHeadWrite_keeps {q : Nat} {head : Nat} {s : State} {s0 : State} (hk : Keeps s0 s) : OutKeeps s0 (execCqHeadWrite q head s) := by
  unfold execCqHeadWrite
  try dsimp only
  repeat first
    | with_reducible assumption
    | (with_reducible first | apply OutKeeps.next | apply queueError_keeps | apply modQueue_keeps)
    | (with_reducible first | apply DoneKeeps.reply | apply DoneKeeps.hold | apply DoneKeeps.check)
    | split
    | intro

theorem execSqExtensionTimeout_keeps {q : Nat} {p : Packet} {s : State} {s0 : State} (hk : Keeps s0 s) : OutKeeps s0 (execSqExtensionTimeout q p s) := by
  unfold execSqExtensionTimeout
  try dsimp only
  repeat first
    | with_reducible assumption
    | (with_reducible first | apply OutKeeps.next | apply refuseLength_keeps | apply takeSlots_keeps)
    | split

theorem execPad_keeps {p : Packet} {s : State} {s0 : State} (hk : Keeps s0 s) : OutKeeps s0 (execPad p s) := by
  unfold execPad
  try dsimp only
  repeat first
    | with_reducible assumption
    | (with_reducible first | apply OutKeeps.next | apply runCommand_keeps | apply modQueue_keeps)
    | (with_reducible first | apply DoneKeeps.reply | apply DoneKeeps.hold | apply DoneKeeps.check)
    | split
    | intro

theorem queueCreate_keeps {p : Packet} {s : State} {s0 : State} (hk : Keeps s0 s) : DoneKeeps s0 (queueCreate p s) := by
  unfold queueCreate
  try dsimp only
  repeat first
    | with_reducible assumption
    | (with_reducible first | apply DoneKeeps.reply | apply DoneKeeps.hold | apply DoneKeeps.check)
    | (with_reducible first | apply modQueue_keeps | apply emit_keeps)
    | intro

theorem execQueueCreate_keeps {p : Packet} {s : State} {s0 : State} (hk : Keeps s0 s) : OutKeeps s0 (execQueueCreate p s) := by
  unfold execQueueCreate
  try dsimp only
  repeat first
    | with_reducible assumption
    | (with_reducible first | apply OutKeeps.next | apply queueCreate_keeps | apply runCommand_keeps)
    | (with_reducible first | apply DoneKeeps.reply | apply DoneKeeps.hold | apply DoneKeeps.check)
    | intro

theorem deleteQueue_keeps {q : Nat} {src : Nat} {s : State} {s0 : State} (hk : Keeps s0 s) : Keeps s0 (deleteQueue q src s) := by
  unfold deleteQueue
  try dsimp only
  repeat first
    | with_reducible assumption
    | (with_reducible first | apply dropQueueHeld_keeps | apply modQueue_keeps | apply emit_keeps)
    | intro

theorem queueDelete_keeps {p : Packet} {s : State} {s0 : State} (hk : Keeps s0 s) : DoneKeeps s0 (queueDelete p s) := by
  unfold queueDelete
  try dsimp only
  repeat first
    | with_reducible assumption
    | (with_reducible first | apply DoneKeeps.reply | apply DoneKeeps.hold | apply DoneKeeps.check)
    | intro

theorem finishDelete_keeps {opens : Nat} {time : Nat} {c : Held} {s : State} {s0 : State} (hk : Keeps s0 s) : Keeps s0 (finishDelete opens time c s) := by
  unfold finishDelete
  try dsimp only
  repeat first
    | with_reducible assumption
    | (with_reducible first | apply deleteQueue_keeps | apply writeReply_keeps | apply Keeps.modCpx)
    | split
    | exact fun _ => List.prefix_refl _
    | exact fun _ => List.prefix_append _ _
    | exact fun _ h => h
    | exact fun _ h => kset_kwf _ _ _ h
    | exact fun _ _ => rfl
    | intro

theorem execQueueDelete_keeps {p : Packet} {s : State} {s0 : State} (hk : Keeps s0 s) : OutKeeps s0 (execQueueDelete p s) := by
  unfold execQueueDelete
  try dsimp only
  repeat first
    | with_reducible assumption
    | (with_reducible first | apply OutKeeps.next | apply queueDelete_keeps | apply runCommand_keeps)
    | (with_reducible first | apply DoneKeeps.reply | apply DoneKeeps.hold | apply DoneKeeps.check)
    | intro

theorem queue0On_keeps {s : State} {s0 : State} (hk : Keeps s0 s) : Keeps s0 (queue0On s) := by
  unfold queue0On
  try dsimp only
  repeat first
    | with_reducible assumption
    | (with_reducible first | apply modQueue_keeps)
    | split
    | intro

theorem queue0Off_keeps {s : State} {s0 : State} (hk : Keeps s0 s) : Keeps s0 (queue0Off s) := by
  unfold queue0Off
  try dsimp only
  repeat first
    | with_reducible assumption
    | (with_reducible first | apply dropQueueHeld_keeps | apply modQueue_keeps)
    | split
    | intro

theorem execQueue0Enable_keeps {s : State} {s0 : State} (hk : Keeps s0 s) : OutKeeps s0 (execQueue0Enable s) := by
  unfold execQueue0Enable
  try dsimp only
  repeat first
    | with_reducible assumption
    | (with_reducible first | apply OutKeeps.next | apply arrive_keeps)
    | split

theorem execQueue0Disable_keeps {s : State} {s0 : State} (hk : Keeps s0 s) : OutKeeps s0 (execQueue0Disable s) := by
  unfold execQueue0Disable
  try dsimp only
  repeat first
    | with_reducible assumption
    | (with_reducible first | apply OutKeeps.next | apply arrive_keeps)

theorem execCpxCntClr_keeps {s : State} {s0 : State} (hk : Keeps s0 s) : OutKeeps s0 (execCpxCntClr s) := by
  unfold execCpxCntClr
  try dsimp only
  repeat first
    | with_reducible assumption
    | (with_reducible first | apply OutKeeps.next | apply Keeps.modCpx | apply DoneKeeps.reply | apply DoneKeeps.hold)
    | (with_reducible first | apply DoneKeeps.check)
    | split
    | exact fun _ => List.prefix_refl _
    | exact fun _ => List.prefix_append _ _
    | exact fun _ h => h
    | exact fun _ h => kset_kwf _ _ _ h
    | exact fun _ _ => rfl
    | intro

end Sys2Proof.Machine
end

