-- ==== Sys2Proof/Laws/KeepsMemory.lean ====
section
/-! SUPPORT. Laws/KeepsMemory.lean: every operation of Machine/Memory.lean is among those that `Keeps` describes. -/

namespace Sys2Proof.Machine

theorem modXmc_keeps {h : Nat} {f : Xmc → Xmc} {s : State} {s0 : State} (hk : Keeps s0 s) : Keeps s0 (modXmc h f s) := by
  unfold modXmc
  try dsimp only
  repeat first
    | with_reducible assumption
    | (with_reducible first | apply Keeps.modHearth)
    | ((with_reducible refine HearthKeeps.mk ?_ ?_) <;> first | rfl | exact fun g => g | exact fun g => by simpa [hearthShape] using g)
    | intro

theorem markDevice_keeps {h : Nat} {sub : Nat} {rank : Nat} {dev : Nat} {s : State} {s0 : State} (hk : Keeps s0 s) : Keeps s0 (markDevice h sub rank dev s) := by
  unfold markDevice
  try dsimp only
  repeat first
    | with_reducible assumption
    | (with_reducible first | apply modXmc_keeps | apply raiseSource_keeps | apply emit_keeps)
    | split
    | intro

theorem countCe_keeps {h : Nat} {sub : Nat} {rank : Nat} {dev : Nat} {s : State} {s0 : State} (hk : Keeps s0 s) : Keeps s0 (countCe h sub rank dev s) := by
  unfold countCe
  try dsimp only
  repeat first
    | with_reducible assumption
    | (with_reducible first | apply markDevice_keeps | apply modXmc_keeps | apply raiseSource_keeps)
    | split
    | intro

theorem correctRead_keeps {h : Nat} {sub : Nat} {rank : Nat} {line : DramLine} {s : State} {s0 : State} (hk : Keeps s0 s) : Keeps s0 (correctRead h sub rank line s) := by
  unfold correctRead
  try dsimp only
  repeat first
    | with_reducible assumption
    | (with_reducible first | apply countCe_keeps | apply modXmc_keeps | apply Keeps.each)
    | split
    | intro

theorem execDramCorrectedRead_keeps {h : Nat} {sub : Nat} {rank : Nat} {line : DramLine} {s : State} {s0 : State} (hk : Keeps s0 s) : OutKeeps s0 (execDramCorrectedRead h sub rank line s) := by
  unfold execDramCorrectedRead
  try dsimp only
  repeat first
    | with_reducible assumption
    | (with_reducible first | apply OutKeeps.next | apply correctRead_keeps)
    | split

theorem noteUce_keeps {h : Nat} {region : Nat} {address : Nat} {s : State} {s0 : State} (hk : Keeps s0 s) : Keeps s0 (noteUce h region address s) := by
  unfold noteUce
  try dsimp only
  repeat first
    | with_reducible assumption
    | (with_reducible first | apply modXmc_keeps | apply raiseSource_keeps | apply emit_keeps)
    | intro

theorem execScrubLine_keeps {h : Nat} {sub : Nat} {rank : Nat} {line : DramLine} {_overwritten : Bool} {s : State} {s0 : State} (hk : Keeps s0 s) : OutKeeps s0 (execScrubLine h sub rank line _overwritten s) := by
  unfold execScrubLine
  try dsimp only
  repeat first
    | with_reducible assumption
    | (with_reducible first | apply OutKeeps.next | apply noteUce_keeps | apply correctRead_keeps)
    | (with_reducible first | apply modXmc_keeps | apply Keeps.onlyIf | apply DoneKeeps.reply | apply DoneKeeps.hold)
    | (with_reducible first | apply DoneKeeps.check)
    | split
    | intro

theorem execPageCrcMismatch_keeps {h : Nat} {region : Nat} {page : Nat} {s : State} {s0 : State} (hk : Keeps s0 s) : OutKeeps s0 (execPageCrcMismatch h region page s) := by
  unfold execPageCrcMismatch
  try dsimp only
  repeat first
    | with_reducible assumption
    | (with_reducible first | apply OutKeeps.next | apply raiseSource_keeps | apply emit_keeps)
    | split
    | (with_reducible first | apply Keeps.withFlu)
    | ((with_reducible refine FluKeeps.mk ?_ ?_ ?_ ?_) <;> first | exact fun g => g | exact fun g => kset_kwf _ _ _ g | exact fun g => kerase_kwf _ _ g | exact fun _ => rfl)

theorem execLinkFrameRetry_keeps {h : Nat} {link : Nat} {again : Bool} {s : State} {s0 : State} (hk : Keeps s0 s) : OutKeeps s0 (execLinkFrameRetry h link again s) := by
  unfold execLinkFrameRetry
  try dsimp only
  repeat first
    | with_reducible assumption
    | (with_reducible first | apply OutKeeps.next | apply raiseSource_keeps | apply Keeps.modHearth)
    | (with_reducible first | apply DoneKeeps.reply | apply DoneKeeps.hold | apply DoneKeeps.check)
    | split
    | ((with_reducible refine HearthKeeps.mk ?_ ?_) <;> first | rfl | exact fun g => g | exact fun g => by simpa [hearthShape] using g)
    | intro

theorem execLinkFail_keeps {h : Nat} {link : Nat} {s : State} {s0 : State} (hk : Keeps s0 s) : OutKeeps s0 (execLinkFail h link s) := by
  unfold execLinkFail
  try dsimp only
  repeat first
    | with_reducible assumption
    | (with_reducible first | apply OutKeeps.next | apply raiseSource_keeps)
    | split

theorem execXmcCntClr_keeps {h : Nat} {s : State} {s0 : State} (hk : Keeps s0 s) : OutKeeps s0 (execXmcCntClr h s) := by
  unfold execXmcCntClr
  try dsimp only
  repeat first
    | with_reducible assumption
    | (with_reducible first | apply OutKeeps.next | apply modXmc_keeps | apply DoneKeeps.reply | apply DoneKeeps.hold)
    | (with_reducible first | apply DoneKeeps.check)
    | split
    | intro

theorem clearMarks_keeps {h : Nat} {s : State} {s0 : State} (hk : Keeps s0 s) : Keeps s0 (clearMarks h s) := by
  unfold clearMarks
  try dsimp only
  repeat first
    | with_reducible assumption
    | (with_reducible first | apply modXmc_keeps | apply emit_keeps | apply Keeps.each)
    | split
    | intro

theorem execXmcMarkClr_keeps {m : Nat} {h : Nat} {s : State} {s0 : State} (hk : Keeps s0 s) : OutKeeps s0 (execXmcMarkClr m h s) := by
  unfold execXmcMarkClr
  try dsimp only
  repeat first
    | with_reducible assumption
    | (with_reducible first | apply OutKeeps.next | apply clearMarks_keeps)
    | split

end Sys2Proof.Machine
end

