-- ==== Sys2Proof/Laws/KeepsSystem.lean ====
section
/-! SUPPORT. Laws/KeepsSystem.lean: every operation of Machine/System.lean is among those that `Keeps` describes. -/

namespace Sys2Proof.Machine

theorem execIdentify_keeps {p : Packet} {s : State} {s0 : State} (hk : Keeps s0 s) : OutKeeps s0 (execIdentify p s) := by
  unfold execIdentify
  try dsimp only
  repeat first
    | with_reducible assumption
    | (with_reducible first | apply OutKeeps.next | apply runCommand_keeps | apply DoneKeeps.reply)
    | (with_reducible first | apply DoneKeeps.hold | apply DoneKeeps.check)
    | intro

theorem execNop_keeps {p : Packet} {s : State} {s0 : State} (hk : Keeps s0 s) : OutKeeps s0 (execNop p s) := by
  unfold execNop
  try dsimp only
  repeat first
    | with_reducible assumption
    | (with_reducible first | apply OutKeeps.next | apply runCommand_keeps | apply DoneKeeps.reply)
    | (with_reducible first | apply DoneKeeps.hold | apply DoneKeeps.check)
    | intro

theorem execPackageStatus_keeps {p : Packet} {s : State} {s0 : State} (hk : Keeps s0 s) : OutKeeps s0 (execPackageStatus p s) := by
  unfold execPackageStatus
  try dsimp only
  repeat first
    | with_reducible assumption
    | (with_reducible first | apply OutKeeps.next | apply runCommand_keeps | apply DoneKeeps.reply)
    | (with_reducible first | apply DoneKeeps.hold | apply DoneKeeps.check)
    | intro

theorem hostUnlock_keeps {p : Packet} {s : State} {s0 : State} (hk : Keeps s0 s) : DoneKeeps s0 (hostUnlock p s) := by
  unfold hostUnlock
  try dsimp only
  repeat first
    | with_reducible assumption
    | (with_reducible first | apply DoneKeeps.reply | apply DoneKeeps.hold | apply DoneKeeps.check | apply emit_keeps)
    | (with_reducible first | apply Keeps.modCpx)
    | split
    | exact fun _ => List.prefix_refl _
    | exact fun _ => List.prefix_append _ _
    | exact fun _ h => h
    | exact fun _ h => kset_kwf _ _ _ h
    | exact fun _ _ => rfl
    | intro

theorem execHostUnlock_keeps {p : Packet} {s : State} {s0 : State} (hk : Keeps s0 s) : OutKeeps s0 (execHostUnlock p s) := by
  unfold execHostUnlock
  try dsimp only
  repeat first
    | with_reducible assumption
    | (with_reducible first | apply OutKeeps.next | apply hostUnlock_keeps | apply runCommandWith_keeps)
    | (with_reducible first | apply DoneKeeps.reply | apply DoneKeeps.hold | apply DoneKeeps.check)
    | intro

theorem endUnlock_keeps {st : Status} {result : Nat} {s : State} {s0 : State} (hk : Keeps s0 s) : Keeps s0 (endUnlock st result s) := by
  unfold endUnlock
  try dsimp only
  repeat first
    | with_reducible assumption
    | (with_reducible first | apply endHeldFor_keeps | apply emit_keeps)
    | split
    | intro

theorem execUnlockVerifyDone_keeps {s : State} {s0 : State} (hk : Keeps s0 s) : OutKeeps s0 (execUnlockVerifyDone s) := by
  unfold execUnlockVerifyDone
  try dsimp only
  repeat first
    | with_reducible assumption
    | (with_reducible first | apply OutKeeps.next | apply endUnlock_keeps | apply Keeps.modCpx)
    | (with_reducible first | apply DoneKeeps.reply | apply DoneKeeps.hold | apply DoneKeeps.check)
    | split
    | exact fun _ => List.prefix_refl _
    | exact fun _ => List.prefix_append _ _
    | exact fun _ h => h
    | exact fun _ h => kset_kwf _ _ _ h
    | exact fun _ _ => rfl
    | intro

theorem unlockChallenge_keeps {_p : Packet} {s : State} {s0 : State} (hk : Keeps s0 s) : DoneKeeps s0 (unlockChallenge _p s) := by
  unfold unlockChallenge
  try dsimp only
  repeat first
    | with_reducible assumption
    | (with_reducible first | apply DoneKeeps.reply | apply DoneKeeps.hold | apply DoneKeeps.check)
    | (with_reducible first | apply takeFree_keeps | apply Keeps.modCpx)
    | exact fun _ => List.prefix_refl _
    | exact fun _ => List.prefix_append _ _
    | exact fun _ h => h
    | exact fun _ h => kset_kwf _ _ _ h
    | exact fun _ _ => rfl
    | intro

theorem execUnlockChallenge_keeps {p : Packet} {s : State} {s0 : State} (hk : Keeps s0 s) : OutKeeps s0 (execUnlockChallenge p s) := by
  unfold execUnlockChallenge
  try dsimp only
  repeat first
    | with_reducible assumption
    | (with_reducible first | apply OutKeeps.next | apply unlockChallenge_keeps | apply runCommand_keeps)
    | (with_reducible first | apply DoneKeeps.reply | apply DoneKeeps.hold | apply DoneKeeps.check)
    | intro

theorem challengeDue_keeps {s : State} {s0 : State} (hk : Keeps s0 s) : Keeps s0 (challengeDue s) := by
  unfold challengeDue
  try dsimp only
  repeat first
    | with_reducible assumption
    | (with_reducible first | apply Keeps.modCpx)
    | split
    | exact fun _ => List.prefix_refl _
    | exact fun _ => List.prefix_append _ _
    | exact fun _ h => h
    | exact fun _ h => kset_kwf _ _ _ h
    | exact fun _ _ => rfl
    | intro

theorem execChallengeExpiry_keeps {s : State} {s0 : State} (hk : Keeps s0 s) : OutKeeps s0 (execChallengeExpiry s) := by
  unfold execChallengeExpiry
  try dsimp only
  repeat first
    | with_reducible assumption
    | (with_reducible first | apply OutKeeps.next | apply challengeDue_keeps)

theorem lockoutDue_keeps {s : State} {s0 : State} (hk : Keeps s0 s) : Keeps s0 (lockoutDue s) := by
  unfold lockoutDue
  try dsimp only
  repeat first
    | with_reducible assumption
    | (with_reducible first | apply Keeps.modCpx)
    | split
    | exact fun _ => List.prefix_refl _
    | exact fun _ => List.prefix_append _ _
    | exact fun _ h => h
    | exact fun _ h => kset_kwf _ _ _ h
    | exact fun _ _ => rfl
    | intro

theorem execUnlockLockoutEnd_keeps {s : State} {s0 : State} (hk : Keeps s0 s) : OutKeeps s0 (execUnlockLockoutEnd s) := by
  unfold execUnlockLockoutEnd
  try dsimp only
  repeat first
    | with_reducible assumption
    | (with_reducible first | apply OutKeeps.next | apply lockoutDue_keeps)

theorem wideReadAt_keeps {d : Nat} {p : Packet} {s : State} {s0 : State} (hk : Keeps s0 s) : DoneKeeps s0 (wideReadAt d p s) := by
  unfold wideReadAt
  try dsimp only
  repeat first
    | with_reducible assumption
    | (with_reducible first | apply DoneKeeps.reply | apply DoneKeeps.hold | apply DoneKeeps.check)
    | split
    | intro

theorem wideRead_keeps {p : Packet} {s : State} {s0 : State} (hk : Keeps s0 s) : DoneKeeps s0 (wideRead p s) := by
  unfold wideRead
  try dsimp only
  repeat first
    | with_reducible assumption
    | (with_reducible first | apply DoneKeeps.reply | apply DoneKeeps.hold | apply DoneKeeps.check)
    | (with_reducible first | apply wideReadAt_keeps)
    | intro

theorem execWideRead_keeps {p : Packet} {s : State} {s0 : State} (hk : Keeps s0 s) : OutKeeps s0 (execWideRead p s) := by
  unfold execWideRead
  try dsimp only
  repeat first
    | with_reducible assumption
    | (with_reducible first | apply OutKeeps.next | apply wideRead_keeps | apply runCommand_keeps)
    | (with_reducible first | apply DoneKeeps.reply | apply DoneKeeps.hold | apply DoneKeeps.check)
    | intro

theorem execWideReqWrite_keeps {m : Nat} {id : Nat} {s : State} {s0 : State} (hk : Keeps s0 s) : OutKeeps s0 (execWideReqWrite m id s) := by
  unfold execWideReqWrite
  try dsimp only
  repeat first
    | with_reducible assumption
    | (with_reducible first | apply OutKeeps.next | apply Keeps.modSys | apply DoneKeeps.reply | apply DoneKeeps.hold)
    | (with_reducible first | apply DoneKeeps.check)
    | split
    | intro

theorem execWideData3Read_keeps {m : Nat} {s : State} {s0 : State} (hk : Keeps s0 s) : OutKeeps s0 (execWideData3Read m s) := by
  unfold execWideData3Read
  try dsimp only
  repeat first
    | with_reducible assumption
    | (with_reducible first | apply OutKeeps.next | apply Keeps.modSys | apply DoneKeeps.reply | apply DoneKeeps.hold)
    | (with_reducible first | apply DoneKeeps.check)
    | split
    | intro

theorem copyWide_keeps {d : Nat} {s : State} {s0 : State} (hk : Keeps s0 s) : Keeps s0 (copyWide d s) := by
  unfold copyWide
  try dsimp only
  repeat first
    | with_reducible assumption
    | (with_reducible first | apply raiseSys_keeps | apply Keeps.modSys)
    | intro

theorem execSnapCmdWrite_keeps {go : Bool} {s : State} {s0 : State} (hk : Keeps s0 s) : OutKeeps s0 (execSnapCmdWrite go s) := by
  unfold execSnapCmdWrite
  try dsimp only
  repeat first
    | with_reducible assumption
    | (with_reducible first | apply OutKeeps.next | apply arrive_keeps)
    | split

theorem snapDue_keeps {s : State} {s0 : State} (hk : Keeps s0 s) : Keeps s0 (snapDue s) := by
  unfold snapDue
  try dsimp only
  repeat first
    | with_reducible assumption
    | (with_reducible first | apply copyWide_keeps)
    | split

theorem execSnapCopy_keeps {s : State} {s0 : State} (hk : Keeps s0 s) : OutKeeps s0 (execSnapCopy s) := by
  unfold execSnapCopy
  try dsimp only
  repeat first
    | with_reducible assumption
    | (with_reducible first | apply OutKeeps.next | apply copyWide_keeps)
    | split

theorem dousedSnapshot_keeps {s : State} {s0 : State} (hk : Keeps s0 s) : Keeps s0 (dousedSnapshot s) := by
  unfold dousedSnapshot
  try dsimp only
  repeat first
    | with_reducible assumption
    | (with_reducible first | apply copyWide_keeps | apply emit_keeps | apply Keeps.modSys)
    | intro

theorem counterSnapshot_keeps {_p : Packet} {s : State} {s0 : State} (hk : Keeps s0 s) : DoneKeeps s0 (counterSnapshot _p s) := by
  unfold counterSnapshot
  try dsimp only
  repeat first
    | with_reducible assumption
    | (with_reducible first | apply DoneKeeps.reply | apply DoneKeeps.hold | apply DoneKeeps.check)
    | (with_reducible first | apply Keeps.modSys)
    | intro

theorem execCounterSnapshot_keeps {p : Packet} {s : State} {s0 : State} (hk : Keeps s0 s) : OutKeeps s0 (execCounterSnapshot p s) := by
  unfold execCounterSnapshot
  try dsimp only
  repeat first
    | with_reducible assumption
    | (with_reducible first | apply OutKeeps.next | apply counterSnapshot_keeps | apply runCommand_keeps)
    | (with_reducible first | apply DoneKeeps.reply | apply DoneKeeps.hold | apply DoneKeeps.check)
    | intro

theorem execSysHbWrite_keeps {m : Nat} {count : Nat} {s : State} {s0 : State} (hk : Keeps s0 s) : OutKeeps s0 (execSysHbWrite m count s) := by
  unfold execSysHbWrite
  try dsimp only
  repeat first
    | with_reducible assumption
    | (with_reducible first | apply OutKeeps.next | apply Keeps.modSys | apply DoneKeeps.reply | apply DoneKeeps.hold)
    | (with_reducible first | apply DoneKeeps.check)
    | split
    | intro

theorem heartbeatDue_keeps {s : State} {s0 : State} (hk : Keeps s0 s) : Keeps s0 (heartbeatDue s) := by
  unfold heartbeatDue
  try dsimp only
  repeat first
    | with_reducible assumption
    | (with_reducible first | apply emit_keeps | apply Keeps.modSys)
    | split
    | intro

theorem execHeartbeatDecrement_keeps {s : State} {s0 : State} (hk : Keeps s0 s) : OutKeeps s0 (execHeartbeatDecrement s) := by
  unfold execHeartbeatDecrement
  try dsimp only
  repeat first
    | with_reducible assumption
    | (with_reducible first | apply OutKeeps.next | apply heartbeatDue_keeps)

theorem execSysIntEnWrite_keeps {m : Nat} {en : Nat} {s : State} {s0 : State} (hk : Keeps s0 s) : OutKeeps s0 (execSysIntEnWrite m en s) := by
  unfold execSysIntEnWrite
  try dsimp only
  repeat first
    | with_reducible assumption
    | (with_reducible first | apply OutKeeps.next | apply evalSysInt_keeps | apply Keeps.modSys)
    | (with_reducible first | apply DoneKeeps.reply | apply DoneKeeps.hold | apply DoneKeeps.check)
    | split
    | intro

theorem execSysIntPendClear_keeps {mask : Nat} {s : State} {s0 : State} (hk : Keeps s0 s) : OutKeeps s0 (execSysIntPendClear mask s) := by
  unfold execSysIntPendClear
  try dsimp only
  repeat first
    | with_reducible assumption
    | (with_reducible first | apply OutKeeps.next | apply evalSysInt_keeps | apply Keeps.modSys)
    | (with_reducible first | apply DoneKeeps.reply | apply DoneKeeps.hold | apply DoneKeeps.check)
    | split
    | intro

theorem resetCommanded_keeps {src : Nat} {orderly : Nat} {tag : Nat} {s : State} {s0 : State} (hk : Keeps s0 s) : Keeps s0 (resetCommanded src orderly tag s) := by
  unfold resetCommanded
  try dsimp only
  repeat first
    | with_reducible assumption
    | (with_reducible first | apply emit_keeps)
    | (with_reducible first | apply Keeps.withWarmDue)

theorem drainCommands_keeps {s : State} {s0 : State} (hk : Keeps s0 s) : Keeps s0 (drainCommands s) := by
  unfold drainCommands
  try dsimp only
  repeat first
    | with_reducible assumption
    | (with_reducible first | apply endHeldFor_keeps)
    | split

theorem orderlyReset_keeps {s : State} {s0 : State} (hk : Keeps s0 s) : Keeps s0 (orderlyReset s) := by
  unfold orderlyReset
  try dsimp only
  repeat first
    | with_reducible assumption
    | (with_reducible first | apply resetCommanded_keeps | apply endHeld_keeps | apply emit_keeps)
    | split
    | (with_reducible first | apply Keeps.withWarmDue)

theorem packageHold_keeps {p : Packet} {s : State} {s0 : State} (hk : Keeps s0 s) : DoneKeeps s0 (packageHold p s) := by
  unfold packageHold
  try dsimp only
  repeat first
    | with_reducible assumption
    | (with_reducible first | apply DoneKeeps.reply | apply DoneKeeps.hold | apply DoneKeeps.check)
    | (with_reducible first | apply endHeldFor_keeps | apply setHolds_keeps)
    | split
    | intro

theorem execPackageHold_keeps {p : Packet} {s : State} {s0 : State} (hk : Keeps s0 s) : OutKeeps s0 (execPackageHold p s) := by
  unfold execPackageHold
  try dsimp only
  repeat first
    | with_reducible assumption
    | (with_reducible first | apply OutKeeps.next | apply packageHold_keeps | apply runCommand_keeps)
    | (with_reducible first | apply DoneKeeps.reply | apply DoneKeeps.hold | apply DoneKeeps.check)
    | intro

theorem sysReset_keeps {p : Packet} {s : State} {s0 : State} (hk : Keeps s0 s) : DoneKeeps s0 (sysReset p s) := by
  unfold sysReset
  try dsimp only
  repeat first
    | with_reducible assumption
    | (with_reducible first | apply DoneKeeps.reply | apply DoneKeeps.hold | apply DoneKeeps.check)
    | (with_reducible first | apply resetCommanded_keeps | apply dropHeld_keeps | apply setHolds_keeps)
    | (with_reducible first | apply Keeps.modCpx | apply Keeps.each)
    | split
    | exact fun _ => List.prefix_refl _
    | exact fun _ => List.prefix_append _ _
    | exact fun _ h => h
    | exact fun _ h => kset_kwf _ _ _ h
    | exact fun _ _ => rfl
    | intro

theorem execSysReset_keeps {p : Packet} {s : State} {s0 : State} (hk : Keeps s0 s) : OutKeeps s0 (execSysReset p s) := by
  unfold execSysReset
  try dsimp only
  repeat first
    | with_reducible assumption
    | (with_reducible first | apply OutKeeps.next | apply sysReset_keeps | apply runCommand_keeps)
    | (with_reducible first | apply DoneKeeps.reply | apply DoneKeeps.hold | apply DoneKeeps.check)
    | intro

theorem scriptStart_keeps {first : Nat} {src : Nat} {s : State} {s0 : State} (hk : Keeps s0 s) : Keeps s0 (scriptStart first src s) := by
  unfold scriptStart
  try dsimp only
  repeat first
    | with_reducible assumption
    | (with_reducible first | apply emit_keeps | apply Keeps.modCpx)
    | exact fun _ => List.prefix_refl _
    | exact fun _ => List.prefix_append _ _
    | exact fun _ h => h
    | exact fun _ h => kset_kwf _ _ _ h
    | exact fun _ _ => rfl
    | intro

theorem scriptControl_keeps {p : Packet} {s : State} {s0 : State} (hk : Keeps s0 s) : DoneKeeps s0 (scriptControl p s) := by
  unfold scriptControl
  try dsimp only
  repeat first
    | with_reducible assumption
    | (with_reducible first | apply DoneKeeps.reply | apply DoneKeeps.hold | apply DoneKeeps.check)
    | (with_reducible first | apply scriptStart_keeps | apply emit_keeps | apply Keeps.modCpx)
    | split
    | exact fun _ => List.prefix_refl _
    | exact fun _ => List.prefix_append _ _
    | exact fun _ h => h
    | exact fun _ h => kset_kwf _ _ _ h
    | exact fun _ _ => rfl
    | intro

theorem execScriptControl_keeps {p : Packet} {s : State} {s0 : State} (hk : Keeps s0 s) : OutKeeps s0 (execScriptControl p s) := by
  unfold execScriptControl
  try dsimp only
  repeat first
    | with_reducible assumption
    | (with_reducible first | apply OutKeeps.next | apply scriptControl_keeps | apply runCommand_keeps)
    | (with_reducible first | apply DoneKeeps.reply | apply DoneKeeps.hold | apply DoneKeeps.check)
    | intro

theorem scriptTurn_keeps {s : State} {s0 : State} (hk : Keeps s0 s) : Keeps s0 (scriptTurn s) := by
  unfold scriptTurn
  try dsimp only
  repeat first
    | with_reducible assumption
    | (with_reducible first | apply sendReply_keeps | apply Keeps.modCpx)
    | split
    | exact fun _ => List.prefix_refl _
    | exact fun _ => List.prefix_append _ _
    | exact fun _ h => h
    | exact fun _ h => kset_kwf _ _ _ h
    | exact fun _ _ => rfl
    | intro

theorem execScriptRecord_keeps {s : State} {s0 : State} (hk : Keeps s0 s) : OutKeeps s0 (execScriptRecord s) := by
  unfold execScriptRecord
  try dsimp only
  repeat first
    | with_reducible assumption
    | (with_reducible first | apply OutKeeps.next | apply scriptTurn_keeps)
    | split

theorem scriptWaitDue_keeps {s : State} {s0 : State} (hk : Keeps s0 s) : Keeps s0 (scriptWaitDue s) := by
  unfold scriptWaitDue
  try dsimp only
  repeat first
    | with_reducible assumption
    | (with_reducible first | apply scriptReplied_keeps)
    | split

theorem execScriptWaitTimeout_keeps {s : State} {s0 : State} (hk : Keeps s0 s) : OutKeeps s0 (execScriptWaitTimeout s) := by
  unfold execScriptWaitTimeout
  try dsimp only
  repeat first
    | with_reducible assumption
    | (with_reducible first | apply OutKeeps.next | apply scriptWaitDue_keeps)

theorem execScriptRetry_keeps {s : State} {s0 : State} (hk : Keeps s0 s) : OutKeeps s0 (execScriptRetry s) := by
  unfold execScriptRetry
  try dsimp only
  repeat first
    | with_reducible assumption
    | (with_reducible first | apply OutKeeps.next | apply scriptTurn_keeps | apply Keeps.modCpx)
    | (with_reducible first | apply DoneKeeps.reply | apply DoneKeeps.hold | apply DoneKeeps.check)
    | split
    | exact fun _ => List.prefix_refl _
    | exact fun _ => List.prefix_append _ _
    | exact fun _ h => h
    | exact fun _ h => kset_kwf _ _ _ h
    | exact fun _ _ => rfl
    | intro

end Sys2Proof.Machine
end

