-- ==== Sys2Proof/Laws/KeepsRanges.lean ====
section
/-! SUPPORT. Laws/KeepsRanges.lean: every operation of Machine/Ranges.lean is among those that `Keeps` describes. -/

namespace Sys2Proof.Machine

theorem distributeRows_keeps {s0 s : State} (hk : Keeps s0 s) : Keeps s0 (distributeRows s) :=
  (hk.withLimits (LimKeeps.mk (y := { s.limits with inForce := permittedRows s }) rfl rfl id)).mapHearths
    fun _ => HearthKeeps.mk rfl id

end Sys2Proof.Machine
end

