-- ==== Sys2Proof/Laws/KeepsCells.lean ====
section
/-! SUPPORT. Laws/KeepsCells.lean: every operation of Machine/Cells.lean is among those that `Keeps` describes. -/

namespace Sys2Proof.Machine

theorem modAir_keeps {h : Nat} {f : Air → Air} {s : State} {s0 : State} (hk : Keeps s0 s) : Keeps s0 (modAir h f s) := by
  unfold modAir
  try dsimp only
  repeat first
    | with_reducible assumption
    | (with_reducible first | apply Keeps.modHearth)
    | ((with_reducible refine HearthKeeps.mk ?_ ?_) <;> first | rfl | exact fun g => g | exact fun g => by simpa [hearthShape] using g)
    | intro

theorem modAirSec_keeps {h : Nat} {i : Nat} {f : AirSec → AirSec} {s : State} {s0 : State} (hk : Keeps s0 s) : Keeps s0 (modAirSec h i f s) := by
  unfold modAirSec
  try dsimp only
  repeat first
    | with_reducible assumption
    | (with_reducible first | apply Keeps.modSec)
    | exact fun _ => @rfl SecState _
    | intro

theorem publishCells_keeps {h : Nat} {i : Nat} {cells : KMap Cell} {s : State} {s0 : State} (hk : Keeps s0 s) : Keeps s0 (publishCells h i cells s) := by
  unfold publishCells
  try dsimp only
  repeat first
    | with_reducible assumption
    | (with_reducible first | apply Keeps.modSec)
    | split
    | exact fun _ => @rfl SecState _
    | intro

theorem retrack_keeps {h : Nat} {s : State} {s0 : State} (hk : Keeps s0 s) : Keeps s0 (retrack h s) := by
  unfold retrack
  try dsimp only
  repeat first
    | with_reducible assumption
    | (with_reducible first | apply publishCells_keeps | apply modAir_keeps | apply emit_keeps | apply Keeps.each)
    | split
    | intro

theorem dropCell_keeps {h : Nat} {n : Nat} {s : State} {s0 : State} (hk : Keeps s0 s) : Keeps s0 (dropCell h n s) := by
  unfold dropCell
  try dsimp only
  repeat first
    | with_reducible assumption
    | (with_reducible first | apply modAir_keeps)
    | split
    | intro

theorem loseCell_keeps {h : Nat} {n : Nat} {s : State} {s0 : State} (hk : Keeps s0 s) : Keeps s0 (loseCell h n s) := by
  unfold loseCell
  try dsimp only
  repeat first
    | with_reducible assumption
    | (with_reducible first | apply dropCell_keeps | apply emit_keeps)
    | split

theorem loseBand_keeps {h : Nat} {b : Nat} {lo : Nat} {s : State} {s0 : State} (hk : Keeps s0 s) : Keeps s0 (loseBand h b lo s) := by
  unfold loseBand
  try dsimp only
  repeat first
    | with_reducible assumption
    | (with_reducible first | apply dropCell_keeps | apply retrack_keeps | apply Keeps.each)
    | split
    | intro

theorem reportStranger_keeps {h : Nat} {i : Nat} {k : Nat} {dmp : Bool} {freq : Nat} {bin : Nat} {level : Int} {s : State} {s0 : State} (hk : Keeps s0 s) : Keeps s0 (reportStranger h i k dmp freq bin level s) := by
  unfold reportStranger
  try dsimp only
  repeat first
    | with_reducible assumption
    | (with_reducible first | apply modAir_keeps | apply emit_keeps)
    | split
    | intro

end Sys2Proof.Machine
end

