-- ==== Sys2Proof/Laws/KeepsTimebase.lean ====
section
/-! SUPPORT. Laws/KeepsTimebase.lean: every operation of Machine/Timebase.lean is among those that `Keeps` describes. -/

namespace Sys2Proof.Machine

theorem modPattern_keeps {h : Nat} {n : Nat} {f : Pattern → Pattern} {s : State} {s0 : State} (hk : Keeps s0 s) : Keeps s0 (modPattern h n f s) := by
  unfold modPattern
  try dsimp only
  repeat first
    | with_reducible assumption
    | (with_reducible first | apply Keeps.modHearth)
    | ((with_reducible refine HearthKeeps.mk ?_ ?_) <;> first | rfl | exact fun g => g | exact fun g => by simpa [hearthShape] using g)
    | intro

theorem patternWrite_keeps {p : Packet} {s : State} {s0 : State} (hk : Keeps s0 s) : DoneKeeps s0 (patternWrite p s) := by
  unfold patternWrite
  try dsimp only
  repeat first
    | with_reducible assumption
    | (with_reducible first | apply DoneKeeps.reply | apply DoneKeeps.hold | apply DoneKeeps.check)
    | (with_reducible first | apply modPattern_keeps | apply Keeps.each)
    | split
    | intro

theorem execTddPatternWrite_keeps {p : Packet} {s : State} {s0 : State} (hk : Keeps s0 s) : OutKeeps s0 (execTddPatternWrite p s) := by
  unfold execTddPatternWrite
  try dsimp only
  repeat first
    | with_reducible assumption
    | (with_reducible first | apply OutKeeps.next | apply patternWrite_keeps | apply runCommandWith_keeps)
    | (with_reducible first | apply DoneKeeps.reply | apply DoneKeeps.hold | apply DoneKeeps.check)
    | intro

theorem patternSelect_keeps {p : Packet} {s : State} {s0 : State} (hk : Keeps s0 s) : DoneKeeps s0 (patternSelect p s) := by
  unfold patternSelect
  try dsimp only
  repeat first
    | with_reducible assumption
    | (with_reducible first | apply DoneKeeps.reply | apply DoneKeeps.hold | apply DoneKeeps.check)
    | (with_reducible first | apply modPattern_keeps | apply Keeps.each)
    | intro

theorem execTddPatternSelect_keeps {p : Packet} {s : State} {s0 : State} (hk : Keeps s0 s) : OutKeeps s0 (execTddPatternSelect p s) := by
  unfold execTddPatternSelect
  try dsimp only
  repeat first
    | with_reducible assumption
    | (with_reducible first | apply OutKeeps.next | apply patternSelect_keeps | apply runCommand_keeps)
    | (with_reducible first | apply DoneKeeps.reply | apply DoneKeeps.hold | apply DoneKeeps.check)
    | intro

theorem setFrameValid_keeps {log : Nat → Nat → List Nat → State → State} {v : Bool} {s s0 : State} (hk : Keeps s0 s)
    (hl : ∀ h c d u, Keeps s0 u → Keeps s0 (log h c d u)) : Keeps s0 (setFrameValid log v s) := by
  unfold setFrameValid
  split
  · exact hk
  extract_lets t
  have k : Keeps s0 t := hl _ _ _ _ hk.modTbu
  clear_value t
  refine k.each fun g u hu => ?_
  have k1 : Keeps s0 (modSec g.1 g.2 (fun y => { y with waits := { y.waits with frame := !v } }) u) := hu.modSec fun _ => rfl
  exact iteKeeps k1 (startDown_keeps k1)

theorem loseSource_keeps {s : State} {s0 : State} (hk : Keeps s0 s) : Keeps s0 (loseSource s) := by
  unfold loseSource
  try dsimp only
  repeat first
    | with_reducible assumption
    | (with_reducible first | apply setFrameValid_keeps | apply emit_keeps | apply Keeps.modTbu)
    | split
    | intro

theorem align_keeps {clk : Int} {sfn : Option Nat} {s : State} {s0 : State} (hk : Keeps s0 s) : Keeps s0 (align clk sfn s) := by
  unfold align
  try dsimp only
  repeat first
    | with_reducible assumption
    | (with_reducible first | apply setFrameValid_keeps | apply emit_keeps | apply Keeps.modTbu)
    | split
    | intro

theorem captureSource_keeps {s : State} {s0 : State} (hk : Keeps s0 s) : Keeps s0 (captureSource s) := by
  unfold captureSource
  try dsimp only
  repeat first
    | with_reducible assumption
    | (with_reducible first | apply align_keeps | apply Keeps.modTbu | apply Keeps.onlyIf)
    | split
    | intro

theorem takeAlignment_keeps {clk : Int} {sfn : Option Nat} {s : State} {s0 : State} (hk : Keeps s0 s) : Keeps s0 (takeAlignment clk sfn s) := by
  unfold takeAlignment
  try dsimp only
  repeat first
    | with_reducible assumption
    | (with_reducible first | apply align_keeps)
    | split

theorem execFrameAlignment_keeps {clk : Int} {sfn : Option Nat} {s : State} {s0 : State} (hk : Keeps s0 s) : OutKeeps s0 (execFrameAlignment clk sfn s) := by
  unfold execFrameAlignment
  try dsimp only
  repeat first
    | with_reducible assumption
    | (with_reducible first | apply OutKeeps.next | apply arrive_keeps | apply Keeps.modTbu | apply Keeps.onlyIf)
    | (with_reducible first | apply DoneKeeps.reply | apply DoneKeeps.hold | apply DoneKeeps.check)
    | split
    | intro

theorem lapseSource_keeps {s : State} {s0 : State} (hk : Keeps s0 s) : Keeps s0 (lapseSource s) := by
  unfold lapseSource
  try dsimp only
  repeat first
    | with_reducible assumption
    | (with_reducible first | apply loseSource_keeps)
    | split

theorem execFrameSourceInvalid_keeps {s : State} {s0 : State} (hk : Keeps s0 s) : OutKeeps s0 (execFrameSourceInvalid s) := by
  unfold execFrameSourceInvalid
  try dsimp only
  repeat first
    | with_reducible assumption
    | (with_reducible first | apply OutKeeps.next | apply lapseSource_keeps)

theorem endHoldover_keeps {s : State} {s0 : State} (hk : Keeps s0 s) : Keeps s0 (endHoldover s) := by
  unfold endHoldover
  try dsimp only
  repeat first
    | with_reducible assumption
    | (with_reducible first | apply setFrameValid_keeps | apply emit_keeps | apply Keeps.modTbu)
    | split
    | intro

theorem execHoldoverExpiry_keeps {s : State} {s0 : State} (hk : Keeps s0 s) : OutKeeps s0 (execHoldoverExpiry s) := by
  unfold execHoldoverExpiry
  try dsimp only
  repeat first
    | with_reducible assumption
    | (with_reducible first | apply OutKeeps.next | apply endHoldover_keeps)

theorem openFrame_keeps {clk : Nat} {sfn : Nat} {gap : Nat} {s : State} {s0 : State} (hk : Keeps s0 s) : Keeps s0 (openFrame clk sfn gap s) := by
  unfold openFrame
  try dsimp only
  repeat first
    | with_reducible assumption
    | (with_reducible first | apply setFrameValid_keeps | apply note_keeps | apply Keeps.modTbu)
    | split
    | intro

theorem applySelections_keeps {clk : Nat} {s : State} {s0 : State} (hk : Keeps s0 s) : Keeps s0 (applySelections clk s) := by
  unfold applySelections
  try dsimp only
  repeat first
    | with_reducible assumption
    | (with_reducible first | apply Keeps.modCpx)
    | split
    | (with_reducible first | apply Keeps.mapHearths)
    | exact fun _ => List.prefix_refl _
    | exact fun _ => List.prefix_append _ _
    | exact fun _ h => h
    | exact fun _ h => kset_kwf _ _ _ h
    | exact fun _ _ => rfl
    | ((with_reducible refine HearthKeeps.mk ?_ ?_) <;> first | rfl | exact fun g => g | exact fun g => by simpa [hearthShape] using g)
    | intro

theorem replySelections_keeps {clk : Nat} {time : Nat} {s : State} {s0 : State} (hk : Keeps s0 s) : Keeps s0 (replySelections clk time s) := by
  unfold replySelections
  try dsimp only
  repeat first
    | with_reducible assumption
    | (with_reducible first | apply endHeldAt_keeps | apply Keeps.each)
    | intro

theorem frameAdvance_keeps {s : State} {s0 : State} (hk : Keeps s0 s) : Keeps s0 (frameAdvance s).2 := by
  unfold frameAdvance
  try dsimp only
  repeat first
    | with_reducible assumption
    | (with_reducible first | apply applySelections_keeps | apply openFrame_keeps | apply Keeps.modTbu)
    | split
    | intro

theorem frameSource_keeps {p : Packet} {s : State} {s0 : State} (hk : Keeps s0 s) : DoneKeeps s0 (frameSource p s) := by
  unfold frameSource
  try dsimp only
  repeat first
    | with_reducible assumption
    | (with_reducible first | apply DoneKeeps.reply | apply DoneKeeps.hold | apply DoneKeeps.check)
    | (with_reducible first | apply align_keeps | apply loseSource_keeps | apply Keeps.modTbu)
    | split
    | intro

theorem execFrameSource_keeps {p : Packet} {s : State} {s0 : State} (hk : Keeps s0 s) : OutKeeps s0 (execFrameSource p s) := by
  unfold execFrameSource
  try dsimp only
  repeat first
    | with_reducible assumption
    | (with_reducible first | apply OutKeeps.next | apply frameSource_keeps | apply runCommand_keeps)
    | (with_reducible first | apply DoneKeeps.reply | apply DoneKeeps.hold | apply DoneKeeps.check)
    | intro

theorem setTimeAt_keeps {d : Nat} {t : Nat} {s : State} {s0 : State} (hk : Keeps s0 s) : Keeps s0 (setTimeAt d t s) := by
  unfold setTimeAt
  try dsimp only
  repeat first
    | with_reducible assumption
    | (with_reducible first | apply Keeps.modTbu)
    | intro

theorem timeSet_keeps {p : Packet} {s : State} {s0 : State} (hk : Keeps s0 s) : DoneKeeps s0 (timeSet p s) := by
  unfold timeSet
  try dsimp only
  repeat first
    | with_reducible assumption
    | (with_reducible first | apply DoneKeeps.reply | apply DoneKeeps.hold | apply DoneKeeps.check)
    | (with_reducible first | apply Keeps.modTbu)
    | split
    | intro

theorem execTimeSet_keeps {p : Packet} {s : State} {s0 : State} (hk : Keeps s0 s) : OutKeeps s0 (execTimeSet p s) := by
  unfold execTimeSet
  try dsimp only
  repeat first
    | with_reducible assumption
    | (with_reducible first | apply OutKeeps.next | apply timeSet_keeps | apply runCommand_keeps)
    | (with_reducible first | apply DoneKeeps.reply | apply DoneKeeps.hold | apply DoneKeeps.check)
    | intro

theorem ppsTime_keeps {d : Nat} {s : State} {s0 : State} (hk : Keeps s0 s) : Keeps s0 (ppsTime d s) := by
  unfold ppsTime
  try dsimp only
  repeat first
    | with_reducible assumption
    | (with_reducible first | apply setTimeAt_keeps | apply Keeps.modTbu)
    | split
    | intro

theorem ppsFrames_keeps {clk : Nat} {s : State} {s0 : State} (hk : Keeps s0 s) : Keeps s0 (ppsFrames clk s) := by
  unfold ppsFrames
  try dsimp only
  repeat first
    | with_reducible assumption
    | (with_reducible first | apply align_keeps | apply arrive_keeps | apply Keeps.modTbu)
    | split
    | intro

theorem execPpsInEdge_keeps {clk : Nat} {s : State} {s0 : State} (hk : Keeps s0 s) : OutKeeps s0 (execPpsInEdge clk s) := by
  unfold execPpsInEdge
  try dsimp only
  repeat first
    | with_reducible assumption
    | (with_reducible first | apply OutKeeps.next | apply ppsFrames_keeps | apply ppsTime_keeps)
    | split

theorem closePpsWindow_keeps {s : State} {s0 : State} (hk : Keeps s0 s) : Keeps s0 (closePpsWindow s) := by
  unfold closePpsWindow
  try dsimp only
  repeat first
    | with_reducible assumption
    | (with_reducible first | apply loseSource_keeps | apply Keeps.modTbu)
    | split
    | intro

theorem execPpsWindowClose_keeps {s : State} {s0 : State} (hk : Keeps s0 s) : OutKeeps s0 (execPpsWindowClose s) := by
  unfold execPpsWindowClose
  try dsimp only
  repeat first
    | with_reducible assumption
    | (with_reducible first | apply OutKeeps.next | apply closePpsWindow_keeps)

theorem ppsEdge_keeps {rise : Bool} {s : State} {s0 : State} (hk : Keeps s0 s) : Keeps s0 (ppsEdge rise s) := by
  unfold ppsEdge
  try dsimp only
  repeat first
    | with_reducible assumption
    | (with_reducible first | apply Keeps.modTbu)
    | split
    | intro

theorem execPpsOutEdge_keeps {rise : Bool} {s : State} {s0 : State} (hk : Keeps s0 s) : OutKeeps s0 (execPpsOutEdge rise s) := by
  unfold execPpsOutEdge
  try dsimp only
  repeat first
    | with_reducible assumption
    | (with_reducible first | apply OutKeeps.next | apply ppsEdge_keeps)

theorem grateReset_keeps {src clk : Nat} {s s0 : State} (hk : Keeps s0 s) : Keeps s0 (grateReset src clk s) := by
  unfold grateReset
  refine hk.each fun h t ht => ?_
  dsimp only
  split
  · exact Keeps.withArrivals (Keeps.modHearth (f := fun x => { x with grt := { x.grt with lastSrc := min x.grt.lastSrc src } }) ht
      fun _ => HearthKeeps.mk rfl id)
  · refine arrive_keeps (ht.modHearth fun x => HearthKeeps.mk ?_ fun g => by simpa [hearthShape] using g)
    rw [List.map_map]
    refine List.map_congr_left fun y _ => ?_
    dsimp only [Function.comp_apply]
    split <;> rfl

theorem endBlank_keeps {h : Nat} {i : Nat} {s : State} {s0 : State} (hk : Keeps s0 s) : Keeps s0 (endBlank h i s) := by
  unfold endBlank
  try dsimp only
  repeat first
    | with_reducible assumption
    | (with_reducible first | apply Keeps.modSec)
    | split
    | exact fun _ => @rfl SecState _
    | intro

theorem execGrtBlankEnd_keeps {h : Nat} {i : Nat} {s : State} {s0 : State} (hk : Keeps s0 s) : OutKeeps s0 (execGrtBlankEnd h i s) := by
  unfold execGrtBlankEnd
  try dsimp only
  repeat first
    | with_reducible assumption
    | (with_reducible first | apply OutKeeps.next | apply endBlank_keeps)

theorem execGrateSync_keeps {p : Packet} {s : State} {s0 : State} (hk : Keeps s0 s) : OutKeeps s0 (execGrateSync p s) := by
  unfold execGrateSync
  try dsimp only
  repeat first
    | with_reducible assumption
    | (with_reducible first | apply OutKeeps.next | apply runCommand_keeps | apply Keeps.modTbu)
    | (with_reducible first | apply DoneKeeps.reply | apply DoneKeeps.hold | apply DoneKeeps.check)
    | intro

theorem grateBoundary_keeps {s : State} {s0 : State} (hk : Keeps s0 s) : Keeps s0 (grateBoundary s) := by
  unfold grateBoundary
  try dsimp only
  repeat first
    | with_reducible assumption
    | (with_reducible first | apply grateReset_keeps | apply Keeps.modTbu)
    | split
    | intro

theorem tickAlign_keeps {clk : Nat} {s : State} {s0 : State} (hk : Keeps s0 s) : Keeps s0 (tickAlign clk s) := by
  unfold tickAlign
  try dsimp only
  repeat first
    | with_reducible assumption
    | (with_reducible first | apply note_keeps | apply Keeps.modTbu)
    | split
    | intro

theorem execSyncNEdge_keeps {clk : Nat} {s : State} {s0 : State} (hk : Keeps s0 s) : OutKeeps s0 (execSyncNEdge clk s) := by
  unfold execSyncNEdge
  try dsimp only
  repeat first
    | with_reducible assumption
    | (with_reducible first | apply OutKeeps.next | apply tickAlign_keeps | apply grateReset_keeps)
    | (with_reducible first | apply align_keeps | apply arrive_keeps | apply Keeps.onlyIf | apply DoneKeeps.reply)
    | (with_reducible first | apply DoneKeeps.hold | apply DoneKeeps.check)
    | split
    | (with_reducible first | apply Keeps.mapHearths)
    | ((with_reducible refine HearthKeeps.mk ?_ ?_) <;> first | rfl | exact fun g => g | exact fun g => by simpa [hearthShape] using g)
    | intro

theorem timeSchedule_keeps {p : Packet} {s : State} {s0 : State} (hk : Keeps s0 s) : DoneKeeps s0 (timeSchedule p s) := by
  unfold timeSchedule
  try dsimp only
  repeat first
    | with_reducible assumption
    | (with_reducible first | apply DoneKeeps.reply | apply DoneKeeps.hold | apply DoneKeeps.check)
    | (with_reducible first | apply Keeps.modTbu)
    | split
    | intro

theorem execTimeSchedule_keeps {p : Packet} {s : State} {s0 : State} (hk : Keeps s0 s) : OutKeeps s0 (execTimeSchedule p s) := by
  unfold execTimeSchedule
  try dsimp only
  repeat first
    | with_reducible assumption
    | (with_reducible first | apply OutKeeps.next | apply timeSchedule_keeps | apply runCommand_keeps)
    | (with_reducible first | apply DoneKeeps.reply | apply DoneKeeps.hold | apply DoneKeeps.check)
    | intro

theorem timeScheduleCancel_keeps {p : Packet} {s : State} {s0 : State} (hk : Keeps s0 s) : DoneKeeps s0 (timeScheduleCancel p s) := by
  unfold timeScheduleCancel
  try dsimp only
  repeat first
    | with_reducible assumption
    | (with_reducible first | apply DoneKeeps.reply | apply DoneKeeps.hold | apply DoneKeeps.check)
    | (with_reducible first | apply Keeps.modTbu)
    | intro

theorem execTimeScheduleCancel_keeps {p : Packet} {s : State} {s0 : State} (hk : Keeps s0 s) : OutKeeps s0 (execTimeScheduleCancel p s) := by
  unfold execTimeScheduleCancel
  try dsimp only
  repeat first
    | with_reducible assumption
    | (with_reducible first | apply OutKeeps.next | apply timeScheduleCancel_keeps | apply runCommand_keeps)
    | (with_reducible first | apply DoneKeeps.reply | apply DoneKeeps.hold | apply DoneKeeps.check)
    | intro

end Sys2Proof.Machine
end

