-- ==== Sys2Proof/Laws/KeepsHif.lean ====
section
/-! SUPPORT. Laws/KeepsHif.lean: every operation of Machine/Hif.lean is among those that `Keeps` describes. -/

namespace Sys2Proof.Machine

theorem modStream_keeps {h : Nat} {i : Nat} {kind : Nat} {f : Stream → Stream} {s : State} {s0 : State} (hk : Keeps s0 s) : Keeps s0 (modStream h i kind f s) := by
  unfold modStream
  try dsimp only
  repeat first
    | with_reducible assumption
    | (with_reducible first | apply Keeps.modSec)
    | split
    | exact fun _ => @rfl SecState _
    | intro

theorem streamEvent_keeps {h : Nat} {i : Nat} {kind : Nat} {state : Nat} {cause : Nat} {s : State} {s0 : State} (hk : Keeps s0 s) : Keeps s0 (streamEvent h i kind state cause s) := by
  unfold streamEvent
  try dsimp only
  repeat first
    | with_reducible assumption
    | (with_reducible first | apply emit_keeps | apply signalPf1_keeps | apply Keeps.onlyIf)
    | intro

theorem stopStream_keeps {cause : Nat} {h : Nat} {i : Nat} {kind : Nat} {s : State} {s0 : State} (hk : Keeps s0 s) : Keeps s0 (stopStream cause h i kind s) := by
  unfold stopStream
  try dsimp only
  repeat first
    | with_reducible assumption
    | (with_reducible first | apply streamEvent_keeps | apply modStream_keeps)
    | split
    | intro

theorem dropStream_keeps {cause : Nat} {h : Nat} {i : Nat} {kind : Nat} {s : State} {s0 : State} (hk : Keeps s0 s) : Keeps s0 (dropStream cause h i kind s) := by
  unfold dropStream
  try dsimp only
  repeat first
    | with_reducible assumption
    | (with_reducible first | apply streamEvent_keeps | apply modStream_keeps)
    | split
    | intro

theorem dropStreams_keeps {cause : Nat} {s : State} {s0 : State} (hk : Keeps s0 s) : Keeps s0 (dropStreams cause s) := by
  unfold dropStreams
  try dsimp only
  repeat first
    | with_reducible assumption
    | (with_reducible first | apply dropStream_keeps | apply Keeps.each)
    | intro

theorem streamConfig_keeps {p : Packet} {s : State} {s0 : State} (hk : Keeps s0 s) : DoneKeeps s0 (streamConfig p s) := by
  unfold streamConfig
  try dsimp only
  repeat first
    | with_reducible assumption
    | (with_reducible first | apply DoneKeeps.reply | apply DoneKeeps.hold | apply DoneKeeps.check)
    | (with_reducible first | apply modStream_keeps)
    | split
    | intro

theorem execStreamConfig_keeps {p : Packet} {s : State} {s0 : State} (hk : Keeps s0 s) : OutKeeps s0 (execStreamConfig p s) := by
  unfold execStreamConfig
  try dsimp only
  repeat first
    | with_reducible assumption
    | (with_reducible first | apply OutKeeps.next | apply streamConfig_keeps | apply runCommand_keeps)
    | (with_reducible first | apply DoneKeeps.reply | apply DoneKeeps.hold | apply DoneKeeps.check)
    | intro

theorem streamControl_keeps {p : Packet} {s : State} {s0 : State} (hk : Keeps s0 s) : DoneKeeps s0 (streamControl p s) := by
  unfold streamControl
  try dsimp only
  repeat first
    | with_reducible assumption
    | (with_reducible first | apply DoneKeeps.reply | apply DoneKeeps.hold | apply DoneKeeps.check)
    | (with_reducible first | apply stopStream_keeps | apply streamEvent_keeps | apply modStream_keeps)
    | split
    | intro

theorem execStreamControl_keeps {p : Packet} {s : State} {s0 : State} (hk : Keeps s0 s) : OutKeeps s0 (execStreamControl p s) := by
  unfold execStreamControl
  try dsimp only
  repeat first
    | with_reducible assumption
    | (with_reducible first | apply OutKeeps.next | apply streamControl_keeps | apply runCommand_keeps)
    | (with_reducible first | apply DoneKeeps.reply | apply DoneKeeps.hold | apply DoneKeeps.check)
    | intro

theorem startDue_keeps {h : Nat} {i : Nat} {kind : Nat} {s : State} {s0 : State} (hk : Keeps s0 s) : Keeps s0 (startDue h i kind s) := by
  unfold startDue
  try dsimp only
  repeat first
    | with_reducible assumption
    | (with_reducible first | apply streamEvent_keeps | apply modStream_keeps)
    | split

theorem execStreamStartTime_keeps {h : Nat} {i : Nat} {kind : Nat} {s : State} {s0 : State} (hk : Keeps s0 s) : OutKeeps s0 (execStreamStartTime h i kind s) := by
  unfold execStreamStartTime
  try dsimp only
  repeat first
    | with_reducible assumption
    | (with_reducible first | apply OutKeeps.next | apply startDue_keeps)

theorem deliverBlock_keeps {h : Nat} {i : Nat} {ws : List Word} {s : State} {s0 : State} (hk : Keeps s0 s) : Keeps s0 (deliverBlock h i ws s) := by
  unfold deliverBlock
  try dsimp only
  repeat first
    | with_reducible assumption
    | (with_reducible first | apply modStream_keeps | apply signalPf1_keeps | apply Keeps.onlyIf)
    | split
    | intro

theorem drainStaging_keeps {h i n : Nat} {s s0 : State} (hk : Keeps s0 s) : Keeps s0 (drainStaging h i n s) := by
  induction n generalizing s with
  | zero => exact hk
  | succ n ih =>
    unfold drainStaging
    dsimp only
    split
    · exact hk
    · split
      · exact ih (modStream_keeps (deliverBlock_keeps hk))
      · exact hk

theorem dropBlock_keeps {h : Nat} {i : Nat} {s : State} {s0 : State} (hk : Keeps s0 s) : Keeps s0 (dropBlock h i s) := by
  unfold dropBlock
  try dsimp only
  repeat first
    | with_reducible assumption
    | (with_reducible first | apply modStream_keeps | apply emit_keeps | apply signalPf1_keeps)
    | intro

theorem execStreamExportBlock_keeps {h : Nat} {i : Nat} {b : BlockIn} {s : State} {s0 : State} (hk : Keeps s0 s) : OutKeeps s0 (execStreamExportBlock h i b s) := by
  unfold execStreamExportBlock
  try dsimp only
  repeat first
    | with_reducible assumption
    | (with_reducible first | apply OutKeeps.next | apply dropBlock_keeps | apply deliverBlock_keeps)
    | (with_reducible first | apply modStream_keeps | apply raiseSource_keeps | apply DoneKeeps.reply)
    | (with_reducible first | apply DoneKeeps.hold | apply DoneKeeps.check)
    | split
    | intro

theorem underrun_keeps {h : Nat} {i : Nat} {s : State} {s0 : State} (hk : Keeps s0 s) : Keeps s0 (underrun h i s) := by
  unfold underrun
  try dsimp only
  repeat first
    | with_reducible assumption
    | (with_reducible first | apply modStream_keeps | apply emit_keeps | apply signalPf1_keeps | apply Keeps.onlyIf)
    | intro

theorem consumeTo_keeps {h : Nat} {i : Nat} {ptr : Nat} {s : State} {s0 : State} (hk : Keeps s0 s) : Keeps s0 (consumeTo h i ptr s) := by
  unfold consumeTo
  try dsimp only
  repeat first
    | with_reducible assumption
    | (with_reducible first | apply modStream_keeps | apply signalPf1_keeps | apply Keeps.onlyIf)
    | intro

theorem execStreamImportBlock_keeps {h : Nat} {i : Nat} {b : BlockIn} {s : State} {s0 : State} (hk : Keeps s0 s) : OutKeeps s0 (execStreamImportBlock h i b s) := by
  unfold execStreamImportBlock
  try dsimp only
  repeat first
    | with_reducible assumption
    | (with_reducible first | apply OutKeeps.next | apply consumeTo_keeps | apply underrun_keeps)
    | (with_reducible first | apply modStream_keeps | apply raiseSource_keeps | apply Keeps.onlyIf)
    | (with_reducible first | apply DoneKeeps.reply | apply DoneKeeps.hold | apply DoneKeeps.check)
    | split
    | intro

theorem execStrHostPtrWrite_keeps {h : Nat} {i : Nat} {kind : Nat} {ptr : Nat} {s : State} {s0 : State} (hk : Keeps s0 s) : OutKeeps s0 (execStrHostPtrWrite h i kind ptr s) := by
  unfold execStrHostPtrWrite
  try dsimp only
  repeat first
    | with_reducible assumption
    | (with_reducible first | apply OutKeeps.next | apply drainStaging_keeps | apply modStream_keeps)
    | (with_reducible first | apply DoneKeeps.reply | apply DoneKeeps.hold | apply DoneKeeps.check)
    | split
    | intro

theorem setLink_keeps {gen : Nat} {width : Nat} {s : State} {s0 : State} (hk : Keeps s0 s) : Keeps s0 (setLink gen width s) := by
  unfold setLink
  try dsimp only
  repeat first
    | with_reducible assumption
    | (with_reducible first | apply emit_keeps | apply Keeps.modHif)
    | split
    | intro

theorem fitStreams_keeps {kind : Nat} {s : State} {s0 : State} (hk : Keeps s0 s) : Keeps s0 (fitStreams kind s) := by
  unfold fitStreams
  try dsimp only
  repeat first
    | with_reducible assumption
    | (with_reducible first | apply stopStream_keeps | apply Keeps.each)
    | split
    | intro

theorem execLinkRetrain_keeps {gen : Nat} {width : Nat} {s : State} {s0 : State} (hk : Keeps s0 s) : OutKeeps s0 (execLinkRetrain gen width s) := by
  unfold execLinkRetrain
  try dsimp only
  repeat first
    | with_reducible assumption
    | (with_reducible first | apply OutKeeps.next | apply fitStreams_keeps | apply setLink_keeps | apply Keeps.modHif)
    | (with_reducible first | apply DoneKeeps.reply | apply DoneKeeps.hold | apply DoneKeeps.check)
    | split
    | intro

theorem writeConfig_keeps {f : Nat} {a : Nat} {v : Word} {s : State} {s0 : State} (hk : Keeps s0 s) : Keeps s0 (writeConfig f a v s) := by
  unfold writeConfig
  try dsimp only
  repeat first
    | with_reducible assumption
    | (with_reducible first | apply Keeps.modHif)
    | split
    | intro

theorem abortCaptures_keeps {s : State} {s0 : State} (hk : Keeps s0 s) : Keeps s0 (abortCaptures s) := by
  unfold abortCaptures
  try dsimp only
  repeat first
    | with_reducible assumption
    | (with_reducible first | apply stopCapture_keeps | apply dropHeld_keeps | apply Keeps.each)
    | intro

theorem resetPf0_keeps {s : State} {s0 : State} (hk : Keeps s0 s) : Keeps s0 (resetPf0 s) := by
  unfold resetPf0
  try dsimp only
  repeat first
    | with_reducible assumption
    | (with_reducible first | apply abortCaptures_keeps | apply dropQueueHeld_keeps | apply modQueue_keeps)
    | (with_reducible first | apply Keeps.modHif | apply Keeps.modCpx | apply Keeps.each)
    | exact fun _ => List.prefix_refl _
    | exact fun _ => List.prefix_append _ _
    | exact fun _ h => h
    | exact fun _ h => kset_kwf _ _ _ h
    | exact fun _ _ => rfl
    | intro

theorem execLinkReset_keeps {cause : Nat} {s : State} {s0 : State} (hk : Keeps s0 s) : OutKeeps s0 (execLinkReset cause s) := by
  unfold execLinkReset
  try dsimp only
  repeat first
    | with_reducible assumption
    | (with_reducible first | apply OutKeeps.next | apply resetPf0_keeps | apply setLink_keeps)
    | (with_reducible first | apply dropStreams_keeps | apply raiseSource_keeps | apply Keeps.modHif)
    | (with_reducible first | apply Keeps.onlyIf | apply DoneKeeps.reply | apply DoneKeeps.hold)
    | (with_reducible first | apply DoneKeeps.check)
    | intro

theorem execPerstNRise_keeps {s : State} {s0 : State} (hk : Keeps s0 s) : OutKeeps s0 (execPerstNRise s) := by
  unfold execPerstNRise
  try dsimp only
  repeat first
    | with_reducible assumption
    | (with_reducible first | apply OutKeeps.next | apply Keeps.modHif | apply DoneKeeps.reply | apply DoneKeeps.hold)
    | (with_reducible first | apply DoneKeeps.check)
    | intro

theorem execFlrPf0_keeps {s : State} {s0 : State} (hk : Keeps s0 s) : OutKeeps s0 (execFlrPf0 s) := by
  unfold execFlrPf0
  try dsimp only
  repeat first
    | with_reducible assumption
    | (with_reducible first | apply OutKeeps.next | apply resetPf0_keeps)

theorem execFlrPf1_keeps {s : State} {s0 : State} (hk : Keeps s0 s) : OutKeeps s0 (execFlrPf1 s) := by
  unfold execFlrPf1
  try dsimp only
  repeat first
    | with_reducible assumption
    | (with_reducible first | apply OutKeeps.next | apply dropStreams_keeps | apply Keeps.modHif)
    | (with_reducible first | apply DoneKeeps.reply | apply DoneKeeps.hold | apply DoneKeeps.check)
    | intro

theorem execFlrVf_keeps {n : Nat} {s : State} {s0 : State} (hk : Keeps s0 s) : OutKeeps s0 (execFlrVf n s) := by
  unfold execFlrVf
  try dsimp only
  repeat first
    | with_reducible assumption
    | (with_reducible first | apply OutKeeps.next | apply Keeps.modHif | apply DoneKeeps.reply | apply DoneKeeps.hold)
    | (with_reducible first | apply DoneKeeps.check)
    | split
    | intro

theorem execD3hotChange_keeps {pf : Nat} {enter : Bool} {s : State} {s0 : State} (hk : Keeps s0 s) : OutKeeps s0 (execD3hotChange pf enter s) := by
  unfold execD3hotChange
  try dsimp only
  repeat first
    | with_reducible assumption
    | (with_reducible first | apply OutKeeps.next | apply drainStaging_keeps | apply Keeps.modHif | apply Keeps.each)
    | (with_reducible first | apply DoneKeeps.reply | apply DoneKeeps.hold | apply DoneKeeps.check)
    | split
    | intro

theorem execDmaReadErr_keeps {d : DmaErr} {s : State} {s0 : State} (hk : Keeps s0 s) : OutKeeps s0 (execDmaReadErr d s) := by
  unfold execDmaReadErr
  try dsimp only
  repeat first
    | with_reducible assumption
    | (with_reducible first | apply OutKeeps.next | apply stopStream_keeps | apply stopCapture_keeps)
    | (with_reducible first | apply endHeldFor_keeps | apply raiseSource_keeps | apply Keeps.modHif)
    | (with_reducible first | apply Keeps.onlyIf | apply DoneKeeps.reply | apply DoneKeeps.hold)
    | (with_reducible first | apply DoneKeeps.check)
    | split
    | intro

theorem modCap_keeps {h : Nat} {f : Cap → Cap} {s : State} {s0 : State} (hk : Keeps s0 s) : Keeps s0 (modCap h f s) := by
  unfold modCap
  try dsimp only
  repeat first
    | with_reducible assumption
    | (with_reducible first | apply Keeps.modHearth)
    | ((with_reducible refine HearthKeeps.mk ?_ ?_) <;> first | rfl | exact fun g => g | exact fun g => by simpa [hearthShape] using g)
    | intro

theorem captureConfig_keeps {p : Packet} {s : State} {s0 : State} (hk : Keeps s0 s) : DoneKeeps s0 (captureConfig p s) := by
  unfold captureConfig
  try dsimp only
  repeat first
    | with_reducible assumption
    | (with_reducible first | apply DoneKeeps.reply | apply DoneKeeps.hold | apply DoneKeeps.check)
    | (with_reducible first | apply modCap_keeps)
    | intro

theorem execCaptureConfig_keeps {p : Packet} {s : State} {s0 : State} (hk : Keeps s0 s) : OutKeeps s0 (execCaptureConfig p s) := by
  unfold execCaptureConfig
  try dsimp only
  repeat first
    | with_reducible assumption
    | (with_reducible first | apply OutKeeps.next | apply captureConfig_keeps | apply runCommand_keeps)
    | (with_reducible first | apply DoneKeeps.reply | apply DoneKeeps.hold | apply DoneKeeps.check)
    | intro

theorem captureArm_keeps {p : Packet} {s : State} {s0 : State} (hk : Keeps s0 s) : DoneKeeps s0 (captureArm p s) := by
  unfold captureArm
  try dsimp only
  repeat first
    | with_reducible assumption
    | (with_reducible first | apply DoneKeeps.reply | apply DoneKeeps.hold | apply DoneKeeps.check)
    | (with_reducible first | apply modCap_keeps | apply stopCapture_keeps | apply endHeldFor_keeps)
    | split
    | intro

theorem execCaptureArm_keeps {p : Packet} {s : State} {s0 : State} (hk : Keeps s0 s) : OutKeeps s0 (execCaptureArm p s) := by
  unfold execCaptureArm
  try dsimp only
  repeat first
    | with_reducible assumption
    | (with_reducible first | apply OutKeeps.next | apply captureArm_keeps | apply runCommand_keeps)
    | (with_reducible first | apply DoneKeeps.reply | apply DoneKeeps.hold | apply DoneKeeps.check)
    | intro

theorem execCaptureQuery_keeps {p : Packet} {s : State} {s0 : State} (hk : Keeps s0 s) : OutKeeps s0 (execCaptureQuery p s) := by
  unfold execCaptureQuery
  try dsimp only
  repeat first
    | with_reducible assumption
    | (with_reducible first | apply OutKeeps.next | apply runCommand_keeps | apply DoneKeeps.reply)
    | (with_reducible first | apply DoneKeeps.hold | apply DoneKeeps.check)
    | intro

theorem execCaptureTrigger_keeps {h : Nat} {clk : Nat} {s : State} {s0 : State} (hk : Keeps s0 s) : OutKeeps s0 (execCaptureTrigger h clk s) := by
  unfold execCaptureTrigger
  try dsimp only
  repeat first
    | with_reducible assumption
    | (with_reducible first | apply OutKeeps.next | apply modCap_keeps | apply DoneKeeps.reply | apply DoneKeeps.hold)
    | (with_reducible first | apply DoneKeeps.check)
    | split
    | intro

theorem execCaptureRecordDone_keeps {h : Nat} {s : State} {s0 : State} (hk : Keeps s0 s) : OutKeeps s0 (execCaptureRecordDone h s) := by
  unfold execCaptureRecordDone
  try dsimp only
  repeat first
    | with_reducible assumption
    | (with_reducible first | apply OutKeeps.next | apply modCap_keeps | apply DoneKeeps.reply | apply DoneKeeps.hold)
    | (with_reducible first | apply DoneKeeps.check)
    | split
    | intro

theorem execCaptureReadoutDone_keeps {h : Nat} {s : State} {s0 : State} (hk : Keeps s0 s) : OutKeeps s0 (execCaptureReadoutDone h s) := by
  unfold execCaptureReadoutDone
  try dsimp only
  repeat first
    | with_reducible assumption
    | (with_reducible first | apply OutKeeps.next | apply modCap_keeps | apply endHeldFor_keeps | apply emit_keeps)
    | (with_reducible first | apply signalPf0_keeps | apply Keeps.onlyIf | apply DoneKeeps.reply)
    | (with_reducible first | apply DoneKeeps.hold | apply DoneKeeps.check)
    | split
    | intro

theorem captureExpiry_keeps {h : Nat} {s : State} {s0 : State} (hk : Keeps s0 s) : Keeps s0 (captureExpiry h s) := by
  unfold captureExpiry
  try dsimp only
  repeat first
    | with_reducible assumption
    | (with_reducible first | apply stopCapture_keeps | apply endHeldFor_keeps)
    | split
    | intro

theorem execCaptureTimeout_keeps {h : Nat} {s : State} {s0 : State} (hk : Keeps s0 s) : OutKeeps s0 (execCaptureTimeout h s) := by
  unfold execCaptureTimeout
  try dsimp only
  repeat first
    | with_reducible assumption
    | (with_reducible first | apply OutKeeps.next | apply captureExpiry_keeps)
    | split

theorem execHifCntClr_keeps {s s0 : State} (hk : Keeps s0 s) : OutKeeps s0 (execHifCntClr s) := by
  unfold execHifCntClr
  refine .next (iteKeeps (hk.mapHearths fun x => HearthKeeps.mk ?_ fun g => by simpa [hearthShape] using g) hk)
  rw [List.map_map]
  rfl

end Sys2Proof.Machine
end

