-- ==== Sys2Proof/Laws/KeepsChains.lean ====
section
/-! SUPPORT. Laws/KeepsChains.lean: every operation of Machine/Chains.lean is among those that `Keeps` describes. -/

namespace Sys2Proof.Machine

theorem modPath_keeps {h : Nat} {p : Nat} {f : Path → Path} {s : State} {s0 : State} (hk : Keeps s0 s) : Keeps s0 (modPath h p f s) := by
  unfold modPath
  try dsimp only
  repeat first
    | with_reducible assumption
    | (with_reducible first | apply Keeps.modHearth)
    | ((with_reducible refine HearthKeeps.mk ?_ ?_) <;> first | rfl | exact fun g => g | exact fun g => by simpa [hearthShape] using g)
    | intro

theorem modBr_keeps {h : Nat} {i : Nat} {k : Nat} {f : DmpBr → DmpBr} {s : State} {s0 : State} (hk : Keeps s0 s) : Keeps s0 (modBr h i k f s) := by
  unfold modBr
  try dsimp only
  repeat first
    | with_reducible assumption
    | (with_reducible first | apply Keeps.modSec)
    | exact fun _ => @rfl SecState _
    | intro

theorem resetTaps_keeps {h : Nat} {p : Nat} {s : State} {s0 : State} (hk : Keeps s0 s) : Keeps s0 (resetTaps h p s) := by
  unfold resetTaps
  try dsimp only
  repeat first
    | with_reducible assumption
    | (with_reducible first | apply modBr_keeps | apply modPath_keeps)
    | split
    | intro

theorem resetChainTaps_keeps {h : Nat} {n : Nat} {s : State} {s0 : State} (hk : Keeps s0 s) : Keeps s0 (resetChainTaps h n s) := by
  unfold resetChainTaps
  try dsimp only
  repeat first
    | with_reducible assumption
    | (with_reducible first | apply resetTaps_keeps | apply Keeps.each)
    | intro

theorem itemCheck_keeps {id : Nat} {s : State} {s0 : State} (hk : Keeps s0 s) : Keeps s0 (itemCheck id s) := by
  unfold itemCheck
  try dsimp only
  repeat first
    | with_reducible assumption
    | (with_reducible first | apply raiseSource_keeps | apply Keeps.onlyIf)
    | intro

theorem modPort_keeps {h : Nat} {c : Nat} {f : Port → Port} {s : State} {s0 : State} (hk : Keeps s0 s) : Keeps s0 (modPort h c f s) := by
  unfold modPort
  try dsimp only
  repeat first
    | with_reducible assumption
    | (with_reducible first | apply Keeps.modHearth)
    | ((with_reducible refine HearthKeeps.mk ?_ ?_) <;> first | rfl | exact fun g => g | exact fun g => by simpa [hearthShape] using g)
    | intro

theorem modRfc_keeps {h : Nat} {f : Rfc → Rfc} {s : State} {s0 : State} (hk : Keeps s0 s) : Keeps s0 (modRfc h f s) := by
  unfold modRfc
  try dsimp only
  repeat first
    | with_reducible assumption
    | (with_reducible first | apply Keeps.modHearth)
    | ((with_reducible refine HearthKeeps.mk ?_ ?_) <;> first | rfl | exact fun g => g | exact fun g => by simpa [hearthShape] using g)
    | intro

theorem refreshGains_keeps {h : Nat} {s : State} {s0 : State} (hk : Keeps s0 s) : Keeps s0 (refreshGains h s) := by
  unfold refreshGains
  try dsimp only
  repeat first
    | with_reducible assumption
    | (with_reducible first | apply modPort_keeps | apply Keeps.each | apply Keeps.modSec)
    | split
    | exact fun _ => @rfl SecState _
    | intro

theorem refreshDg_keeps {h : Nat} {s : State} {s0 : State} (hk : Keeps s0 s) : Keeps s0 (refreshDg h s) := by
  unfold refreshDg
  try dsimp only
  repeat first
    | with_reducible assumption
    | (with_reducible first | apply modPort_keeps | apply emit_keeps | apply Keeps.each | apply Keeps.modSec)
    | split
    | exact fun _ => @rfl SecState _
    | intro

theorem loadChain_keeps {h : Nat} {n : Nat} {s : State} {s0 : State} (hk : Keeps s0 s) : Keeps s0 (loadChain h n s) := by
  unfold loadChain
  try dsimp only
  repeat first
    | with_reducible assumption
    | (with_reducible first | apply modRfc_keeps | apply itemCheck_keeps | apply modLcal_keeps)
    | (with_reducible first | apply modChannels_keeps | apply endHeldFor_keeps | apply Keeps.each)
    | split
    | intro

theorem reloadChain_keeps {h : Nat} {n : Nat} {s : State} {s0 : State} (hk : Keeps s0 s) : Keeps s0 (reloadChain h n s) := by
  unfold reloadChain
  try dsimp only
  repeat first
    | with_reducible assumption
    | (with_reducible first | apply loadChain_keeps | apply refreshGains_keeps | apply resetChainTaps_keeps)

theorem chainsChanged_keeps {h : Nat} {k : Nat} {s : State} {s0 : State} (hk : Keeps s0 s) : Keeps s0 (chainsChanged h k s) := by
  unfold chainsChanged
  try dsimp only
  repeat first
    | with_reducible assumption
    | (with_reducible first | apply reloadChain_keeps | apply loseBand_keeps | apply Keeps.onlyIf)
    | split
    | intro

theorem modSyn_keeps {h : Nat} {n : Nat} {f : Syn → Syn} {s : State} {s0 : State} (hk : Keeps s0 s) : Keeps s0 (modSyn h n f s) := by
  unfold modSyn
  try dsimp only
  repeat first
    | with_reducible assumption
    | (with_reducible first | apply Keeps.modHearth)
    | ((with_reducible refine HearthKeeps.mk ?_ ?_) <;> first | rfl | exact fun g => g | exact fun g => by simpa [hearthShape] using g)
    | intro

theorem setSyn_keeps {h : Nat} {n : Nat} {st : Nat} {s : State} {s0 : State} (hk : Keeps s0 s) : Keeps s0 (setSyn h n st s) := by
  unfold setSyn
  try dsimp only
  repeat first
    | with_reducible assumption
    | (with_reducible first | apply modSyn_keeps | apply emit_keeps)
    | split
    | intro

theorem beginSyn_keeps {h : Nat} {n : Nat} {f : Nat} {s : State} {s0 : State} (hk : Keeps s0 s) : Keeps s0 (beginSyn h n f s) := by
  unfold beginSyn
  try dsimp only
  repeat first
    | with_reducible assumption
    | (with_reducible first | apply setSyn_keeps | apply modSyn_keeps | apply clearSource_keeps | apply Keeps.onlyIf)
    | split
    | (with_reducible first | apply Keeps.withArrivals)
    | intro

theorem synOff_keeps {h : Nat} {n : Nat} {s : State} {s0 : State} (hk : Keeps s0 s) : Keeps s0 (synOff h n s) := by
  unfold synOff
  try dsimp only
  repeat first
    | with_reducible assumption
    | (with_reducible first | apply setSyn_keeps | apply modSyn_keeps | apply clearSource_keeps)
    | intro

theorem applyLos_keeps {h : Nat} {lo : List Nat} {s : State} {s0 : State} (hk : Keeps s0 s) : Keeps s0 (applyLos h lo s) := by
  unfold applyLos
  try dsimp only
  repeat first
    | with_reducible assumption
    | (with_reducible first | apply synOff_keeps | apply beginSyn_keeps | apply chainsChanged_keeps)
    | (with_reducible first | apply modRfc_keeps | apply Keeps.each)
    | split
    | intro

theorem repeatSyn_keeps {h : Nat} {n : Nat} {s : State} {s0 : State} (hk : Keeps s0 s) : Keeps s0 (repeatSyn h n s) := by
  unfold repeatSyn
  try dsimp only
  repeat first
    | with_reducible assumption
    | (with_reducible first | apply beginSyn_keeps | apply chainsChanged_keeps | apply Keeps.each)
    | split
    | intro

end Sys2Proof.Machine
end

