-- ==== Sys2Proof/Laws/KeepsLoops.lean ====
section
/-! SUPPORT. Laws/KeepsLoops.lean: every operation of Machine/Loops.lean is among those that `Keeps` describes. -/

namespace Sys2Proof.Machine

theorem endTune_keeps {h : Nat} {n : Nat} {code : Nat} {result : LoopCfg} {s : State} {s0 : State} (hk : Keeps s0 s) : Keeps s0 (endTune h n code result s) := by
  unfold endTune
  try dsimp only
  repeat first
    | with_reducible assumption
    | (with_reducible first | apply dropTune_keeps | apply endHeldFor_keeps)

theorem tuneDone_keeps {h : Nat} {n : Nat} {t : Tune} {s : State} {s0 : State} (hk : Keeps s0 s) : Keeps s0 (tuneDone h n t s) := by
  unfold tuneDone
  try dsimp only
  repeat first
    | with_reducible assumption
    | (with_reducible first | apply endTune_keeps | apply modLoop_keeps)
    | split
    | intro

theorem loseSlot_keeps {h : Nat} {n : Nat} {cause : Nat} {s : State} {s0 : State} (hk : Keeps s0 s) : Keeps s0 (loseSlot h n cause s) := by
  unfold loseSlot
  try dsimp only
  repeat first
    | with_reducible assumption
    | (with_reducible first | apply modLoop_keeps | apply raiseSource_keeps | apply emit_keeps)
    | split
    | intro

theorem applyLost_keeps {h : Nat} {n : Nat} {s : State} {s0 : State} (hk : Keeps s0 s) : Keeps s0 (applyLost h n s) := by
  unfold applyLost
  try dsimp only
  repeat first
    | with_reducible assumption
    | (with_reducible first | apply setLoop_keeps | apply modLoop_keeps)
    | split
    | intro

theorem startSlots_keeps {h : Nat} {i : Nat} {s : State} {s0 : State} (hk : Keeps s0 s) : Keeps s0 (startSlots h i s) := by
  unfold startSlots
  try dsimp only
  repeat first
    | with_reducible assumption
    | (with_reducible first | apply modLoop_keeps | apply Keeps.each)
    | split
    | intro

theorem bindSlot_keeps {h : Nat} {n : Nat} {b : Option (Nat × Nat)} {s : State} {s0 : State} (hk : Keeps s0 s) : Keeps s0 (bindSlot h n b s) := by
  unfold bindSlot
  try dsimp only
  repeat first
    | with_reducible assumption
    | (with_reducible first | apply modLoop_keeps)
    | split
    | intro

end Sys2Proof.Machine
end

