-- ==== Sys2Proof/Laws/KeepsArrestor.lean ====
section
/-! SUPPORT. Laws/KeepsArrestor.lean: every operation of Machine/Arrestor.lean is among those that `Keeps` describes. -/

namespace Sys2Proof.Machine

theorem modSpa_keeps {h : Nat} {i : Nat} {f : Spa → Spa} {s : State} {s0 : State} (hk : Keeps s0 s) : Keeps s0 (modSpa h i f s) := by
  unfold modSpa
  try dsimp only
  repeat first
    | with_reducible assumption
    | (with_reducible first | apply Keeps.modSec)
    | exact fun _ => @rfl SecState _
    | intro

theorem updateGates_keeps {clk : Nat} {h : Nat} {i : Nat} {s : State} {s0 : State} (hk : Keeps s0 s) : Keeps s0 (updateGates clk h i s) := by
  unfold updateGates
  try dsimp only
  repeat first
    | with_reducible assumption
    | (with_reducible first | apply modSpa_keeps)
    | split
    | intro

theorem evalGates_keeps {clk : Nat} {s : State} {s0 : State} (hk : Keeps s0 s) : Keeps s0 (evalGates clk s) := by
  unfold evalGates
  try dsimp only
  repeat first
    | with_reducible assumption
    | (with_reducible first | apply updateGates_keeps | apply Keeps.each)
    | intro

theorem shutGate_keeps {clk : Nat} {h : Nat} {i : Nat} {s : State} {s0 : State} (hk : Keeps s0 s) : Keeps s0 (shutGate clk h i s) := by
  unfold shutGate
  try dsimp only
  repeat first
    | with_reducible assumption
    | (with_reducible first | apply modSpa_keeps)
    | split
    | intro

theorem restartDuty_keeps {clk : Nat} {s : State} {s0 : State} (hk : Keeps s0 s) : Keeps s0 (restartDuty clk s) := by
  unfold restartDuty
  try dsimp only
  repeat first
    | with_reducible assumption
    | (with_reducible first | apply evalGates_keeps | apply modSpa_keeps | apply Keeps.each)
    | split
    | intro

theorem driveTdd_keeps {h : Nat} {clk : Nat} {s : State} {s0 : State} (hk : Keeps s0 s) : Keeps s0 (driveTdd h clk s) := by
  unfold driveTdd
  try dsimp only
  repeat first
    | with_reducible assumption
    | (with_reducible first | apply Keeps.each | apply Keeps.modHearth)
    | split
    | ((with_reducible refine HearthKeeps.mk ?_ ?_) <;> first | rfl | exact fun g => g | exact fun g => by simpa [hearthShape] using g)
    | intro

theorem runTddLines_keeps {h : Nat} {s : State} {s0 : State} (hk : Keeps s0 s) : Keeps s0 (runTddLines h s) := by
  unfold runTddLines
  try dsimp only
  repeat first
    | with_reducible assumption
    | (with_reducible first | apply driveTdd_keeps | apply Keeps.each)
    | split
    | intro

theorem followPattern_keeps {h : Nat} {n : Nat} {clk : Nat} {s : State} {s0 : State} (hk : Keeps s0 s) : Keeps s0 (followPattern h n clk s) := by
  unfold followPattern
  try dsimp only
  repeat first
    | with_reducible assumption
    | (with_reducible first | apply updateGates_keeps | apply modSpa_keeps | apply Keeps.each)
    | split
    | intro

theorem followPatterns_keeps {clk : Nat} {s : State} {s0 : State} (hk : Keeps s0 s) : Keeps s0 (followPatterns clk s) := by
  unfold followPatterns
  try dsimp only
  repeat first
    | with_reducible assumption
    | (with_reducible first | apply followPattern_keeps | apply Keeps.each)
    | intro

theorem execTddPatternEdge_keeps {h : Nat} {n : Nat} {clk : Nat} {s : State} {s0 : State} (hk : Keeps s0 s) : OutKeeps s0 (execTddPatternEdge h n clk s) := by
  unfold execTddPatternEdge
  try dsimp only
  repeat first
    | with_reducible assumption
    | (with_reducible first | apply OutKeeps.next | apply followPattern_keeps)
    | split

theorem clearQuench_keeps {h : Nat} {i : Nat} {s : State} {s0 : State} (hk : Keeps s0 s) : Keeps s0 (clearQuench h i s) := by
  unfold clearQuench
  try dsimp only
  repeat first
    | with_reducible assumption
    | (with_reducible first | apply modSpa_keeps)
    | intro

theorem stopQuenched_keeps {h : Nat} {i : Nat} {s : State} {s0 : State} (hk : Keeps s0 s) : Keeps s0 (stopQuenched h i s) := by
  unfold stopQuenched
  try dsimp only
  repeat first
    | with_reducible assumption
    | (with_reducible first | apply clearQuench_keeps | apply setSec_keeps | apply Keeps.modSec)
    | exact fun _ => @rfl SecState _
    | intro

theorem applyQuench_keeps {latch : Bool} {reason : Nat} {detail : Nat} {h : Nat} {i : Nat} {s : State} {s0 : State} (hk : Keeps s0 s) : Keeps s0 (applyQuench latch reason detail h i s) := by
  unfold applyQuench
  try dsimp only
  repeat first
    | with_reducible assumption
    | (with_reducible first | apply stopQuenched_keeps | apply updateGates_keeps | apply setSec_keeps)
    | (with_reducible first | apply emit_keeps | apply Keeps.onlyIf | apply Keeps.modSec)
    | split
    | exact fun _ => @rfl SecState _
    | intro

theorem quench_keeps {reason : Nat} {detail : Nat} {h : Nat} {i : Nat} {s : State} {s0 : State} (hk : Keeps s0 s) : Keeps s0 (quench reason detail h i s) := by
  unfold quench
  try dsimp only
  repeat first
    | with_reducible assumption
    | (with_reducible first | apply applyQuench_keeps | apply updateGates_keeps | apply modSpa_keeps)
    | split
    | intro

theorem quenchLatched_keeps {reason : Nat} {detail : Nat} {h : Nat} {i : Nat} {s : State} {s0 : State} (hk : Keeps s0 s) : Keeps s0 (quenchLatched reason detail h i s) := by
  unfold quenchLatched
  try dsimp only
  repeat first
    | with_reducible assumption
    | (with_reducible first | apply applyQuench_keeps)
    | split

theorem enterRamping_keeps {h : Nat} {i : Nat} {s : State} {s0 : State} (hk : Keeps s0 s) : Keeps s0 (enterRamping h i s) := by
  unfold enterRamping
  try dsimp only
  repeat first
    | with_reducible assumption
    | (with_reducible first | apply updateGates_keeps | apply startSlots_keeps | apply setSec_keeps)
    | (with_reducible first | apply Keeps.modSec)
    | exact fun _ => @rfl SecState _
    | intro

theorem quenchedToReady_keeps {h : Nat} {i : Nat} {s : State} {s0 : State} (hk : Keeps s0 s) : Keeps s0 (quenchedToReady h i s) := by
  unfold quenchedToReady
  try dsimp only
  repeat first
    | with_reducible assumption
    | (with_reducible first | apply setSec_keeps | apply Keeps.modSec)
    | exact fun _ => @rfl SecState _
    | intro

theorem retryEvent_keeps {h : Nat} {i : Nat} {outcome : Nat} {s : State} {s0 : State} (hk : Keeps s0 s) : Keeps s0 (retryEvent h i outcome s) := by
  unfold retryEvent
  try dsimp only
  repeat first
    | with_reducible assumption
    | (with_reducible first | apply emit_keeps)

theorem retryRamp_keeps {h : Nat} {i : Nat} {note : Bool} {s : State} {s0 : State} (hk : Keeps s0 s) : Keeps s0 (retryRamp h i note s) := by
  unfold retryRamp
  try dsimp only
  repeat first
    | with_reducible assumption
    | (with_reducible first | apply retryEvent_keeps | apply enterRamping_keeps | apply modSpa_keeps)
    | (with_reducible first | apply note_keeps)
    | split
    | intro

theorem retry_keeps {h : Nat} {i : Nat} {s : State} {s0 : State} (hk : Keeps s0 s) : Keeps s0 (retry h i s) := by
  unfold retry
  try dsimp only
  repeat first
    | with_reducible assumption
    | (with_reducible first | apply retryRamp_keeps | apply retryEvent_keeps | apply quenchedToReady_keeps)
    | (with_reducible first | apply modSpa_keeps)
    | split
    | intro

theorem retryDue_keeps {h : Nat} {i : Nat} {s : State} {s0 : State} (hk : Keeps s0 s) : Keeps s0 (retryDue h i s) := by
  unfold retryDue
  try dsimp only
  repeat first
    | with_reducible assumption
    | (with_reducible first | apply retry_keeps)
    | split
    | intro

theorem execQuenchRetry_keeps {h : Nat} {i : Nat} {s : State} {s0 : State} (hk : Keeps s0 s) : OutKeeps s0 (execQuenchRetry h i s) := by
  unfold execQuenchRetry
  try dsimp only
  repeat first
    | with_reducible assumption
    | (with_reducible first | apply OutKeeps.next | apply retryDue_keeps)

theorem lockWaiters_keeps {h : Nat} {s : State} {s0 : State} (hk : Keeps s0 s) : Keeps s0 (lockWaiters h s) := by
  unfold lockWaiters
  try dsimp only
  repeat first
    | with_reducible assumption
    | (with_reducible first | apply retryRamp_keeps | apply quenchedToReady_keeps | apply Keeps.each)
    | split
    | intro

theorem historyDue_keeps {h : Nat} {i : Nat} {s : State} {s0 : State} (hk : Keeps s0 s) : Keeps s0 (historyDue h i s) := by
  unfold historyDue
  try dsimp only
  repeat first
    | with_reducible assumption
    | (with_reducible first | apply modSpa_keeps)
    | split
    | intro

theorem execQuenchHistoryReset_keeps {h : Nat} {i : Nat} {s : State} {s0 : State} (hk : Keeps s0 s) : OutKeeps s0 (execQuenchHistoryReset h i s) := by
  unfold execQuenchHistoryReset
  try dsimp only
  repeat first
    | with_reducible assumption
    | (with_reducible first | apply OutKeeps.next | apply historyDue_keeps)

theorem switchMismatch_keeps {h : Nat} {c : Nat} {s : State} {s0 : State} (hk : Keeps s0 s) : Keeps s0 (switchMismatch h c s) := by
  unfold switchMismatch
  try dsimp only
  repeat first
    | with_reducible assumption
    | (with_reducible first | apply quench_keeps | apply raiseSource_keeps | apply Keeps.each)
    | intro

theorem execSwitchMismatch_keeps {h : Nat} {x : PinChange} {s : State} {s0 : State} (hk : Keeps s0 s) : OutKeeps s0 (execSwitchMismatch h x s) := by
  unfold execSwitchMismatch
  try dsimp only
  repeat first
    | with_reducible assumption
    | (with_reducible first | apply OutKeeps.next | apply shutGate_keeps | apply updateGates_keeps)
    | (with_reducible first | apply arrive_keeps | apply Keeps.each | apply DoneKeeps.reply | apply DoneKeeps.hold)
    | (with_reducible first | apply DoneKeeps.check)
    | split
    | intro

theorem dutyGate_keeps {h : Nat} {i : Nat} {d : Nat} {count : Nat} {s : State} {s0 : State} (hk : Keeps s0 s) : Keeps s0 (dutyGate h i d count s) := by
  unfold dutyGate
  try dsimp only
  repeat first
    | with_reducible assumption
    | (with_reducible first | apply quench_keeps | apply emit_keeps)

theorem execDutyLimitReached_keeps {h : Nat} {i : Nat} {d : Nat} {s : State} {s0 : State} (hk : Keeps s0 s) : OutKeeps s0 (execDutyLimitReached h i d s) := by
  unfold execDutyLimitReached
  try dsimp only
  repeat first
    | with_reducible assumption
    | (with_reducible first | apply OutKeeps.next | apply dutyGate_keeps | apply updateGates_keeps)
    | (with_reducible first | apply modSpa_keeps | apply arrive_keeps | apply DoneKeeps.reply | apply DoneKeeps.hold)
    | (with_reducible first | apply DoneKeeps.check)
    | split
    | intro

theorem reloadLimits_keeps {h : Nat} {s : State} {s0 : State} (hk : Keeps s0 s) : Keeps s0 (reloadLimits h s) := by
  unfold reloadLimits
  try dsimp only
  repeat first
    | with_reducible assumption
    | (with_reducible first | apply Keeps.modHearth)
    | ((with_reducible refine HearthKeeps.mk ?_ ?_) <;> first | rfl | exact fun g => g | exact fun g => by simpa [hearthShape] using g)
    | intro

theorem execLimitCopyReload_keeps {h : Nat} {s : State} {s0 : State} (hk : Keeps s0 s) : OutKeeps s0 (execLimitCopyReload h s) := by
  unfold execLimitCopyReload
  try dsimp only
  repeat first
    | with_reducible assumption
    | (with_reducible first | apply OutKeeps.next | apply reloadLimits_keeps)
    | split

theorem limitsDue_keeps {h : Nat} {s : State} {s0 : State} (hk : Keeps s0 s) : Keeps s0 (limitsDue h s) := by
  unfold limitsDue
  try dsimp only
  repeat first
    | with_reducible assumption
    | (with_reducible first | apply reloadLimits_keeps)
    | split

theorem updateFloor_keeps {h : Nat} {i : Nat} {s : State} {s0 : State} (hk : Keeps s0 s) : Keeps s0 (updateFloor h i s) := by
  unfold updateFloor
  try dsimp only
  repeat first
    | with_reducible assumption
    | (with_reducible first | apply modSpa_keeps | apply emit_keeps)
    | split
    | intro

theorem squelchNow_keeps {h : Nat} {i : Nat} {s : State} {s0 : State} (hk : Keeps s0 s) : Keeps s0 (squelchNow h i s) := by
  unfold squelchNow
  try dsimp only
  repeat first
    | with_reducible assumption
    | (with_reducible first | apply modSpa_keeps)
    | split
    | intro

theorem setIdle_keeps {h : Nat} {i : Nat} {idle : Bool} {s : State} {s0 : State} (hk : Keeps s0 s) : Keeps s0 (setIdle h i idle s) := by
  unfold setIdle
  try dsimp only
  repeat first
    | with_reducible assumption
    | (with_reducible first | apply squelchNow_keeps | apply modSpa_keeps | apply emit_keeps)
    | split
    | intro

theorem takeWindow_keeps {h : Nat} {i : Nat} {b : Nat} {s : State} {s0 : State} (hk : Keeps s0 s) : Keeps s0 (takeWindow h i b s) := by
  unfold takeWindow
  try dsimp only
  repeat first
    | with_reducible assumption
    | (with_reducible first | apply setIdle_keeps | apply updateFloor_keeps | apply modSpa_keeps)
    | split
    | intro

theorem windowDue_keeps {h : Nat} {i : Nat} {b : Nat} {first : Nat} {s : State} {s0 : State} (hk : Keeps s0 s) : Keeps s0 (windowDue h i b first s) := by
  unfold windowDue
  try dsimp only
  repeat first
    | with_reducible assumption
    | (with_reducible first | apply modSpa_keeps | apply arrive_keeps)
    | split
    | intro

theorem execSquelchWindow_keeps {h : Nat} {i : Nat} {b : Nat} {first : Nat} {s : State} {s0 : State} (hk : Keeps s0 s) : OutKeeps s0 (execSquelchWindow h i b first s) := by
  unfold execSquelchWindow
  try dsimp only
  repeat first
    | with_reducible assumption
    | (with_reducible first | apply OutKeeps.next | apply windowDue_keeps)

theorem uplinkIdle_keeps {h : Nat} {i : Nat} {s : State} {s0 : State} (hk : Keeps s0 s) : Keeps s0 (uplinkIdle h i s) := by
  unfold uplinkIdle
  try dsimp only
  repeat first
    | with_reducible assumption
    | (with_reducible first | apply setIdle_keeps)
    | split

theorem execUplinkIdle_keeps {h : Nat} {i : Nat} {s : State} {s0 : State} (hk : Keeps s0 s) : OutKeeps s0 (execUplinkIdle h i s) := by
  unfold execUplinkIdle
  try dsimp only
  repeat first
    | with_reducible assumption
    | (with_reducible first | apply OutKeeps.next | apply uplinkIdle_keeps)

theorem endSubperiod_keeps {h : Nat} {i : Nat} {s : State} {s0 : State} (hk : Keeps s0 s) : Keeps s0 (endSubperiod h i s) := by
  unfold endSubperiod
  try dsimp only
  repeat first
    | with_reducible assumption
    | (with_reducible first | apply updateFloor_keeps | apply modSpa_keeps)
    | split
    | intro

theorem execNoiseFloorSubperiod_keeps {h : Nat} {i : Nat} {s : State} {s0 : State} (hk : Keeps s0 s) : OutKeeps s0 (execNoiseFloorSubperiod h i s) := by
  unfold execNoiseFloorSubperiod
  try dsimp only
  repeat first
    | with_reducible assumption
    | (with_reducible first | apply OutKeeps.next | apply endSubperiod_keeps)

theorem squelchTick_keeps {h : Nat} {i : Nat} {s : State} {s0 : State} (hk : Keeps s0 s) : Keeps s0 (squelchTick h i s) := by
  unfold squelchTick
  try dsimp only
  repeat first
    | with_reducible assumption
    | (with_reducible first | apply uplinkIdle_keeps | apply squelchNow_keeps | apply updateFloor_keeps)
    | (with_reducible first | apply Keeps.onlyIf)
    | intro

theorem portPower_keeps {tx : List LevelIn} {h : Nat} {s : State} {s0 : State} (hk : Keeps s0 s) : Keeps s0 (portPower tx h s) := by
  unfold portPower
  try dsimp only
  repeat first
    | with_reducible assumption
    | (with_reducible first | apply quench_keeps | apply modSpa_keeps | apply modPort_keeps | apply Keeps.each)
    | split
    | intro

theorem networkCeil_keeps {h : Nat} {i : Nat} {s : State} {s0 : State} (hk : Keeps s0 s) : Keeps s0 (networkCeil h i s) := by
  unfold networkCeil
  try dsimp only
  repeat first
    | with_reducible assumption
    | (with_reducible first | apply modSpa_keeps)
    | split
    | intro

theorem spaConfig_keeps {p : Packet} {s : State} {s0 : State} (hk : Keeps s0 s) : DoneKeeps s0 (spaConfig p s) := by
  unfold spaConfig
  try dsimp only
  repeat first
    | with_reducible assumption
    | (with_reducible first | apply DoneKeeps.reply | apply DoneKeeps.hold | apply DoneKeeps.check)
    | (with_reducible first | apply modSpa_keeps)
    | intro

theorem execSpaConfig_keeps {p : Packet} {s : State} {s0 : State} (hk : Keeps s0 s) : OutKeeps s0 (execSpaConfig p s) := by
  unfold execSpaConfig
  try dsimp only
  repeat first
    | with_reducible assumption
    | (with_reducible first | apply OutKeeps.next | apply spaConfig_keeps | apply runCommand_keeps)
    | (with_reducible first | apply DoneKeeps.reply | apply DoneKeeps.hold | apply DoneKeeps.check)
    | intro

theorem sectionQuery_keeps {words : State → Nat → Nat → List Word} {p : Packet} {s : State} {s0 : State} (hk : Keeps s0 s) : DoneKeeps s0 (sectionQuery words p s) := by
  unfold sectionQuery
  try dsimp only
  repeat first
    | with_reducible assumption
    | (with_reducible first | apply DoneKeeps.reply | apply DoneKeeps.hold | apply DoneKeeps.check)
    | intro

theorem execSpaQuery_keeps {p : Packet} {s : State} {s0 : State} (hk : Keeps s0 s) : OutKeeps s0 (execSpaQuery p s) := by
  unfold execSpaQuery
  try dsimp only
  repeat first
    | with_reducible assumption
    | (with_reducible first | apply OutKeeps.next | apply sectionQuery_keeps | apply runCommand_keeps)
    | (with_reducible first | apply DoneKeeps.reply | apply DoneKeeps.hold | apply DoneKeeps.check)
    | intro

theorem spaHistoryClear_keeps {p : Packet} {s : State} {s0 : State} (hk : Keeps s0 s) : DoneKeeps s0 (spaHistoryClear p s) := by
  unfold spaHistoryClear
  try dsimp only
  repeat first
    | with_reducible assumption
    | (with_reducible first | apply DoneKeeps.reply | apply DoneKeeps.hold | apply DoneKeeps.check)
    | (with_reducible first | apply modSpa_keeps)
    | intro

theorem execSpaHistoryClear_keeps {p : Packet} {s : State} {s0 : State} (hk : Keeps s0 s) : OutKeeps s0 (execSpaHistoryClear p s) := by
  unfold execSpaHistoryClear
  try dsimp only
  repeat first
    | with_reducible assumption
    | (with_reducible first | apply OutKeeps.next | apply spaHistoryClear_keeps | apply runCommand_keeps)
    | (with_reducible first | apply DoneKeeps.reply | apply DoneKeeps.hold | apply DoneKeeps.check)
    | intro

theorem execSpaCntClr_keeps {h : Nat} {s : State} {s0 : State} (hk : Keeps s0 s) : OutKeeps s0 (execSpaCntClr h s) := by
  unfold execSpaCntClr
  try dsimp only
  repeat first
    | with_reducible assumption
    | (with_reducible first | apply OutKeeps.next | apply Keeps.each | apply Keeps.modSec | apply DoneKeeps.reply)
    | (with_reducible first | apply DoneKeeps.hold | apply DoneKeeps.check)
    | split
    | exact fun _ => @rfl SecState _
    | intro

end Sys2Proof.Machine
end

