-- ==== Sys2Proof/Laws/KeepsAirMonitor.lean ====
section
/-! SUPPORT. Laws/KeepsAirMonitor.lean: every operation of Machine/AirMonitor.lean is among those that `Keeps` describes. -/

namespace Sys2Proof.Machine

theorem newCellEvent_keeps {h n : Nat} {c : Cell} {s s0 : State} (hk : Keeps s0 s) : Keeps s0 (newCellEvent h n c s) := emit_keeps hk

theorem enterCell_keeps {h : Nat} {visit : Bool} {caseC : Bool} {v : VisitIn} {r : CellIn} {s : State} {s0 : State} (hk : Keeps s0 s) : Keeps s0 (enterCell h visit caseC v r s) := by
  unfold enterCell
  try dsimp only
  repeat first
    | with_reducible assumption
    | (with_reducible first | apply newCellEvent_keeps | apply modAir_keeps | apply emit_keeps)
    | split
    | intro

theorem missCells_keeps {h : Nat} {visit : Bool} {v : VisitIn} {rats : Nat → Bool} {s : State} {s0 : State} (hk : Keeps s0 s) : Keeps s0 (missCells h visit v rats s) := by
  unfold missCells
  try dsimp only
  repeat first
    | with_reducible assumption
    | (with_reducible first | apply loseCell_keeps | apply modAir_keeps | apply Keeps.each)
    | split
    | intro

theorem passCell_keeps {h : Nat} {v : VisitIn} {s : State} {s0 : State} (hk : Keeps s0 s) : Keeps s0 (passCell h v s) := by
  unfold passCell
  try dsimp only
  repeat first
    | with_reducible assumption
    | (with_reducible first | apply Keeps.modTbu)
    | split
    | intro

theorem tuneAir_keeps {h : Nat} {n : Nat} {chain : Nat} {freq : Nat} {rat : Nat} {s : State} {s0 : State} (hk : Keeps s0 s) : Keeps s0 (tuneAir h n chain freq rat s) := by
  unfold tuneAir
  try dsimp only
  repeat first
    | with_reducible assumption
    | (with_reducible first | apply modChannels_keeps)
    | split
    | intro

theorem startVisit_keeps {h : Nat} {v : VisitIn} {s : State} {s0 : State} (hk : Keeps s0 s) : Keeps s0 (startVisit h v s) := by
  unfold startVisit
  try dsimp only
  repeat first
    | with_reducible assumption
    | (with_reducible first | apply tuneAir_keeps | apply modAir_keeps)
    | split
    | intro

theorem execAirVisit_keeps {h : Nat} {x : VisitIn} {s : State} {s0 : State} (hk : Keeps s0 s) : OutKeeps s0 (execAirVisit h x s) := by
  unfold execAirVisit
  try dsimp only
  repeat first
    | with_reducible assumption
    | (with_reducible first | apply OutKeeps.next | apply startVisit_keeps | apply passCell_keeps)
    | (with_reducible first | apply missCells_keeps | apply enterCell_keeps | apply reportStranger_keeps)
    | (with_reducible first | apply retrack_keeps | apply modAir_keeps | apply Keeps.each | apply DoneKeeps.reply)
    | (with_reducible first | apply DoneKeeps.hold | apply DoneKeeps.check)
    | split
    | intro

theorem execAirScanDwell_keeps {h : Nat} {x : DwellIn} {s : State} {s0 : State} (hk : Keeps s0 s) : OutKeeps s0 (execAirScanDwell h x s) := by
  unfold execAirScanDwell
  try dsimp only
  repeat first
    | with_reducible assumption
    | (with_reducible first | apply OutKeeps.next | apply tuneAir_keeps | apply passCell_keeps)
    | (with_reducible first | apply missCells_keeps | apply enterCell_keeps | apply retrack_keeps)
    | (with_reducible first | apply modAir_keeps | apply Keeps.each | apply DoneKeeps.reply | apply DoneKeeps.hold)
    | (with_reducible first | apply DoneKeeps.check)
    | split
    | intro

theorem judgeFrame_keeps {h : Nat} {i : Nat} {d : SecDef} {s : State} {s0 : State} (hk : Keeps s0 s) : Keeps s0 (judgeFrame h i d s) := by
  unfold judgeFrame
  try dsimp only
  repeat first
    | with_reducible assumption
    | (with_reducible first | apply modAirSec_keeps | apply emit_keeps)
    | split
    | intro

theorem dropFrame_keeps {h : Nat} {i : Nat} {s : State} {s0 : State} (hk : Keeps s0 s) : Keeps s0 (dropFrame h i s) := by
  unfold dropFrame
  try dsimp only
  repeat first
    | with_reducible assumption
    | (with_reducible first | apply modAirSec_keeps)
    | intro

theorem watchFrame_keeps {h : Nat} {i : Nat} {s : State} {s0 : State} (hk : Keeps s0 s) : Keeps s0 (watchFrame h i s) := by
  unfold watchFrame
  try dsimp only
  repeat first
    | with_reducible assumption
    | (with_reducible first | apply dropFrame_keeps | apply judgeFrame_keeps | apply Keeps.onlyIf)
    | split
    | intro

theorem watchDue_keeps {h : Nat} {i : Nat} {s : State} {s0 : State} (hk : Keeps s0 s) : Keeps s0 (watchDue h i s) := by
  unfold watchDue
  try dsimp only
  repeat first
    | with_reducible assumption
    | (with_reducible first | apply quench_keeps | apply modAirSec_keeps)
    | split
    | intro

theorem airConfig_keeps {p : Packet} {s : State} {s0 : State} (hk : Keeps s0 s) : DoneKeeps s0 (airConfig p s) := by
  unfold airConfig
  try dsimp only
  repeat first
    | with_reducible assumption
    | (with_reducible first | apply DoneKeeps.reply | apply DoneKeeps.hold | apply DoneKeeps.check)
    | (with_reducible first | apply retrack_keeps | apply Keeps.each | apply Keeps.modHearth)
    | split
    | ((with_reducible refine HearthKeeps.mk ?_ ?_) <;> first | rfl | exact fun g => g | exact fun g => by simpa [hearthShape] using g)
    | intro

theorem execAirConfig_keeps {p : Packet} {s : State} {s0 : State} (hk : Keeps s0 s) : OutKeeps s0 (execAirConfig p s) := by
  unfold execAirConfig
  try dsimp only
  repeat first
    | with_reducible assumption
    | (with_reducible first | apply OutKeeps.next | apply airConfig_keeps | apply runCommand_keeps)
    | (with_reducible first | apply DoneKeeps.reply | apply DoneKeeps.hold | apply DoneKeeps.check)
    | intro

theorem airScanRange_keeps {p : Packet} {s : State} {s0 : State} (hk : Keeps s0 s) : DoneKeeps s0 (airScanRange p s) := by
  unfold airScanRange
  try dsimp only
  repeat first
    | with_reducible assumption
    | (with_reducible first | apply DoneKeeps.reply | apply DoneKeeps.hold | apply DoneKeeps.check)
    | (with_reducible first | apply modAir_keeps | apply Keeps.each)
    | intro

theorem execAirScanRange_keeps {p : Packet} {s : State} {s0 : State} (hk : Keeps s0 s) : OutKeeps s0 (execAirScanRange p s) := by
  unfold execAirScanRange
  try dsimp only
  repeat first
    | with_reducible assumption
    | (with_reducible first | apply OutKeeps.next | apply airScanRange_keeps | apply runCommand_keeps)
    | (with_reducible first | apply DoneKeeps.reply | apply DoneKeeps.hold | apply DoneKeeps.check)
    | intro

theorem airSectionConfig_keeps {p : Packet} {s : State} {s0 : State} (hk : Keeps s0 s) : DoneKeeps s0 (airSectionConfig p s) := by
  unfold airSectionConfig
  try dsimp only
  repeat first
    | with_reducible assumption
    | (with_reducible first | apply DoneKeeps.reply | apply DoneKeeps.hold | apply DoneKeeps.check)
    | (with_reducible first | apply retrack_keeps | apply modAirSec_keeps)
    | intro

theorem execAirSectionConfig_keeps {p : Packet} {s : State} {s0 : State} (hk : Keeps s0 s) : OutKeeps s0 (execAirSectionConfig p s) := by
  unfold execAirSectionConfig
  try dsimp only
  repeat first
    | with_reducible assumption
    | (with_reducible first | apply OutKeeps.next | apply airSectionConfig_keeps | apply runCommand_keeps)
    | (with_reducible first | apply DoneKeeps.reply | apply DoneKeeps.hold | apply DoneKeeps.check)
    | intro

theorem airCellRead_keeps {p : Packet} {s : State} {s0 : State} (hk : Keeps s0 s) : DoneKeeps s0 (airCellRead p s) := by
  unfold airCellRead
  try dsimp only
  repeat first
    | with_reducible assumption
    | (with_reducible first | apply DoneKeeps.reply | apply DoneKeeps.hold | apply DoneKeeps.check)
    | split
    | intro

theorem execAirCellRead_keeps {p : Packet} {s : State} {s0 : State} (hk : Keeps s0 s) : OutKeeps s0 (execAirCellRead p s) := by
  unfold execAirCellRead
  try dsimp only
  repeat first
    | with_reducible assumption
    | (with_reducible first | apply OutKeeps.next | apply airCellRead_keeps | apply runCommand_keeps)
    | (with_reducible first | apply DoneKeeps.reply | apply DoneKeeps.hold | apply DoneKeeps.check)
    | intro

theorem airStrangerRead_keeps {p : Packet} {s : State} {s0 : State} (hk : Keeps s0 s) : DoneKeeps s0 (airStrangerRead p s) := by
  unfold airStrangerRead
  try dsimp only
  repeat first
    | with_reducible assumption
    | (with_reducible first | apply DoneKeeps.reply | apply DoneKeeps.hold | apply DoneKeeps.check)
    | (with_reducible first | apply modAir_keeps | apply Keeps.onlyIf)
    | intro

theorem execAirStrangerRead_keeps {p : Packet} {s : State} {s0 : State} (hk : Keeps s0 s) : OutKeeps s0 (execAirStrangerRead p s) := by
  unfold execAirStrangerRead
  try dsimp only
  repeat first
    | with_reducible assumption
    | (with_reducible first | apply OutKeeps.next | apply airStrangerRead_keeps | apply runCommand_keeps)
    | (with_reducible first | apply DoneKeeps.reply | apply DoneKeeps.hold | apply DoneKeeps.check)
    | intro

theorem execAirCntClr_keeps {h : Nat} {s : State} {s0 : State} (hk : Keeps s0 s) : OutKeeps s0 (execAirCntClr h s) := by
  unfold execAirCntClr
  try dsimp only
  repeat first
    | with_reducible assumption
    | (with_reducible first | apply OutKeeps.next | apply modAirSec_keeps | apply Keeps.each | apply DoneKeeps.reply)
    | (with_reducible first | apply DoneKeeps.hold | apply DoneKeeps.check)
    | split
    | intro

end Sys2Proof.Machine
end

