-- ==== Sys2Proof/Laws/KeepsAshLog.lean ====
section
/-! SUPPORT. Laws/KeepsAshLog.lean: every operation of Machine/AshLog.lean is among those that `Keeps` describes. -/

namespace Sys2Proof.Machine

theorem writeEntry_keeps {e : LogEntry} {s : State} {s0 : State} (hk : Keeps s0 s) : Keeps s0 (writeEntry e s) := by
  unfold writeEntry
  try dsimp only
  repeat first
    | with_reducible assumption
    | (with_reducible first | apply Keeps.modAlog)
    | split
    | intro

theorem setBucket_keeps {code : Nat} {b : Bucket} {s : State} {s0 : State} (hk : Keeps s0 s) : Keeps s0 (setBucket code b s) := by
  unfold setBucket
  try dsimp only
  repeat first
    | with_reducible assumption
    | (with_reducible first | apply Keeps.modAlog)
    | intro

theorem acceptEvent_keeps {e : LogEntry} {s : State} {s0 : State} (hk : Keeps s0 s) : Keeps s0 (acceptEvent e s) := by
  unfold acceptEvent
  try dsimp only
  repeat first
    | with_reducible assumption
    | (with_reducible first | apply setBucket_keeps | apply writeEntry_keeps | apply Keeps.modAlog)
    | split
    | intro

theorem acceptOverflow_keeps {h : Nat} {s : State} {s0 : State} (hk : Keeps s0 s) : Keeps s0 (acceptOverflow h s) := by
  unfold acceptOverflow
  try dsimp only
  repeat first
    | with_reducible assumption
    | (with_reducible first | apply acceptEvent_keeps | apply dropRun_keeps | apply raiseSys_keeps)
    | (with_reducible first | apply Keeps.modAlog)
    | split
    | intro

theorem execLogEntryArrival_keeps {h : Nat} {s : State} {s0 : State} (hk : Keeps s0 s) : OutKeeps s0 (execLogEntryArrival h s) := by
  unfold execLogEntryArrival
  try dsimp only
  repeat first
    | with_reducible assumption
    | (with_reducible first | apply OutKeeps.next | apply acceptOverflow_keeps | apply acceptEvent_keeps)
    | (with_reducible first | apply Keeps.modHearth | apply DoneKeeps.reply | apply DoneKeeps.hold)
    | (with_reducible first | apply DoneKeeps.check)
    | split
    | ((with_reducible refine HearthKeeps.mk ?_ ?_) <;> first | rfl | exact fun g => g | exact fun g => by simpa [hearthShape] using g)
    | intro

theorem execLogDrop_keeps {h : Nat} {e : LogIn} {s : State} {s0 : State} (hk : Keeps s0 s) : OutKeeps s0 (execLogDrop h e s) := by
  unfold execLogDrop
  try dsimp only
  repeat first
    | with_reducible assumption
    | (with_reducible first | apply OutKeeps.next | apply emit_keeps)
    | split

theorem execBucketRefill_keeps {code : Nat} {s : State} {s0 : State} (hk : Keeps s0 s) : OutKeeps s0 (execBucketRefill code s) := by
  unfold execBucketRefill
  try dsimp only
  repeat first
    | with_reducible assumption
    | (with_reducible first | apply OutKeeps.next | apply setBucket_keeps)
    | split

theorem triggerEmbers_keeps {cause : Nat} {s : State} {s0 : State} (hk : Keeps s0 s) : Keeps s0 (triggerEmbers cause s) := by
  unfold triggerEmbers
  try dsimp only
  repeat first
    | with_reducible assumption
    | (with_reducible first | apply acceptEvent_keeps | apply eventTrigger_keeps | apply raiseSys_keeps)
    | (with_reducible first | apply Keeps.modAlog)
    | split
    | intro

theorem powerFail_keeps {s : State} {s0 : State} (hk : Keeps s0 s) : Keeps s0 (powerFail s) := by
  unfold powerFail
  try dsimp only
  repeat first
    | with_reducible assumption
    | (with_reducible first | apply triggerEmbers_keeps | apply Keeps.modAlog)
    | split
    | intro

theorem execPowerFailWarning_keeps {s : State} {s0 : State} (hk : Keeps s0 s) : OutKeeps s0 (execPowerFailWarning s) := by
  unfold execPowerFailWarning
  try dsimp only
  repeat first
    | with_reducible assumption
    | (with_reducible first | apply OutKeeps.next | apply powerFail_keeps)

theorem execEmberNow_keeps {m : Nat} {s : State} {s0 : State} (hk : Keeps s0 s) : OutKeeps s0 (execEmberNow m s) := by
  unfold execEmberNow
  try dsimp only
  repeat first
    | with_reducible assumption
    | (with_reducible first | apply OutKeeps.next | apply triggerEmbers_keeps)
    | split

theorem emberWritten_keeps {ok : Bool} {s : State} {s0 : State} (hk : Keeps s0 s) : Keeps s0 (emberWritten ok s) := by
  unfold emberWritten
  try dsimp only
  repeat first
    | with_reducible assumption
    | (with_reducible first | apply raiseSource_keeps | apply raiseSys_keeps | apply Keeps.modAlog)
    | split
    | intro

theorem loadEmbers_keeps {s : State} {s0 : State} (hk : Keeps s0 s) : Keeps s0 (loadEmbers s) := by
  unfold loadEmbers
  try dsimp only
  repeat first
    | with_reducible assumption
    | (with_reducible first | apply raiseSource_keeps | apply emit_keeps | apply Keeps.modAlog | apply Keeps.onlyIf)
    | split
    | intro

theorem execEmberEraseDone_keeps {ok : Bool} {s : State} {s0 : State} (hk : Keeps s0 s) : OutKeeps s0 (execEmberEraseDone ok s) := by
  unfold execEmberEraseDone
  try dsimp only
  repeat first
    | with_reducible assumption
    | (with_reducible first | apply OutKeeps.next | apply raiseSource_keeps | apply Keeps.modAlog)
    | (with_reducible first | apply DoneKeeps.reply | apply DoneKeeps.hold | apply DoneKeeps.check)
    | split
    | intro

theorem alogRead_keeps {p : Packet} {s : State} {s0 : State} (hk : Keeps s0 s) : DoneKeeps s0 (alogRead p s) := by
  unfold alogRead
  try dsimp only
  repeat first
    | with_reducible assumption
    | (with_reducible first | apply DoneKeeps.reply | apply DoneKeeps.hold | apply DoneKeeps.check)
    | intro

theorem execAlogRead_keeps {p : Packet} {s : State} {s0 : State} (hk : Keeps s0 s) : OutKeeps s0 (execAlogRead p s) := by
  unfold execAlogRead
  try dsimp only
  repeat first
    | with_reducible assumption
    | (with_reducible first | apply OutKeeps.next | apply alogRead_keeps | apply runCommand_keeps)
    | (with_reducible first | apply DoneKeeps.reply | apply DoneKeeps.hold | apply DoneKeeps.check)
    | intro

theorem embersRead_keeps {p : Packet} {s : State} {s0 : State} (hk : Keeps s0 s) : DoneKeeps s0 (embersRead p s) := by
  unfold embersRead
  try dsimp only
  repeat first
    | with_reducible assumption
    | (with_reducible first | apply DoneKeeps.reply | apply DoneKeeps.hold | apply DoneKeeps.check)
    | intro

theorem execEmbersRead_keeps {p : Packet} {s : State} {s0 : State} (hk : Keeps s0 s) : OutKeeps s0 (execEmbersRead p s) := by
  unfold execEmbersRead
  try dsimp only
  repeat first
    | with_reducible assumption
    | (with_reducible first | apply OutKeeps.next | apply embersRead_keeps | apply runCommand_keeps)
    | (with_reducible first | apply DoneKeeps.reply | apply DoneKeeps.hold | apply DoneKeeps.check)
    | intro

theorem applyRate_keeps {code : Nat} {burst : Nat} {refill : Nat} {s : State} {s0 : State} (hk : Keeps s0 s) : Keeps s0 (applyRate code burst refill s) := by
  unfold applyRate
  try dsimp only
  repeat first
    | with_reducible assumption
    | (with_reducible first | apply setBucket_keeps)
    | split

theorem alogRateConfig_keeps {p : Packet} {s : State} {s0 : State} (hk : Keeps s0 s) : DoneKeeps s0 (alogRateConfig p s) := by
  unfold alogRateConfig
  try dsimp only
  repeat first
    | with_reducible assumption
    | (with_reducible first | apply DoneKeeps.reply | apply DoneKeeps.hold | apply DoneKeeps.check | apply emit_keeps)
    | (with_reducible first | apply Keeps.modAlog)
    | split
    | intro

theorem execAlogRateConfig_keeps {p : Packet} {s : State} {s0 : State} (hk : Keeps s0 s) : OutKeeps s0 (execAlogRateConfig p s) := by
  unfold execAlogRateConfig
  try dsimp only
  repeat first
    | with_reducible assumption
    | (with_reducible first | apply OutKeeps.next | apply alogRateConfig_keeps | apply runCommand_keeps)
    | (with_reducible first | apply DoneKeeps.reply | apply DoneKeeps.hold | apply DoneKeeps.check)
    | intro

theorem execAlogMark_keeps {p : Packet} {s : State} {s0 : State} (hk : Keeps s0 s) : OutKeeps s0 (execAlogMark p s) := by
  unfold execAlogMark
  try dsimp only
  repeat first
    | with_reducible assumption
    | (with_reducible first | apply OutKeeps.next | apply runCommand_keeps | apply emit_keeps | apply DoneKeeps.reply)
    | (with_reducible first | apply DoneKeeps.hold | apply DoneKeeps.check)
    | intro

theorem execAlogCntClr_keeps {s : State} {s0 : State} (hk : Keeps s0 s) : OutKeeps s0 (execAlogCntClr s) := by
  unfold execAlogCntClr
  try dsimp only
  repeat first
    | with_reducible assumption
    | (with_reducible first | apply OutKeeps.next | apply Keeps.modAlog | apply DoneKeeps.reply)
    | (with_reducible first | apply DoneKeeps.hold | apply DoneKeeps.check)
    | split
    | intro

end Sys2Proof.Machine
end

