-- ==== Sys2Proof/Laws/KeepsCanceller.lean ====
section
/-! SUPPORT. Laws/KeepsCanceller.lean: every operation of Machine/Canceller.lean is among those that `Keeps` describes. -/

namespace Sys2Proof.Machine

theorem modBdc_keeps {h : Nat} {f : Bdc → Bdc} {s : State} {s0 : State} (hk : Keeps s0 s) : Keeps s0 (modBdc h f s) := by
  unfold modBdc
  try dsimp only
  repeat first
    | with_reducible assumption
    | (with_reducible first | apply Keeps.modHearth)
    | ((with_reducible refine HearthKeeps.mk ?_ ?_) <;> first | rfl | exact fun g => g | exact fun g => by simpa [hearthShape] using g)
    | intro

theorem refreshBudget_keeps {h : Nat} {s : State} {s0 : State} (hk : Keeps s0 s) : Keeps s0 (refreshBudget h s) := by
  unfold refreshBudget
  try dsimp only
  repeat first
    | with_reducible assumption
    | (with_reducible first | apply modBdc_keeps | apply modPath_keeps | apply Keeps.each)
    | intro

theorem placePaths_keeps {h : Nat} {s : State} {s0 : State} (hk : Keeps s0 s) : Keeps s0 (placePaths h s) := by
  unfold placePaths
  try dsimp only
  repeat first
    | with_reducible assumption
    | (with_reducible first | apply modPath_keeps | apply Keeps.each)
    | split
    | intro

theorem setFrozen_keeps {h : Nat} {p : Nat} {v : Bool} {reason : Nat} {s : State} {s0 : State} (hk : Keeps s0 s) : Keeps s0 (setFrozen h p v reason s) := by
  unfold setFrozen
  try dsimp only
  repeat first
    | with_reducible assumption
    | (with_reducible first | apply modPath_keeps | apply emit_keeps)
    | split
    | intro

theorem clearLast_keeps {h : Nat} {p : Nat} {s : State} {s0 : State} (hk : Keeps s0 s) : Keeps s0 (clearLast h p s) := by
  unfold clearLast
  try dsimp only
  repeat first
    | with_reducible assumption
    | (with_reducible first | apply modBr_keeps)
    | intro

theorem refreshLag_keeps {h : Nat} {p : Nat} {s : State} {s0 : State} (hk : Keeps s0 s) : Keeps s0 (refreshLag h p s) := by
  unfold refreshLag
  try dsimp only
  repeat first
    | with_reducible assumption
    | (with_reducible first | apply modPath_keeps)
    | split
    | intro

theorem releasePath_keeps {h : Nat} {p : Nat} {s : State} {s0 : State} (hk : Keeps s0 s) : Keeps s0 (releasePath h p s) := by
  unfold releasePath
  try dsimp only
  repeat first
    | with_reducible assumption
    | (with_reducible first | apply refreshLag_keeps | apply clearLast_keeps | apply setFrozen_keeps)
    | (with_reducible first | apply modPath_keeps)
    | split
    | intro

theorem publishSupp_keeps {h : Nat} {i : Nat} {k : Nat} {s : State} {s0 : State} (hk : Keeps s0 s) : Keeps s0 (publishSupp h i k s) := by
  unfold publishSupp
  try dsimp only
  repeat first
    | with_reducible assumption
    | (with_reducible first | apply emit_keeps | apply Keeps.modSec)
    | split
    | exact fun _ => @rfl SecState _
    | intro

theorem zeroBare_keeps {h : Nat} {i : Nat} {s : State} {s0 : State} (hk : Keeps s0 s) : Keeps s0 (zeroBare h i s) := by
  unfold zeroBare
  try dsimp only
  repeat first
    | with_reducible assumption
    | (with_reducible first | apply Keeps.modSec)
    | split
    | exact fun _ => @rfl SecState _
    | intro

theorem adaptPath_keeps {h : Nat} {p : Nat} {other : Bool} {adc : Bool} {v : PathIn} {s : State} {s0 : State} (hk : Keeps s0 s) : Keeps s0 (adaptPath h p other adc v s) := by
  unfold adaptPath
  try dsimp only
  repeat first
    | with_reducible assumption
    | (with_reducible first | apply setFrozen_keeps | apply modPath_keeps)
    | split
    | intro

theorem countTapSat_keeps {h : Nat} {p : Nat} {s : State} {s0 : State} (hk : Keeps s0 s) : Keeps s0 (countTapSat h p s) := by
  unfold countTapSat
  try dsimp only
  repeat first
    | with_reducible assumption
    | (with_reducible first | apply modPath_keeps | apply emit_keeps)
    | split
    | intro

theorem armPaths_keeps {h : Nat} {s : State} {s0 : State} (hk : Keeps s0 s) : Keeps s0 (armPaths h s) := by
  unfold armPaths
  try dsimp only
  repeat first
    | with_reducible assumption
    | (with_reducible first | apply Keeps.modHearth)
    | ((with_reducible refine HearthKeeps.mk ?_ ?_) <;> first | rfl | exact fun g => g | exact fun g => by simpa [hearthShape] using g)
    | intro

theorem freezeDue_keeps {h : Nat} {n : Nat} {s : State} {s0 : State} (hk : Keeps s0 s) : Keeps s0 (freezeDue h n s) := by
  unfold freezeDue
  try dsimp only
  repeat first
    | with_reducible assumption
    | (with_reducible first | apply setFrozen_keeps)
    | split

theorem execPathFreeze_keeps {h : Nat} {n : Nat} {s : State} {s0 : State} (hk : Keeps s0 s) : OutKeeps s0 (execPathFreeze h n s) := by
  unfold execPathFreeze
  try dsimp only
  repeat first
    | with_reducible assumption
    | (with_reducible first | apply OutKeeps.next | apply freezeDue_keeps)

theorem acquisitionDue_keeps {h : Nat} {n : Nat} {s : State} {s0 : State} (hk : Keeps s0 s) : Keeps s0 (acquisitionDue h n s) := by
  unfold acquisitionDue
  try dsimp only
  repeat first
    | with_reducible assumption
    | (with_reducible first | apply modPath_keeps)
    | split
    | intro

theorem execAcquisitionEnd_keeps {h : Nat} {n : Nat} {s : State} {s0 : State} (hk : Keeps s0 s) : OutKeeps s0 (execAcquisitionEnd h n s) := by
  unfold execAcquisitionEnd
  try dsimp only
  repeat first
    | with_reducible assumption
    | (with_reducible first | apply OutKeeps.next | apply acquisitionDue_keeps)

theorem publishDue_keeps {h : Nat} {n : Nat} {s : State} {s0 : State} (hk : Keeps s0 s) : Keeps s0 (publishDue h n s) := by
  unfold publishDue
  try dsimp only
  repeat first
    | with_reducible assumption
    | (with_reducible first | apply publishSupp_keeps | apply modPath_keeps)
    | split
    | intro

theorem execBdcMeasPublish_keeps {h : Nat} {n : Nat} {s : State} {s0 : State} (hk : Keeps s0 s) : OutKeeps s0 (execBdcMeasPublish h n s) := by
  unfold execBdcMeasPublish
  try dsimp only
  repeat first
    | with_reducible assumption
    | (with_reducible first | apply OutKeeps.next | apply publishDue_keeps)

theorem rotatePath_keeps {h : Nat} {p : Nat} {r : Turn} {s : State} {s0 : State} (hk : Keeps s0 s) : Keeps s0 (rotatePath h p r s) := by
  unfold rotatePath
  try dsimp only
  repeat first
    | with_reducible assumption
    | (with_reducible first | apply modPath_keeps)
    | split
    | intro

theorem configurePath_keeps {ws : List Word} {h : Nat} {p : Nat} {s : State} {s0 : State} (hk : Keeps s0 s) : Keeps s0 (configurePath ws h p s) := by
  unfold configurePath
  try dsimp only
  repeat first
    | with_reducible assumption
    | (with_reducible first | apply refreshLag_keeps | apply clearLast_keeps | apply modPath_keeps)
    | split
    | intro

theorem moveOrx_keeps {h : Nat} {o : Nat} {port : Nat} {s : State} {s0 : State} (hk : Keeps s0 s) : Keeps s0 (moveOrx h o port s) := by
  unfold moveOrx
  try dsimp only
  repeat first
    | with_reducible assumption
    | (with_reducible first | apply reloadChain_keeps | apply refreshGains_keeps | apply modRfc_keeps)
    | split
    | intro

theorem bdcPathConfig_keeps {p : Packet} {s s0 : State} (hk : Keeps s0 s) : DoneKeeps s0 (bdcPathConfig p s) := by
  unfold bdcPathConfig
  extract_lets ws w h i ps on orx d st idle changes t0 t1 t2 t3
  have k0 : Keeps s0 t0 := zeroBare_keeps (refreshBudget_keeps (hk.each fun _ _ hu => releasePath_keeps hu))
  have k1 : Keeps s0 t1 := hk.each fun _ _ hu => configurePath_keeps hu
  have k2 : Keeps s0 t2 := iteKeeps (k1.each fun _ _ hu => moveOrx_keeps hu) k1
  have k3 : Keeps s0 t3 := refreshBudget_keeps (iteKeeps k2 (placePaths_keeps k2))
  have k4 : Keeps s0 (if (hearthAt s h).bdc.reloc then t3
      else modBdc h (fun b => { b with reloc := true, relocStart := s.tbu.tick + 1, relocMoved := 0 }) t3) :=
    iteKeeps k3 (modBdc_keeps k3)
  clear_value t0 t1 t2 t3
  refine .check hk (.check hk (.check hk ?_))
  split
  · exact .reply k0
  refine .check hk (.check hk ?_)
  split
  · exact .reply hk
  split
  · exact .reply k3
  · exact .hold k4

theorem execBdcPathConfig_keeps {p : Packet} {s : State} {s0 : State} (hk : Keeps s0 s) : OutKeeps s0 (execBdcPathConfig p s) := by
  unfold execBdcPathConfig
  try dsimp only
  repeat first
    | with_reducible assumption
    | (with_reducible first | apply OutKeeps.next | apply bdcPathConfig_keeps | apply runCommand_keeps)
    | (with_reducible first | apply DoneKeeps.reply | apply DoneKeeps.hold | apply DoneKeeps.check)
    | intro

theorem execBdcCompactionStep_keeps {h : Nat} {s : State} {s0 : State} (hk : Keeps s0 s) : OutKeeps s0 (execBdcCompactionStep h s) := by
  unfold execBdcCompactionStep
  try dsimp only
  repeat first
    | with_reducible assumption
    | (with_reducible first | apply OutKeeps.next | apply placePaths_keeps | apply modBdc_keeps | apply modPath_keeps)
    | (with_reducible first | apply endHeldFor_keeps | apply emit_keeps | apply DoneKeeps.reply)
    | (with_reducible first | apply DoneKeeps.hold | apply DoneKeeps.check)
    | split
    | intro

theorem bdcPathQuery_keeps {p : Packet} {s : State} {s0 : State} (hk : Keeps s0 s) : DoneKeeps s0 (bdcPathQuery p s) := by
  unfold bdcPathQuery
  try dsimp only
  repeat first
    | with_reducible assumption
    | (with_reducible first | apply DoneKeeps.reply | apply DoneKeeps.hold | apply DoneKeeps.check)
    | intro

theorem execBdcPathQuery_keeps {p : Packet} {s : State} {s0 : State} (hk : Keeps s0 s) : OutKeeps s0 (execBdcPathQuery p s) := by
  unfold execBdcPathQuery
  try dsimp only
  repeat first
    | with_reducible assumption
    | (with_reducible first | apply OutKeeps.next | apply bdcPathQuery_keeps | apply runCommand_keeps)
    | (with_reducible first | apply DoneKeeps.reply | apply DoneKeeps.hold | apply DoneKeeps.check)
    | intro

theorem setMode_keeps {mode : Nat} {h : Nat} {p : Nat} {s : State} {s0 : State} (hk : Keeps s0 s) : Keeps s0 (setMode mode h p s) := by
  unfold setMode
  try dsimp only
  repeat first
    | with_reducible assumption
    | (with_reducible first | apply setFrozen_keeps | apply modPath_keeps)
    | split
    | intro

theorem bdcPathMode_keeps {p : Packet} {s : State} {s0 : State} (hk : Keeps s0 s) : DoneKeeps s0 (bdcPathMode p s) := by
  unfold bdcPathMode
  try dsimp only
  repeat first
    | with_reducible assumption
    | (with_reducible first | apply DoneKeeps.reply | apply DoneKeeps.hold | apply DoneKeeps.check)
    | (with_reducible first | apply setMode_keeps | apply Keeps.each)
    | intro

theorem execBdcPathMode_keeps {p : Packet} {s : State} {s0 : State} (hk : Keeps s0 s) : OutKeeps s0 (execBdcPathMode p s) := by
  unfold execBdcPathMode
  try dsimp only
  repeat first
    | with_reducible assumption
    | (with_reducible first | apply OutKeeps.next | apply bdcPathMode_keeps | apply runCommand_keeps)
    | (with_reducible first | apply DoneKeeps.reply | apply DoneKeeps.hold | apply DoneKeeps.check)
    | intro

theorem bdcTapReset_keeps {p : Packet} {s : State} {s0 : State} (hk : Keeps s0 s) : DoneKeeps s0 (bdcTapReset p s) := by
  unfold bdcTapReset
  try dsimp only
  repeat first
    | with_reducible assumption
    | (with_reducible first | apply DoneKeeps.reply | apply DoneKeeps.hold | apply DoneKeeps.check)
    | (with_reducible first | apply resetTaps_keeps | apply Keeps.each)
    | intro

theorem execBdcTapReset_keeps {p : Packet} {s : State} {s0 : State} (hk : Keeps s0 s) : OutKeeps s0 (execBdcTapReset p s) := by
  unfold execBdcTapReset
  try dsimp only
  repeat first
    | with_reducible assumption
    | (with_reducible first | apply OutKeeps.next | apply bdcTapReset_keeps | apply runCommand_keeps)
    | (with_reducible first | apply DoneKeeps.reply | apply DoneKeeps.hold | apply DoneKeeps.check)
    | intro

theorem stageFor_keeps {restore : Bool} {h : Nat} {sect : Nat} {w : Word} {s : State} {s0 : State} (hk : Keeps s0 s) : Keeps s0 (stageFor restore h sect w s) := by
  unfold stageFor
  try dsimp only
  repeat first
    | with_reducible assumption
    | (with_reducible first | apply modBdc_keeps)
    | split
    | intro

theorem restoreEvents_keeps {h : Nat} {sect : Nat} {w : Word} {st : Status} {s : State} {s0 : State} (hk : Keeps s0 s) : Keeps s0 (restoreEvents h sect w st s) := by
  unfold restoreEvents
  try dsimp only
  repeat first
    | with_reducible assumption
    | (with_reducible first | apply emit_keeps | apply Keeps.each)
    | intro

theorem stageCommand_keeps {restore : Bool} {p : Packet} {s : State} {s0 : State} (hk : Keeps s0 s) : DoneKeeps s0 (stageCommand restore p s) := by
  unfold stageCommand
  try dsimp only
  repeat first
    | with_reducible assumption
    | (with_reducible first | apply DoneKeeps.reply | apply DoneKeeps.hold | apply DoneKeeps.check)
    | (with_reducible first | apply restoreEvents_keeps | apply stageFor_keeps)
    | split
    | intro

theorem execBdcSnapshot_keeps {p : Packet} {s : State} {s0 : State} (hk : Keeps s0 s) : OutKeeps s0 (execBdcSnapshot p s) := by
  unfold execBdcSnapshot
  try dsimp only
  repeat first
    | with_reducible assumption
    | (with_reducible first | apply OutKeeps.next | apply stageCommand_keeps | apply runCommand_keeps)
    | (with_reducible first | apply DoneKeeps.reply | apply DoneKeeps.hold | apply DoneKeeps.check)
    | intro

theorem execBdcRestore_keeps {p : Packet} {s : State} {s0 : State} (hk : Keeps s0 s) : OutKeeps s0 (execBdcRestore p s) := by
  unfold execBdcRestore
  try dsimp only
  repeat first
    | with_reducible assumption
    | (with_reducible first | apply OutKeeps.next | apply stageCommand_keeps | apply runCommand_keeps)
    | (with_reducible first | apply DoneKeeps.reply | apply DoneKeeps.hold | apply DoneKeeps.check)
    | intro

theorem nextStage_keeps {h : Nat} {cs : List Held} {s s0 : State} (hk : Keeps s0 s) : Keeps s0 (nextStage h cs s) := by
  induction cs generalizing s with
  | nil => exact hk
  | cons c cs ih =>
    unfold nextStage
    dsimp only
    split
    · exact hk
    · split
      · exact ih (endHeld_keeps (restoreEvents_keeps hk))
      · exact stageFor_keeps hk

theorem freeStage_keeps {h : Nat} {s s0 : State} (hk : Keeps s0 s) : Keeps s0 (freeStage h s) := nextStage_keeps (modBdc_keeps hk)

theorem execSnapshotDramDone_keeps {h : Nat} {i : Nat} {s : State} {s0 : State} (hk : Keeps s0 s) : OutKeeps s0 (execSnapshotDramDone h i s) := by
  unfold execSnapshotDramDone
  try dsimp only
  repeat first
    | with_reducible assumption
    | (with_reducible first | apply OutKeeps.next | apply freeStage_keeps | apply modBdc_keeps)
    | (with_reducible first | apply endHeldAt_keeps | apply emit_keeps | apply Keeps.each | apply DoneKeeps.reply)
    | (with_reducible first | apply DoneKeeps.hold | apply DoneKeeps.check)
    | split
    | intro

theorem restorePath_keeps {h : Nat} {p : Nat} {g : Snapshot} {s : State} {s0 : State} (hk : Keeps s0 s) : Keeps s0 (restorePath h p g s) := by
  unfold restorePath
  try dsimp only
  repeat first
    | with_reducible assumption
    | (with_reducible first | apply modPath_keeps)
    | intro

theorem laterStage_keeps {h : Nat} {s : State} {s0 : State} (hk : Keeps s0 s) : Keeps s0 (laterStage h s) := by
  unfold laterStage
  try dsimp only
  repeat first
    | with_reducible assumption
    | (with_reducible first | apply modBdc_keeps)
    | split
    | intro

theorem applyRestore_keeps {h : Nat} {s : State} {s0 : State} (hk : Keeps s0 s) : Keeps s0 (applyRestore h s) := by
  unfold applyRestore
  try dsimp only
  repeat first
    | with_reducible assumption
    | (with_reducible first | apply laterStage_keeps | apply restorePath_keeps | apply freeStage_keeps)
    | (with_reducible first | apply endHeld_keeps | apply emit_keeps | apply Keeps.each)
    | split
    | intro

theorem execRestoreApply_keeps {h : Nat} {i : Nat} {s : State} {s0 : State} (hk : Keeps s0 s) : OutKeeps s0 (execRestoreApply h i s) := by
  unfold execRestoreApply
  try dsimp only
  repeat first
    | with_reducible assumption
    | (with_reducible first | apply OutKeeps.next | apply modBdc_keeps | apply DoneKeeps.reply | apply DoneKeeps.hold)
    | (with_reducible first | apply DoneKeeps.check)
    | split
    | intro

theorem execBdcCntClr_keeps {h : Nat} {s : State} {s0 : State} (hk : Keeps s0 s) : OutKeeps s0 (execBdcCntClr h s) := by
  unfold execBdcCntClr
  try dsimp only
  repeat first
    | with_reducible assumption
    | (with_reducible first | apply OutKeeps.next | apply modBdc_keeps | apply modPath_keeps | apply Keeps.each)
    | (with_reducible first | apply Keeps.modSec | apply DoneKeeps.reply | apply DoneKeeps.hold)
    | (with_reducible first | apply DoneKeeps.check)
    | split
    | exact fun _ => @rfl SecState _
    | intro

end Sys2Proof.Machine
end

