-- ==== Sys2Proof/Laws/KeepsProbe.lean ====
section
/-! SUPPORT. Laws/KeepsProbe.lean: every operation of Machine/Probe.lean is among those that `Keeps` describes. -/

namespace Sys2Proof.Machine

theorem passWindows_keeps {g : Nat} {clks : List (List Nat)} {errs : List (Nat × List (Nat × (Int × Int)))} {sent : List (Nat × Nat × Nat)} {s : State} {s0 : State} (hk : Keeps s0 s) : Keeps s0 (passWindows g clks errs sent s) := by
  unfold passWindows
  try dsimp only
  repeat first
    | with_reducible assumption
    | split
    | (with_reducible first | apply Keeps.withFlu)
    | ((with_reducible refine FluKeeps.mk ?_ ?_ ?_ ?_) <;> first | exact fun g => g | exact fun g => kset_kwf _ _ _ g | exact fun g => kerase_kwf _ _ g | exact fun _ => rfl)
    | intro

end Sys2Proof.Machine
end

