-- ==== Sys2Proof/Laws/KeepsGrate.lean ====
section
/-! SUPPORT. Laws/KeepsGrate.lean: every operation of Machine/Grate.lean is among those that `Keeps` describes. -/

namespace Sys2Proof.Machine

theorem takeBranch_state (tick : Nat) (b : BranchRun) (x : Section) : (takeBranch tick b x).state = x.state := rfl

theorem runStreams_state (s : State) (dir : Nat) (r : DirRun) (x : Section) : (runStreams s dir r x).state = x.state := rfl

theorem runSplit_state (s : State) (dir : Nat) (r : DirRun) (x : Section) : (runSplit s dir r x).state = x.state := by
  unfold runSplit
  split
  · rfl
  · split <;> rfl

theorem takeBranches_state (tick : Nat) (bs : List BranchRun) (x : Section) :
    (bs.foldl (fun a b => takeBranch tick b a) x).state = x.state := by
  induction bs generalizing x with
  | nil => rfl
  | cons b bs ih => exact (ih _).trans (takeBranch_state ..)

theorem runSection_keeps {xs : List SampleIn} {h i : Nat} {s s0 : State} (hk : Keeps s0 s) : Keeps s0 (runSection xs h i s).2 := by
  unfold runSection
  dsimp only
  split
  · exact hk.modSec fun _ => rfl
  · refine passWindows_keeps (hk.modSec fun x => ?_)
    rw [takeBranches_state, runSplit_state, runSplit_state, runStreams_state, runStreams_state]

theorem runHearth_keeps {xs : List SampleIn} {h : Nat} {s s0 : State} (hk : Keeps s0 s) : Keeps s0 (runHearth xs h s).2 := by
  unfold runHearth
  generalize List.range 8 = l
  extract_lets r runs sums gate chans orx t
  have k : Keeps s0 r.2 := by
    unfold r
    refine Keeps.fold (fun a i hu => ?_) l ?_
    · exact runSection_keeps (xs := xs) (h := h) (i := i) hu
    · exact hk
  clear_value r
  refine k.modHearth fun x => HearthKeeps.mk ?_ fun g => ?_
  · dsimp only
  · simpa [hearthShape] using g

theorem recordTick_keeps {xs : List SampleIn} {h : Nat} {s : State} {s0 : State} (hk : Keeps s0 s) : Keeps s0 (recordTick xs h s) := by
  unfold recordTick
  try dsimp only
  repeat first
    | with_reducible assumption
    | (with_reducible first | apply Keeps.modHearth)
    | split
    | ((with_reducible refine HearthKeeps.mk ?_ ?_) <;> first | rfl | exact fun g => g | exact fun g => by simpa [hearthShape] using g)
    | intro

theorem runSamples_keeps {xs : List SampleIn} {s s0 : State} (hk : Keeps s0 s) : Keeps s0 (runSamples xs s).2 :=
  Keeps.fold (fun _ _ hu => recordTick_keeps (runHearth_keeps hu)) (hearthsOf s) hk

end Sys2Proof.Machine
end

