-- ==== Sys2Proof/Laws/KeepsDamper.lean ====
section
/-! SUPPORT. Laws/KeepsDamper.lean: every operation of Machine/Damper.lean is among those that `Keeps` describes. -/

namespace Sys2Proof.Machine

theorem modDmp_keeps {h : Nat} {i : Nat} {f : Dmp → Dmp} {s : State} {s0 : State} (hk : Keeps s0 s) : Keeps s0 (modDmp h i f s) := by
  unfold modDmp
  try dsimp only
  repeat first
    | with_reducible assumption
    | (with_reducible first | apply Keeps.modSec)
    | exact fun _ => @rfl SecState _
    | intro

theorem modDir_keeps {h : Nat} {i : Nat} {d : Nat} {f : DmpDir → DmpDir} {s : State} {s0 : State} (hk : Keeps s0 s) : Keeps s0 (modDir h i d f s) := by
  unfold modDir
  try dsimp only
  repeat first
    | with_reducible assumption
    | (with_reducible first | apply modDmp_keeps)
    | intro

theorem onset_keeps {criterion : Nat} {h : Nat} {i : Nat} {k : Nat} {pk : Int} {s : State} {s0 : State} (hk : Keeps s0 s) : Keeps s0 (onset criterion h i k pk s) := by
  unfold onset
  try dsimp only
  repeat first
    | with_reducible assumption
    | (with_reducible first | apply modDir_keeps | apply modDmp_keeps | apply quench_keeps | apply emitVf_keeps)
    | split
    | intro

theorem estimateDir_keeps {vs : List (Nat × BranchCeil)} {h : Nat} {i : Nat} {dir : Nat} {s : State} {s0 : State} (hk : Keeps s0 s) : Keeps s0 (estimateDir vs h i dir s) := by
  unfold estimateDir
  try dsimp only
  repeat first
    | with_reducible assumption
    | (with_reducible first | apply onset_keeps | apply modDir_keeps | apply modBr_keeps | apply emit_keeps)
    | (with_reducible first | apply Keeps.each)
    | split
    | intro

theorem stageCeil_keeps {vs : List (Nat × BranchCeil)} {h : Nat} {i : Nat} {dir : Nat} {s : State} {s0 : State} (hk : Keeps s0 s) : Keeps s0 (stageCeil vs h i dir s) := by
  unfold stageCeil
  try dsimp only
  repeat first
    | with_reducible assumption
    | (with_reducible first | apply modDir_keeps)
    | split
    | intro

theorem staleDue_keeps {h : Nat} {n : Nat} {s : State} {s0 : State} (hk : Keeps s0 s) : Keeps s0 (staleDue h n s) := by
  unfold staleDue
  try dsimp only
  repeat first
    | with_reducible assumption
    | (with_reducible first | apply modPath_keeps | apply raiseSource_keeps)
    | split
    | intro

theorem execInputStale_keeps {h : Nat} {n : Nat} {s : State} {s0 : State} (hk : Keeps s0 s) : OutKeeps s0 (execInputStale h n s) := by
  unfold execInputStale
  try dsimp only
  repeat first
    | with_reducible assumption
    | (with_reducible first | apply OutKeeps.next | apply staleDue_keeps)

theorem startTest_keeps {second : Bool} {h : Nat} {i : Nat} {dir : Nat} {b : Nat} {bin : Nat} {p0 : Int} {s : State} {s0 : State} (hk : Keeps s0 s) : Keeps s0 (startTest second h i dir b bin p0 s) := by
  unfold startTest
  try dsimp only
  repeat first
    | with_reducible assumption
    | (with_reducible first | apply modDir_keeps | apply modDmp_keeps | apply emit_keeps)
    | split
    | intro

theorem clearTest_keeps {h : Nat} {i : Nat} {dir : Nat} {s : State} {s0 : State} (hk : Keeps s0 s) : Keeps s0 (clearTest h i dir s) := by
  unfold clearTest
  try dsimp only
  repeat first
    | with_reducible assumption
    | (with_reducible first | apply modDir_keeps)
    | intro

theorem vanish_keeps {h : Nat} {i : Nat} {dir : Nat} {k : Nat} {pk : Int} {s : State} {s0 : State} (hk : Keeps s0 s) : Keeps s0 (vanish h i dir k pk s) := by
  unfold vanish
  try dsimp only
  repeat first
    | with_reducible assumption
    | (with_reducible first | apply clearTest_keeps | apply onset_keeps | apply modDir_keeps)
    | split
    | intro

theorem testWindow_keeps {h : Nat} {i : Nat} {dir : Nat} {d : SecDef} {g : ToneTest} {pk : Int} {s : State} {s0 : State} (hk : Keeps s0 s) : Keeps s0 (testWindow h i dir d g pk s) := by
  unfold testWindow
  try dsimp only
  repeat first
    | with_reducible assumption
    | (with_reducible first | apply vanish_keeps | apply onset_keeps | apply modDir_keeps)
    | split
    | intro

theorem captureSpectrum_keeps {h : Nat} {i : Nat} {k : Nat} {s : State} {s0 : State} (hk : Keeps s0 s) : Keeps s0 (captureSpectrum h i k s) := by
  unfold captureSpectrum
  try dsimp only
  repeat first
    | with_reducible assumption
    | (with_reducible first | apply modBr_keeps)
    | split
    | intro

theorem judgeWindow_keeps {d : SecDef} {h : Nat} {i : Nat} {k : Nat} {s : State} {s0 : State} (hk : Keeps s0 s) : Keeps s0 (judgeWindow d h i k s) := by
  unfold judgeWindow
  try dsimp only
  repeat first
    | with_reducible assumption
    | (with_reducible first | apply testWindow_keeps | apply startTest_keeps | apply modBr_keeps)
    | split
    | intro

theorem lineDue_keeps {h : Nat} {i : Nat} {d : Nat} {b : Nat} {first : Nat} {last : Nat} {s : State} {s0 : State} (hk : Keeps s0 s) : Keeps s0 (lineDue h i d b first last s) := by
  unfold lineDue
  try dsimp only
  repeat first
    | with_reducible assumption
    | (with_reducible first | apply arrive_keeps)
    | split

theorem execLineDetect_keeps {h : Nat} {i : Nat} {d : Nat} {b : Nat} {first : Nat} {last : Nat} {s : State} {s0 : State} (hk : Keeps s0 s) : OutKeeps s0 (execLineDetect h i d b first last s) := by
  unfold execLineDetect
  try dsimp only
  repeat first
    | with_reducible assumption
    | (with_reducible first | apply OutKeeps.next | apply lineDue_keeps)

theorem execStrangerMaskExpiry_keeps {h : Nat} {i : Nat} {d : Nat} {b : Nat} {bin : Nat} {s : State} {s0 : State} (hk : Keeps s0 s) : OutKeeps s0 (execStrangerMaskExpiry h i d b bin s) := by
  unfold execStrangerMaskExpiry
  try dsimp only
  repeat first
    | with_reducible assumption
    | (with_reducible first | apply OutKeeps.next | apply modBr_keeps | apply DoneKeeps.reply | apply DoneKeeps.hold)
    | (with_reducible first | apply DoneKeeps.check)
    | split
    | intro

theorem stranger_keeps {h : Nat} {i : Nat} {dir : Nat} {d : SecDef} {g : ToneTest} {pk : Int} {dd : Int} {s : State} {s0 : State} (hk : Keeps s0 s) : Keeps s0 (stranger h i dir d g pk dd s) := by
  unfold stranger
  try dsimp only
  repeat first
    | with_reducible assumption
    | (with_reducible first | apply clearTest_keeps | apply modDmp_keeps | apply modBr_keeps)
    | (with_reducible first | apply reportStranger_keeps | apply emitVf_keeps)
    | intro

theorem concludeTest_keeps {h : Nat} {i : Nat} {dir : Nat} {d : SecDef} {g : ToneTest} {ms : List Int} {s : State} {s0 : State} (hk : Keeps s0 s) : Keeps s0 (concludeTest h i dir d g ms s) := by
  unfold concludeTest
  try dsimp only
  repeat first
    | with_reducible assumption
    | (with_reducible first | apply stranger_keeps | apply startTest_keeps | apply onset_keeps)
    | split

theorem endHalf_keeps {h : Nat} {i : Nat} {d : Nat} {s : State} {s0 : State} (hk : Keeps s0 s) : Keeps s0 (endHalf h i d s) := by
  unfold endHalf
  try dsimp only
  repeat first
    | with_reducible assumption
    | (with_reducible first | apply concludeTest_keeps | apply modDir_keeps | apply takeFree_keeps)
    | split
    | intro

theorem execToneTestHalfPeriod_keeps {h : Nat} {i : Nat} {d : Nat} {s : State} {s0 : State} (hk : Keeps s0 s) : OutKeeps s0 (execToneTestHalfPeriod h i d s) := by
  unfold execToneTestHalfPeriod
  try dsimp only
  repeat first
    | with_reducible assumption
    | (with_reducible first | apply OutKeeps.next | apply endHalf_keeps)
    | split

theorem dirTick_keeps {d : SecDef} {h : Nat} {i : Nat} {dir : Nat} {s : State} {s0 : State} (hk : Keeps s0 s) : Keeps s0 (dirTick d h i dir s) := by
  unfold dirTick
  try dsimp only
  repeat first
    | with_reducible assumption
    | (with_reducible first | apply endHalf_keeps | apply judgeWindow_keeps | apply stageCeil_keeps)
    | (with_reducible first | apply estimateDir_keeps | apply onset_keeps | apply Keeps.each)
    | split
    | intro

theorem dmpTick_keeps {h : Nat} {i : Nat} {s : State} {s0 : State} (hk : Keeps s0 s) : Keeps s0 (dmpTick h i s) := by
  unfold dmpTick
  try dsimp only
  repeat first
    | with_reducible assumption
    | (with_reducible first | apply dirTick_keeps | apply modDmp_keeps | apply Keeps.each)
    | split
    | intro

theorem setGroupCeil_keeps {h : Nat} {i : Nat} {dl : Int} {ul : Int} {s : State} {s0 : State} (hk : Keeps s0 s) : Keeps s0 (setGroupCeil h i dl ul s) := by
  unfold setGroupCeil
  try dsimp only
  repeat first
    | with_reducible assumption
    | (with_reducible first | apply modDir_keeps | apply emit_keeps)
    | split
    | intro

theorem resetGroupCeil_keeps {group : Bool} {h : Nat} {i : Nat} {s : State} {s0 : State} (hk : Keeps s0 s) : Keeps s0 (resetGroupCeil group h i s) := by
  unfold resetGroupCeil
  try dsimp only
  repeat first
    | with_reducible assumption
    | (with_reducible first | apply setGroupCeil_keeps)
    | split

theorem redefineDmp_keeps {fresh : Bool} {group : Option Bool} {h : Nat} {i : Nat} {s : State} {s0 : State} (hk : Keeps s0 s) : Keeps s0 (redefineDmp fresh group h i s) := by
  unfold redefineDmp
  try dsimp only
  repeat first
    | with_reducible assumption
    | (with_reducible first | apply resetGroupCeil_keeps | apply modDmp_keeps)
    | split
    | intro

theorem resetDamper_keeps {h : Nat} {s : State} {s0 : State} (hk : Keeps s0 s) : Keeps s0 (resetDamper h s) := by
  unfold resetDamper
  try dsimp only
  repeat first
    | with_reducible assumption
    | (with_reducible first | apply modDmp_keeps | apply modPath_keeps | apply Keeps.each)
    | intro

theorem dmpConfig_keeps {p : Packet} {s : State} {s0 : State} (hk : Keeps s0 s) : DoneKeeps s0 (dmpConfig p s) := by
  unfold dmpConfig
  try dsimp only
  repeat first
    | with_reducible assumption
    | (with_reducible first | apply DoneKeeps.reply | apply DoneKeeps.hold | apply DoneKeeps.check)
    | (with_reducible first | apply modDir_keeps | apply modDmp_keeps)
    | intro

theorem execDmpConfig_keeps {p : Packet} {s : State} {s0 : State} (hk : Keeps s0 s) : OutKeeps s0 (execDmpConfig p s) := by
  unfold execDmpConfig
  try dsimp only
  repeat first
    | with_reducible assumption
    | (with_reducible first | apply OutKeeps.next | apply dmpConfig_keeps | apply runCommand_keeps)
    | (with_reducible first | apply DoneKeeps.reply | apply DoneKeeps.hold | apply DoneKeeps.check)
    | intro

theorem execDmpQuery_keeps {p : Packet} {s : State} {s0 : State} (hk : Keeps s0 s) : OutKeeps s0 (execDmpQuery p s) := by
  unfold execDmpQuery
  try dsimp only
  repeat first
    | with_reducible assumption
    | (with_reducible first | apply OutKeeps.next | apply sectionQuery_keeps | apply runCommand_keeps)
    | (with_reducible first | apply DoneKeeps.reply | apply DoneKeeps.hold | apply DoneKeeps.check)
    | intro

theorem dmpStrangerClear_keeps {p : Packet} {s : State} {s0 : State} (hk : Keeps s0 s) : DoneKeeps s0 (dmpStrangerClear p s) := by
  unfold dmpStrangerClear
  try dsimp only
  repeat first
    | with_reducible assumption
    | (with_reducible first | apply DoneKeeps.reply | apply DoneKeeps.hold | apply DoneKeeps.check)
    | (with_reducible first | apply modDmp_keeps)
    | intro

theorem execDmpStrangerClear_keeps {p : Packet} {s : State} {s0 : State} (hk : Keeps s0 s) : OutKeeps s0 (execDmpStrangerClear p s) := by
  unfold execDmpStrangerClear
  try dsimp only
  repeat first
    | with_reducible assumption
    | (with_reducible first | apply OutKeeps.next | apply dmpStrangerClear_keeps | apply runCommand_keeps)
    | (with_reducible first | apply DoneKeeps.reply | apply DoneKeeps.hold | apply DoneKeeps.check)
    | intro

theorem dmpGroupCeil_keeps {p : Packet} {s : State} {s0 : State} (hk : Keeps s0 s) : DoneKeeps s0 (dmpGroupCeil p s) := by
  unfold dmpGroupCeil
  try dsimp only
  repeat first
    | with_reducible assumption
    | (with_reducible first | apply DoneKeeps.reply | apply DoneKeeps.hold | apply DoneKeeps.check)
    | (with_reducible first | apply setGroupCeil_keeps)
    | intro

theorem execDmpGroupCeil_keeps {p : Packet} {s : State} {s0 : State} (hk : Keeps s0 s) : OutKeeps s0 (execDmpGroupCeil p s) := by
  unfold execDmpGroupCeil
  try dsimp only
  repeat first
    | with_reducible assumption
    | (with_reducible first | apply OutKeeps.next | apply dmpGroupCeil_keeps | apply runCommand_keeps)
    | (with_reducible first | apply DoneKeeps.reply | apply DoneKeeps.hold | apply DoneKeeps.check)
    | intro

theorem execDmpCntClr_keeps {h : Nat} {s : State} {s0 : State} (hk : Keeps s0 s) : OutKeeps s0 (execDmpCntClr h s) := by
  unfold execDmpCntClr
  try dsimp only
  repeat first
    | with_reducible assumption
    | (with_reducible first | apply OutKeeps.next | apply Keeps.each | apply Keeps.modSec | apply DoneKeeps.reply)
    | (with_reducible first | apply DoneKeeps.hold | apply DoneKeeps.check)
    | split
    | exact fun _ => @rfl SecState _
    | intro

end Sys2Proof.Machine
end

