-- ==== Sys2Proof/Laws/KeepsSequences.lean ====
section
/-! SUPPORT. Laws/KeepsSequences.lean: every operation of Machine/Sequences.lean is among those that `Keeps` describes. -/

namespace Sys2Proof.Machine

theorem modFes_keeps {h : Nat} {f : Fes → Fes} {s : State} {s0 : State} (hk : Keeps s0 s) : Keeps s0 (modFes h f s) := by
  unfold modFes
  try dsimp only
  repeat first
    | with_reducible assumption
    | (with_reducible first | apply Keeps.modHearth)
    | ((with_reducible refine HearthKeeps.mk ?_ ?_) <;> first | rfl | exact fun g => g | exact fun g => by simpa [hearthShape] using g)
    | intro

theorem runAct_keeps {h : Nat} {ch : Nat} {s : State} {s0 : State} (hk : Keeps s0 s) : Keeps s0 (runAct h ch s) := by
  unfold runAct
  try dsimp only
  repeat first
    | with_reducible assumption
    | (with_reducible first | apply modFes_keeps)
    | split
    | intro

theorem setActuator_keeps {h : Nat} {ch : Nat} {value : Nat} {s : State} {s0 : State} (hk : Keeps s0 s) : Keeps s0 (setActuator h ch value s) := by
  unfold setActuator
  try dsimp only
  repeat first
    | with_reducible assumption
    | (with_reducible first | apply modFes_keeps)
    | split
    | intro

theorem actEnded_keeps {h : Nat} {ch : Nat} {s : State} {s0 : State} (hk : Keeps s0 s) : Keeps s0 (actEnded h ch s) := by
  unfold actEnded
  try dsimp only
  repeat first
    | with_reducible assumption
    | (with_reducible first | apply runAct_keeps | apply modFes_keeps)
    | split
    | intro

theorem runAccess_keeps {h : Nat} {s : State} {s0 : State} (hk : Keeps s0 s) : Keeps s0 (runAccess h s) := by
  unfold runAccess
  try dsimp only
  repeat first
    | with_reducible assumption
    | (with_reducible first | apply modFes_keeps)
    | split
    | intro

end Sys2Proof.Machine
end

