-- ==== Sys2Proof/Laws/KeepsCommit.lean ====
section
/-! SUPPORT. Laws/KeepsCommit.lean: every operation of Machine/Commit.lean is among those that `Keeps` describes. -/

namespace Sys2Proof.Machine

theorem stageStep_keeps {h : Nat} {c : Nat} {target : Nat} {cause : Nat} {s : State} {s0 : State} (hk : Keeps s0 s) : Keeps s0 (stageStep h c target cause s) := by
  unfold stageStep
  try dsimp only
  repeat first
    | with_reducible assumption
    | (with_reducible first | apply modPort_keeps)
    | intro

theorem issueStep_keeps {h : Nat} {c : Nat} {s : State} {s0 : State} (hk : Keeps s0 s) : Keeps s0 (issueStep h c s) := by
  unfold issueStep
  try dsimp only
  repeat first
    | with_reducible assumption
    | (with_reducible first | apply modFes_keeps | apply modPort_keeps)
    | split
    | intro

theorem fesTick_keeps {h : Nat} {s : State} {s0 : State} (hk : Keeps s0 s) : Keeps s0 (fesTick h s) := by
  unfold fesTick
  try dsimp only
  repeat first
    | with_reducible assumption
    | (with_reducible first | apply issueStep_keeps | apply runAccess_keeps | apply runAct_keeps | apply modFes_keeps)
    | (with_reducible first | apply Keeps.each)
    | intro

theorem stageDelta_keeps {h : Nat} {n : Nat} {x : Delta} {s : State} {s0 : State} (hk : Keeps s0 s) : Keeps s0 (stageDelta h n x s) := by
  unfold stageDelta
  try dsimp only
  repeat first
    | with_reducible assumption
    | (with_reducible first | apply modLcal_keeps)
    | split
    | intro

theorem commitDelta_keeps {h : Nat} {n : Nat} {s : State} {s0 : State} (hk : Keeps s0 s) : Keeps s0 (commitDelta h n s) := by
  unfold commitDelta
  try dsimp only
  repeat first
    | with_reducible assumption
    | (with_reducible first | apply modLcal_keeps | apply endHeldFor_keeps | apply emit_keeps | apply Keeps.each)
    | split
    | intro

theorem commitPort_keeps {h : Nat} {c : Nat} {s : State} {s0 : State} (hk : Keeps s0 s) : Keeps s0 (commitPort h c s) := by
  unfold commitPort
  try dsimp only
  repeat first
    | with_reducible assumption
    | (with_reducible first | apply modFes_keeps | apply modPort_keeps | apply modLcal_keeps | apply emit_keeps)
    | (with_reducible first | apply Keeps.each)
    | split
    | intro

theorem applyUnit_keeps {h : Nat} {u : List Nat} {s : State} {s0 : State} (hk : Keeps s0 s) : Keeps s0 (applyUnit h u s) := by
  unfold applyUnit
  try dsimp only
  repeat first
    | with_reducible assumption
    | (with_reducible first | apply commitPort_keeps | apply commitDelta_keeps | apply rotatePath_keeps)
    | (with_reducible first | apply Keeps.each)
    | split
    | intro

theorem deferDelta_keeps {reason : Nat} {hold : Bool} {h : Nat} {n : Nat} {s : State} {s0 : State} (hk : Keeps s0 s) : Keeps s0 (deferDelta reason hold h n s) := by
  unfold deferDelta
  try dsimp only
  repeat first
    | with_reducible assumption
    | (with_reducible first | apply modLcal_keeps | apply emit_keeps | apply Keeps.modHearth)
    | ((with_reducible refine HearthKeeps.mk ?_ ?_) <;> first | rfl | exact fun g => g | exact fun g => by simpa [hearthShape] using g)
    | intro

theorem deferUnit_keeps {h : Nat} {u : List Nat} {p : Nat} {reason : Nat} {s : State} {s0 : State} (hk : Keeps s0 s) : Keeps s0 (deferUnit h u p reason s) := by
  unfold deferUnit
  try dsimp only
  repeat first
    | with_reducible assumption
    | (with_reducible first | apply deferDelta_keeps | apply modBdc_keeps | apply emit_keeps | apply Keeps.each)
    | intro

theorem commitHearth_keeps {h : Nat} {ds : List Decision} {s : State} {s0 : State} (hk : Keeps s0 s) : Keeps s0 (commitHearth h ds s) := by
  unfold commitHearth
  try dsimp only
  repeat first
    | with_reducible assumption
    | (with_reducible first | apply deferUnit_keeps | apply deferDelta_keeps | apply applyUnit_keeps)
    | (with_reducible first | apply modBdc_keeps | apply raiseSource_keeps | apply Keeps.onlyIf | apply Keeps.each)
    | (with_reducible first | apply Keeps.modHearth)
    | split
    | ((with_reducible refine HearthKeeps.mk ?_ ?_) <;> first | rfl | exact fun g => g | exact fun g => by simpa [hearthShape] using g)
    | intro

end Sys2Proof.Machine
end

