-- ==== Sys2Proof/Laws/KeepsLiveCal.lean ====
section
/-! SUPPORT. Laws/KeepsLiveCal.lean: every operation of Machine/LiveCal.lean is among those that `Keeps` describes. -/

namespace Sys2Proof.Machine

theorem modLcalH_keeps {h : Nat} {f : Lcal → Lcal} {s : State} {s0 : State} (hk : Keeps s0 s) : Keeps s0 (modLcalH h f s) := by
  unfold modLcalH
  try dsimp only
  repeat first
    | with_reducible assumption
    | (with_reducible first | apply Keeps.modHearth)
    | ((with_reducible refine HearthKeeps.mk ?_ ?_) <;> first | rfl | exact fun g => g | exact fun g => by simpa [hearthShape] using g)
    | intro

theorem lcalSamples_keeps {flagged : Nat → Bool} {marks : List Nat} {h : Nat} {n : Nat} {s : State} {s0 : State} (hk : Keeps s0 s) : Keeps s0 (lcalSamples flagged marks h n s) := by
  unfold lcalSamples
  try dsimp only
  repeat first
    | with_reducible assumption
    | (with_reducible first | apply modLcal_keeps)
    | split
    | intro

theorem takeLcal_keeps {h : Nat} {n : Nat} {s : State} {s0 : State} (hk : Keeps s0 s) : Keeps s0 (takeLcal h n s) := by
  unfold takeLcal
  try dsimp only
  repeat first
    | with_reducible assumption
    | (with_reducible first | apply modChannels_keeps)

theorem startEst_keeps {forced : Bool} {h : Nat} {n : Nat} {item : Nat} {s : State} {s0 : State} (hk : Keeps s0 s) : Keeps s0 (startEst forced h n item s) := by
  unfold startEst
  try dsimp only
  repeat first
    | with_reducible assumption
    | (with_reducible first | apply takeLcal_keeps | apply modLcal_keeps)
    | split
    | intro

theorem execLcalEstimateStart_keeps {h : Nat} {c : Nat} {item : Nat} {s : State} {s0 : State} (hk : Keeps s0 s) : OutKeeps s0 (execLcalEstimateStart h c item s) := by
  unfold execLcalEstimateStart
  try dsimp only
  repeat first
    | with_reducible assumption
    | (with_reducible first | apply OutKeeps.next | apply startEst_keeps)
    | split

theorem completeEst_keeps {h : Nat} {n : Nat} {item : Nat} {win : Nat} {r : LcalResult} {s : State} {s0 : State} (hk : Keeps s0 s) : Keeps s0 (completeEst h n item win r s) := by
  unfold completeEst
  try dsimp only
  repeat first
    | with_reducible assumption
    | (with_reducible first | apply stageDelta_keeps | apply endEst_keeps | apply modLcal_keeps)
    | (with_reducible first | apply endHeldFor_keeps)
    | split
    | intro

theorem execLcalEstimateComplete_keeps {h : Nat} {c : Nat} {item : Nat} {r : LcalResult} {s : State} {s0 : State} (hk : Keeps s0 s) : OutKeeps s0 (execLcalEstimateComplete h c item r s) := by
  unfold execLcalEstimateComplete
  try dsimp only
  repeat first
    | with_reducible assumption
    | (with_reducible first | apply OutKeeps.next | apply completeEst_keeps | apply modLcal_keeps)
    | (with_reducible first | apply DoneKeeps.reply | apply DoneKeeps.hold | apply DoneKeeps.check)
    | split
    | intro

theorem abandonDue_keeps {h : Nat} {c : Nat} {item : Nat} {s : State} {s0 : State} (hk : Keeps s0 s) : Keeps s0 (abandonDue h c item s) := by
  unfold abandonDue
  try dsimp only
  repeat first
    | with_reducible assumption
    | (with_reducible first | apply startEst_keeps | apply endEst_keeps | apply modLcal_keeps)
    | (with_reducible first | apply endHeldFor_keeps | apply emit_keeps | apply Keeps.onlyIf)
    | split
    | intro

theorem execLcalEstimateAbandon_keeps {h : Nat} {c : Nat} {item : Nat} {s : State} {s0 : State} (hk : Keeps s0 s) : OutKeeps s0 (execLcalEstimateAbandon h c item s) := by
  unfold execLcalEstimateAbandon
  try dsimp only
  repeat first
    | with_reducible assumption
    | (with_reducible first | apply OutKeeps.next | apply abandonDue_keeps)

theorem withdrawDue_keeps {h : Nat} {c : Nat} {s : State} {s0 : State} (hk : Keeps s0 s) : Keeps s0 (withdrawDue h c s) := by
  unfold withdrawDue
  try dsimp only
  repeat first
    | with_reducible assumption
    | (with_reducible first | apply startEst_keeps | apply withdrawDelta_keeps | apply Keeps.each)
    | split
    | intro

theorem execDeltaWithdraw_keeps {h : Nat} {c : Nat} {s : State} {s0 : State} (hk : Keeps s0 s) : OutKeeps s0 (execDeltaWithdraw h c s) := by
  unfold execDeltaWithdraw
  try dsimp only
  repeat first
    | with_reducible assumption
    | (with_reducible first | apply OutKeeps.next | apply withdrawDue_keeps)

theorem alternateDue_keeps {h : Nat} {n : Nat} {s : State} {s0 : State} (hk : Keeps s0 s) : Keeps s0 (alternateDue h n s) := by
  unfold alternateDue
  try dsimp only
  repeat first
    | with_reducible assumption
    | (with_reducible first | apply moveOrx_keeps)
    | split

theorem execOrxAlternate_keeps {h : Nat} {n : Nat} {s : State} {s0 : State} (hk : Keeps s0 s) : OutKeeps s0 (execOrxAlternate h n s) := by
  unfold execOrxAlternate
  try dsimp only
  repeat first
    | with_reducible assumption
    | (with_reducible first | apply OutKeeps.next | apply alternateDue_keeps)

theorem lcalTick_keeps {h : Nat} {s : State} {s0 : State} (hk : Keeps s0 s) : Keeps s0 (lcalTick h s) := by
  unfold lcalTick
  try dsimp only
  repeat first
    | with_reducible assumption
    | (with_reducible first | apply takeLcal_keeps | apply modLcal_keeps | apply Keeps.each)
    | split
    | intro

theorem abortEst_keeps {h : Nat} {n : Nat} {item : Nat} {s : State} {s0 : State} (hk : Keeps s0 s) : Keeps s0 (abortEst h n item s) := by
  unfold abortEst
  try dsimp only
  repeat first
    | with_reducible assumption
    | (with_reducible first | apply endEst_keeps | apply endHeldFor_keeps | apply Keeps.onlyIf)
    | split
    | intro

theorem enableItem_keeps {on : Bool} {h : Nat} {n : Nat} {item : Nat} {s : State} {s0 : State} (hk : Keeps s0 s) : Keeps s0 (enableItem on h n item s) := by
  unfold enableItem
  try dsimp only
  repeat first
    | with_reducible assumption
    | (with_reducible first | apply abortEst_keeps | apply modLcal_keeps)
    | split
    | intro

theorem lcalConfig_keeps {p : Packet} {s : State} {s0 : State} (hk : Keeps s0 s) : DoneKeeps s0 (lcalConfig p s) := by
  unfold lcalConfig
  try dsimp only
  repeat first
    | with_reducible assumption
    | (with_reducible first | apply DoneKeeps.reply | apply DoneKeeps.hold | apply DoneKeeps.check)
    | (with_reducible first | apply enableItem_keeps | apply modLcalH_keeps | apply Keeps.each)
    | split
    | intro

theorem execLcalConfig_keeps {p : Packet} {s : State} {s0 : State} (hk : Keeps s0 s) : OutKeeps s0 (execLcalConfig p s) := by
  unfold execLcalConfig
  try dsimp only
  repeat first
    | with_reducible assumption
    | (with_reducible first | apply OutKeeps.next | apply lcalConfig_keeps | apply runCommand_keeps)
    | (with_reducible first | apply DoneKeeps.reply | apply DoneKeeps.hold | apply DoneKeeps.check)
    | intro

theorem lcalRun_keeps {p : Packet} {s : State} {s0 : State} (hk : Keeps s0 s) : DoneKeeps s0 (lcalRun p s) := by
  unfold lcalRun
  try dsimp only
  repeat first
    | with_reducible assumption
    | (with_reducible first | apply DoneKeeps.reply | apply DoneKeeps.hold | apply DoneKeeps.check)
    | (with_reducible first | apply startEst_keeps | apply modLcal_keeps)
    | split
    | intro

theorem execLcalRun_keeps {p : Packet} {s : State} {s0 : State} (hk : Keeps s0 s) : OutKeeps s0 (execLcalRun p s) := by
  unfold execLcalRun
  try dsimp only
  repeat first
    | with_reducible assumption
    | (with_reducible first | apply OutKeeps.next | apply lcalRun_keeps | apply runCommand_keeps)
    | (with_reducible first | apply DoneKeeps.reply | apply DoneKeeps.hold | apply DoneKeeps.check)
    | intro

theorem lcalQuery_keeps {p : Packet} {s : State} {s0 : State} (hk : Keeps s0 s) : DoneKeeps s0 (lcalQuery p s) := by
  unfold lcalQuery
  try dsimp only
  repeat first
    | with_reducible assumption
    | (with_reducible first | apply DoneKeeps.reply | apply DoneKeeps.hold | apply DoneKeeps.check)
    | intro

theorem execLcalQuery_keeps {p : Packet} {s : State} {s0 : State} (hk : Keeps s0 s) : OutKeeps s0 (execLcalQuery p s) := by
  unfold execLcalQuery
  try dsimp only
  repeat first
    | with_reducible assumption
    | (with_reducible first | apply OutKeeps.next | apply lcalQuery_keeps | apply runCommand_keeps)
    | (with_reducible first | apply DoneKeeps.reply | apply DoneKeeps.hold | apply DoneKeeps.check)
    | intro

theorem holdChain_keeps {h : Nat} {n : Nat} {s : State} {s0 : State} (hk : Keeps s0 s) : Keeps s0 (holdChain h n s) := by
  unfold holdChain
  try dsimp only
  repeat first
    | with_reducible assumption
    | (with_reducible first | apply endEst_keeps | apply modLcal_keeps | apply endHeldFor_keeps | apply Keeps.each)
    | intro

theorem lcalHold_keeps {p : Packet} {s : State} {s0 : State} (hk : Keeps s0 s) : DoneKeeps s0 (lcalHold p s) := by
  unfold lcalHold
  try dsimp only
  repeat first
    | with_reducible assumption
    | (with_reducible first | apply DoneKeeps.reply | apply DoneKeeps.hold | apply DoneKeeps.check)
    | (with_reducible first | apply holdChain_keeps | apply modLcalH_keeps | apply Keeps.each)
    | split
    | intro

theorem execLcalHold_keeps {p : Packet} {s : State} {s0 : State} (hk : Keeps s0 s) : OutKeeps s0 (execLcalHold p s) := by
  unfold execLcalHold
  try dsimp only
  repeat first
    | with_reducible assumption
    | (with_reducible first | apply OutKeeps.next | apply lcalHold_keeps | apply runCommand_keeps)
    | (with_reducible first | apply DoneKeeps.reply | apply DoneKeeps.hold | apply DoneKeeps.check)
    | intro

theorem execLcalCntClr_keeps {h : Nat} {s : State} {s0 : State} (hk : Keeps s0 s) : OutKeeps s0 (execLcalCntClr h s) := by
  unfold execLcalCntClr
  try dsimp only
  repeat first
    | with_reducible assumption
    | (with_reducible first | apply OutKeeps.next | apply modLcalH_keeps | apply DoneKeeps.reply)
    | (with_reducible first | apply DoneKeeps.hold | apply DoneKeeps.check)
    | split
    | intro

end Sys2Proof.Machine
end

