-- ==== Sys2Proof/Laws/KeepsThermal.lean ====
section
/-! SUPPORT. Laws/KeepsThermal.lean: every operation of Machine/Thermal.lean is among those that `Keeps` describes. -/

namespace Sys2Proof.Machine

theorem modThm_keeps {h : Nat} {f : Thm → Thm} {s : State} {s0 : State} (hk : Keeps s0 s) : Keeps s0 (modThm h f s) := by
  unfold modThm
  try dsimp only
  repeat first
    | with_reducible assumption
    | (with_reducible first | apply Keeps.modHearth)
    | ((with_reducible refine HearthKeeps.mk ?_ ?_) <;> first | rfl | exact fun g => g | exact fun g => by simpa [hearthShape] using g)
    | intro

theorem levelEvent_keeps {h : Nat} {before : Word} {s : State} {s0 : State} (hk : Keeps s0 s) : Keeps s0 (levelEvent h before s) := by
  unfold levelEvent
  try dsimp only
  repeat first
    | with_reducible assumption
    | (with_reducible first | apply emit_keeps)
    | split

theorem powerDownRf_keeps {s : State} {s0 : State} (hk : Keeps s0 s) : Keeps s0 (powerDownRf s) := by
  unfold powerDownRf
  try dsimp only
  repeat first
    | with_reducible assumption
    | (with_reducible first | apply Keeps.modThmPkg | apply modThm_keeps | apply evalGates_keeps | apply synOff_keeps)
    | (with_reducible first | apply Keeps.each)
    | intro

theorem thermalDrain_keeps {s : State} {s0 : State} (hk : Keeps s0 s) : Keeps s0 (thermalDrain s) := by
  unfold thermalDrain
  try dsimp only
  repeat first
    | with_reducible assumption
    | (with_reducible first | apply powerDownRf_keeps | apply Keeps.modThmPkg | apply triggerEmbers_keeps)
    | split
    | intro

theorem drain_keeps {s : State} {s0 : State} (hk : Keeps s0 s) : Keeps s0 (drain s) := by
  unfold drain
  try dsimp only
  repeat first
    | with_reducible assumption
    | (with_reducible first | apply thermalDrain_keeps | apply drainCommands_keeps)

theorem beginStop_keeps {cause : Nat} {h : Nat} {zone : Nat} {s : State} {s0 : State} (hk : Keeps s0 s) : Keeps s0 (beginStop cause h zone s) := by
  unfold beginStop
  try dsimp only
  repeat first
    | with_reducible assumption
    | (with_reducible first | apply thermalDrain_keeps | apply Keeps.modThmPkg | apply modThm_keeps)
    | (with_reducible first | apply setHolds_keeps | apply emit_keeps)
    | split
    | intro

theorem trip_keeps {h : Nat} {zone : Nat} {s : State} {s0 : State} (hk : Keeps s0 s) : Keeps s0 (trip h zone s) := by
  unfold trip
  try dsimp only
  repeat first
    | with_reducible assumption
    | (with_reducible first | apply beginStop_keeps | apply Keeps.modThmPkg | apply modThm_keeps)
    | (with_reducible first | apply evalGates_keeps | apply raiseSource_keeps)
    | split
    | intro

theorem execThermalTrip_keeps {h : Nat} {zone : Nat} {s : State} {s0 : State} (hk : Keeps s0 s) : OutKeeps s0 (execThermalTrip h zone s) := by
  unfold execThermalTrip
  try dsimp only
  repeat first
    | with_reducible assumption
    | (with_reducible first | apply OutKeeps.next | apply trip_keeps)
    | split

theorem thermalRelease_keeps {cause : Nat} {s : State} {s0 : State} (hk : Keeps s0 s) : Keeps s0 (thermalRelease cause s) := by
  unfold thermalRelease
  try dsimp only
  repeat first
    | with_reducible assumption
    | (with_reducible first | apply Keeps.modThmPkg | apply modThm_keeps | apply evalGates_keeps)
    | (with_reducible first | apply repeatSyn_keeps | apply setHolds_keeps | apply emit_keeps | apply Keeps.each)
    | intro

theorem resumeDue_keeps {s : State} {s0 : State} (hk : Keeps s0 s) : Keeps s0 (resumeDue s) := by
  unfold resumeDue
  try dsimp only
  repeat first
    | with_reducible assumption
    | (with_reducible first | apply thermalRelease_keeps | apply Keeps.modThmPkg)
    | split
    | intro

theorem execResumeOkSet_keeps {s : State} {s0 : State} (hk : Keeps s0 s) : OutKeeps s0 (execResumeOkSet s) := by
  unfold execResumeOkSet
  try dsimp only
  repeat first
    | with_reducible assumption
    | (with_reducible first | apply OutKeeps.next | apply resumeDue_keeps)

theorem resumeTick_keeps {s : State} {s0 : State} (hk : Keeps s0 s) : Keeps s0 (resumeTick s) := by
  unfold resumeTick
  try dsimp only
  repeat first
    | with_reducible assumption
    | (with_reducible first | apply Keeps.modThmPkg)
    | split
    | intro

theorem breakSensor_keeps {h : Nat} {i : Nat} {test : Nat} {s : State} {s0 : State} (hk : Keeps s0 s) : Keeps s0 (breakSensor h i test s) := by
  unfold breakSensor
  try dsimp only
  repeat first
    | with_reducible assumption
    | (with_reducible first | apply modThm_keeps | apply raiseSource_keeps | apply note_keeps)
    | split
    | intro

theorem derate_keeps {h : Nat} {s s0 : State} (hk : Keeps s0 s) : Keeps s0 (derate h s) := by
  unfold derate
  refine modThm_keeps (hk.each fun i u hu => hu.modSec fun y => ?_)
  split
  · split <;> rfl
  · rfl

theorem convert_keeps {h : Nat} {raw : List Int} {s s0 : State} (hk : Keeps s0 s) : Keeps s0 (convert h raw s) := by
  unfold convert
  extract_lets old same t1 t2 t3
  have k1 : Keeps s0 t1 := modThm_keeps hk
  have k2 : Keeps s0 t2 := k1.each fun i u hu => by
    cases failedTest raw same i with
    | none => exact hu
    | some k => exact breakSensor_keeps hu
  have k3 : Keeps s0 t3 := modThm_keeps k2
  clear_value t3
  split
  · exact trip_keeps k3
  · exact k3

theorem execThmConversion_keeps {h : Nat} {temps : List Int} {s : State} {s0 : State} (hk : Keeps s0 s) : OutKeeps s0 (execThmConversion h temps s) := by
  unfold execThmConversion
  try dsimp only
  repeat first
    | with_reducible assumption
    | (with_reducible first | apply OutKeeps.next | apply convert_keeps)
    | split

theorem evalConversion_keeps {h : Nat} {s : State} {s0 : State} (hk : Keeps s0 s) : Keeps s0 (evalConversion h s) := by
  unfold evalConversion
  try dsimp only
  repeat first
    | with_reducible assumption
    | (with_reducible first | apply beginStop_keeps | apply modThm_keeps | apply clearSource_keeps)
    | (with_reducible first | apply holdSource_keeps)
    | split
    | intro

theorem derateTick_keeps {h : Nat} {s : State} {s0 : State} (hk : Keeps s0 s) : Keeps s0 (derateTick h s) := by
  unfold derateTick
  try dsimp only
  repeat first
    | with_reducible assumption
    | (with_reducible first | apply evalConversion_keeps | apply derate_keeps | apply levelEvent_keeps)
    | (with_reducible first | apply modThm_keeps)
    | split
    | intro

theorem setShed_keeps {on : Bool} {h : Nat} {i : Nat} {s : State} {s0 : State} (hk : Keeps s0 s) : Keeps s0 (setShed on h i s) := by
  unfold setShed
  try dsimp only
  repeat first
    | with_reducible assumption
    | (with_reducible first | apply startDown_keeps | apply Keeps.modSec)
    | split
    | exact fun _ => @rfl SecState _
    | intro

theorem shedLevel_keeps {on : Bool} {h : Nat} {p : Nat} {s : State} {s0 : State} (hk : Keeps s0 s) : Keeps s0 (shedLevel on h p s) := by
  unfold shedLevel
  try dsimp only
  repeat first
    | with_reducible assumption
    | (with_reducible first | apply setShed_keeps | apply levelEvent_keeps | apply modThm_keeps | apply emit_keeps)
    | (with_reducible first | apply Keeps.each)
    | split
    | intro

theorem shedDue_keeps {h : Nat} {s : State} {s0 : State} (hk : Keeps s0 s) : Keeps s0 (shedDue h s) := by
  unfold shedDue
  try dsimp only
  repeat first
    | with_reducible assumption
    | (with_reducible first | apply shedLevel_keeps)
    | split

theorem execShedTimer_keeps {h : Nat} {s : State} {s0 : State} (hk : Keeps s0 s) : OutKeeps s0 (execShedTimer h s) := by
  unfold execShedTimer
  try dsimp only
  repeat first
    | with_reducible assumption
    | (with_reducible first | apply OutKeeps.next | apply shedDue_keeps)

theorem thermalConfig_keeps {p : Packet} {s : State} {s0 : State} (hk : Keeps s0 s) : DoneKeeps s0 (thermalConfig p s) := by
  unfold thermalConfig
  try dsimp only
  repeat first
    | with_reducible assumption
    | (with_reducible first | apply DoneKeeps.reply | apply DoneKeeps.hold | apply DoneKeeps.check)
    | (with_reducible first | apply modThm_keeps | apply Keeps.each)
    | intro

theorem execThermalConfig_keeps {p : Packet} {s : State} {s0 : State} (hk : Keeps s0 s) : OutKeeps s0 (execThermalConfig p s) := by
  unfold execThermalConfig
  try dsimp only
  repeat first
    | with_reducible assumption
    | (with_reducible first | apply OutKeeps.next | apply thermalConfig_keeps | apply runCommand_keeps)
    | (with_reducible first | apply DoneKeeps.reply | apply DoneKeeps.hold | apply DoneKeeps.check)
    | intro

theorem thermalResume_keeps {_p : Packet} {s : State} {s0 : State} (hk : Keeps s0 s) : DoneKeeps s0 (thermalResume _p s) := by
  unfold thermalResume
  try dsimp only
  repeat first
    | with_reducible assumption
    | (with_reducible first | apply DoneKeeps.reply | apply DoneKeeps.hold | apply DoneKeeps.check)
    | (with_reducible first | apply thermalRelease_keeps)
    | intro

theorem execThermalResume_keeps {p : Packet} {s : State} {s0 : State} (hk : Keeps s0 s) : OutKeeps s0 (execThermalResume p s) := by
  unfold execThermalResume
  try dsimp only
  repeat first
    | with_reducible assumption
    | (with_reducible first | apply OutKeeps.next | apply thermalResume_keeps | apply runCommand_keeps)
    | (with_reducible first | apply DoneKeeps.reply | apply DoneKeeps.hold | apply DoneKeeps.check)
    | intro

theorem thermalQuery_keeps {p : Packet} {s : State} {s0 : State} (hk : Keeps s0 s) : DoneKeeps s0 (thermalQuery p s) := by
  unfold thermalQuery
  try dsimp only
  repeat first
    | with_reducible assumption
    | (with_reducible first | apply DoneKeeps.reply | apply DoneKeeps.hold | apply DoneKeeps.check)
    | intro

theorem execThermalQuery_keeps {p : Packet} {s : State} {s0 : State} (hk : Keeps s0 s) : OutKeeps s0 (execThermalQuery p s) := by
  unfold execThermalQuery
  try dsimp only
  repeat first
    | with_reducible assumption
    | (with_reducible first | apply OutKeeps.next | apply thermalQuery_keeps | apply runCommand_keeps)
    | (with_reducible first | apply DoneKeeps.reply | apply DoneKeeps.hold | apply DoneKeeps.check)
    | intro

theorem execThmCntClr_keeps {h : Nat} {s : State} {s0 : State} (hk : Keeps s0 s) : OutKeeps s0 (execThmCntClr h s) := by
  unfold execThmCntClr
  try dsimp only
  repeat first
    | with_reducible assumption
    | (with_reducible first | apply OutKeeps.next | apply modThm_keeps | apply DoneKeeps.reply | apply DoneKeeps.hold)
    | (with_reducible first | apply DoneKeeps.check)
    | split
    | intro

end Sys2Proof.Machine
end

