-- ==== Sys2Proof/Laws/KeepsSections.lean ====
section
/-! SUPPORT. Laws/KeepsSections.lean: every operation of Machine/Sections.lean is among those that `Keeps` describes. -/

namespace Sys2Proof.Machine

theorem startSection_keeps {h : Nat} {i : Nat} {s : State} {s0 : State} (hk : Keeps s0 s) : Keeps s0 (startSection h i s) := by
  unfold startSection
  try dsimp only
  repeat first
    | with_reducible assumption
    | (with_reducible first | apply enterRamping_keeps | apply clearQuench_keeps)

theorem settleStart_keeps {h : Nat} {i : Nat} {s : State} {s0 : State} (hk : Keeps s0 s) : Keeps s0 (settleStart h i s) := by
  unfold settleStart
  try dsimp only
  repeat first
    | with_reducible assumption
    | (with_reducible first | apply startSection_keeps | apply startDue_keeps | apply Keeps.modSec)
    | split
    | exact fun _ => @rfl SecState _
    | intro

theorem closeStart_keeps {h : Nat} {i : Nat} {s : State} {s0 : State} (hk : Keeps s0 s) : Keeps s0 (closeStart h i s) := by
  unfold closeStart
  try dsimp only
  repeat first
    | with_reducible assumption
    | (with_reducible first | apply settleStart_keeps | apply startDue_keeps | apply Keeps.modCpx)
    | (with_reducible first | apply Keeps.modSec)
    | split
    | exact fun _ => @rfl SecState _
    | exact fun _ => List.prefix_refl _
    | exact fun _ => List.prefix_append _ _
    | exact fun _ h => h
    | exact fun _ h => kset_kwf _ _ _ h
    | exact fun _ _ => rfl
    | intro

theorem noLockEvent_keeps {h : Nat} {i : Nat} {s : State} {s0 : State} (hk : Keeps s0 s) : Keeps s0 (noLockEvent h i s) := by
  unfold noLockEvent
  try dsimp only
  repeat first
    | with_reducible assumption
    | (with_reducible first | apply emit_keeps)

theorem retryStart_keeps {h : Nat} {i : Nat} {c : Held} {s : State} {s0 : State} (hk : Keeps s0 s) : Keeps s0 (retryStart h i c s) := by
  unfold retryStart
  try dsimp only
  repeat first
    | with_reducible assumption
    | (with_reducible first | apply noLockEvent_keeps | apply startSection_keeps | apply endHeld_keeps)
    | split

theorem locksArrived_keeps {h : Nat} {s : State} {s0 : State} (hk : Keeps s0 s) : Keeps s0 (locksArrived h s) := by
  unfold locksArrived
  try dsimp only
  repeat first
    | with_reducible assumption
    | (with_reducible first | apply retryStart_keeps | apply lockWaiters_keeps | apply Keeps.each)
    | split
    | intro

theorem abortStart_keeps {h : Nat} {i : Nat} {s : State} {s0 : State} (hk : Keeps s0 s) : Keeps s0 (abortStart h i s) := by
  unfold abortStart
  try dsimp only
  repeat first
    | with_reducible assumption
    | (with_reducible first | apply endHeldFor_keeps)

theorem unbindSlots_keeps {h : Nat} {i : Nat} {s : State} {s0 : State} (hk : Keeps s0 s) : Keeps s0 (unbindSlots h i s) := by
  unfold unbindSlots
  try dsimp only
  repeat first
    | with_reducible assumption
    | (with_reducible first | apply bindSlot_keeps | apply Keeps.each)
    | intro

theorem applyDefine_keeps {h : Nat} {i : Nat} {ws : List Word} {s : State} {s0 : State} (hk : Keeps s0 s) : Keeps s0 (applyDefine h i ws s) := by
  unfold applyDefine
  try dsimp only
  repeat first
    | with_reducible assumption
    | (with_reducible first | apply unbindSlots_keeps | apply abortStart_keeps | apply redefineDmp_keeps)
    | (with_reducible first | apply releasePath_keeps | apply refreshLag_keeps | apply refreshBudget_keeps)
    | (with_reducible first | apply updateGates_keeps | apply bindSlot_keeps | apply applyLos_keeps)
    | (with_reducible first | apply refreshDg_keeps | apply refreshGains_keeps | apply dropStream_keeps)
    | (with_reducible first | apply retrack_keeps | apply setSec_keeps | apply Keeps.each | apply Keeps.modSec)
    | split
    | exact fun _ => @rfl SecState _
    | intro

theorem sectionDefine_keeps {p : Packet} {s : State} {s0 : State} (hk : Keeps s0 s) : DoneKeeps s0 (sectionDefine p s) := by
  unfold sectionDefine
  try dsimp only
  repeat first
    | with_reducible assumption
    | (with_reducible first | apply DoneKeeps.reply | apply DoneKeeps.hold | apply DoneKeeps.check)
    | (with_reducible first | apply applyDefine_keeps)
    | intro

theorem execSectionDefine_keeps {p : Packet} {s : State} {s0 : State} (hk : Keeps s0 s) : OutKeeps s0 (execSectionDefine p s) := by
  unfold execSectionDefine
  try dsimp only
  repeat first
    | with_reducible assumption
    | (with_reducible first | apply OutKeeps.next | apply sectionDefine_keeps | apply runCommand_keeps)
    | (with_reducible first | apply DoneKeeps.reply | apply DoneKeeps.hold | apply DoneKeeps.check)
    | intro

theorem applyDelete_keeps {h : Nat} {i : Nat} {s : State} {s0 : State} (hk : Keeps s0 s) : Keeps s0 (applyDelete h i s) := by
  unfold applyDelete
  try dsimp only
  repeat first
    | with_reducible assumption
    | (with_reducible first | apply unbindSlots_keeps | apply abortStart_keeps | apply redefineDmp_keeps)
    | (with_reducible first | apply releasePath_keeps | apply refreshBudget_keeps | apply clearQuench_keeps)
    | (with_reducible first | apply updateGates_keeps | apply refreshDg_keeps | apply dropStream_keeps)
    | (with_reducible first | apply retrack_keeps | apply setSec_keeps | apply Keeps.each | apply Keeps.modSec)
    | exact fun _ => @rfl SecState _
    | intro

theorem sectionDelete_keeps {p : Packet} {s : State} {s0 : State} (hk : Keeps s0 s) : DoneKeeps s0 (sectionDelete p s) := by
  unfold sectionDelete
  try dsimp only
  repeat first
    | with_reducible assumption
    | (with_reducible first | apply DoneKeeps.reply | apply DoneKeeps.hold | apply DoneKeeps.check)
    | (with_reducible first | apply applyDelete_keeps)
    | intro

theorem execSectionDelete_keeps {p : Packet} {s : State} {s0 : State} (hk : Keeps s0 s) : OutKeeps s0 (execSectionDelete p s) := by
  unfold execSectionDelete
  try dsimp only
  repeat first
    | with_reducible assumption
    | (with_reducible first | apply OutKeeps.next | apply sectionDelete_keeps | apply runCommand_keeps)
    | (with_reducible first | apply DoneKeeps.reply | apply DoneKeeps.hold | apply DoneKeeps.check)
    | intro

theorem querySection_keeps {p : Packet} {s : State} {s0 : State} (hk : Keeps s0 s) : DoneKeeps s0 (querySection p s) := by
  unfold querySection
  try dsimp only
  repeat first
    | with_reducible assumption
    | (with_reducible first | apply DoneKeeps.reply | apply DoneKeeps.hold | apply DoneKeeps.check)
    | intro

theorem execSectionQuery_keeps {p : Packet} {s : State} {s0 : State} (hk : Keeps s0 s) : OutKeeps s0 (execSectionQuery p s) := by
  unfold execSectionQuery
  try dsimp only
  repeat first
    | with_reducible assumption
    | (with_reducible first | apply OutKeeps.next | apply querySection_keeps | apply runCommand_keeps)
    | (with_reducible first | apply DoneKeeps.reply | apply DoneKeeps.hold | apply DoneKeeps.check)
    | intro

theorem sectionStart_keeps {p : Packet} {s : State} {s0 : State} (hk : Keeps s0 s) : DoneKeeps s0 (sectionStart p s) := by
  unfold sectionStart
  try dsimp only
  repeat first
    | with_reducible assumption
    | (with_reducible first | apply DoneKeeps.reply | apply DoneKeeps.hold | apply DoneKeeps.check)
    | (with_reducible first | apply noLockEvent_keeps | apply startDue_keeps | apply Keeps.modSec)
    | split
    | exact fun _ => @rfl SecState _
    | intro

theorem execSectionStart_keeps {p : Packet} {s : State} {s0 : State} (hk : Keeps s0 s) : OutKeeps s0 (execSectionStart p s) := by
  unfold execSectionStart
  try dsimp only
  repeat first
    | with_reducible assumption
    | (with_reducible first | apply OutKeeps.next | apply sectionStart_keeps | apply runCommand_keeps)
    | (with_reducible first | apply DoneKeeps.reply | apply DoneKeeps.hold | apply DoneKeeps.check)
    | intro

theorem applyStop_keeps {h : Nat} {i : Nat} {s : State} {s0 : State} (hk : Keeps s0 s) : Keeps s0 (applyStop h i s) := by
  unfold applyStop
  try dsimp only
  repeat first
    | with_reducible assumption
    | (with_reducible first | apply abortStart_keeps | apply stopQuenched_keeps | apply clearQuench_keeps)
    | (with_reducible first | apply startDown_keeps | apply Keeps.modSec)
    | split
    | exact fun _ => @rfl SecState _
    | intro

theorem sectionStop_keeps {p : Packet} {s : State} {s0 : State} (hk : Keeps s0 s) : DoneKeeps s0 (sectionStop p s) := by
  unfold sectionStop
  try dsimp only
  repeat first
    | with_reducible assumption
    | (with_reducible first | apply DoneKeeps.reply | apply DoneKeeps.hold | apply DoneKeeps.check)
    | (with_reducible first | apply applyStop_keeps | apply settleStart_keeps | apply Keeps.modSec)
    | split
    | exact fun _ => @rfl SecState _
    | intro

theorem execSectionStop_keeps {p : Packet} {s : State} {s0 : State} (hk : Keeps s0 s) : OutKeeps s0 (execSectionStop p s) := by
  unfold execSectionStop
  try dsimp only
  repeat first
    | with_reducible assumption
    | (with_reducible first | apply OutKeeps.next | apply sectionStop_keeps | apply runCommand_keeps)
    | (with_reducible first | apply DoneKeeps.reply | apply DoneKeeps.hold | apply DoneKeeps.check)
    | intro

theorem enterLive_keeps {h : Nat} {i : Nat} {s : State} {s0 : State} (hk : Keeps s0 s) : Keeps s0 (enterLive h i s) := by
  unfold enterLive
  try dsimp only
  repeat first
    | with_reducible assumption
    | (with_reducible first | apply setSec_keeps | apply Keeps.modSec)
    | split
    | exact fun _ => @rfl SecState _
    | intro

theorem endRamp_keeps {h : Nat} {i : Nat} {s : State} {s0 : State} (hk : Keeps s0 s) : Keeps s0 (endRamp h i s) := by
  unfold endRamp
  try dsimp only
  repeat first
    | with_reducible assumption
    | (with_reducible first | apply enterLive_keeps | apply modLoop_keeps | apply Keeps.each)
    | split
    | intro

theorem execSectionRampDone_keeps {h : Nat} {i : Nat} {s : State} {s0 : State} (hk : Keeps s0 s) : OutKeeps s0 (execSectionRampDone h i s) := by
  unfold execSectionRampDone
  try dsimp only
  repeat first
    | with_reducible assumption
    | (with_reducible first | apply OutKeeps.next | apply endRamp_keeps)

theorem undamp_keeps {h : Nat} {i : Nat} {s : State} {s0 : State} (hk : Keeps s0 s) : Keeps s0 (undamp h i s) := by
  unfold undamp
  try dsimp only
  repeat first
    | with_reducible assumption
    | (with_reducible first | apply setSec_keeps)
    | split

theorem execSectionUndamp_keeps {h : Nat} {i : Nat} {s : State} {s0 : State} (hk : Keeps s0 s) : OutKeeps s0 (execSectionUndamp h i s) := by
  unfold execSectionUndamp
  try dsimp only
  repeat first
    | with_reducible assumption
    | (with_reducible first | apply OutKeeps.next | apply undamp_keeps)

theorem endDown_keeps {h : Nat} {i : Nat} {r : DownRamp} {s : State} {s0 : State} (hk : Keeps s0 s) : Keeps s0 (endDown h i r s) := by
  unfold endDown
  try dsimp only
  repeat first
    | with_reducible assumption
    | (with_reducible first | apply drain_keeps | apply updateGates_keeps | apply modLoop_keeps | apply setSec_keeps)
    | (with_reducible first | apply Keeps.each | apply Keeps.modSec)
    | exact fun _ => @rfl SecState _
    | intro

theorem downRampTick_keeps {h : Nat} {i : Nat} {s : State} {s0 : State} (hk : Keeps s0 s) : Keeps s0 (downRampTick h i s) := by
  unfold downRampTick
  try dsimp only
  repeat first
    | with_reducible assumption
    | (with_reducible first | apply endDown_keeps)
    | split

theorem execDownRampEnd_keeps {h : Nat} {i : Nat} {s : State} {s0 : State} (hk : Keeps s0 s) : OutKeeps s0 (execDownRampEnd h i s) := by
  unfold execDownRampEnd
  try dsimp only
  repeat first
    | with_reducible assumption
    | (with_reducible first | apply OutKeeps.next | apply downRampTick_keeps)

theorem resumeSection_keeps {h : Nat} {i : Nat} {s : State} {s0 : State} (hk : Keeps s0 s) : Keeps s0 (resumeSection h i s) := by
  unfold resumeSection
  try dsimp only
  repeat first
    | with_reducible assumption
    | (with_reducible first | apply enterRamping_keeps | apply Keeps.modSec)
    | split
    | exact fun _ => @rfl SecState _
    | intro

theorem execSectionResume_keeps {h : Nat} {i : Nat} {s : State} {s0 : State} (hk : Keeps s0 s) : OutKeeps s0 (execSectionResume h i s) := by
  unfold execSectionResume
  try dsimp only
  repeat first
    | with_reducible assumption
    | (with_reducible first | apply OutKeeps.next | apply resumeSection_keeps)

theorem execGrtTxsatClr_keeps {h : Nat} {s : State} {s0 : State} (hk : Keeps s0 s) : OutKeeps s0 (execGrtTxsatClr h s) := by
  unfold execGrtTxsatClr
  try dsimp only
  repeat first
    | with_reducible assumption
    | (with_reducible first | apply OutKeeps.next | apply Keeps.modHearth | apply DoneKeeps.reply)
    | (with_reducible first | apply DoneKeeps.hold | apply DoneKeeps.check)
    | split
    | ((with_reducible refine HearthKeeps.mk ?_ ?_) <;> first | rfl | exact fun g => g | exact fun g => by simpa [hearthShape] using g)
    | intro

theorem execSecSatClr_keeps {h : Nat} {i : Nat} {s : State} {s0 : State} (hk : Keeps s0 s) : OutKeeps s0 (execSecSatClr h i s) := by
  unfold execSecSatClr
  try dsimp only
  repeat first
    | with_reducible assumption
    | (with_reducible first | apply OutKeeps.next | apply Keeps.modSec | apply DoneKeeps.reply | apply DoneKeeps.hold)
    | (with_reducible first | apply DoneKeeps.check)
    | split
    | exact fun _ => @rfl SecState _
    | intro

end Sys2Proof.Machine
end

