-- ==== Sys2Proof/Laws/KeepsRadio.lean ====
section
/-! SUPPORT. Laws/KeepsRadio.lean: every operation of Machine/Radio.lean is among those that `Keeps` describes. -/

namespace Sys2Proof.Machine

theorem hearthGates_keeps {h : Nat} {s : State} {s0 : State} (hk : Keeps s0 s) : Keeps s0 (hearthGates h s) := by
  unfold hearthGates
  try dsimp only
  repeat first
    | with_reducible assumption
    | (with_reducible first | apply updateGates_keeps | apply Keeps.each)
    | intro

theorem synLocked_keeps {h : Nat} {n : Nat} {ns : Nat} {s : State} {s0 : State} (hk : Keeps s0 s) : Keeps s0 (synLocked h n ns s) := by
  unfold synLocked
  try dsimp only
  repeat first
    | with_reducible assumption
    | (with_reducible first | apply hearthGates_keeps | apply locksArrived_keeps | apply setSyn_keeps)
    | (with_reducible first | apply modSyn_keeps | apply clearSource_keeps | apply emit_keeps)
    | split
    | intro

theorem execSynLocked_keeps {h : Nat} {n : Nat} {ns : Nat} {s : State} {s0 : State} (hk : Keeps s0 s) : OutKeeps s0 (execSynLocked h n ns s) := by
  unfold execSynLocked
  try dsimp only
  repeat first
    | with_reducible assumption
    | (with_reducible first | apply OutKeeps.next | apply synLocked_keeps | apply arrive_keeps)
    | split

theorem synFailed_keeps {h : Nat} {n : Nat} {s : State} {s0 : State} (hk : Keeps s0 s) : Keeps s0 (synFailed h n s) := by
  unfold synFailed
  try dsimp only
  repeat first
    | with_reducible assumption
    | (with_reducible first | apply setSyn_keeps | apply modSyn_keeps | apply clearSource_keeps)
    | (with_reducible first | apply holdSource_keeps)
    | split
    | intro

theorem execSynAttemptFail_keeps {h : Nat} {n : Nat} {s : State} {s0 : State} (hk : Keeps s0 s) : OutKeeps s0 (execSynAttemptFail h n s) := by
  unfold execSynAttemptFail
  try dsimp only
  repeat first
    | with_reducible assumption
    | (with_reducible first | apply OutKeeps.next | apply synFailed_keeps | apply arrive_keeps)
    | split

theorem synLost_keeps {h : Nat} {n : Nat} {s : State} {s0 : State} (hk : Keeps s0 s) : Keeps s0 (synLost h n s) := by
  unfold synLost
  try dsimp only
  repeat first
    | with_reducible assumption
    | (with_reducible first | apply hearthGates_keeps | apply quench_keeps | apply repeatSyn_keeps)
    | (with_reducible first | apply modSyn_keeps | apply holdSource_keeps | apply Keeps.each)
    | split
    | intro

theorem execSynLockLost_keeps {h : Nat} {x : LockLoss} {s : State} {s0 : State} (hk : Keeps s0 s) : OutKeeps s0 (execSynLockLost h x s) := by
  unfold execSynLockLost
  try dsimp only
  repeat first
    | with_reducible assumption
    | (with_reducible first | apply OutKeeps.next | apply synLost_keeps | apply updateGates_keeps)
    | (with_reducible first | apply modSyn_keeps | apply arrive_keeps | apply Keeps.each | apply DoneKeeps.reply)
    | (with_reducible first | apply DoneKeeps.hold | apply DoneKeeps.check)
    | split
    | intro

theorem synthWaitDue_keeps {h : Nat} {i : Nat} {s : State} {s0 : State} (hk : Keeps s0 s) : Keeps s0 (synthWaitDue h i s) := by
  unfold synthWaitDue
  try dsimp only
  repeat first
    | with_reducible assumption
    | (with_reducible first | apply retryStart_keeps | apply noLockEvent_keeps | apply endHeld_keeps)
    | (with_reducible first | apply Keeps.each)
    | split
    | intro

theorem execSynthWaitExpiry_keeps {h : Nat} {i : Nat} {s : State} {s0 : State} (hk : Keeps s0 s) : OutKeeps s0 (execSynthWaitExpiry h i s) := by
  unfold execSynthWaitExpiry
  try dsimp only
  repeat first
    | with_reducible assumption
    | (with_reducible first | apply OutKeeps.next | apply synthWaitDue_keeps)

theorem refreshPort_keeps {h : Nat} {s : State} {s0 : State} (hk : Keeps s0 s) : Keeps s0 (refreshPort h s) := by
  unfold refreshPort
  try dsimp only
  repeat first
    | with_reducible assumption
    | (with_reducible first | apply refreshDg_keeps | apply refreshGains_keeps)

theorem evaluatePort_keeps {h : Nat} {n : Nat} {s : State} {s0 : State} (hk : Keeps s0 s) : Keeps s0 (evaluatePort h n s) := by
  unfold evaluatePort
  try dsimp only
  repeat first
    | with_reducible assumption
    | (with_reducible first | apply stageStep_keeps | apply modPort_keeps)
    | split
    | intro

theorem execPortEvaluation_keeps {h : Nat} {n : Nat} {s : State} {s0 : State} (hk : Keeps s0 s) : OutKeeps s0 (execPortEvaluation h n s) := by
  unfold execPortEvaluation
  try dsimp only
  repeat first
    | with_reducible assumption
    | (with_reducible first | apply OutKeeps.next | apply evaluatePort_keeps)

theorem trimDelayDue_keeps {h : Nat} {n : Nat} {s : State} {s0 : State} (hk : Keeps s0 s) : Keeps s0 (trimDelayDue h n s) := by
  unfold trimDelayDue
  try dsimp only
  repeat first
    | with_reducible assumption
    | (with_reducible first | apply modPort_keeps)
    | split
    | intro

theorem execTrimDelayExpiry_keeps {h : Nat} {n : Nat} {s : State} {s0 : State} (hk : Keeps s0 s) : OutKeeps s0 (execTrimDelayExpiry h n s) := by
  unfold execTrimDelayExpiry
  try dsimp only
  repeat first
    | with_reducible assumption
    | (with_reducible first | apply OutKeeps.next | apply trimDelayDue_keeps)

theorem portTick_keeps {vdda : Option Nat} {h : Nat} {s : State} {s0 : State} (hk : Keeps s0 s) : Keeps s0 (portTick vdda h s) := by
  unfold portTick
  try dsimp only
  repeat first
    | with_reducible assumption
    | (with_reducible first | apply modPort_keeps | apply Keeps.each)
    | split
    | intro

theorem execPmbusSupplyRead_keeps {h : Nat} {n : Nat} {value : Option Nat} {s : State} {s0 : State} (hk : Keeps s0 s) : OutKeeps s0 (execPmbusSupplyRead h n value s) := by
  unfold execPmbusSupplyRead
  try dsimp only
  repeat first
    | with_reducible assumption
    | (with_reducible first | apply OutKeeps.next | apply modPort_keeps | apply DoneKeeps.reply)
    | (with_reducible first | apply DoneKeeps.hold | apply DoneKeeps.check)
    | split
    | intro

theorem loadTable_keeps {h : Nat} {c : Nat} {s : State} {s0 : State} (hk : Keeps s0 s) : Keeps s0 (loadTable h c s) := by
  unfold loadTable
  try dsimp only
  repeat first
    | with_reducible assumption
    | (with_reducible first | apply modPort_keeps | apply itemCheck_keeps)
    | split

theorem reloadTable_keeps {h : Nat} {n : Nat} {s : State} {s0 : State} (hk : Keeps s0 s) : Keeps s0 (reloadTable h n s) := by
  unfold reloadTable
  try dsimp only
  repeat first
    | with_reducible assumption
    | (with_reducible first | apply loadTable_keeps | apply refreshPort_keeps | apply modPort_keeps)
    | intro

theorem execStepTableReload_keeps {h : Nat} {n : Nat} {s : State} {s0 : State} (hk : Keeps s0 s) : OutKeeps s0 (execStepTableReload h n s) := by
  unfold execStepTableReload
  try dsimp only
  repeat first
    | with_reducible assumption
    | (with_reducible first | apply OutKeeps.next | apply reloadTable_keeps)
    | split

theorem tableDue_keeps {h : Nat} {n : Nat} {s : State} {s0 : State} (hk : Keeps s0 s) : Keeps s0 (tableDue h n s) := by
  unfold tableDue
  try dsimp only
  repeat first
    | with_reducible assumption
    | (with_reducible first | apply reloadTable_keeps)
    | split
    | intro

theorem pwrTableWrite_keeps {p : Packet} {s : State} {s0 : State} (hk : Keeps s0 s) : DoneKeeps s0 (pwrTableWrite p s) := by
  unfold pwrTableWrite
  try dsimp only
  repeat first
    | with_reducible assumption
    | (with_reducible first | apply DoneKeeps.reply | apply DoneKeeps.hold | apply DoneKeeps.check)
    | (with_reducible first | apply refreshPort_keeps | apply modPort_keeps | apply Keeps.each)
    | intro

theorem execPwrTableWrite_keeps {p : Packet} {s : State} {s0 : State} (hk : Keeps s0 s) : OutKeeps s0 (execPwrTableWrite p s) := by
  unfold execPwrTableWrite
  try dsimp only
  repeat first
    | with_reducible assumption
    | (with_reducible first | apply OutKeeps.next | apply pwrTableWrite_keeps | apply runCommandWith_keeps)
    | (with_reducible first | apply DoneKeeps.reply | apply DoneKeeps.hold | apply DoneKeeps.check)
    | intro

theorem applyRadio_keeps {ws : List Word} {h : Nat} {s : State} {s0 : State} (hk : Keeps s0 s) : Keeps s0 (applyRadio ws h s) := by
  unfold applyRadio
  try dsimp only
  repeat first
    | with_reducible assumption
    | (with_reducible first | apply repeatSyn_keeps | apply reloadChain_keeps | apply refreshDg_keeps)
    | (with_reducible first | apply modRfc_keeps | apply Keeps.each)
    | intro

theorem radioConfig_keeps {p : Packet} {s : State} {s0 : State} (hk : Keeps s0 s) : DoneKeeps s0 (radioConfig p s) := by
  unfold radioConfig
  try dsimp only
  repeat first
    | with_reducible assumption
    | (with_reducible first | apply DoneKeeps.reply | apply DoneKeeps.hold | apply DoneKeeps.check)
    | (with_reducible first | apply applyRadio_keeps | apply Keeps.each)
    | intro

theorem execRadioConfig_keeps {p : Packet} {s : State} {s0 : State} (hk : Keeps s0 s) : OutKeeps s0 (execRadioConfig p s) := by
  unfold execRadioConfig
  try dsimp only
  repeat first
    | with_reducible assumption
    | (with_reducible first | apply OutKeeps.next | apply radioConfig_keeps | apply runCommand_keeps)
    | (with_reducible first | apply DoneKeeps.reply | apply DoneKeeps.hold | apply DoneKeeps.check)
    | intro

theorem applyPort_keeps {ws : List Word} {h : Nat} {s : State} {s0 : State} (hk : Keeps s0 s) : Keeps s0 (applyPort ws h s) := by
  unfold applyPort
  try dsimp only
  repeat first
    | with_reducible assumption
    | (with_reducible first | apply stageStep_keeps | apply modPort_keeps | apply takeFree_keeps)
    | split
    | intro

theorem pwrPortConfig_keeps {p : Packet} {s : State} {s0 : State} (hk : Keeps s0 s) : DoneKeeps s0 (pwrPortConfig p s) := by
  unfold pwrPortConfig
  try dsimp only
  repeat first
    | with_reducible assumption
    | (with_reducible first | apply DoneKeeps.reply | apply DoneKeeps.hold | apply DoneKeeps.check)
    | (with_reducible first | apply applyPort_keeps | apply Keeps.each)
    | intro

theorem execPwrPortConfig_keeps {p : Packet} {s : State} {s0 : State} (hk : Keeps s0 s) : OutKeeps s0 (execPwrPortConfig p s) := by
  unfold execPwrPortConfig
  try dsimp only
  repeat first
    | with_reducible assumption
    | (with_reducible first | apply OutKeeps.next | apply pwrPortConfig_keeps | apply runCommand_keeps)
    | (with_reducible first | apply DoneKeeps.reply | apply DoneKeeps.hold | apply DoneKeeps.check)
    | intro

theorem fesConfig_keeps {p : Packet} {s : State} {s0 : State} (hk : Keeps s0 s) : DoneKeeps s0 (fesConfig p s) := by
  unfold fesConfig
  try dsimp only
  repeat first
    | with_reducible assumption
    | (with_reducible first | apply DoneKeeps.reply | apply DoneKeeps.hold | apply DoneKeeps.check)
    | (with_reducible first | apply modFes_keeps | apply Keeps.each)
    | intro

theorem execFesConfig_keeps {p : Packet} {s : State} {s0 : State} (hk : Keeps s0 s) : OutKeeps s0 (execFesConfig p s) := by
  unfold execFesConfig
  try dsimp only
  repeat first
    | with_reducible assumption
    | (with_reducible first | apply OutKeeps.next | apply fesConfig_keeps | apply runCommand_keeps)
    | (with_reducible first | apply DoneKeeps.reply | apply DoneKeeps.hold | apply DoneKeeps.check)
    | intro

theorem fesGpioConfig_keeps {p : Packet} {s : State} {s0 : State} (hk : Keeps s0 s) : DoneKeeps s0 (fesGpioConfig p s) := by
  unfold fesGpioConfig
  try dsimp only
  repeat first
    | with_reducible assumption
    | (with_reducible first | apply DoneKeeps.reply | apply DoneKeeps.hold | apply DoneKeeps.check)
    | (with_reducible first | apply modFes_keeps | apply driveTdd_keeps | apply Keeps.each)
    | intro

theorem execFesGpioConfig_keeps {p : Packet} {s : State} {s0 : State} (hk : Keeps s0 s) : OutKeeps s0 (execFesGpioConfig p s) := by
  unfold execFesGpioConfig
  try dsimp only
  repeat first
    | with_reducible assumption
    | (with_reducible first | apply OutKeeps.next | apply fesGpioConfig_keeps | apply runCommand_keeps)
    | (with_reducible first | apply DoneKeeps.reply | apply DoneKeeps.hold | apply DoneKeeps.check)
    | intro

theorem fesSeqWrite_keeps {p : Packet} {s : State} {s0 : State} (hk : Keeps s0 s) : DoneKeeps s0 (fesSeqWrite p s) := by
  unfold fesSeqWrite
  try dsimp only
  repeat first
    | with_reducible assumption
    | (with_reducible first | apply DoneKeeps.reply | apply DoneKeeps.hold | apply DoneKeeps.check)
    | (with_reducible first | apply modFes_keeps | apply Keeps.each)
    | intro

theorem execFesSeqWrite_keeps {p : Packet} {s : State} {s0 : State} (hk : Keeps s0 s) : OutKeeps s0 (execFesSeqWrite p s) := by
  unfold execFesSeqWrite
  try dsimp only
  repeat first
    | with_reducible assumption
    | (with_reducible first | apply OutKeeps.next | apply fesSeqWrite_keeps | apply runCommandWith_keeps)
    | (with_reducible first | apply DoneKeeps.reply | apply DoneKeeps.hold | apply DoneKeeps.check)
    | intro

theorem fesBusAccess_keeps {p : Packet} {s : State} {s0 : State} (hk : Keeps s0 s) : DoneKeeps s0 (fesBusAccess p s) := by
  unfold fesBusAccess
  try dsimp only
  repeat first
    | with_reducible assumption
    | (with_reducible first | apply DoneKeeps.reply | apply DoneKeeps.hold | apply DoneKeeps.check)
    | (with_reducible first | apply modFes_keeps)
    | split
    | intro

theorem execFesBusAccess_keeps {p : Packet} {s : State} {s0 : State} (hk : Keeps s0 s) : OutKeeps s0 (execFesBusAccess p s) := by
  unfold execFesBusAccess
  try dsimp only
  repeat first
    | with_reducible assumption
    | (with_reducible first | apply OutKeeps.next | apply fesBusAccess_keeps | apply runCommand_keeps)
    | (with_reducible first | apply DoneKeeps.reply | apply DoneKeeps.hold | apply DoneKeeps.check)
    | intro

theorem endBus_keeps {st : Status} {words : List Word} {h : Nat} {s : State} {s0 : State} (hk : Keeps s0 s) : Keeps s0 (endBus st words h s) := by
  unfold endBus
  try dsimp only
  repeat first
    | with_reducible assumption
    | (with_reducible first | apply modFes_keeps | apply endHeld_keeps)
    | split
    | intro

theorem failRead_keeps {h : Nat} {s : State} {s0 : State} (hk : Keeps s0 s) : Keeps s0 (failRead h s) := by
  unfold failRead
  try dsimp only
  repeat first
    | with_reducible assumption
    | (with_reducible first | apply endBus_keeps | apply modFes_keeps)
    | intro

theorem execBusOperationDone_keeps {h : Nat} {data : Option Nat} {clk : Nat} {s : State} {s0 : State} (hk : Keeps s0 s) : OutKeeps s0 (execBusOperationDone h data clk s) := by
  unfold execBusOperationDone
  try dsimp only
  repeat first
    | with_reducible assumption
    | (with_reducible first | apply OutKeeps.next | apply failRead_keeps | apply endBus_keeps | apply modFes_keeps)
    | split

theorem readTimeDue_keeps {h : Nat} {s : State} {s0 : State} (hk : Keeps s0 s) : Keeps s0 (readTimeDue h s) := by
  unfold readTimeDue
  try dsimp only
  repeat first
    | with_reducible assumption
    | (with_reducible first | apply failRead_keeps)
    | split
    | intro

theorem execRffeReadTimeout_keeps {h : Nat} {s : State} {s0 : State} (hk : Keeps s0 s) : OutKeeps s0 (execRffeReadTimeout h s) := by
  unfold execRffeReadTimeout
  try dsimp only
  repeat first
    | with_reducible assumption
    | (with_reducible first | apply OutKeeps.next | apply readTimeDue_keeps)

theorem execActSequenceEnd_keeps {h : Nat} {n : Nat} {s : State} {s0 : State} (hk : Keeps s0 s) : OutKeeps s0 (execActSequenceEnd h n s) := by
  unfold execActSequenceEnd
  try dsimp only
  repeat first
    | with_reducible assumption
    | (with_reducible first | apply OutKeeps.next | apply actEnded_keeps)
    | split

theorem stepEndDue_keeps {h : Nat} {n : Nat} {s : State} {s0 : State} (hk : Keeps s0 s) : Keeps s0 (stepEndDue h n s) := by
  unfold stepEndDue
  try dsimp only
  repeat first
    | with_reducible assumption
    | (with_reducible first | apply modFes_keeps)
    | split
    | intro

theorem execStepSequenceEnd_keeps {h : Nat} {n : Nat} {s : State} {s0 : State} (hk : Keeps s0 s) : OutKeeps s0 (execStepSequenceEnd h n s) := by
  unfold execStepSequenceEnd
  try dsimp only
  repeat first
    | with_reducible assumption
    | (with_reducible first | apply OutKeeps.next | apply stepEndDue_keeps)

theorem execRfcCntClr_keeps {h : Nat} {s : State} {s0 : State} (hk : Keeps s0 s) : OutKeeps s0 (execRfcCntClr h s) := by
  unfold execRfcCntClr
  try dsimp only
  repeat first
    | with_reducible assumption
    | (with_reducible first | apply OutKeeps.next | apply modFes_keeps | apply modRfc_keeps | apply DoneKeeps.reply)
    | (with_reducible first | apply DoneKeeps.hold | apply DoneKeeps.check)
    | split
    | intro

end Sys2Proof.Machine
end

