-- ==== Sys2Proof/Laws/KeepsBellows.lean ====
section
/-! SUPPORT. Laws/KeepsBellows.lean: every operation of Machine/Bellows.lean is among those that `Keeps` describes. -/

namespace Sys2Proof.Machine

theorem applyLoop_keeps {h : Nat} {n : Nat} {c : LoopCfg} {s : State} {s0 : State} (hk : Keeps s0 s) : Keeps s0 (applyLoop h n c s) := by
  unfold applyLoop
  try dsimp only
  repeat first
    | with_reducible assumption
    | (with_reducible first | apply modChannels_keeps | apply modLoop_keeps)
    | split
    | intro

theorem loopConfig_keeps {p : Packet} {s s0 : State} (hk : Keeps s0 s) : DoneKeeps s0 (loopConfig p s) := by
  unfold loopConfig
  extract_lets h n x c full
  refine DoneKeeps.check hk ?_
  refine DoneKeeps.check hk ?_
  refine DoneKeeps.check hk ?_
  refine DoneKeeps.check hk ?_
  generalize decide (costMax (cfgsWith s h n full) ≤ costBudget) = b
  refine DoneKeeps.check hk ?_
  exact applyLoop_keeps hk

theorem execLoopConfig_keeps {p : Packet} {s : State} {s0 : State} (hk : Keeps s0 s) : OutKeeps s0 (execLoopConfig p s) := by
  unfold execLoopConfig
  try dsimp only
  repeat first
    | with_reducible assumption
    | (with_reducible first | apply OutKeeps.next | apply loopConfig_keeps | apply runCommand_keeps)
    | (with_reducible first | apply DoneKeeps.reply | apply DoneKeeps.hold | apply DoneKeeps.check)
    | intro

theorem loopQuery_keeps {p : Packet} {s : State} {s0 : State} (hk : Keeps s0 s) : DoneKeeps s0 (loopQuery p s) := by
  unfold loopQuery
  try dsimp only
  repeat first
    | with_reducible assumption
    | (with_reducible first | apply DoneKeeps.reply | apply DoneKeeps.hold | apply DoneKeeps.check)
    | intro

theorem execLoopQuery_keeps {p : Packet} {s : State} {s0 : State} (hk : Keeps s0 s) : OutKeeps s0 (execLoopQuery p s) := by
  unfold execLoopQuery
  try dsimp only
  repeat first
    | with_reducible assumption
    | (with_reducible first | apply OutKeeps.next | apply loopQuery_keeps | apply runCommand_keeps)
    | (with_reducible first | apply DoneKeeps.reply | apply DoneKeeps.hold | apply DoneKeeps.check)
    | intro

theorem closeSlot_keeps {h : Nat} {n : Nat} {s : State} {s0 : State} (hk : Keeps s0 s) : Keeps s0 (closeSlot h n s) := by
  unfold closeSlot
  try dsimp only
  repeat first
    | with_reducible assumption
    | (with_reducible first | apply setLoop_keeps | apply modLoop_keeps)
    | intro

theorem loopClose_keeps {p : Packet} {s : State} {s0 : State} (hk : Keeps s0 s) : DoneKeeps s0 (loopClose p s) := by
  unfold loopClose
  try dsimp only
  repeat first
    | with_reducible assumption
    | (with_reducible first | apply DoneKeeps.reply | apply DoneKeeps.hold | apply DoneKeeps.check)
    | (with_reducible first | apply closeSlot_keeps)
    | split
    | intro

theorem execLoopClose_keeps {p : Packet} {s : State} {s0 : State} (hk : Keeps s0 s) : OutKeeps s0 (execLoopClose p s) := by
  unfold execLoopClose
  try dsimp only
  repeat first
    | with_reducible assumption
    | (with_reducible first | apply OutKeeps.next | apply loopClose_keeps | apply runCommand_keeps)
    | (with_reducible first | apply DoneKeeps.reply | apply DoneKeeps.hold | apply DoneKeeps.check)
    | intro

theorem openSlot_keeps {h : Nat} {n : Nat} {s : State} {s0 : State} (hk : Keeps s0 s) : Keeps s0 (openSlot h n s) := by
  unfold openSlot
  try dsimp only
  repeat first
    | with_reducible assumption
    | (with_reducible first | apply setLoop_keeps | apply modLoop_keeps)
    | intro

theorem loopOpen_keeps {p : Packet} {s : State} {s0 : State} (hk : Keeps s0 s) : DoneKeeps s0 (loopOpen p s) := by
  unfold loopOpen
  try dsimp only
  repeat first
    | with_reducible assumption
    | (with_reducible first | apply DoneKeeps.reply | apply DoneKeeps.hold | apply DoneKeeps.check)
    | (with_reducible first | apply openSlot_keeps | apply endTune_keeps)
    | split
    | intro

theorem execLoopOpen_keeps {p : Packet} {s : State} {s0 : State} (hk : Keeps s0 s) : OutKeeps s0 (execLoopOpen p s) := by
  unfold execLoopOpen
  try dsimp only
  repeat first
    | with_reducible assumption
    | (with_reducible first | apply OutKeeps.next | apply loopOpen_keeps | apply runCommand_keeps)
    | (with_reducible first | apply DoneKeeps.reply | apply DoneKeeps.hold | apply DoneKeeps.check)
    | intro

theorem loopMode_keeps {p : Packet} {s : State} {s0 : State} (hk : Keeps s0 s) : DoneKeeps s0 (loopMode p s) := by
  unfold loopMode
  try dsimp only
  repeat first
    | with_reducible assumption
    | (with_reducible first | apply DoneKeeps.reply | apply DoneKeeps.hold | apply DoneKeeps.check)
    | (with_reducible first | apply modLoop_keeps)
    | intro

theorem execLoopMode_keeps {p : Packet} {s : State} {s0 : State} (hk : Keeps s0 s) : OutKeeps s0 (execLoopMode p s) := by
  unfold execLoopMode
  try dsimp only
  repeat first
    | with_reducible assumption
    | (with_reducible first | apply OutKeeps.next | apply loopMode_keeps | apply runCommand_keeps)
    | (with_reducible first | apply DoneKeeps.reply | apply DoneKeeps.hold | apply DoneKeeps.check)
    | intro

theorem loopSetpoint_keeps {p : Packet} {s : State} {s0 : State} (hk : Keeps s0 s) : DoneKeeps s0 (loopSetpoint p s) := by
  unfold loopSetpoint
  try dsimp only
  repeat first
    | with_reducible assumption
    | (with_reducible first | apply DoneKeeps.reply | apply DoneKeeps.hold | apply DoneKeeps.check)
    | (with_reducible first | apply modLoop_keeps)
    | intro

theorem execLoopSetpoint_keeps {p : Packet} {s : State} {s0 : State} (hk : Keeps s0 s) : OutKeeps s0 (execLoopSetpoint p s) := by
  unfold execLoopSetpoint
  try dsimp only
  repeat first
    | with_reducible assumption
    | (with_reducible first | apply OutKeeps.next | apply loopSetpoint_keeps | apply runCommand_keeps)
    | (with_reducible first | apply DoneKeeps.reply | apply DoneKeeps.hold | apply DoneKeeps.check)
    | intro

theorem loopTune_keeps {p : Packet} {s : State} {s0 : State} (hk : Keeps s0 s) : DoneKeeps s0 (loopTune p s) := by
  unfold loopTune
  try dsimp only
  repeat first
    | with_reducible assumption
    | (with_reducible first | apply DoneKeeps.reply | apply DoneKeeps.hold | apply DoneKeeps.check)
    | (with_reducible first | apply setLoop_keeps | apply modLoop_keeps)
    | intro

theorem execLoopTune_keeps {p : Packet} {s : State} {s0 : State} (hk : Keeps s0 s) : OutKeeps s0 (execLoopTune p s) := by
  unfold execLoopTune
  try dsimp only
  repeat first
    | with_reducible assumption
    | (with_reducible first | apply OutKeeps.next | apply loopTune_keeps | apply runCommand_keeps)
    | (with_reducible first | apply DoneKeeps.reply | apply DoneKeeps.hold | apply DoneKeeps.check)
    | intro

theorem loopTable_keeps {p : Packet} {s : State} {s0 : State} (hk : Keeps s0 s) : DoneKeeps s0 (loopTable p s) := by
  unfold loopTable
  try dsimp only
  repeat first
    | with_reducible assumption
    | (with_reducible first | apply DoneKeeps.reply | apply DoneKeeps.hold | apply DoneKeeps.check)
    | (with_reducible first | apply modLoop_keeps)
    | intro

theorem execLoopTable_keeps {p : Packet} {s : State} {s0 : State} (hk : Keeps s0 s) : OutKeeps s0 (execLoopTable p s) := by
  unfold execLoopTable
  try dsimp only
  repeat first
    | with_reducible assumption
    | (with_reducible first | apply OutKeeps.next | apply loopTable_keeps | apply runCommandWith_keeps)
    | (with_reducible first | apply DoneKeeps.reply | apply DoneKeeps.hold | apply DoneKeeps.check)
    | intro

theorem setptConfig_keeps {p : Packet} {s : State} {s0 : State} (hk : Keeps s0 s) : DoneKeeps s0 (setptConfig p s) := by
  unfold setptConfig
  try dsimp only
  repeat first
    | with_reducible assumption
    | (with_reducible first | apply DoneKeeps.reply | apply DoneKeeps.hold | apply DoneKeeps.check)
    | (with_reducible first | apply Keeps.withSetpt)
    | intro

theorem execSetptConfig_keeps {p : Packet} {s : State} {s0 : State} (hk : Keeps s0 s) : OutKeeps s0 (execSetptConfig p s) := by
  unfold execSetptConfig
  try dsimp only
  repeat first
    | with_reducible assumption
    | (with_reducible first | apply OutKeeps.next | apply setptConfig_keeps | apply runCommand_keeps)
    | (with_reducible first | apply DoneKeeps.reply | apply DoneKeeps.hold | apply DoneKeeps.check)
    | intro

theorem endHandover_keeps {h : Nat} {n : Nat} {s : State} {s0 : State} (hk : Keeps s0 s) : Keeps s0 (endHandover h n s) := by
  unfold endHandover
  try dsimp only
  repeat first
    | with_reducible assumption
    | (with_reducible first | apply modLoop_keeps)
    | split
    | intro

theorem execHandoverEnd_keeps {h : Nat} {n : Nat} {s : State} {s0 : State} (hk : Keeps s0 s) : OutKeeps s0 (execHandoverEnd h n s) := by
  unfold execHandoverEnd
  try dsimp only
  repeat first
    | with_reducible assumption
    | (with_reducible first | apply OutKeeps.next | apply endHandover_keeps)
    | split

theorem lostHoldEnd_keeps {h : Nat} {n : Nat} {s : State} {s0 : State} (hk : Keeps s0 s) : Keeps s0 (lostHoldEnd h n s) := by
  unfold lostHoldEnd
  try dsimp only
  repeat first
    | with_reducible assumption
    | (with_reducible first | apply modLoop_keeps)
    | split
    | intro

theorem execLostHoldExpiry_keeps {h : Nat} {n : Nat} {s : State} {s0 : State} (hk : Keeps s0 s) : OutKeeps s0 (execLostHoldExpiry h n s) := by
  unfold execLostHoldExpiry
  try dsimp only
  repeat first
    | with_reducible assumption
    | (with_reducible first | apply OutKeeps.next | apply lostHoldEnd_keeps)
    | split

theorem safeReached_keeps {h : Nat} {n : Nat} {s : State} {s0 : State} (hk : Keeps s0 s) : Keeps s0 (safeReached h n s) := by
  unfold safeReached
  try dsimp only
  repeat first
    | with_reducible assumption
    | (with_reducible first | apply modLoop_keeps | apply emit_keeps)
    | split
    | intro

theorem tuneTimeout_keeps {h : Nat} {n : Nat} {s : State} {s0 : State} (hk : Keeps s0 s) : Keeps s0 (tuneTimeout h n s) := by
  unfold tuneTimeout
  try dsimp only
  repeat first
    | with_reducible assumption
    | (with_reducible first | apply endTune_keeps)
    | split
    | intro

theorem execTuneTimeout_keeps {h : Nat} {n : Nat} {s : State} {s0 : State} (hk : Keeps s0 s) : OutKeeps s0 (execTuneTimeout h n s) := by
  unfold execTuneTimeout
  try dsimp only
  repeat first
    | with_reducible assumption
    | (with_reducible first | apply OutKeeps.next | apply tuneTimeout_keeps)
    | split

theorem externalRampEnd_keeps {h : Nat} {n : Nat} {s : State} {s0 : State} (hk : Keeps s0 s) : Keeps s0 (externalRampEnd h n s) := by
  unfold externalRampEnd
  try dsimp only
  repeat first
    | with_reducible assumption
    | (with_reducible first | apply modLoop_keeps)
    | split
    | intro

theorem execExternalRampTimeout_keeps {h : Nat} {n : Nat} {s : State} {s0 : State} (hk : Keeps s0 s) : OutKeeps s0 (execExternalRampTimeout h n s) := by
  unfold execExternalRampTimeout
  try dsimp only
  repeat first
    | with_reducible assumption
    | (with_reducible first | apply OutKeeps.next | apply externalRampEnd_keeps)
    | split

theorem captureValid_keeps {pin : Nat} {valid : Bool} {s : State} {s0 : State} (hk : Keeps s0 s) : Keeps s0 (captureValid pin valid s) := by
  unfold captureValid
  try dsimp only
  repeat first
    | with_reducible assumption
    | (with_reducible first | apply emit_keeps | apply Keeps.each | apply Keeps.modHearth)
    | split
    | (with_reducible first | apply Keeps.withSetpt)
    | ((with_reducible refine HearthKeeps.mk ?_ ?_) <;> first | rfl | exact fun g => g | exact fun g => by simpa [hearthShape] using g)
    | intro

theorem captureSetpt_keeps {s : State} {s0 : State} (hk : Keeps s0 s) : Keeps s0 (captureSetpt s) := by
  unfold captureSetpt
  try dsimp only
  repeat first
    | with_reducible assumption
    | (with_reducible first | apply captureValid_keeps)
    | split
    | (with_reducible first | apply Keeps.withSetpt)

theorem execSetptValidityChange_keeps {pin : Nat} {x : SetptChange} {s : State} {s0 : State} (hk : Keeps s0 s) : OutKeeps s0 (execSetptValidityChange pin x s) := by
  unfold execSetptValidityChange
  try dsimp only
  repeat first
    | with_reducible assumption
    | (with_reducible first | apply OutKeeps.next)
    | split
    | (with_reducible first | apply Keeps.withSetpt)

theorem execBlwCntClr_keeps {h : Nat} {s : State} {s0 : State} (hk : Keeps s0 s) : OutKeeps s0 (execBlwCntClr h s) := by
  unfold execBlwCntClr
  try dsimp only
  repeat first
    | with_reducible assumption
    | (with_reducible first | apply OutKeeps.next | apply Keeps.modHearth | apply DoneKeeps.reply)
    | (with_reducible first | apply DoneKeeps.hold | apply DoneKeeps.check)
    | split
    | ((with_reducible refine HearthKeeps.mk ?_ ?_) <;> first | rfl | exact fun g => g | exact fun g => by simpa [hearthShape] using g)
    | intro

end Sys2Proof.Machine
end

