-- ==== Sys2Proof/Laws/KeepsFirebrick.lean ====
section
/-! SUPPORT. Laws/KeepsFirebrick.lean: every operation of Machine/Firebrick.lean is among those that `Keeps` describes. -/

namespace Sys2Proof.Machine

theorem lockedRow_keeps {src : Nat} {row : Nat} {op : Nat} {s : State} {s0 : State} (hk : Keeps s0 s) : Keeps s0 (lockedRow src row op s) := by
  unfold lockedRow
  try dsimp only
  repeat first
    | with_reducible assumption
    | (with_reducible first | apply emit_keeps)

theorem endRowCommand_keeps {row : Nat} {st : Status} {s : State} {s0 : State} (hk : Keeps s0 s) : Keeps s0 (endRowCommand row st s) := by
  unfold endRowCommand
  try dsimp only
  repeat first
    | with_reducible assumption
    | (with_reducible first | apply endHeldFor_keeps)

theorem rowInForce_keeps {k : Nat} {revoke : Bool} {failed : Bool} {s : State} {s0 : State} (hk : Keeps s0 s) : Keeps s0 (rowInForce k revoke failed s) := by
  unfold rowInForce
  try dsimp only
  repeat first
    | with_reducible assumption
    | (with_reducible first | apply endRowCommand_keeps | apply quenchLatched_keeps | apply distributeRows_keeps)
    | (with_reducible first | apply emit_keeps | apply Keeps.each)
    | split
    | (with_reducible first | apply Keeps.withLimits)
    | ((with_reducible refine LimKeeps.mk ?_ ?_ ?_) <;> first | rfl | exact fun g => g | exact fun g => kset_kwf _ _ _ g | exact fun _ => rfl)
    | intro

theorem execFirebrickRowInForce_keeps {row : Nat} {s : State} {s0 : State} (hk : Keeps s0 s) : OutKeeps s0 (execFirebrickRowInForce row s) := by
  unfold execFirebrickRowInForce
  try dsimp only
  repeat first
    | with_reducible assumption
    | (with_reducible first | apply OutKeeps.next | apply rowInForce_keeps)
    | split

theorem rowDue_keeps {s : State} {s0 : State} (hk : Keeps s0 s) : Keeps s0 (rowDue s) := by
  unfold rowDue
  try dsimp only
  repeat first
    | with_reducible assumption
    | (with_reducible first | apply rowInForce_keeps)
    | split

theorem execFirebrickRead_keeps {p : Packet} {s : State} {s0 : State} (hk : Keeps s0 s) : OutKeeps s0 (execFirebrickRead p s) := by
  unfold execFirebrickRead
  try dsimp only
  repeat first
    | with_reducible assumption
    | (with_reducible first | apply OutKeeps.next | apply runCommand_keeps | apply DoneKeeps.reply)
    | (with_reducible first | apply DoneKeeps.hold | apply DoneKeeps.check)
    | intro

theorem readRows_keeps {s : State} {s0 : State} (hk : Keeps s0 s) : Keeps s0 (readRows s) := by
  unfold readRows
  try dsimp only
  repeat first
    | with_reducible assumption
    | (with_reducible first | apply distributeRows_keeps | apply raiseSource_keeps | apply emit_keeps)
    | (with_reducible first | apply Keeps.each)
    | intro

end Sys2Proof.Machine
end

