-- ==== Sys2Proof/Laws/KeepsCalset.lean ====
section
/-! SUPPORT. Laws/KeepsCalset.lean: every operation of Machine/Calset.lean is among those that `Keeps` describes. -/

namespace Sys2Proof.Machine

theorem storeDigest_keeps {base : Nat} {s : State} {s0 : State} (hk : Keeps s0 s) : Keeps s0 (storeDigest base s) := by
  unfold storeDigest
  try dsimp only
  repeat first
    | with_reducible assumption
    | (with_reducible first | apply putFlash_keeps)
    | (with_reducible first | apply Keeps.withLimits)
    | ((with_reducible refine LimKeeps.mk ?_ ?_ ?_) <;> first | rfl | exact fun g => g | exact fun g => kset_kwf _ _ _ g | exact fun _ => rfl)

theorem writeItem_keeps {base : Nat} {id : Nat} {origin : Bool} {ws : List Word} {crc : Word} {s : State} {s0 : State} (hk : Keeps s0 s) : Keeps s0 (writeItem base id origin ws crc s) := by
  unfold writeItem
  try dsimp only
  repeat first
    | with_reducible assumption
    | (with_reducible first | apply putFlash_keeps)

theorem cutItem_keeps {g : CalProg} {ws : List Word} {crc : Word} {s : State} {s0 : State} (hk : Keeps s0 s) : Keeps s0 (cutItem g ws crc s) := by
  unfold cutItem
  try dsimp only
  repeat first
    | with_reducible assumption
    | (with_reducible first | apply writeItem_keeps)
    | split

theorem calsetQuery_keeps {a0 : Packet} {s : State} {s0 : State} (hk : Keeps s0 s) : DoneKeeps s0 (calsetQuery a0 s) := by
  unfold calsetQuery
  try dsimp only
  repeat first
    | with_reducible assumption
    | (with_reducible first | apply DoneKeeps.reply | apply DoneKeeps.hold | apply DoneKeeps.check)
    | intro

theorem execCalsetQuery_keeps {p : Packet} {s : State} {s0 : State} (hk : Keeps s0 s) : OutKeeps s0 (execCalsetQuery p s) := by
  unfold execCalsetQuery
  try dsimp only
  repeat first
    | with_reducible assumption
    | (with_reducible first | apply OutKeeps.next | apply calsetQuery_keeps | apply runCommand_keeps)
    | (with_reducible first | apply DoneKeeps.reply | apply DoneKeeps.hold | apply DoneKeeps.check)
    | intro

theorem calsetExport_keeps {p : Packet} {s : State} {s0 : State} (hk : Keeps s0 s) : DoneKeeps s0 (calsetExport p s) := by
  unfold calsetExport
  try dsimp only
  repeat first
    | with_reducible assumption
    | (with_reducible first | apply DoneKeeps.reply | apply DoneKeeps.hold | apply DoneKeeps.check)
    | split
    | intro

theorem execCalsetExport_keeps {p : Packet} {s : State} {s0 : State} (hk : Keeps s0 s) : OutKeeps s0 (execCalsetExport p s) := by
  unfold execCalsetExport
  try dsimp only
  repeat first
    | with_reducible assumption
    | (with_reducible first | apply OutKeeps.next | apply calsetExport_keeps | apply runCommand_keeps)
    | (with_reducible first | apply DoneKeeps.reply | apply DoneKeeps.hold | apply DoneKeeps.check)
    | intro

theorem startWrite_keeps {op : Nat} {id : Nat} {origin : Bool} {ws : List Word} {s : State} {s0 : State} (hk : Keeps s0 s) : DoneKeeps s0 (startWrite op id origin ws s) := by
  unfold startWrite
  try dsimp only
  repeat first
    | with_reducible assumption
    | (with_reducible first | apply DoneKeeps.reply | apply DoneKeeps.hold | apply DoneKeeps.check)
    | (with_reducible first | apply Keeps.withLimits)
    | ((with_reducible refine LimKeeps.mk ?_ ?_ ?_) <;> first | rfl | exact fun g => g | exact fun g => kset_kwf _ _ _ g | exact fun _ => rfl)
    | intro

theorem calsetImport_keeps {p : Packet} {s : State} {s0 : State} (hk : Keeps s0 s) : DoneKeeps s0 (calsetImport p s) := by
  unfold calsetImport
  try dsimp only
  repeat first
    | with_reducible assumption
    | (with_reducible first | apply DoneKeeps.reply | apply DoneKeeps.hold | apply DoneKeeps.check)
    | (with_reducible first | apply startWrite_keeps)
    | intro

theorem execCalsetImport_keeps {p : Packet} {s : State} {s0 : State} (hk : Keeps s0 s) : OutKeeps s0 (execCalsetImport p s) := by
  unfold execCalsetImport
  try dsimp only
  repeat first
    | with_reducible assumption
    | (with_reducible first | apply OutKeeps.next | apply calsetImport_keeps | apply runCommandWith_keeps)
    | (with_reducible first | apply DoneKeeps.reply | apply DoneKeeps.hold | apply DoneKeeps.check)
    | intro

theorem calsetStore_keeps {p : Packet} {s : State} {s0 : State} (hk : Keeps s0 s) : DoneKeeps s0 (calsetStore p s) := by
  unfold calsetStore
  try dsimp only
  repeat first
    | with_reducible assumption
    | (with_reducible first | apply DoneKeeps.reply | apply DoneKeeps.hold | apply DoneKeeps.check)
    | (with_reducible first | apply startWrite_keeps)
    | split
    | intro

theorem execCalsetStore_keeps {p : Packet} {s : State} {s0 : State} (hk : Keeps s0 s) : OutKeeps s0 (execCalsetStore p s) := by
  unfold execCalsetStore
  try dsimp only
  repeat first
    | with_reducible assumption
    | (with_reducible first | apply OutKeeps.next | apply calsetStore_keeps | apply runCommand_keeps)
    | (with_reducible first | apply DoneKeeps.reply | apply DoneKeeps.hold | apply DoneKeeps.check)
    | intro

theorem putItem_keeps {g : CalProg} {s : State} {s0 : State} (hk : Keeps s0 s) : Keeps s0 (putItem g s) := by
  unfold putItem
  try dsimp only
  repeat first
    | with_reducible assumption
    | (with_reducible first | apply writeItem_keeps | apply storeDigest_keeps | apply refreshPort_keeps)
    | (with_reducible first | apply modPort_keeps | apply emit_keeps)
    | split
    | (with_reducible first | apply Keeps.withLimits)
    | ((with_reducible refine LimKeeps.mk ?_ ?_ ?_) <;> first | rfl | exact fun g => g | exact fun g => kset_kwf _ _ _ g | exact fun _ => rfl)

theorem execCalsetWriteDone_keeps {ok : Bool} {s : State} {s0 : State} (hk : Keeps s0 s) : OutKeeps s0 (execCalsetWriteDone ok s) := by
  unfold execCalsetWriteDone
  try dsimp only
  repeat first
    | with_reducible assumption
    | (with_reducible first | apply OutKeeps.next | apply putItem_keeps | apply endHeldFor_keeps)
    | split
    | (with_reducible first | apply Keeps.withLimits)
    | ((with_reducible refine LimKeeps.mk ?_ ?_ ?_) <;> first | rfl | exact fun g => g | exact fun g => kset_kwf _ _ _ g | exact fun _ => rfl)

theorem setIndex_kwf (s : State) (base : Nat) : kwf (setIndex s base) = true := by
  unfold setIndex
  induction List.range (setCount s base) with
  | nil => rfl
  | cons n l ih => exact kset_kwf _ _ _ ih

theorem setItems_kwf (s : State) (base : Nat) : kwf ((setIndex s base).map fun e => (e.1, storedItem s base e.2)) = true := by
  have h := setIndex_kwf s base
  rw [kwf_iff] at h ⊢
  simpa [List.map_map, Function.comp_def] using h

theorem loadSet_keeps {s s0 : State} (hk : Keeps s0 s) : Keeps s0 (loadSet s) := by
  unfold loadSet
  extract_lets base l1 t1 t2 bad l2 t3
  have k1 : Keeps s0 t1 := hk.withLimits (LimKeeps.mk rfl rfl fun _ => setItems_kwf s base)
  have k2 : Keeps s0 t2 := storeDigest_keeps k1
  have k3 : Keeps s0 t3 := k2.withLimits (LimKeeps.mk rfl rfl id)
  exact k3.onlyIf fun u hu => emit_keeps hu

theorem loadPorts_keeps {h : Nat} {s : State} {s0 : State} (hk : Keeps s0 s) : Keeps s0 (loadPorts h s) := by
  unfold loadPorts
  try dsimp only
  repeat first
    | with_reducible assumption
    | (with_reducible first | apply loadTable_keeps | apply modPort_keeps | apply itemCheck_keeps | apply Keeps.each)
    | split
    | intro

end Sys2Proof.Machine
end

