-- ==== Sys2Proof/Laws/KeepsGroup.lean ====
section
/-! SUPPORT. Laws/KeepsGroup.lean: every operation of Machine/Group.lean is among those that `Keeps` describes. -/

namespace Sys2Proof.Machine

theorem groupWaits_keeps {s : State} {s0 : State} (hk : Keeps s0 s) : Keeps s0 (groupWaits s) := by
  unfold groupWaits
  try dsimp only
  repeat first
    | with_reducible assumption
    | (with_reducible first | apply startDown_keeps | apply Keeps.each | apply Keeps.modSec)
    | split
    | exact fun _ => @rfl SecState _
    | intro

theorem setLost_keeps {v : Bool} {s : State} {s0 : State} (hk : Keeps s0 s) : Keeps s0 (setLost v s) := by
  unfold setLost
  try dsimp only
  repeat first
    | with_reducible assumption
    | (with_reducible first | apply setHolds_keeps | apply emit_keeps)
    | split
    | intro

theorem endLost_keeps {s : State} {s0 : State} (hk : Keeps s0 s) : Keeps s0 (endLost s) := by
  unfold endLost
  try dsimp only
  repeat first
    | with_reducible assumption
    | (with_reducible first | apply setLost_keeps)
    | split

theorem setMismatch_keeps {v : Bool} {s : State} {s0 : State} (hk : Keeps s0 s) : Keeps s0 (setMismatch v s) := by
  unfold setMismatch
  try dsimp only
  repeat first
    | with_reducible assumption
    | (with_reducible first | apply Keeps.modFlu | apply setHolds_keeps | apply emit_keeps)
    | split
    | ((with_reducible refine FluKeeps.mk ?_ ?_ ?_ ?_) <;> first | exact fun g => g | exact fun g => kset_kwf _ _ _ g | exact fun g => kerase_kwf _ _ g | exact fun _ => rfl)
    | intro

theorem agreeChanged_keeps {beacon : Bool} {s : State} {s0 : State} (hk : Keeps s0 s) : Keeps s0 (agreeChanged beacon s) := by
  unfold agreeChanged
  try dsimp only
  repeat first
    | with_reducible assumption
    | (with_reducible first | apply endLost_keeps | apply groupWaits_keeps | apply evalDigest_keeps)
    | (with_reducible first | apply Keeps.modFlu)
    | split
    | ((with_reducible refine FluKeeps.mk ?_ ?_ ?_ ?_) <;> first | exact fun g => g | exact fun g => kset_kwf _ _ _ g | exact fun g => kerase_kwf _ _ g | exact fun _ => rfl)
    | intro

theorem setTimeAgree_keeps {v : Bool} {s : State} {s0 : State} (hk : Keeps s0 s) : Keeps s0 (setTimeAgree v s) := by
  unfold setTimeAgree
  try dsimp only
  repeat first
    | with_reducible assumption
    | (with_reducible first | apply groupWaits_keeps | apply Keeps.modFlu | apply emit_keeps)
    | split
    | ((with_reducible refine FluKeeps.mk ?_ ?_ ?_ ?_) <;> first | exact fun g => g | exact fun g => kset_kwf _ _ _ g | exact fun g => kerase_kwf _ _ g | exact fun _ => rfl)
    | intro

theorem evalTime_keeps {s : State} {s0 : State} (hk : Keeps s0 s) : Keeps s0 (evalTime s) := by
  unfold evalTime
  try dsimp only
  repeat first
    | with_reducible assumption
    | (with_reducible first | apply setTimeAgree_keeps | apply Keeps.modFlu)
    | split
    | ((with_reducible refine FluKeeps.mk ?_ ?_ ?_ ?_) <;> first | exact fun g => g | exact fun g => kset_kwf _ _ _ g | exact fun g => kerase_kwf _ _ g | exact fun _ => rfl)
    | intro

theorem readPlanArea_keeps {s : State} {s0 : State} (hk : Keeps s0 s) : Keeps s0 (readPlanArea s) := by
  unfold readPlanArea
  try dsimp only
  repeat first
    | with_reducible assumption
    | (with_reducible first | apply Keeps.modFlu)
    | split
    | ((with_reducible refine FluKeeps.mk ?_ ?_ ?_ ?_) <;> first | exact fun g => g | exact fun g => kset_kwf _ _ _ g | exact fun g => kerase_kwf _ _ g | exact fun _ => rfl)
    | intro

theorem loadPlan_keeps {s : State} {s0 : State} (hk : Keeps s0 s) : Keeps s0 (loadPlan s) := by
  unfold loadPlan
  try dsimp only
  repeat first
    | with_reducible assumption
    | (with_reducible first | apply Keeps.modFlu | apply raiseSource_keeps | apply Keeps.onlyIf)
    | split
    | ((with_reducible refine FluKeeps.mk ?_ ?_ ?_ ?_) <;> first | exact fun g => g | exact fun g => kset_kwf _ _ _ g | exact fun g => kerase_kwf _ _ g | exact fun _ => rfl)
    | intro

theorem sendPacket_keeps {dst : Nat} {last : Bool} {ws : List Word} {extra : List Word} {s : State} {s0 : State} (hk : Keeps s0 s) : Keeps s0 (sendPacket dst last ws extra s) := by
  unfold sendPacket
  try dsimp only
  repeat first
    | with_reducible assumption
    | (with_reducible first | apply sendFrame_keeps)

theorem sendRound_keeps {j : Nat} {s : State} {s0 : State} (hk : Keeps s0 s) : Keeps s0 (sendRound j s) := by
  unfold sendRound
  try dsimp only
  repeat first
    | with_reducible assumption
    | (with_reducible first | apply sendPacket_keeps | apply Keeps.modFlu | apply Keeps.each)
    | split
    | ((with_reducible refine FluKeeps.mk ?_ ?_ ?_ ?_) <;> first | exact fun g => g | exact fun g => kset_kwf _ _ _ g | exact fun g => kerase_kwf _ _ g | exact fun _ => rfl)
    | intro

theorem applyOwnPlan_keeps {s : State} {s0 : State} (hk : Keeps s0 s) : Keeps s0 (applyOwnPlan s) := by
  unfold applyOwnPlan
  try dsimp only
  repeat first
    | with_reducible assumption
    | (with_reducible first | apply sendRound_keeps)
    | split

theorem setActing_keeps {v : Nat} {s : State} {s0 : State} (hk : Keeps s0 s) : Keeps s0 (setActing v s) := by
  unfold setActing
  try dsimp only
  repeat first
    | with_reducible assumption
    | (with_reducible first | apply Keeps.modFlu | apply emit_keeps)
    | split
    | ((with_reducible refine FluKeeps.mk ?_ ?_ ?_ ?_) <;> first | exact fun g => g | exact fun g => kset_kwf _ _ _ g | exact fun g => kerase_kwf _ _ g | exact fun _ => rfl)
    | intro

theorem storeCeil_keeps {n : NodeCeil} {s : State} {s0 : State} (hk : Keeps s0 s) : Keeps s0 (storeCeil n s) := by
  unfold storeCeil
  try dsimp only
  repeat first
    | with_reducible assumption
    | (with_reducible first | apply Keeps.modFlu)
    | ((with_reducible refine FluKeeps.mk ?_ ?_ ?_ ?_) <;> first | exact fun g => g | exact fun g => kset_kwf _ _ _ g | exact fun g => kerase_kwf _ _ g | exact fun _ => rfl)
    | intro

theorem sendCeil_keeps {n : NodeCeil} {s : State} {s0 : State} (hk : Keeps s0 s) : Keeps s0 (sendCeil n s) := by
  unfold sendCeil
  try dsimp only
  repeat first
    | with_reducible assumption
    | (with_reducible first | apply storeCeil_keeps | apply sendPacket_keeps)

theorem standBy_keeps {s : State} {s0 : State} (hk : Keeps s0 s) : Keeps s0 (standBy s) := by
  unfold standBy
  try dsimp only
  repeat first
    | with_reducible assumption
    | (with_reducible first | apply setActing_keeps | apply agreeChanged_keeps | apply groupWaits_keeps)
    | (with_reducible first | apply Keeps.modFlu)
    | ((with_reducible refine FluKeeps.mk ?_ ?_ ?_ ?_) <;> first | exact fun g => g | exact fun g => kset_kwf _ _ _ g | exact fun g => kerase_kwf _ _ g | exact fun _ => rfl)
    | intro

theorem newLeader_keeps {other : Bool} {s : State} {s0 : State} (hk : Keeps s0 s) : Keeps s0 (newLeader other s) := by
  unfold newLeader
  try dsimp only
  repeat first
    | with_reducible assumption
    | (with_reducible first | apply Keeps.modCpx)
    | split
    | exact fun _ => List.prefix_refl _
    | exact fun _ => List.prefix_append _ _
    | exact fun _ h => h
    | exact fun _ h => kset_kwf _ _ _ h
    | exact fun _ _ => rfl
    | intro

theorem copiedNode_keeps {s : State} {j : Nat} {g : Nat} {s0 : State} (hk : Keeps s0 s) : Keeps s0 (copiedNode s j g).2 := by
  unfold copiedNode
  try dsimp only
  repeat first
    | with_reducible assumption
    | (with_reducible first | apply takeFree_keeps)
    | split
    | intro

theorem takeOver_keeps {s : State} {s0 : State} (hk : Keeps s0 s) : Keeps s0 (takeOver s) := by
  unfold takeOver
  try dsimp only
  repeat first
    | with_reducible assumption
    | (with_reducible first | apply copiedNode_keeps | apply newLeader_keeps | apply sendCeil_keeps)
    | (with_reducible first | apply setActing_keeps | apply applyOwnPlan_keeps | apply agreeChanged_keeps)
    | (with_reducible first | apply setMismatch_keeps | apply endLost_keeps | apply groupWaits_keeps)
    | (with_reducible first | apply Keeps.modFlu | apply Keeps.each)
    | split
    | ((with_reducible refine FluKeeps.mk ?_ ?_ ?_ ?_) <;> first | exact fun g => g | exact fun g => kset_kwf _ _ _ g | exact fun g => kerase_kwf _ _ g | exact fun _ => rfl)
    | intro

theorem joinGroup_keeps {s : State} {s0 : State} (hk : Keeps s0 s) : Keeps s0 (joinGroup s) := by
  unfold joinGroup
  try dsimp only
  repeat first
    | with_reducible assumption
    | (with_reducible first | apply setActing_keeps | apply applyOwnPlan_keeps | apply loadPlan_keeps)
    | (with_reducible first | apply setTimeAgree_keeps | apply agreeChanged_keeps | apply setMismatch_keeps)
    | (with_reducible first | apply endLost_keeps | apply groupWaits_keeps | apply Keeps.modFlu | apply Keeps.modCpx)
    | split
    | exact fun _ => List.prefix_refl _
    | exact fun _ => List.prefix_append _ _
    | exact fun _ h => h
    | exact fun _ h => kset_kwf _ _ _ h
    | exact fun _ _ => rfl
    | ((with_reducible refine FluKeeps.mk ?_ ?_ ?_ ?_) <;> first | exact fun g => g | exact fun g => kset_kwf _ _ _ g | exact fun g => kerase_kwf _ _ g | exact fun _ => rfl)
    | intro

theorem sendBeacon_keeps {s : State} {s0 : State} (hk : Keeps s0 s) : Keeps s0 (sendBeacon s) := by
  unfold sendBeacon
  try dsimp only
  repeat first
    | with_reducible assumption
    | (with_reducible first | apply sendFrame_keeps | apply Keeps.modFlu)
    | split
    | ((with_reducible refine FluKeeps.mk ?_ ?_ ?_ ?_) <;> first | exact fun g => g | exact fun g => kset_kwf _ _ _ g | exact fun g => kerase_kwf _ _ g | exact fun _ => rfl)
    | intro

theorem closeFrame_keeps {s s0 : State} (hk : Keeps s0 s) : Keeps s0 (closeFrame s) := by
  unfold closeFrame
  extract_lets x follows hit t1 t2 t3 t4
  have k1 : Keeps s0 t1 := hk.modFlu fun _ => FluKeeps.mk id id id id
  have k2 : Keeps s0 t2 := iteKeeps (setTimeAgree_keeps k1) (iteKeeps (setTimeAgree_keeps k1) k1)
  have k3 : Keeps s0 t3 := iteKeeps (setMismatch_keeps k2) k2
  have k4 : Keeps s0 t4 := iteKeeps (setLost_keeps k3) k3
  exact iteKeeps (standBy_keeps k4) k4

theorem groupFrame_keeps {closed : Bool} {opened : Bool} {s : State} {s0 : State} (hk : Keeps s0 s) : Keeps s0 (groupFrame closed opened s) := by
  unfold groupFrame
  try dsimp only
  repeat first
    | with_reducible assumption
    | (with_reducible first | apply closeFrame_keeps | apply sendBeacon_keeps | apply joinGroup_keeps)
    | split

theorem takeDup_keeps {s : State} {s0 : State} (hk : Keeps s0 s) : Keeps s0 (takeDup s) := by
  unfold takeDup
  try dsimp only
  repeat first
    | with_reducible assumption
    | (with_reducible first | apply setLost_keeps | apply Keeps.modFlu | apply raiseSource_keeps)
    | split
    | ((with_reducible refine FluKeeps.mk ?_ ?_ ?_ ?_) <;> first | exact fun g => g | exact fun g => kset_kwf _ _ _ g | exact fun g => kerase_kwf _ _ g | exact fun _ => rfl)
    | intro

theorem leaderBeacon_keeps {b : Beacon} {s : State} {s0 : State} (hk : Keeps s0 s) : Keeps s0 (leaderBeacon b s) := by
  unfold leaderBeacon
  try dsimp only
  repeat first
    | with_reducible assumption
    | (with_reducible first | apply newLeader_keeps | apply evalTime_keeps | apply agreeChanged_keeps)
    | (with_reducible first | apply setMismatch_keeps | apply Keeps.modFlu)
    | split
    | ((with_reducible refine FluKeeps.mk ?_ ?_ ?_ ?_) <;> first | exact fun g => g | exact fun g => kset_kwf _ _ _ g | exact fun g => kerase_kwf _ _ g | exact fun _ => rfl)
    | intro

theorem sendCold_keeps {j : Nat} {s : State} {s0 : State} (hk : Keeps s0 s) : Keeps s0 (sendCold j s) := by
  unfold sendCold
  try dsimp only
  repeat first
    | with_reducible assumption
    | (with_reducible first | apply sendCeil_keeps | apply Keeps.each)
    | intro

theorem memberBeacon_keeps {b : Beacon} {s : State} {s0 : State} (hk : Keeps s0 s) : Keeps s0 (memberBeacon b s) := by
  unfold memberBeacon
  try dsimp only
  repeat first
    | with_reducible assumption
    | (with_reducible first | apply sendCold_keeps | apply sendRound_keeps | apply Keeps.modFlu)
    | split
    | ((with_reducible refine FluKeeps.mk ?_ ?_ ?_ ?_) <;> first | exact fun g => g | exact fun g => kset_kwf _ _ _ g | exact fun g => kerase_kwf _ _ g | exact fun _ => rfl)
    | intro

theorem rivalBeacon_keeps {b : Beacon} {s : State} {s0 : State} (hk : Keeps s0 s) : Keeps s0 (rivalBeacon b s) := by
  unfold rivalBeacon
  try dsimp only
  repeat first
    | with_reducible assumption
    | (with_reducible first | apply newLeader_keeps | apply Keeps.modFlu)
    | split
    | ((with_reducible refine FluKeeps.mk ?_ ?_ ?_ ?_) <;> first | exact fun g => g | exact fun g => kset_kwf _ _ _ g | exact fun g => kerase_kwf _ _ g | exact fun _ => rfl)
    | intro

theorem storeCoupling_keeps {c : Coupling} {s : State} {s0 : State} (hk : Keeps s0 s) : Keeps s0 (storeCoupling c s) := by
  unfold storeCoupling
  try dsimp only
  repeat first
    | with_reducible assumption
    | (with_reducible first | apply Keeps.modFlu)
    | ((with_reducible refine FluKeeps.mk ?_ ?_ ?_ ?_) <;> first | exact fun g => g | exact fun g => kset_kwf _ _ _ g | exact fun g => kerase_kwf _ _ g | exact fun _ => rfl)
    | intro

theorem finishRound_keeps {s : State} {s0 : State} (hk : Keeps s0 s) : Keeps s0 (finishRound s) := by
  unfold finishRound
  try dsimp only
  repeat first
    | with_reducible assumption
    | (with_reducible first | apply sendCeil_keeps | apply storeCeil_keeps | apply Keeps.modFlu | apply emit_keeps)
    | (with_reducible first | apply Keeps.each)
    | ((with_reducible refine FluKeeps.mk ?_ ?_ ?_ ?_) <;> first | exact fun g => g | exact fun g => kset_kwf _ _ _ g | exact fun g => kerase_kwf _ _ g | exact fun _ => rfl)
    | intro

theorem takeReports_keeps {s : State} {s0 : State} (hk : Keeps s0 s) : Keeps s0 (takeReports s) := by
  unfold takeReports
  try dsimp only
  repeat first
    | with_reducible assumption
    | (with_reducible first | apply finishRound_keeps | apply storeCoupling_keeps | apply Keeps.each)
    | split
    | intro

theorem scheduleNext_keeps {s : State} {s0 : State} (hk : Keeps s0 s) : Keeps s0 (scheduleNext s) := by
  unfold scheduleNext
  try dsimp only
  repeat first
    | with_reducible assumption
    | (with_reducible first | apply sendPacket_keeps | apply Keeps.modFlu)
    | split
    | ((with_reducible refine FluKeeps.mk ?_ ?_ ?_ ?_) <;> first | exact fun g => g | exact fun g => kset_kwf _ _ _ g | exact fun g => kerase_kwf _ _ g | exact fun _ => rfl)
    | intro

end Sys2Proof.Machine
end

