-- ==== Sys2Proof/Laws/KeepsResets.lean ====
section
/-! SUPPORT. Laws/KeepsResets.lean: every operation of Machine/Resets.lean is among those that `Keeps` describes. -/

namespace Sys2Proof.Machine

theorem muteSection_keeps {clk : Nat} {h : Nat} {i : Nat} {s : State} {s0 : State} (hk : Keeps s0 s) : Keeps s0 (muteSection clk h i s) := by
  unfold muteSection
  try dsimp only
  repeat first
    | with_reducible assumption
    | (with_reducible first | apply updateGates_keeps | apply Keeps.modSec)
    | split
    | exact fun _ => @rfl SecState _
    | intro

theorem muteHearth_keeps {h : Nat} {s : State} {s0 : State} (hk : Keeps s0 s) : Keeps s0 (muteHearth h s) := by
  unfold muteHearth
  try dsimp only
  repeat first
    | with_reducible assumption
    | (with_reducible first | apply muteSection_keeps | apply Keeps.each)
    | intro

theorem resetAllTaps_keeps {h : Nat} {s : State} {s0 : State} (hk : Keeps s0 s) : Keeps s0 (resetAllTaps h s) := by
  unfold resetAllTaps
  try dsimp only
  repeat first
    | with_reducible assumption
    | (with_reducible first | apply resetTaps_keeps | apply Keeps.each)
    | intro

theorem failRestore_keeps {h : Nat} {s : State} {s0 : State} (hk : Keeps s0 s) : Keeps s0 (failRestore h s) := by
  unfold failRestore
  try dsimp only
  repeat first
    | with_reducible assumption
    | (with_reducible first | apply freeStage_keeps | apply endHeld_keeps | apply emit_keeps | apply Keeps.each)
    | split
    | intro

theorem failStage_keeps {h : Nat} {s : State} {s0 : State} (hk : Keeps s0 s) : Keeps s0 (failStage h s) := by
  unfold failStage
  try dsimp only
  repeat first
    | with_reducible assumption
    | (with_reducible first | apply failRestore_keeps | apply freeStage_keeps | apply endHeld_keeps)
    | split

theorem resetBdc_keeps {h : Nat} {s : State} {s0 : State} (hk : Keeps s0 s) : Keeps s0 (resetBdc h s) := by
  unfold resetBdc
  try dsimp only
  repeat first
    | with_reducible assumption
    | (with_reducible first | apply failStage_keeps | apply setFrozen_keeps | apply modBdc_keeps)
    | (with_reducible first | apply resetTaps_keeps | apply modPath_keeps | apply Keeps.each)
    | intro

theorem resetRfc_keeps {h : Nat} {s : State} {s0 : State} (hk : Keeps s0 s) : Keeps s0 (resetRfc h s) := by
  unfold resetRfc
  try dsimp only
  repeat first
    | with_reducible assumption
    | (with_reducible first | apply modRfc_keeps | apply modPort_keeps | apply Keeps.each)
    | intro

theorem resetLcal_keeps {h : Nat} {s : State} {s0 : State} (hk : Keeps s0 s) : Keeps s0 (resetLcal h s) := by
  unfold resetLcal
  try dsimp only
  repeat first
    | with_reducible assumption
    | (with_reducible first | apply abortEst_keeps | apply Keeps.each)
    | intro

theorem blockReset_keeps {h : Nat} {n : Nat} {s : State} {s0 : State} (hk : Keeps s0 s) : Keeps s0 (blockReset h n s) := by
  unfold blockReset
  try dsimp only
  repeat first
    | with_reducible assumption
    | (with_reducible first | apply resetLcal_keeps | apply resetRfc_keeps | apply resetBdc_keeps)
    | (with_reducible first | apply resetDamper_keeps | apply modSpa_keeps | apply Keeps.each)
    | split
    | intro

end Sys2Proof.Machine
end

