-- ==== Sys2Proof/Laws/KeepsFaults.lean ====
section
/-! SUPPORT. Laws/KeepsFaults.lean: every operation of Machine/Faults.lean is among those that `Keeps` describes. -/

namespace Sys2Proof.Machine

theorem douseHeld_keeps {s : State} {s0 : State} (hk : Keeps s0 s) : Keeps s0 (douseHeld s) := by
  unfold douseHeld
  try dsimp only
  repeat first
    | with_reducible assumption
    | (with_reducible first | apply abortEffect_keeps | apply endHeld_keeps | apply Keeps.each)
    | intro

theorem douseFes_keeps {s : State} {s0 : State} (hk : Keeps s0 s) : Keeps s0 (douseFes s) := by
  unfold douseFes
  try dsimp only
  repeat first
    | with_reducible assumption
    | (with_reducible first | apply Keeps.each | apply Keeps.modHearth)
    | ((with_reducible refine HearthKeeps.mk ?_ ?_) <;> first | rfl | exact fun g => g | exact fun g => by simpa [hearthShape] using g)
    | intro

theorem enterDoused_keeps {clk : Nat} {s s0 : State} (hk : Keeps s0 s) : Keeps s0 (enterDoused clk s) := by
  unfold enterDoused
  split
  · exact hk
  extract_lets t1 t2 t3 t4 t5 t6 t7
  have k1 : Keeps s0 t1 := setPkg_keeps hk.withWarmDue (fun _ => rfl) fun _ => ⟨fun c => by simp at c, fun c => by simp at c⟩
  have k2 : Keeps s0 t2 := evalGates_keeps k1
  have k3 : Keeps s0 t3 := k2.each fun _ _ hu => hu.each fun _ _ hv => synOff_keeps hv
  have k4 : Keeps s0 t4 := k3.modBoot fun _ => SecKeeps.mk rfl rfl rfl rfl rfl rfl id id
  have k5 : Keeps s0 t5 := douseFes_keeps (douseHeld_keeps k4)
  have k6 : Keeps s0 t6 := k5.each fun _ _ hu => hu.modHearth fun _ => HearthKeeps.mk rfl fun g => by simpa [hearthShape] using g
  have k7 : Keeps s0 t7 := k6.each fun _ _ hu => stopStream_keeps (stopStream_keeps hu)
  exact triggerEmbers_keeps (dousedSnapshot_keeps k7)

theorem startSequence_keeps {h clk : Nat} {cs : List Catch} {s s0 : State} (hk : Keeps s0 s) : Keeps s0 (startSequence h clk cs s) := by
  unfold startSequence
  split
  · exact hk
  extract_lets f douse react cycle lead simul t1 t2 t3 ns t4 t5 t6 p t7
  have k1 : Keeps s0 t1 := modFcol_keeps hk
  have k2 : Keeps s0 t2 := k1.each fun _ _ hu => emitFrom_keeps hu
  have k3 : Keeps s0 t3 := iteKeeps (enterDoused_keeps (modFcol_keeps k2)) k2
  have k4 : Keeps s0 t4 := iteKeeps (signalPf0_keeps (modFcol_keeps k3)) k3
  have k5 : Keeps s0 t5 := iteKeeps (emit_keeps k4) k4
  have k6 : Keeps s0 t6 := iteKeeps (k5.each fun _ _ hu => blockReset_keeps (hu.each fun _ _ hv => muteSection_keeps hv)) k5
  have k7 : Keeps s0 t7 := iteKeeps k6.withPins k6
  exact modFcol_keeps k7

theorem takeLostFatal_keeps {h : Nat} {clk : Nat} {s : State} {s0 : State} (hk : Keeps s0 s) : Keeps s0 (takeLostFatal h clk s) := by
  unfold takeLostFatal
  try dsimp only
  repeat first
    | with_reducible assumption
    | (with_reducible first | apply enterDoused_keeps | apply modFcol_keeps)
    | split
    | intro

theorem execFcolCapture_keeps {h : Nat} {clk : Nat} {s : State} {s0 : State} (hk : Keeps s0 s) : OutKeeps s0 (execFcolCapture h clk s) := by
  unfold execFcolCapture
  try dsimp only
  repeat first
    | with_reducible assumption
    | (with_reducible first | apply OutKeeps.next | apply takeLostFatal_keeps | apply startSequence_keeps)
    | split

theorem execRailFault_keeps {h : Nat} {source : Nat} {clk : Nat} {data : Nat} {s : State} {s0 : State} (hk : Keeps s0 s) : OutKeeps s0 (execRailFault h source clk data s) := by
  unfold execRailFault
  try dsimp only
  repeat first
    | with_reducible assumption
    | (with_reducible first | apply OutKeeps.next | apply startSequence_keeps | apply modFcol_keeps)
    | (with_reducible first | apply DoneKeeps.reply | apply DoneKeeps.hold | apply DoneKeeps.check)
    | split
    | intro

theorem execRailFaultEnd_keeps {h : Nat} {source : Nat} {error : Option Nat} {s : State} {s0 : State} (hk : Keeps s0 s) : OutKeeps s0 (execRailFaultEnd h source error s) := by
  unfold execRailFaultEnd
  try dsimp only
  repeat first
    | with_reducible assumption
    | (with_reducible first | apply OutKeeps.next | apply modFcol_keeps | apply DoneKeeps.reply)
    | (with_reducible first | apply DoneKeeps.hold | apply DoneKeeps.check)
    | split
    | intro

theorem execFcolSequenceEnd_keeps {h : Nat} {s : State} {s0 : State} (hk : Keeps s0 s) : OutKeeps s0 (execFcolSequenceEnd h s) := by
  unfold execFcolSequenceEnd
  try dsimp only
  repeat first
    | with_reducible assumption
    | (with_reducible first | apply OutKeeps.next | apply takeLostFatal_keeps | apply startSequence_keeps)
    | (with_reducible first | apply modFcol_keeps | apply DoneKeeps.reply | apply DoneKeeps.hold)
    | (with_reducible first | apply DoneKeeps.check)
    | split
    | (with_reducible first | apply Keeps.withWarmDue)
    | intro

theorem pulseDue_keeps {s : State} {s0 : State} (hk : Keeps s0 s) : Keeps s0 (pulseDue s) := by
  unfold pulseDue
  try dsimp only
  repeat first
    | with_reducible assumption
    | split
    | (with_reducible first | apply Keeps.withPins)
    | intro

theorem execFaultPinPulseEnd_keeps {s : State} {s0 : State} (hk : Keeps s0 s) : OutKeeps s0 (execFaultPinPulseEnd s) := by
  unfold execFaultPinPulseEnd
  try dsimp only
  repeat first
    | with_reducible assumption
    | (with_reducible first | apply OutKeeps.next | apply pulseDue_keeps)

theorem releaseDue_keeps {h : Nat} {s : State} {s0 : State} (hk : Keeps s0 s) : Keeps s0 (releaseDue h s) := by
  unfold releaseDue
  try dsimp only
  repeat first
    | with_reducible assumption
    | (with_reducible first | apply updateGates_keeps | apply Keeps.each | apply Keeps.modSec)
    | split
    | exact fun _ => @rfl SecState _
    | intro

theorem execBlockResetRelease_keeps {h : Nat} {s : State} {s0 : State} (hk : Keeps s0 s) : OutKeeps s0 (execBlockResetRelease h s) := by
  unfold execBlockResetRelease
  try dsimp only
  repeat first
    | with_reducible assumption
    | (with_reducible first | apply OutKeeps.next | apply releaseDue_keeps)

theorem execFcolInjectionApply_keeps {h : Nat} {clk : Nat} {data : Nat} {s : State} {s0 : State} (hk : Keeps s0 s) : OutKeeps s0 (execFcolInjectionApply h clk data s) := by
  unfold execFcolInjectionApply
  try dsimp only
  repeat first
    | with_reducible assumption
    | (with_reducible first | apply OutKeeps.next | apply startSequence_keeps | apply modFcol_keeps)
    | (with_reducible first | apply emitFrom_keeps | apply DoneKeeps.reply | apply DoneKeeps.hold)
    | (with_reducible first | apply DoneKeeps.check)
    | split
    | intro

theorem fcolInject_keeps {p : Packet} {s : State} {s0 : State} (hk : Keeps s0 s) : DoneKeeps s0 (fcolInject p s) := by
  unfold fcolInject
  try dsimp only
  repeat first
    | with_reducible assumption
    | (with_reducible first | apply DoneKeeps.reply | apply DoneKeeps.hold | apply DoneKeeps.check)
    | (with_reducible first | apply modFcol_keeps)
    | intro

theorem execFcolInject_keeps {p : Packet} {s : State} {s0 : State} (hk : Keeps s0 s) : OutKeeps s0 (execFcolInject p s) := by
  unfold execFcolInject
  try dsimp only
  repeat first
    | with_reducible assumption
    | (with_reducible first | apply OutKeeps.next | apply fcolInject_keeps | apply runCommand_keeps)
    | (with_reducible first | apply DoneKeeps.reply | apply DoneKeeps.hold | apply DoneKeeps.check)
    | intro

theorem fcolSourceConfig_keeps {p : Packet} {s : State} {s0 : State} (hk : Keeps s0 s) : DoneKeeps s0 (fcolSourceConfig p s) := by
  unfold fcolSourceConfig
  try dsimp only
  repeat first
    | with_reducible assumption
    | (with_reducible first | apply DoneKeeps.reply | apply DoneKeeps.hold | apply DoneKeeps.check)
    | (with_reducible first | apply modFcol_keeps | apply Keeps.each)
    | split
    | intro

theorem execFcolSourceConfig_keeps {p : Packet} {s : State} {s0 : State} (hk : Keeps s0 s) : OutKeeps s0 (execFcolSourceConfig p s) := by
  unfold execFcolSourceConfig
  try dsimp only
  repeat first
    | with_reducible assumption
    | (with_reducible first | apply OutKeeps.next | apply fcolSourceConfig_keeps | apply runCommand_keeps)
    | (with_reducible first | apply DoneKeeps.reply | apply DoneKeeps.hold | apply DoneKeeps.check)
    | intro

theorem fcolQuery_keeps {p : Packet} {s : State} {s0 : State} (hk : Keeps s0 s) : DoneKeeps s0 (fcolQuery p s) := by
  unfold fcolQuery
  try dsimp only
  repeat first
    | with_reducible assumption
    | (with_reducible first | apply DoneKeeps.reply | apply DoneKeeps.hold | apply DoneKeeps.check)
    | intro

theorem execFcolQuery_keeps {p : Packet} {s : State} {s0 : State} (hk : Keeps s0 s) : OutKeeps s0 (execFcolQuery p s) := by
  unfold execFcolQuery
  try dsimp only
  repeat first
    | with_reducible assumption
    | (with_reducible first | apply OutKeeps.next | apply fcolQuery_keeps | apply runCommand_keeps)
    | (with_reducible first | apply DoneKeeps.reply | apply DoneKeeps.hold | apply DoneKeeps.check)
    | intro

theorem execFcolPendClear_keeps {h : Nat} {k : Nat} {mask : Word} {s : State} {s0 : State} (hk : Keeps s0 s) : OutKeeps s0 (execFcolPendClear h k mask s) := by
  unfold execFcolPendClear
  try dsimp only
  repeat first
    | with_reducible assumption
    | (with_reducible first | apply OutKeeps.next | apply modFcol_keeps | apply DoneKeeps.reply)
    | (with_reducible first | apply DoneKeeps.hold | apply DoneKeeps.check)
    | split
    | intro

theorem execFcolAlertClear_keeps {h : Nat} {s : State} {s0 : State} (hk : Keeps s0 s) : OutKeeps s0 (execFcolAlertClear h s) := by
  unfold execFcolAlertClear
  try dsimp only
  repeat first
    | with_reducible assumption
    | (with_reducible first | apply OutKeeps.next | apply modFcol_keeps | apply DoneKeeps.reply)
    | (with_reducible first | apply DoneKeeps.hold | apply DoneKeeps.check)
    | split
    | intro

theorem execFcolLostClear_keeps {h : Nat} {s : State} {s0 : State} (hk : Keeps s0 s) : OutKeeps s0 (execFcolLostClear h s) := by
  unfold execFcolLostClear
  try dsimp only
  repeat first
    | with_reducible assumption
    | (with_reducible first | apply OutKeeps.next | apply modFcol_keeps | apply DoneKeeps.reply)
    | (with_reducible first | apply DoneKeeps.hold | apply DoneKeeps.check)
    | split
    | intro

theorem execFcolFfClr_keeps {m : Nat} {h : Nat} {s : State} {s0 : State} (hk : Keeps s0 s) : OutKeeps s0 (execFcolFfClr m h s) := by
  unfold execFcolFfClr
  try dsimp only
  repeat first
    | with_reducible assumption
    | (with_reducible first | apply OutKeeps.next | apply modFcol_keeps | apply DoneKeeps.reply)
    | (with_reducible first | apply DoneKeeps.hold | apply DoneKeeps.check)
    | split
    | intro

theorem execFcolCntClr_keeps {h : Nat} {s : State} {s0 : State} (hk : Keeps s0 s) : OutKeeps s0 (execFcolCntClr h s) := by
  unfold execFcolCntClr
  try dsimp only
  repeat first
    | with_reducible assumption
    | (with_reducible first | apply OutKeeps.next | apply modFcol_keeps | apply DoneKeeps.reply)
    | (with_reducible first | apply DoneKeeps.hold | apply DoneKeeps.check)
    | split
    | intro

end Sys2Proof.Machine
end

