-- ==== Sys2Proof/Laws/KeepsFlue.lean ====
section
/-! SUPPORT. Laws/KeepsFlue.lean: every operation of Machine/Flue.lean is among those that `Keeps` describes. -/

namespace Sys2Proof.Machine

theorem noteTwin_keeps {b : Beacon} {s : State} {s0 : State} (hk : Keeps s0 s) : Keeps s0 (noteTwin b s) := by
  unfold noteTwin
  try dsimp only
  repeat first
    | with_reducible assumption
    | (with_reducible first | apply Keeps.modFlu)
    | split
    | ((with_reducible refine FluKeeps.mk ?_ ?_ ?_ ?_) <;> first | exact fun g => g | exact fun g => kset_kwf _ _ _ g | exact fun g => kerase_kwf _ _ g | exact fun _ => rfl)
    | intro

theorem takeBeacon_keeps {b : Beacon} {s : State} {s0 : State} (hk : Keeps s0 s) : Keeps s0 (takeBeacon b s) := by
  unfold takeBeacon
  try dsimp only
  repeat first
    | with_reducible assumption
    | (with_reducible first | apply noteTwin_keeps | apply rivalBeacon_keeps | apply memberBeacon_keeps)
    | (with_reducible first | apply leaderBeacon_keeps | apply takeDup_keeps | apply acceptFrame_keeps)
    | split

theorem execBeaconReceive_keeps {b : Beacon} {s : State} {s0 : State} (hk : Keeps s0 s) : OutKeeps s0 (execBeaconReceive b s) := by
  unfold execBeaconReceive
  try dsimp only
  repeat first
    | with_reducible assumption
    | (with_reducible first | apply OutKeeps.next | apply arriveInOrder_keeps)
    | split

theorem roundEndDue_keeps {s : State} {s0 : State} (hk : Keeps s0 s) : Keeps s0 (roundEndDue s) := by
  unfold roundEndDue
  try dsimp only
  repeat first
    | with_reducible assumption
    | (with_reducible first | apply sendCold_keeps | apply agreeChanged_keeps | apply Keeps.modFlu)
    | (with_reducible first | apply Keeps.onlyIf)
    | split
    | ((with_reducible refine FluKeeps.mk ?_ ?_ ?_ ?_) <;> first | exact fun g => g | exact fun g => kset_kwf _ _ _ g | exact fun g => kerase_kwf _ _ g | exact fun _ => rfl)
    | intro

theorem execPlanRoundEnd_keeps {s : State} {s0 : State} (hk : Keeps s0 s) : OutKeeps s0 (execPlanRoundEnd s) := by
  unfold execPlanRoundEnd
  try dsimp only
  repeat first
    | with_reducible assumption
    | (with_reducible first | apply OutKeeps.next | apply roundEndDue_keeps)

theorem roundDue_keeps {member : Nat} {s : State} {s0 : State} (hk : Keeps s0 s) : Keeps s0 (roundDue member s) := by
  unfold roundDue
  try dsimp only
  repeat first
    | with_reducible assumption
    | (with_reducible first | apply sendRound_keeps | apply Keeps.modFlu)
    | split
    | ((with_reducible refine FluKeeps.mk ?_ ?_ ?_ ?_) <;> first | exact fun g => g | exact fun g => kset_kwf _ _ _ g | exact fun g => kerase_kwf _ _ g | exact fun _ => rfl)
    | intro

theorem execPlanRoundRetry_keeps {member : Nat} {s : State} {s0 : State} (hk : Keeps s0 s) : OutKeeps s0 (execPlanRoundRetry member s) := by
  unfold execPlanRoundRetry
  try dsimp only
  repeat first
    | with_reducible assumption
    | (with_reducible first | apply OutKeeps.next | apply roundDue_keeps)

theorem leaderDue_keeps {s : State} {s0 : State} (hk : Keeps s0 s) : Keeps s0 (leaderDue s) := by
  unfold leaderDue
  try dsimp only
  repeat first
    | with_reducible assumption
    | (with_reducible first | apply takeOver_keeps)
    | split

theorem execLeaderTakeover_keeps {s : State} {s0 : State} (hk : Keeps s0 s) : OutKeeps s0 (execLeaderTakeover s) := by
  unfold execLeaderTakeover
  try dsimp only
  repeat first
    | with_reducible assumption
    | (with_reducible first | apply OutKeeps.next | apply leaderDue_keeps)

theorem digestDue_keeps {s : State} {s0 : State} (hk : Keeps s0 s) : Keeps s0 (digestDue s) := by
  unfold digestDue
  try dsimp only
  repeat first
    | with_reducible assumption
    | (with_reducible first | apply groupWaits_keeps | apply Keeps.modFlu)
    | split
    | ((with_reducible refine FluKeeps.mk ?_ ?_ ?_ ?_) <;> first | exact fun g => g | exact fun g => kset_kwf _ _ _ g | exact fun g => kerase_kwf _ _ g | exact fun _ => rfl)
    | intro

theorem execDigestTimeout_keeps {s : State} {s0 : State} (hk : Keeps s0 s) : OutKeeps s0 (execDigestTimeout s) := by
  unfold execDigestTimeout
  try dsimp only
  repeat first
    | with_reducible assumption
    | (with_reducible first | apply OutKeeps.next | apply digestDue_keeps)

theorem execFtfDiscard_keeps {port : Nat} {frame : List (BitVec 8)} {s : State} {s0 : State} (hk : Keeps s0 s) : OutKeeps s0 (execFtfDiscard port frame s) := by
  unfold execFtfDiscard
  try dsimp only
  repeat first
    | with_reducible assumption
    | (with_reducible first | apply OutKeeps.next | apply Keeps.modFlu | apply DoneKeeps.reply | apply DoneKeeps.hold)
    | (with_reducible first | apply DoneKeeps.check)
    | split
    | ((with_reducible refine FluKeeps.mk ?_ ?_ ?_ ?_) <;> first | exact fun g => g | exact fun g => kset_kwf _ _ _ g | exact fun g => kerase_kwf _ _ g | exact fun _ => rfl)
    | intro

theorem takeReply_keeps {member : Nat} {seq : Nat} {a : ReplyIn} {s : State} {s0 : State} (hk : Keeps s0 s) : Keeps s0 (takeReply member seq a s) := by
  unfold takeReply
  try dsimp only
  repeat first
    | with_reducible assumption
    | (with_reducible first | apply acceptFrame_keeps | apply Keeps.modFlu)
    | split
    | ((with_reducible refine FluKeeps.mk ?_ ?_ ?_ ?_) <;> first | exact fun g => g | exact fun g => kset_kwf _ _ _ g | exact fun g => kerase_kwf _ _ g | exact fun _ => rfl)
    | intro

theorem execReplyFrameReceive_keeps {member : Nat} {seq : Nat} {a : ReplyIn} {s : State} {s0 : State} (hk : Keeps s0 s) : OutKeeps s0 (execReplyFrameReceive member seq a s) := by
  unfold execReplyFrameReceive
  try dsimp only
  repeat first
    | with_reducible assumption
    | (with_reducible first | apply OutKeeps.next | apply arrive_keeps)

theorem modPtp_keeps {f : Ptp → Ptp} {s : State} {s0 : State} (hk : Keeps s0 s) : Keeps s0 (modPtp f s) := by
  unfold modPtp
  try dsimp only
  repeat first
    | with_reducible assumption
    | (with_reducible first | apply Keeps.modFlu)
    | ((with_reducible refine FluKeeps.mk ?_ ?_ ?_ ?_) <;> first | exact fun g => g | exact fun g => kset_kwf _ _ _ g | exact fun g => kerase_kwf _ _ g | exact fun _ => rfl)
    | intro

theorem setTimeStatus_keeps {v : Nat} {s : State} {s0 : State} (hk : Keeps s0 s) : Keeps s0 (setTimeStatus v s) := by
  unfold setTimeStatus
  try dsimp only
  repeat first
    | with_reducible assumption
    | (with_reducible first | apply emit_keeps | apply Keeps.modTbu)
    | split
    | intro

theorem servoIncr_keeps {s : State} {s0 : State} (hk : Keeps s0 s) : Keeps s0 (servoIncr s) := by
  unfold servoIncr
  try dsimp only
  repeat first
    | with_reducible assumption
    | (with_reducible first | apply takeFree_keeps | apply Keeps.modTbu)
    | intro

theorem loseLock_keeps {s : State} {s0 : State} (hk : Keeps s0 s) : Keeps s0 (loseLock s) := by
  unfold loseLock
  try dsimp only
  repeat first
    | with_reducible assumption
    | (with_reducible first | apply setTimeStatus_keeps | apply modPtp_keeps)
    | split
    | intro

theorem syncServo_keeps {o : Int} {s : State} {s0 : State} (hk : Keeps s0 s) : Keeps s0 (syncServo o s) := by
  unfold syncServo
  try dsimp only
  repeat first
    | with_reducible assumption
    | (with_reducible first | apply loseLock_keeps | apply servoIncr_keeps | apply setTimeStatus_keeps)
    | (with_reducible first | apply modPtp_keeps | apply Keeps.modTbu)
    | split
    | intro

theorem takeSync_keeps {x : PtpSync} {s : State} {s0 : State} (hk : Keeps s0 s) : Keeps s0 (takeSync x s) := by
  unfold takeSync
  try dsimp only
  repeat first
    | with_reducible assumption
    | (with_reducible first | apply syncServo_keeps | apply evalTime_keeps)
    | split

theorem execPtpSyncReceive_keeps {x : PtpSync} {s : State} {s0 : State} (hk : Keeps s0 s) : OutKeeps s0 (execPtpSyncReceive x s) := by
  unfold execPtpSyncReceive
  try dsimp only
  repeat first
    | with_reducible assumption
    | (with_reducible first | apply OutKeeps.next | apply arrive_keeps)

theorem takeMessage_keeps {m : PtpMsg} {s : State} {s0 : State} (hk : Keeps s0 s) : Keeps s0 (takeMessage m s) := by
  unfold takeMessage
  try dsimp only
  repeat first
    | with_reducible assumption
    | (with_reducible first | apply modPtp_keeps | apply evalTime_keeps | apply Keeps.modFlu)
    | split
    | ((with_reducible refine FluKeeps.mk ?_ ?_ ?_ ?_) <;> first | exact fun g => g | exact fun g => kset_kwf _ _ _ g | exact fun g => kerase_kwf _ _ g | exact fun _ => rfl)
    | intro

theorem execPtpMessageReceive_keeps {m : PtpMsg} {s : State} {s0 : State} (hk : Keeps s0 s) : OutKeeps s0 (execPtpMessageReceive m s) := by
  unfold execPtpMessageReceive
  try dsimp only
  repeat first
    | with_reducible assumption
    | (with_reducible first | apply OutKeeps.next | apply arrive_keeps)

theorem ptpLate_keeps {s : State} {s0 : State} (hk : Keeps s0 s) : Keeps s0 (ptpLate s) := by
  unfold ptpLate
  try dsimp only
  repeat first
    | with_reducible assumption
    | (with_reducible first | apply loseLock_keeps | apply evalTime_keeps)
    | split

theorem execPtpTimeout_keeps {s : State} {s0 : State} (hk : Keeps s0 s) : OutKeeps s0 (execPtpTimeout s) := by
  unfold execPtpTimeout
  try dsimp only
  repeat first
    | with_reducible assumption
    | (with_reducible first | apply OutKeeps.next | apply ptpLate_keeps)

theorem holdoverDue_keeps {s : State} {s0 : State} (hk : Keeps s0 s) : Keeps s0 (holdoverDue s) := by
  unfold holdoverDue
  try dsimp only
  repeat first
    | with_reducible assumption
    | (with_reducible first | apply setTimeStatus_keeps | apply evalTime_keeps)
    | split

theorem execPtpHoldoverExpiry_keeps {s : State} {s0 : State} (hk : Keeps s0 s) : OutKeeps s0 (execPtpHoldoverExpiry s) := by
  unfold execPtpHoldoverExpiry
  try dsimp only
  repeat first
    | with_reducible assumption
    | (with_reducible first | apply OutKeeps.next | apply holdoverDue_keeps)

theorem modSplit_keeps {h : Nat} {i : Nat} {f : Split → Split} {s : State} {s0 : State} (hk : Keeps s0 s) : Keeps s0 (modSplit h i f s) := by
  unfold modSplit
  try dsimp only
  repeat first
    | with_reducible assumption
    | (with_reducible first | apply Keeps.modSec)
    | exact fun _ => @rfl SecState _
    | intro

theorem execTransportSend_keeps {h : Nat} {i : Nat} {s : State} {s0 : State} (hk : Keeps s0 s) : OutKeeps s0 (execTransportSend h i s) := by
  unfold execTransportSend
  try dsimp only
  repeat first
    | with_reducible assumption
    | (with_reducible first | apply OutKeeps.next | apply modSplit_keeps | apply Keeps.modFlu | apply DoneKeeps.reply)
    | (with_reducible first | apply DoneKeeps.hold | apply DoneKeeps.check)
    | split
    | ((with_reducible refine FluKeeps.mk ?_ ?_ ?_ ?_) <;> first | exact fun g => g | exact fun g => kset_kwf _ _ _ g | exact fun g => kerase_kwf _ _ g | exact fun _ => rfl)
    | intro

theorem execTransportReceive_keeps {h : Nat} {i : Nat} {f : TransportIn} {s : State} {s0 : State} (hk : Keeps s0 s) : OutKeeps s0 (execTransportReceive h i f s) := by
  unfold execTransportReceive
  try dsimp only
  repeat first
    | with_reducible assumption
    | (with_reducible first | apply OutKeeps.next | apply modSplit_keeps | apply Keeps.modFlu | apply DoneKeeps.reply)
    | (with_reducible first | apply DoneKeeps.hold | apply DoneKeeps.check)
    | split
    | ((with_reducible refine FluKeeps.mk ?_ ?_ ?_ ?_) <;> first | exact fun g => g | exact fun g => kset_kwf _ _ _ g | exact fun g => kerase_kwf _ _ g | exact fun _ => rfl)
    | intro

theorem execTransportLost_keeps {h : Nat} {i : Nat} {s : State} {s0 : State} (hk : Keeps s0 s) : OutKeeps s0 (execTransportLost h i s) := by
  unfold execTransportLost
  try dsimp only
  repeat first
    | with_reducible assumption
    | (with_reducible first | apply OutKeeps.next | apply modSplit_keeps | apply sectionStop_keeps)
    | (with_reducible first | apply runCommand_keeps | apply raiseSource_keeps | apply emit_keeps)
    | (with_reducible first | apply DoneKeeps.reply | apply DoneKeeps.hold | apply DoneKeeps.check)
    | split
    | intro

theorem execTransportRestored_keeps {h : Nat} {i : Nat} {s : State} {s0 : State} (hk : Keeps s0 s) : OutKeeps s0 (execTransportRestored h i s) := by
  unfold execTransportRestored
  try dsimp only
  repeat first
    | with_reducible assumption
    | (with_reducible first | apply OutKeeps.next | apply modSplit_keeps | apply sectionStart_keeps)
    | (with_reducible first | apply runCommand_keeps | apply emit_keeps | apply DoneKeeps.reply)
    | (with_reducible first | apply DoneKeeps.hold | apply DoneKeeps.check)
    | split
    | intro

theorem modWindow_keeps {n : Nat} {f : ProbeWindow → ProbeWindow} {s : State} {s0 : State} (hk : Keeps s0 s) : Keeps s0 (modWindow n f s) := by
  unfold modWindow
  try dsimp only
  repeat first
    | with_reducible assumption
    | (with_reducible first | apply Keeps.modFlu)
    | ((with_reducible refine FluKeeps.mk ?_ ?_ ?_ ?_) <;> first | exact fun g => g | exact fun g => kset_kwf _ _ _ g | exact fun g => kerase_kwf _ _ g | exact fun _ => rfl)
    | intro

theorem windowStartDue_keeps {n : Nat} {s : State} {s0 : State} (hk : Keeps s0 s) : Keeps s0 (windowStartDue n s) := by
  unfold windowStartDue
  try dsimp only
  repeat first
    | with_reducible assumption
    | (with_reducible first | apply modWindow_keeps | apply Keeps.modFlu)
    | split
    | ((with_reducible refine FluKeeps.mk ?_ ?_ ?_ ?_) <;> first | exact fun g => g | exact fun g => kset_kwf _ _ _ g | exact fun g => kerase_kwf _ _ g | exact fun _ => rfl)
    | intro

theorem execProbeWindowStart_keeps {n : Nat} {s : State} {s0 : State} (hk : Keeps s0 s) : OutKeeps s0 (execProbeWindowStart n s) := by
  unfold execProbeWindowStart
  try dsimp only
  repeat first
    | with_reducible assumption
    | (with_reducible first | apply OutKeeps.next | apply windowStartDue_keeps)

theorem windowEndDue_keeps {n : Nat} {start : Nat} {s : State} {s0 : State} (hk : Keeps s0 s) : Keeps s0 (windowEndDue n start s) := by
  unfold windowEndDue
  try dsimp only
  repeat first
    | with_reducible assumption
    | (with_reducible first | apply scheduleNext_keeps | apply takeReports_keeps | apply sendFrame_keeps)
    | (with_reducible first | apply Keeps.modFlu)
    | split
    | ((with_reducible refine FluKeeps.mk ?_ ?_ ?_ ?_) <;> first | exact fun g => g | exact fun g => kset_kwf _ _ _ g | exact fun g => kerase_kwf _ _ g | exact fun _ => rfl)
    | intro

theorem execProbeWindowEnd_keeps {n : Nat} {start : Nat} {s : State} {s0 : State} (hk : Keeps s0 s) : OutKeeps s0 (execProbeWindowEnd n start s) := by
  unfold execProbeWindowEnd
  try dsimp only
  repeat first
    | with_reducible assumption
    | (with_reducible first | apply OutKeeps.next | apply windowEndDue_keeps)

theorem execProbeReportReceive_keeps {r : ProbeReport} {s : State} {s0 : State} (hk : Keeps s0 s) : OutKeeps s0 (execProbeReportReceive r s) := by
  unfold execProbeReportReceive
  try dsimp only
  repeat first
    | with_reducible assumption
    | (with_reducible first | apply OutKeeps.next | apply takeReports_keeps | apply acceptFrame_keeps)
    | (with_reducible first | apply Keeps.modFlu | apply DoneKeeps.reply | apply DoneKeeps.hold)
    | (with_reducible first | apply DoneKeeps.check)
    | split
    | ((with_reducible refine FluKeeps.mk ?_ ?_ ?_ ?_) <;> first | exact fun g => g | exact fun g => kset_kwf _ _ _ g | exact fun g => kerase_kwf _ _ g | exact fun _ => rfl)
    | intro

theorem surveyDue_keeps {s : State} {s0 : State} (hk : Keeps s0 s) : Keeps s0 (surveyDue s) := by
  unfold surveyDue
  try dsimp only
  repeat first
    | with_reducible assumption
    | (with_reducible first | apply scheduleNext_keeps | apply finishRound_keeps | apply Keeps.modFlu)
    | split
    | ((with_reducible refine FluKeeps.mk ?_ ?_ ?_ ?_) <;> first | exact fun g => g | exact fun g => kset_kwf _ _ _ g | exact fun g => kerase_kwf _ _ g | exact fun _ => rfl)
    | intro

theorem execSurveyRoundStart_keeps {s : State} {s0 : State} (hk : Keeps s0 s) : OutKeeps s0 (execSurveyRoundStart s) := by
  unfold execSurveyRoundStart
  try dsimp only
  repeat first
    | with_reducible assumption
    | (with_reducible first | apply OutKeeps.next | apply surveyDue_keeps)

theorem execCouplingExpiry_keeps {n : Nat} {s : State} {s0 : State} (hk : Keeps s0 s) : OutKeeps s0 (execCouplingExpiry n s) := by
  unfold execCouplingExpiry
  try dsimp only
  repeat first
    | with_reducible assumption
    | (with_reducible first | apply OutKeeps.next | apply Keeps.modFlu | apply DoneKeeps.reply | apply DoneKeeps.hold)
    | (with_reducible first | apply DoneKeeps.check)
    | split
    | ((with_reducible refine FluKeeps.mk ?_ ?_ ?_ ?_) <;> first | exact fun g => g | exact fun g => kset_kwf _ _ _ g | exact fun g => kerase_kwf _ _ g | exact fun _ => rfl)
    | intro

theorem probeEnds_keeps {s : State} {s0 : State} (hk : Keeps s0 s) : Keeps s0 (probeEnds s) := by
  unfold probeEnds
  try dsimp only
  repeat first
    | with_reducible assumption
    | (with_reducible first | apply windowEndDue_keeps | apply Keeps.each)
    | split
    | intro

theorem groupTimers_keeps {s : State} {s0 : State} (hk : Keeps s0 s) : Keeps s0 (groupTimers s) := by
  unfold groupTimers
  try dsimp only
  repeat first
    | with_reducible assumption
    | (with_reducible first | apply probeEnds_keeps | apply surveyDue_keeps | apply holdoverDue_keeps)
    | (with_reducible first | apply ptpLate_keeps | apply digestDue_keeps | apply leaderDue_keeps)
    | (with_reducible first | apply roundDue_keeps | apply roundEndDue_keeps | apply Keeps.modFlu | apply Keeps.each)
    | ((with_reducible refine FluKeeps.mk ?_ ?_ ?_ ?_) <;> first | exact fun g => g | exact fun g => kset_kwf _ _ _ g | exact fun g => kerase_kwf _ _ g | exact fun _ => rfl)
    | intro

theorem setFlueLink_keeps {h : Nat} {port : Nat} {up : Bool} {s : State} {s0 : State} (hk : Keeps s0 s) : Keeps s0 (setFlueLink h port up s) := by
  unfold setFlueLink
  try dsimp only
  repeat first
    | with_reducible assumption
    | (with_reducible first | apply Keeps.modFlu | apply emit_keeps)
    | split
    | ((with_reducible refine FluKeeps.mk ?_ ?_ ?_ ?_) <;> first | exact fun g => g | exact fun g => kset_kwf _ _ _ g | exact fun g => kerase_kwf _ _ g | exact fun _ => rfl)
    | intro

theorem execFlueLinkChange_keeps {h : Nat} {port : Nat} {up : Bool} {s : State} {s0 : State} (hk : Keeps s0 s) : OutKeeps s0 (execFlueLinkChange h port up s) := by
  unfold execFlueLinkChange
  try dsimp only
  repeat first
    | with_reducible assumption
    | (with_reducible first | apply OutKeeps.next | apply setFlueLink_keeps | apply raiseSource_keeps)
    | split

theorem fluePortConfig_keeps {p : Packet} {s : State} {s0 : State} (hk : Keeps s0 s) : DoneKeeps s0 (fluePortConfig p s) := by
  unfold fluePortConfig
  try dsimp only
  repeat first
    | with_reducible assumption
    | (with_reducible first | apply DoneKeeps.reply | apply DoneKeeps.hold | apply DoneKeeps.check)
    | (with_reducible first | apply setFlueLink_keeps | apply Keeps.modFlu)
    | split
    | ((with_reducible refine FluKeeps.mk ?_ ?_ ?_ ?_) <;> first | exact fun g => g | exact fun g => kset_kwf _ _ _ g | exact fun g => kerase_kwf _ _ g | exact fun _ => rfl)
    | intro

theorem execFluePortConfig_keeps {p : Packet} {s : State} {s0 : State} (hk : Keeps s0 s) : OutKeeps s0 (execFluePortConfig p s) := by
  unfold execFluePortConfig
  try dsimp only
  repeat first
    | with_reducible assumption
    | (with_reducible first | apply OutKeeps.next | apply fluePortConfig_keeps | apply runCommand_keeps)
    | (with_reducible first | apply DoneKeeps.reply | apply DoneKeeps.hold | apply DoneKeeps.check)
    | intro

theorem groupConfig_keeps {p : Packet} {s : State} {s0 : State} (hk : Keeps s0 s) : DoneKeeps s0 (groupConfig p s) := by
  unfold groupConfig
  try dsimp only
  repeat first
    | with_reducible assumption
    | (with_reducible first | apply DoneKeeps.reply | apply DoneKeeps.hold | apply DoneKeeps.check)
    | (with_reducible first | apply agreeChanged_keeps | apply setLost_keeps | apply Keeps.modFlu)
    | split
    | ((with_reducible refine FluKeeps.mk ?_ ?_ ?_ ?_) <;> first | exact fun g => g | exact fun g => kset_kwf _ _ _ g | exact fun g => kerase_kwf _ _ g | exact fun _ => rfl)
    | intro

theorem execGroupConfig_keeps {p : Packet} {s : State} {s0 : State} (hk : Keeps s0 s) : OutKeeps s0 (execGroupConfig p s) := by
  unfold execGroupConfig
  try dsimp only
  repeat first
    | with_reducible assumption
    | (with_reducible first | apply OutKeeps.next | apply groupConfig_keeps | apply runCommand_keeps)
    | (with_reducible first | apply DoneKeeps.reply | apply DoneKeeps.hold | apply DoneKeeps.check)
    | intro

theorem groupQuery_keeps {_p : Packet} {s : State} {s0 : State} (hk : Keeps s0 s) : DoneKeeps s0 (groupQuery _p s) := by
  unfold groupQuery
  try dsimp only
  repeat first
    | with_reducible assumption
    | (with_reducible first | apply DoneKeeps.reply | apply DoneKeeps.hold | apply DoneKeeps.check)
    | intro

theorem execGroupQuery_keeps {p : Packet} {s : State} {s0 : State} (hk : Keeps s0 s) : OutKeeps s0 (execGroupQuery p s) := by
  unfold execGroupQuery
  try dsimp only
  repeat first
    | with_reducible assumption
    | (with_reducible first | apply OutKeeps.next | apply groupQuery_keeps | apply runCommand_keeps)
    | (with_reducible first | apply DoneKeeps.reply | apply DoneKeeps.hold | apply DoneKeeps.check)
    | intro

theorem ptpConfig_keeps {p : Packet} {s : State} {s0 : State} (hk : Keeps s0 s) : DoneKeeps s0 (ptpConfig p s) := by
  unfold ptpConfig
  try dsimp only
  repeat first
    | with_reducible assumption
    | (with_reducible first | apply DoneKeeps.reply | apply DoneKeeps.hold | apply DoneKeeps.check)
    | (with_reducible first | apply modPtp_keeps | apply evalTime_keeps | apply takeFree_keeps)
    | split
    | intro

theorem execPtpConfig_keeps {p : Packet} {s : State} {s0 : State} (hk : Keeps s0 s) : OutKeeps s0 (execPtpConfig p s) := by
  unfold execPtpConfig
  try dsimp only
  repeat first
    | with_reducible assumption
    | (with_reducible first | apply OutKeeps.next | apply ptpConfig_keeps | apply runCommand_keeps)
    | (with_reducible first | apply DoneKeeps.reply | apply DoneKeeps.hold | apply DoneKeeps.check)
    | intro

theorem applySplit_keeps {h : Nat} {i : Nat} {x : Split} {s : State} {s0 : State} (hk : Keeps s0 s) : Keeps s0 (applySplit h i x s) := by
  unfold applySplit
  try dsimp only
  repeat first
    | with_reducible assumption
    | (with_reducible first | apply updateGates_keeps | apply refreshDg_keeps | apply Keeps.modSec)
    | split
    | exact fun _ => @rfl SecState _
    | intro

theorem splitConfig_keeps {p : Packet} {s : State} {s0 : State} (hk : Keeps s0 s) : DoneKeeps s0 (splitConfig p s) := by
  unfold splitConfig
  try dsimp only
  repeat first
    | with_reducible assumption
    | (with_reducible first | apply DoneKeeps.reply | apply DoneKeeps.hold | apply DoneKeeps.check)
    | (with_reducible first | apply applySplit_keeps)
    | intro

theorem execSplitConfig_keeps {p : Packet} {s : State} {s0 : State} (hk : Keeps s0 s) : OutKeeps s0 (execSplitConfig p s) := by
  unfold execSplitConfig
  try dsimp only
  repeat first
    | with_reducible assumption
    | (with_reducible first | apply OutKeeps.next | apply splitConfig_keeps | apply runCommand_keeps)
    | (with_reducible first | apply DoneKeeps.reply | apply DoneKeeps.hold | apply DoneKeeps.check)
    | intro

theorem probeSchedule_keeps {p : Packet} {s : State} {s0 : State} (hk : Keeps s0 s) : DoneKeeps s0 (probeSchedule p s) := by
  unfold probeSchedule
  try dsimp only
  repeat first
    | with_reducible assumption
    | (with_reducible first | apply DoneKeeps.reply | apply DoneKeeps.hold | apply DoneKeeps.check)
    | (with_reducible first | apply Keeps.modFlu)
    | ((with_reducible refine FluKeeps.mk ?_ ?_ ?_ ?_) <;> first | exact fun g => g | exact fun g => kset_kwf _ _ _ g | exact fun g => kerase_kwf _ _ g | exact fun _ => rfl)
    | intro

theorem execProbeSchedule_keeps {p : Packet} {s : State} {s0 : State} (hk : Keeps s0 s) : OutKeeps s0 (execProbeSchedule p s) := by
  unfold execProbeSchedule
  try dsimp only
  repeat first
    | with_reducible assumption
    | (with_reducible first | apply OutKeeps.next | apply probeSchedule_keeps | apply runCommand_keeps)
    | (with_reducible first | apply DoneKeeps.reply | apply DoneKeeps.hold | apply DoneKeeps.check)
    | intro

theorem copyWords_keeps {s s0 : State} (hk : Keeps s0 s) : Keeps s0 (copyWords s).2 :=
  hk.trans (.of_eq rfl rfl rfl rfl rfl rfl (Nat.le_add_right _ _) rfl rfl)

theorem probeRead_keeps {p : Packet} {s : State} {s0 : State} (hk : Keeps s0 s) : DoneKeeps s0 (probeRead p s) := by
  unfold probeRead
  try dsimp only
  repeat first
    | with_reducible assumption
    | (with_reducible first | apply DoneKeeps.reply | apply DoneKeeps.hold | apply DoneKeeps.check)
    | (with_reducible first | apply copyWords_keeps)
    | split
    | intro

theorem execProbeRead_keeps {p : Packet} {s : State} {s0 : State} (hk : Keeps s0 s) : OutKeeps s0 (execProbeRead p s) := by
  unfold execProbeRead
  try dsimp only
  repeat first
    | with_reducible assumption
    | (with_reducible first | apply OutKeeps.next | apply probeRead_keeps | apply runCommand_keeps)
    | (with_reducible first | apply DoneKeeps.reply | apply DoneKeeps.hold | apply DoneKeeps.check)
    | intro

theorem execFluCntClr_keeps {h : Nat} {s : State} {s0 : State} (hk : Keeps s0 s) : OutKeeps s0 (execFluCntClr h s) := by
  unfold execFluCntClr
  try dsimp only
  repeat first
    | with_reducible assumption
    | (with_reducible first | apply OutKeeps.next | apply modSplit_keeps | apply Keeps.modFlu | apply Keeps.each)
    | (with_reducible first | apply DoneKeeps.reply | apply DoneKeeps.hold | apply DoneKeeps.check)
    | split
    | ((with_reducible refine FluKeeps.mk ?_ ?_ ?_ ?_) <;> first | exact fun g => g | exact fun g => kset_kwf _ _ _ g | exact fun g => kerase_kwf _ _ g | exact fun _ => rfl)
    | intro

end Sys2Proof.Machine
end

