-- ==== Sys2Proof/Laws/KeepsRegisters.lean ====
section
/-! SUPPORT. Laws/KeepsRegisters.lean: every operation of Machine/Registers.lean is among those that `Keeps` describes. -/

namespace Sys2Proof.Machine

theorem lockedWrite_keeps {m : Nat} {a : Nat} {v : Word} {s : State} {s0 : State} (hk : Keeps s0 s) : Keeps s0 (lockedWrite m a v s) := by
  unfold lockedWrite
  try dsimp only
  repeat first
    | with_reducible assumption
    | (with_reducible first | apply emit_keeps)

theorem writeQueue0_keeps {off : Nat} {v : Word} {s : State} {s0 : State} (hk : Keeps s0 s) : Keeps s0 (writeQueue0 off v s) := by
  unfold writeQueue0
  try dsimp only
  repeat first
    | with_reducible assumption
    | (with_reducible first | apply modQueue_keeps)
    | split
    | intro

theorem writeNow_keeps {a : Nat} {v : Word} {s : State} {s0 : State} (hk : Keeps s0 s) : Keeps s0 (writeNow a v s) := by
  unfold writeNow
  try dsimp only
  repeat first
    | with_reducible assumption
    | (with_reducible first | apply writeQueue0_keeps | apply modQueue_keeps | apply Keeps.modHif)
    | (with_reducible first | apply Keeps.modAlog)
    | split
    | intro

theorem writeLate_keeps {m : Nat} {a : Nat} {v : Word} {s : State} {s0 : State} (hk : Keeps s0 s) : Keeps s0 (writeLate m a v s) := by
  unfold writeLate
  try dsimp only
  repeat first
    | with_reducible assumption
    | (with_reducible first | apply arrive_keeps | apply Keeps.onlyIf)
    | intro

theorem writePf0_keeps {m : Nat} {a : Nat} {v : Word} {s : State} {s0 : State} (hk : Keeps s0 s) : Keeps s0 (writePf0 m a v s) := by
  unfold writePf0
  try dsimp only
  repeat first
    | with_reducible assumption
    | (with_reducible first | apply writeLate_keeps | apply writeNow_keeps)

theorem captureWrite_keeps {w : LateWrite} {s : State} {s0 : State} (hk : Keeps s0 s) : Keeps s0 (captureWrite w s) := by
  unfold captureWrite
  try dsimp only
  repeat first
    | with_reducible assumption
    | (with_reducible first | apply lockedWrite_keeps | apply Keeps.modSys | apply Keeps.onlyIf)
    | split
    | intro

theorem writeFcolCtrl_keeps {h : Nat} {v : Word} {s : State} {s0 : State} (hk : Keeps s0 s) : Keeps s0 (writeFcolCtrl h v s) := by
  unfold writeFcolCtrl
  try dsimp only
  repeat first
    | with_reducible assumption
    | (with_reducible first | apply Keeps.modHearth)
    | ((with_reducible refine HearthKeeps.mk ?_ ?_) <;> first | rfl | exact fun g => g | exact fun g => by simpa [hearthShape] using g)
    | intro

theorem applyRegister_keeps {a : Nat} {v : Word} {s : State} {s0 : State} (hk : Keeps s0 s) : Keeps s0 (applyRegister a v s) := by
  unfold applyRegister
  try dsimp only
  repeat first
    | with_reducible assumption
    | (with_reducible first | apply writeFcolCtrl_keeps | apply modQueue_keeps | apply Keeps.modHif)
    | (with_reducible first | apply Keeps.modSys | apply Keeps.modTbu | apply Keeps.onlyIf)
    | split
    | (with_reducible first | apply Keeps.withPins)
    | intro

theorem applyWrite_keeps {w : LateWrite} {s : State} {s0 : State} (hk : Keeps s0 s) : Keeps s0 (applyWrite w s) := by
  unfold applyWrite
  try dsimp only
  repeat first
    | with_reducible assumption
    | (with_reducible first | apply applyRegister_keeps | apply queue0Off_keeps | apply queue0On_keeps)
    | split

theorem applyWrites_keeps {s : State} {s0 : State} (hk : Keeps s0 s) : Keeps s0 (applyWrites s) := by
  unfold applyWrites
  try dsimp only
  repeat first
    | with_reducible assumption
    | (with_reducible first | apply applyWrite_keeps | apply Keeps.modSys | apply Keeps.each)
    | intro

theorem writeAlways_keeps {m : Nat} {a : Nat} {v : Word} {s : State} {s0 : State} (hk : Keeps s0 s) : Keeps s0 (writeAlways m a v s) := by
  unfold writeAlways
  try dsimp only
  repeat first
    | with_reducible assumption
    | (with_reducible first | apply writeLate_keeps | apply writeNow_keeps | apply Keeps.modHif)
    | split
    | intro

theorem execRegisterWrite_keeps {m a : Nat} {v : Word} {s s0 : State} (hk : Keeps s0 s) : OutKeeps s0 (execRegisterWrite m a v s) := by
  unfold execRegisterWrite
  split
  · exact hk
  split
  · exact writeConfig_keeps hk
  split
  · trivial
  · exact iteKeeps (writePf0_keeps (writeAlways_keeps hk)) (writeAlways_keeps hk)

end Sys2Proof.Machine
end

