-- ==== Sys2Proof/Laws/KeepsSecure.lean ====
section
/-! SUPPORT. Laws/KeepsSecure.lean: every operation of Machine/Secure.lean is among those that `Keeps` describes. -/

namespace Sys2Proof.Machine

theorem eraseTarget_keeps {n : Nat} {s s0 : State} (hk : Keeps s0 s) : Keeps s0 (eraseTarget n s) := by
  unfold eraseTarget
  split
  · exact hk.modBoot fun _ => SecKeeps.mk rfl rfl rfl rfl rfl rfl id fun _ => rfl
  · exact hk.modBoot fun _ => SecKeeps.mk rfl rfl rfl rfl rfl rfl (fun g => kfilter_kwf _ _ g) id

theorem writeTarget_keeps {n o : Nat} {ws : List Word} {s s0 : State} (hk : Keeps s0 s) : Keeps s0 (writeTarget n o ws s) := by
  unfold writeTarget
  split
  · exact hk.modBoot fun _ => SecKeeps.mk rfl rfl rfl rfl rfl rfl id fun g => putWords_kwf g
  · exact putFlash_keeps hk

theorem imageWrite_keeps {p : Packet} {s : State} {s0 : State} (hk : Keeps s0 s) : DoneKeeps s0 (imageWrite p s) := by
  unfold imageWrite
  try dsimp only
  repeat first
    | with_reducible assumption
    | (with_reducible first | apply DoneKeeps.reply | apply DoneKeeps.hold | apply DoneKeeps.check)
    | (with_reducible first | apply writeTarget_keeps | apply eraseTarget_keeps | apply Keeps.modBoot)
    | (with_reducible first | apply Keeps.onlyIf)
    | split
    | ((with_reducible refine SecKeeps.mk ?_ ?_ ?_ ?_ ?_ ?_ ?_ ?_) <;> first | rfl | exact fun g => g | exact fun g => kset_kwf _ _ _ g | exact fun _ => rfl)
    | intro

theorem execImageWrite_keeps {p : Packet} {s : State} {s0 : State} (hk : Keeps s0 s) : OutKeeps s0 (execImageWrite p s) := by
  unfold execImageWrite
  try dsimp only
  repeat first
    | with_reducible assumption
    | (with_reducible first | apply OutKeeps.next | apply imageWrite_keeps | apply runCommand_keeps)
    | (with_reducible first | apply DoneKeeps.reply | apply DoneKeeps.hold | apply DoneKeeps.check)
    | intro

theorem freeWords_keeps {n : Nat} {s s0 : State} (hk : Keeps s0 s) : Keeps s0 (freeWords n s).2 :=
  hk.trans (.of_eq rfl rfl rfl rfl rfl rfl (Nat.le_add_right _ _) rfl rfl)

theorem spoilChunk_keeps {c : Held} {s : State} {s0 : State} (hk : Keeps s0 s) : Keeps s0 (spoilChunk c s) := by
  unfold spoilChunk
  try dsimp only
  repeat first
    | with_reducible assumption
    | (with_reducible first | apply freeWords_keeps | apply writeTarget_keeps)

theorem execImageWriteDone_keeps {ok : Bool} {s : State} {s0 : State} (hk : Keeps s0 s) : OutKeeps s0 (execImageWriteDone ok s) := by
  unfold execImageWriteDone
  try dsimp only
  repeat first
    | with_reducible assumption
    | (with_reducible first | apply OutKeeps.next | apply spoilChunk_keeps | apply endHeld_keeps)
    | (with_reducible first | apply Keeps.modBoot | apply Keeps.onlyIf | apply DoneKeeps.reply | apply DoneKeeps.hold)
    | (with_reducible first | apply DoneKeeps.check)
    | split
    | ((with_reducible refine SecKeeps.mk ?_ ?_ ?_ ?_ ?_ ?_ ?_ ?_) <;> first | rfl | exact fun g => g | exact fun g => kset_kwf _ _ _ g | exact fun _ => rfl)
    | intro

theorem selectSlot_keeps {slot : Nat} {s : State} {s0 : State} (hk : Keeps s0 s) : Keeps s0 (selectSlot slot s) := by
  unfold selectSlot
  try dsimp only
  repeat first
    | with_reducible assumption
    | (with_reducible first | apply Keeps.modBoot)
    | split
    | ((with_reducible refine SecKeeps.mk ?_ ?_ ?_ ?_ ?_ ?_ ?_ ?_) <;> first | rfl | exact fun g => g | exact fun g => kset_kwf _ _ _ g | exact fun _ => rfl)
    | intro

theorem activated_keeps {w : Word} {st : Status} {s : State} {s0 : State} (hk : Keeps s0 s) : Keeps s0 (activated w st s) := by
  unfold activated
  try dsimp only
  repeat first
    | with_reducible assumption
    | (with_reducible first | apply emit_keeps)

theorem restartBoot_keeps {s : State} {s0 : State} (hk : Keeps s0 s) : Keeps s0 (restartBoot s) := by
  unfold restartBoot
  try dsimp only
  repeat first
    | with_reducible assumption
    | (with_reducible first | apply Keeps.modBoot)
    | ((with_reducible refine SecKeeps.mk ?_ ?_ ?_ ?_ ?_ ?_ ?_ ?_) <;> first | rfl | exact fun g => g | exact fun g => kset_kwf _ _ _ g | exact fun _ => rfl)
    | intro

theorem activateBoot_keeps {w : Word} {p : Packet} {target : Nat} {s : State} {s0 : State} (hk : Keeps s0 s) : DoneKeeps s0 (activateBoot w p target s) := by
  unfold activateBoot
  try dsimp only
  repeat first
    | with_reducible assumption
    | (with_reducible first | apply DoneKeeps.reply | apply DoneKeeps.hold | apply DoneKeeps.check)
    | (with_reducible first | apply restartBoot_keeps | apply activated_keeps | apply selectSlot_keeps)
    | (with_reducible first | apply setHolds_keeps | apply Keeps.modBoot)
    | split
    | ((with_reducible refine SecKeeps.mk ?_ ?_ ?_ ?_ ?_ ?_ ?_ ?_) <;> first | rfl | exact fun g => g | exact fun g => kset_kwf _ _ _ g | exact fun _ => rfl)
    | intro

theorem certRead_keeps {p : Packet} {s : State} {s0 : State} (hk : Keeps s0 s) : DoneKeeps s0 (certRead p s) := by
  unfold certRead
  try dsimp only
  repeat first
    | with_reducible assumption
    | (with_reducible first | apply DoneKeeps.reply | apply DoneKeeps.hold | apply DoneKeeps.check)
    | split
    | intro

theorem execCertRead_keeps {p : Packet} {s : State} {s0 : State} (hk : Keeps s0 s) : OutKeeps s0 (execCertRead p s) := by
  unfold execCertRead
  try dsimp only
  repeat first
    | with_reducible assumption
    | (with_reducible first | apply OutKeeps.next | apply certRead_keeps | apply runCommand_keeps)
    | (with_reducible first | apply DoneKeeps.reply | apply DoneKeeps.hold | apply DoneKeeps.check)
    | intro

theorem attest_keeps {_p : Packet} {s : State} {s0 : State} (hk : Keeps s0 s) : DoneKeeps s0 (attest _p s) := by
  unfold attest
  try dsimp only
  repeat first
    | with_reducible assumption
    | (with_reducible first | apply DoneKeeps.reply | apply DoneKeeps.hold | apply DoneKeeps.check)
    | (with_reducible first | apply Keeps.modBoot)
    | ((with_reducible refine SecKeeps.mk ?_ ?_ ?_ ?_ ?_ ?_ ?_ ?_) <;> first | rfl | exact fun g => g | exact fun g => kset_kwf _ _ _ g | exact fun _ => rfl)
    | intro

theorem fillReport_keeps {time : Nat} {c : Held} {s : State} {s0 : State} (hk : Keeps s0 s) : Keeps s0 (fillReport time c s) := by
  unfold fillReport
  try dsimp only
  repeat first
    | with_reducible assumption
    | (with_reducible first | apply Keeps.modBoot)
    | split
    | ((with_reducible refine SecKeeps.mk ?_ ?_ ?_ ?_ ?_ ?_ ?_ ?_) <;> first | rfl | exact fun g => g | exact fun g => kset_kwf _ _ _ g | exact fun _ => rfl)
    | intro

theorem execAttest_keeps {p : Packet} {s : State} {s0 : State} (hk : Keeps s0 s) : OutKeeps s0 (execAttest p s) := by
  unfold execAttest
  try dsimp only
  repeat first
    | with_reducible assumption
    | (with_reducible first | apply OutKeeps.next | apply attest_keeps | apply runCommand_keeps)
    | (with_reducible first | apply DoneKeeps.reply | apply DoneKeeps.hold | apply DoneKeeps.check)
    | intro

theorem execAttestSignDone_keeps {s : State} {s0 : State} (hk : Keeps s0 s) : OutKeeps s0 (execAttestSignDone s) := by
  unfold execAttestSignDone
  try dsimp only
  repeat first
    | with_reducible assumption
    | (with_reducible first | apply OutKeeps.next | apply endHeld_keeps | apply Keeps.modBoot | apply DoneKeeps.reply)
    | (with_reducible first | apply DoneKeeps.hold | apply DoneKeeps.check)
    | split
    | ((with_reducible refine SecKeeps.mk ?_ ?_ ?_ ?_ ?_ ?_ ?_ ?_) <;> first | rfl | exact fun g => g | exact fun g => kset_kwf _ _ _ g | exact fun _ => rfl)
    | intro

end Sys2Proof.Machine
end

