-- ==== Sys2Proof/Laws/KeepsReplies.lean ====
section
/-! SUPPORT. Laws/KeepsReplies.lean: every operation of Machine/Replies.lean is among those that `Keeps` describes. -/

namespace Sys2Proof.Machine

theorem latchSection_state (s : State) (h i : Nat) (y : Section) : (latchSection s h i y).state = y.state := rfl

theorem latchHearth_keeps {s : State} {h : Nat} {u s0 : State} (hk : Keeps s0 u) : Keeps s0 (latchHearth s h u) := by
  refine hk.modHearth fun x => HearthKeeps.mk ?_ fun g => by simpa [hearthShape] using g
  refine List.ext_getElem? fun n => ?_
  simp only [List.getElem?_map, List.getElem?_mapIdx]
  cases x.sections[n]? <;> rfl

theorem latchWords_keeps {s s0 : State} (hk : Keeps s0 s) : Keeps s0 (latchWords s) := hk.each fun _ _ hu => latchHearth_keeps hu

theorem scriptView_keeps {opens : Nat} {time : Nat} {s : State} {s0 : State} (hk : Keeps s0 s) : Keeps s0 (scriptView opens time s) := by
  unfold scriptView
  try dsimp only
  repeat first
    | with_reducible assumption
    | (with_reducible first | apply writeReply_keeps | apply Keeps.modCpx | apply Keeps.each)
    | exact fun _ => List.prefix_refl _
    | exact fun _ => List.prefix_append _ _
    | exact fun _ h => h
    | exact fun _ h => kset_kwf _ _ _ h
    | exact fun _ _ => rfl
    | intro

theorem writeDue_keeps {d : Nat} {opens : Nat} {time : Nat} {s : State} {s0 : State} (hk : Keeps s0 s) : Keeps s0 (writeDue d opens time s) := by
  unfold writeDue
  try dsimp only
  repeat first
    | with_reducible assumption
    | (with_reducible first | apply scriptView_keeps | apply fillReport_keeps | apply finishDelete_keeps)
    | (with_reducible first | apply writeReply_keeps | apply Keeps.modCpx | apply Keeps.each)
    | exact fun _ => List.prefix_refl _
    | exact fun _ => List.prefix_append _ _
    | exact fun _ h => h
    | exact fun _ h => kset_kwf _ _ _ h
    | exact fun _ _ => rfl
    | intro

end Sys2Proof.Machine
end

