-- ==== Sys2Proof/Laws/KeepsBoot.lean ====
section
/-! SUPPORT. Laws/KeepsBoot.lean: every operation of Machine/Boot.lean is among those that `Keeps` describes. -/

namespace Sys2Proof.Machine

theorem bootDone_keeps {s : State} {s0 : State} (hk : Keeps s0 s) : Keeps s0 (bootDone s) := by
  unfold bootDone
  try dsimp only
  repeat first
    | with_reducible assumption
    | (with_reducible first | apply emit_keeps)

theorem stopBoot_keeps {result : Nat} {s : State} {s0 : State} (hk : Keeps s0 s) : Keeps s0 (stopBoot result s) := by
  unfold stopBoot
  try dsimp only
  repeat first
    | with_reducible assumption
    | (with_reducible first | apply bootDone_keeps | apply Keeps.modBoot)
    | ((with_reducible refine SecKeeps.mk ?_ ?_ ?_ ?_ ?_ ?_ ?_ ?_) <;> first | rfl | exact fun g => g | exact fun g => kset_kwf _ _ _ g | exact fun _ => rfl)
    | intro

theorem setMemory_keeps {w : Option Word} {s : State} {s0 : State} (hk : Keeps s0 s) : Keeps s0 (setMemory w s) := by
  unfold setMemory
  try dsimp only
  repeat first
    | with_reducible assumption
    | split
    | (with_reducible first | apply Keeps.mapHearths)
    | ((with_reducible refine HearthKeeps.mk ?_ ?_) <;> first | rfl | exact fun g => g | exact fun g => by simpa [hearthShape] using g)
    | intro

theorem startLoad_keeps {s : State} {s0 : State} (hk : Keeps s0 s) : Keeps s0 (startLoad s) := by
  unfold startLoad
  try dsimp only
  repeat first
    | with_reducible assumption
    | (with_reducible first | apply Keeps.modBoot)
    | ((with_reducible refine SecKeeps.mk ?_ ?_ ?_ ?_ ?_ ?_ ?_ ?_) <;> first | rfl | exact fun g => g | exact fun g => kset_kwf _ _ _ g | exact fun _ => rfl)
    | intro

theorem endK1_keeps {b : BootIn} {s : State} {s0 : State} (hk : Keeps s0 s) : Keeps s0 (endK1 b s) := by
  unfold endK1
  try dsimp only
  repeat first
    | with_reducible assumption
    | (with_reducible first | apply startLoad_keeps | apply setMemory_keeps | apply stopBoot_keeps)
    | (with_reducible first | apply raiseSource_keeps | apply Keeps.modBoot | apply Keeps.onlyIf | apply Keeps.each)
    | split
    | ((with_reducible refine SecKeeps.mk ?_ ?_ ?_ ?_ ?_ ?_ ?_ ?_) <;> first | rfl | exact fun g => g | exact fun g => kset_kwf _ _ _ g | exact fun _ => rfl)
    | intro

theorem endK2_keeps {b : BootIn} {s : State} {s0 : State} (hk : Keeps s0 s) : Keeps s0 (endK2 b s) := by
  unfold endK2
  try dsimp only
  repeat first
    | with_reducible assumption
    | (with_reducible first | apply startLoad_keeps | apply setMemory_keeps | apply stopBoot_keeps)
    | (with_reducible first | apply raiseSource_keeps | apply Keeps.each)
    | split
    | intro

theorem takeImage_keeps {hd : List Word} {s : State} {s0 : State} (hk : Keeps s0 s) : Keeps s0 (takeImage hd s) := by
  unfold takeImage
  try dsimp only
  repeat first
    | with_reducible assumption
    | (with_reducible first | apply Keeps.modBoot)
    | ((with_reducible refine SecKeeps.mk ?_ ?_ ?_ ?_ ?_ ?_ ?_ ?_) <;> first | rfl | exact fun g => g | exact fun g => kset_kwf _ _ _ g | exact fun _ => rfl)
    | intro

theorem endK4_keeps {s : State} {s0 : State} (hk : Keeps s0 s) : Keeps s0 (endK4 s) := by
  unfold endK4
  try dsimp only
  repeat first
    | with_reducible assumption
    | (with_reducible first | apply takeImage_keeps | apply stopBoot_keeps | apply raiseSource_keeps)
    | (with_reducible first | apply emit_keeps | apply Keeps.modBoot | apply Keeps.onlyIf)
    | split
    | ((with_reducible refine SecKeeps.mk ?_ ?_ ?_ ?_ ?_ ?_ ?_ ?_) <;> first | rfl | exact fun g => g | exact fun g => kset_kwf _ _ _ g | exact fun _ => rfl)
    | intro

theorem endK5_keeps {s : State} {s0 : State} (hk : Keeps s0 s) : Keeps s0 (endK5 s) := by
  unfold endK5
  try dsimp only
  repeat first
    | with_reducible assumption
    | (with_reducible first | apply loadPlan_keeps | apply readPlanArea_keeps | apply loadPorts_keeps)
    | (with_reducible first | apply loadSet_keeps | apply readRows_keeps | apply loadChain_keeps)
    | (with_reducible first | apply refreshGains_keeps | apply raiseSource_keeps | apply Keeps.modBoot)
    | (with_reducible first | apply Keeps.onlyIf | apply Keeps.each | apply Keeps.modHearth)
    | ((with_reducible refine HearthKeeps.mk ?_ ?_) <;> first | rfl | exact fun g => g | exact fun g => by simpa [hearthShape] using g)
    | ((with_reducible refine SecKeeps.mk ?_ ?_ ?_ ?_ ?_ ?_ ?_ ?_) <;> first | rfl | exact fun g => g | exact fun g => kset_kwf _ _ _ g | exact fun _ => rfl)
    | intro

theorem execBootStageComplete_keeps {b : BootIn} {s : State} {s0 : State} (hk : Keeps s0 s) : OutKeeps s0 (execBootStageComplete b s) := by
  unfold execBootStageComplete
  try dsimp only
  repeat first
    | with_reducible assumption
    | (with_reducible first | apply OutKeeps.next | apply endK5_keeps | apply endK4_keeps | apply endK2_keeps)
    | (with_reducible first | apply endK1_keeps | apply loadEmbers_keeps | apply Keeps.modBoot | apply Keeps.onlyIf)
    | (with_reducible first | apply DoneKeeps.reply | apply DoneKeeps.hold | apply DoneKeeps.check)
    | split
    | ((with_reducible refine SecKeeps.mk ?_ ?_ ?_ ?_ ?_ ?_ ?_ ?_) <;> first | rfl | exact fun g => g | exact fun g => kset_kwf _ _ _ g | exact fun _ => rfl)
    | intro

theorem warmSlot_keeps {h : Nat} {n : Nat} {s : State} {s0 : State} (hk : Keeps s0 s) : Keeps s0 (warmSlot h n s) := by
  unfold warmSlot
  try dsimp only
  repeat first
    | with_reducible assumption
    | (with_reducible first | apply dropTune_keeps | apply setLoop_keeps)
    | split

end Sys2Proof.Machine
end

