-- ==== Sys2Proof/Laws/KeepsFrames.lean ====
section
/-! SUPPORT. Laws/KeepsFrames.lean: every operation of Machine/Frames.lean is among those that `Keeps` describes. -/

namespace Sys2Proof.Machine

theorem captureFrame_keeps {closed : Bool} {opened : Bool} {clk : Nat} {time : Nat} {s : State} {s0 : State} (hk : Keeps s0 s) : Keeps s0 (captureFrame closed opened clk time s) := by
  unfold captureFrame
  try dsimp only
  repeat first
    | with_reducible assumption
    | (with_reducible first | apply groupFrame_keeps | apply watchFrame_keeps | apply replySelections_keeps)
    | (with_reducible first | apply Keeps.onlyIf | apply Keeps.each)
    | intro

theorem execFrameBoundary_keeps {clk : Nat} {s : State} {s0 : State} (hk : Keeps s0 s) : OutKeeps s0 (execFrameBoundary clk s) := by
  unfold execFrameBoundary
  try dsimp only
  repeat first
    | with_reducible assumption
    | (with_reducible first | apply OutKeeps.next | apply followPatterns_keeps | apply restartDuty_keeps)
    | (with_reducible first | apply frameAdvance_keeps | apply arriveInOrder_keeps | apply Keeps.modTbu)
    | (with_reducible first | apply DoneKeeps.reply | apply DoneKeeps.hold | apply DoneKeeps.check)
    | split
    | intro

theorem execScheduledAction_keeps {handle : Nat} {clk : Nat} {s : State} {s0 : State} (hk : Keeps s0 s) : OutKeeps s0 (execScheduledAction handle clk s) := by
  unfold execScheduledAction
  try dsimp only
  repeat first
    | with_reducible assumption
    | (with_reducible first | apply OutKeeps.next | apply followPatterns_keeps | apply grateReset_keeps)
    | (with_reducible first | apply modPattern_keeps | apply handle_keeps | apply note_keeps | apply Keeps.modTbu)
    | (with_reducible first | apply Keeps.each | apply DoneKeeps.reply | apply DoneKeeps.hold | apply DoneKeeps.check)
    | split
    | intro

theorem execEmberWriteDone_keeps {ok : Bool} {s : State} {s0 : State} (hk : Keeps s0 s) : OutKeeps s0 (execEmberWriteDone ok s) := by
  unfold execEmberWriteDone
  try dsimp only
  repeat first
    | with_reducible assumption
    | (with_reducible first | apply OutKeeps.next | apply powerDownRf_keeps | apply emberWritten_keeps)
    | split

end Sys2Proof.Machine
end

