-- ==== Sys2Proof/Laws/KeepsTick.lean ====
section
/-! SUPPORT. Laws/KeepsTick.lean: every operation of Machine/Tick.lean is among those that `Keeps` describes. -/

namespace Sys2Proof.Machine

theorem countSat_keeps {gain : Bool} {g : Nat × Nat} {s : State} {s0 : State} (hk : Keeps s0 s) : Keeps s0 (countSat gain g s) := by
  unfold countSat
  try dsimp only
  repeat first
    | with_reducible assumption
    | (with_reducible first | apply emit_keeps | apply Keeps.modSec)
    | split
    | exact fun _ => @rfl SecState _
    | intro

theorem captureSum_keeps {e : SumIn} {s : State} {s0 : State} (hk : Keeps s0 s) : Keeps s0 (captureSum e s) := by
  unfold captureSum
  try dsimp only
  repeat first
    | with_reducible assumption
    | (with_reducible first | apply modPort_keeps | apply emit_keeps | apply Keeps.modHearth)
    | split
    | ((with_reducible refine HearthKeeps.mk ?_ ?_) <;> first | rfl | exact fun g => g | exact fun g => by simpa [hearthShape] using g)
    | intro

theorem captureOverload_keeps {g : Nat × Nat} {s : State} {s0 : State} (hk : Keeps s0 s) : Keeps s0 (captureOverload g s) := by
  unfold captureOverload
  try dsimp only
  repeat first
    | with_reducible assumption
    | (with_reducible first | apply modRfc_keeps | apply emit_keeps)
    | split
    | intro

theorem captureSettle_keeps {g : Nat × Nat} {s : State} {s0 : State} (hk : Keeps s0 s) : Keeps s0 (captureSettle g s) := by
  unfold captureSettle
  try dsimp only
  repeat first
    | with_reducible assumption
    | (with_reducible first | apply setSyn_keeps)
    | split

theorem captureDonor_keeps {h : Nat} {i : Nat} {s : State} {s0 : State} (hk : Keeps s0 s) : Keeps s0 (captureDonor h i s) := by
  unfold captureDonor
  try dsimp only
  repeat first
    | with_reducible assumption
    | (with_reducible first | apply Keeps.modSec)
    | split
    | exact fun _ => @rfl SecState _
    | intro

theorem captureFed_keeps {fed : List (Nat × Nat × Nat)} {h : Nat} {i : Nat} {s : State} {s0 : State} (hk : Keeps s0 s) : Keeps s0 (captureFed fed h i s) := by
  unfold captureFed
  try dsimp only
  repeat first
    | with_reducible assumption
    | (with_reducible first | apply Keeps.modSec)
    | split
    | exact fun _ => @rfl SecState _
    | intro

theorem captureErrSat_keeps {h i : Nat} {s s0 : State} (hk : Keeps s0 s) : Keeps s0 (captureErrSat h i s) :=
  hk.modSec fun _ => by split <;> rfl

theorem captureSection_keeps {o : TickOut} {g : Nat × Nat} {s : State} {s0 : State} (hk : Keeps s0 s) : Keeps s0 (captureSection o g s) := by
  unfold captureSection
  try dsimp only
  repeat first
    | with_reducible assumption
    | (with_reducible first | apply captureErrSat_keeps | apply captureFed_keeps | apply captureDonor_keeps)

theorem capturePins_keeps {x : TickIn} {s : State} {s0 : State} (hk : Keeps s0 s) : Keeps s0 (capturePins x s) := by
  unfold capturePins
  try dsimp only
  repeat first
    | with_reducible assumption
    | (with_reducible first | apply captureSetpt_keeps)
    | (with_reducible first | apply Keeps.withSetpt)

theorem captureTick_keeps {x : TickIn} {o : TickOut} {s : State} {s0 : State} (hk : Keeps s0 s) : Keeps s0 (captureTick x o s) := by
  unfold captureTick
  try dsimp only
  repeat first
    | with_reducible assumption
    | (with_reducible first | apply capturePins_keeps | apply captureSection_keeps | apply captureSettle_keeps)
    | (with_reducible first | apply captureOverload_keeps | apply captureSum_keeps | apply countSat_keeps)
    | (with_reducible first | apply modFes_keeps | apply powerFail_keeps | apply Keeps.each)
    | intro

theorem captureArrival_keeps {a : Arrival} {s : State} {s0 : State} (hk : Keeps s0 s) : Keeps s0 (captureArrival a s) := by
  unfold captureArrival
  try dsimp only
  repeat first
    | with_reducible assumption
    | (with_reducible first | apply captureFrame_keeps | apply captureWrite_keeps | apply takeMessage_keeps)
    | (with_reducible first | apply takeSync_keeps | apply takeReply_keeps | apply takeBeacon_keeps)
    | (with_reducible first | apply synLost_keeps | apply synFailed_keeps | apply synLocked_keeps)
    | (with_reducible first | apply captureSpectrum_keeps | apply takeWindow_keeps | apply dutyGate_keeps)
    | (with_reducible first | apply switchMismatch_keeps | apply quench_keeps | apply takeAlignment_keeps)
    | (with_reducible first | apply align_keeps | apply loseSource_keeps | apply note_keeps | apply emit_keeps)
    | split

theorem captureArrivals_keeps {arrived : List Arrival} {s : State} {s0 : State} (hk : Keeps s0 s) : Keeps s0 (captureArrivals arrived s) := by
  unfold captureArrivals
  try dsimp only
  repeat first
    | with_reducible assumption
    | (with_reducible first | apply captureArrival_keeps | apply captureSource_keeps | apply Keeps.onlyIf)
    | (with_reducible first | apply Keeps.each)
    | intro

theorem sectionTimers_keeps {h : Nat} {i : Nat} {s : State} {s0 : State} (hk : Keeps s0 s) : Keeps s0 (sectionTimers h i s) := by
  unfold sectionTimers
  try dsimp only
  repeat first
    | with_reducible assumption
    | (with_reducible first | apply synthWaitDue_keeps | apply endSubperiod_keeps | apply historyDue_keeps)
    | (with_reducible first | apply retryDue_keeps | apply endBlank_keeps)

theorem pathTimers_keeps {h : Nat} {n : Nat} {s : State} {s0 : State} (hk : Keeps s0 s) : Keeps s0 (pathTimers h n s) := by
  unfold pathTimers
  try dsimp only
  repeat first
    | with_reducible assumption
    | (with_reducible first | apply staleDue_keeps | apply acquisitionDue_keeps | apply freezeDue_keeps)

theorem slotTimers_keeps {h : Nat} {n : Nat} {s : State} {s0 : State} (hk : Keeps s0 s) : Keeps s0 (slotTimers h n s) := by
  unfold slotTimers
  try dsimp only
  repeat first
    | with_reducible assumption
    | (with_reducible first | apply externalRampEnd_keeps | apply tuneTimeout_keeps | apply safeReached_keeps)
    | (with_reducible first | apply lostHoldEnd_keeps | apply endHandover_keeps)
    | intro

theorem lcalTimers_keeps {h : Nat} {s : State} {s0 : State} (hk : Keeps s0 s) : Keeps s0 (lcalTimers h s) := by
  unfold lcalTimers
  try dsimp only
  repeat first
    | with_reducible assumption
    | (with_reducible first | apply alternateDue_keeps | apply withdrawDue_keeps | apply abandonDue_keeps)
    | (with_reducible first | apply Keeps.onlyIf | apply Keeps.each)
    | intro

theorem hearthTimers_keeps {h : Nat} {s : State} {s0 : State} (hk : Keeps s0 s) : Keeps s0 (hearthTimers h s) := by
  unfold hearthTimers
  try dsimp only
  repeat first
    | with_reducible assumption
    | (with_reducible first | apply slotTimers_keeps | apply pathTimers_keeps | apply sectionTimers_keeps)
    | (with_reducible first | apply tableDue_keeps | apply trimDelayDue_keeps | apply shedDue_keeps)
    | (with_reducible first | apply limitsDue_keeps | apply lockWaiters_keeps | apply captureExpiry_keeps)
    | (with_reducible first | apply Keeps.each)
    | intro

theorem phaseTimers_keeps {s : State} {s0 : State} (hk : Keeps s0 s) : Keeps s0 (phaseTimers s) := by
  unfold phaseTimers
  try dsimp only
  repeat first
    | with_reducible assumption
    | (with_reducible first | apply hearthTimers_keeps | apply lcalTimers_keeps | apply groupTimers_keeps)
    | (with_reducible first | apply rowDue_keeps | apply resumeTick_keeps | apply resumeDue_keeps)
    | (with_reducible first | apply lcalTick_keeps | apply closePpsWindow_keeps | apply endHoldover_keeps)
    | (with_reducible first | apply lapseSource_keeps | apply scriptWaitDue_keeps | apply heartbeatDue_keeps)
    | (with_reducible first | apply lockoutDue_keeps | apply challengeDue_keeps | apply Keeps.each)
    | intro

theorem adaptHearth_keeps {x : TickIn} {o : TickOut} {h : Nat} {turning : List Nat} {s : State} {s0 : State} (hk : Keeps s0 s) : Keeps s0 (adaptHearth x o h turning s) := by
  unfold adaptHearth
  try dsimp only
  repeat first
    | with_reducible assumption
    | (with_reducible first | apply adaptPath_keeps | apply Keeps.each)
    | intro

theorem superviseHearth_keeps {x : TickIn} {o : TickOut} {h : Nat} {s : State} {s0 : State} (hk : Keeps s0 s) : Keeps s0 (superviseHearth x o h s) := by
  unfold superviseHearth
  try dsimp only
  repeat first
    | with_reducible assumption
    | (with_reducible first | apply portTick_keeps | apply derateTick_keeps | apply dmpTick_keeps)
    | (with_reducible first | apply watchDue_keeps | apply networkCeil_keeps | apply portPower_keeps)
    | (with_reducible first | apply squelchTick_keeps | apply Keeps.each)
    | intro

theorem driveSlot_keeps {h : Nat} {n : Nat} {s : State} {s0 : State} (hk : Keeps s0 s) : Keeps s0 (driveSlot h n s) := by
  unfold driveSlot
  try dsimp only
  repeat first
    | with_reducible assumption
    | (with_reducible first | apply setActuator_keeps | apply modPort_keeps)
    | split
    | intro

theorem tuneExec_keeps {h : Nat} {n : Nat} {e : ExecIn} {s : State} {s0 : State} (hk : Keeps s0 s) : Keeps s0 (tuneExec h n e s) := by
  unfold tuneExec
  try dsimp only
  repeat first
    | with_reducible assumption
    | (with_reducible first | apply tuneDone_keeps | apply endTune_keeps | apply modLoop_keeps)
    | split
    | intro

theorem lawOf_keeps {h : Nat} {n : Nat} {e : ExecIn} {s : State} {s0 : State} (hk : Keeps s0 s) : Keeps s0 (lawOf h n e s) := by
  unfold lawOf
  try dsimp only
  repeat first
    | with_reducible assumption
    | (with_reducible first | apply tuneExec_keeps | apply loseSlot_keeps | apply modLoop_keeps | apply emit_keeps)
    | split
    | intro

theorem runSlot_keeps {h : Nat} {n : Nat} {s : State} {s0 : State} (hk : Keeps s0 s) : Keeps s0 (runSlot h n s) := by
  unfold runSlot
  try dsimp only
  repeat first
    | with_reducible assumption
    | (with_reducible first | apply lawOf_keeps | apply driveSlot_keeps | apply modLoop_keeps)
    | intro

theorem runSlots_keeps {h : Nat} {s : State} {s0 : State} (hk : Keeps s0 s) : Keeps s0 (runSlots h s) := by
  unfold runSlots
  try dsimp only
  repeat first
    | with_reducible assumption
    | (with_reducible first | apply runSlot_keeps | apply Keeps.each)
    | split
    | intro

theorem restartSlots_keeps {g : Nat × Nat} {s : State} {s0 : State} (hk : Keeps s0 s) : Keeps s0 (restartSlots g s) := by
  unfold restartSlots
  try dsimp only
  repeat first
    | with_reducible assumption
    | (with_reducible first | apply startSlots_keeps | apply Keeps.onlyIf)
    | intro

theorem dampingEvents_keeps {h : Nat} {i : Nat} {k : Nat} {g : GainTerms} {s : State} {s0 : State} (hk : Keeps s0 s) : Keeps s0 (dampingEvents h i k g s) := by
  unfold dampingEvents
  try dsimp only
  repeat first
    | with_reducible assumption
    | (with_reducible first | apply emit_keeps | apply signalVf_keeps | apply Keeps.onlyIf)
    | split
    | intro

theorem applySection_keeps {h : Nat} {i : Nat} {s : State} {s0 : State} (hk : Keeps s0 s) : Keeps s0 (applySection h i s) := by
  unfold applySection
  try dsimp only
  repeat first
    | with_reducible assumption
    | (with_reducible first | apply dampingEvents_keeps | apply quench_keeps | apply raiseSource_keeps)
    | (with_reducible first | apply Keeps.each | apply Keeps.modSec)
    | split
    | exact fun _ => @rfl SecState _
    | intro

theorem countSection_keeps {h : Nat} {i : Nat} {s : State} {s0 : State} (hk : Keeps s0 s) : Keeps s0 (countSection h i s) := by
  unfold countSection
  try dsimp only
  repeat first
    | with_reducible assumption
    | (with_reducible first | apply Keeps.modSec)
    | split
    | exact fun _ => @rfl SecState _
    | intro

theorem dampSection_keeps {h : Nat} {i : Nat} {s : State} {s0 : State} (hk : Keeps s0 s) : Keeps s0 (dampSection h i s) := by
  unfold dampSection
  try dsimp only
  repeat first
    | with_reducible assumption
    | (with_reducible first | apply setSec_keeps | apply Keeps.modSec)
    | split
    | exact fun _ => @rfl SecState _
    | intro

theorem closeSection_keeps {h : Nat} {i : Nat} {s : State} {s0 : State} (hk : Keeps s0 s) : Keeps s0 (closeSection h i s) := by
  unfold closeSection
  try dsimp only
  repeat first
    | with_reducible assumption
    | (with_reducible first | apply dampSection_keeps | apply resumeSection_keeps | apply downRampTick_keeps)
    | (with_reducible first | apply undamp_keeps | apply endRamp_keeps | apply closeStart_keeps)

theorem endMuteRamp_keeps {h : Nat} {i : Nat} {s : State} {s0 : State} (hk : Keeps s0 s) : Keeps s0 (endMuteRamp h i s) := by
  unfold endMuteRamp
  try dsimp only
  repeat first
    | with_reducible assumption
    | (with_reducible first | apply updateGates_keeps | apply Keeps.modSec)
    | split
    | exact fun _ => @rfl SecState _
    | intro

theorem noteQuench_keeps {h : Nat} {i : Nat} {s : State} {s0 : State} (hk : Keeps s0 s) : Keeps s0 (noteQuench h i s) := by
  unfold noteQuench
  try dsimp only
  repeat first
    | with_reducible assumption
    | (with_reducible first | apply emitVf_keeps | apply Keeps.modSec)
    | split
    | exact fun _ => @rfl SecState _
    | intro

theorem closePaths_keeps {h : Nat} {s : State} {s0 : State} (hk : Keeps s0 s) : Keeps s0 (closePaths h s) := by
  unfold closePaths
  try dsimp only
  repeat first
    | with_reducible assumption
    | (with_reducible first | apply countTapSat_keeps | apply modBdc_keeps | apply modPath_keeps | apply Keeps.each)
    | split
    | intro

theorem closeHearth_keeps {x : TickIn} {o : TickOut} {h : Nat} {ds : List Decision} {s : State} {s0 : State} (hk : Keeps s0 s) : Keeps s0 (closeHearth x o h ds s) := by
  unfold closeHearth
  try dsimp only
  repeat first
    | with_reducible assumption
    | (with_reducible first | apply closePaths_keeps | apply noteQuench_keeps | apply endMuteRamp_keeps)
    | (with_reducible first | apply closeSection_keeps | apply adaptHearth_keeps | apply lcalSamples_keeps)
    | (with_reducible first | apply commitHearth_keeps | apply applyRestore_keeps | apply publishDue_keeps)
    | (with_reducible first | apply applyLost_keeps | apply refreshDg_keeps | apply refreshGains_keeps)
    | (with_reducible first | apply Keeps.each | apply Keeps.modSec)
    | exact fun _ => @rfl SecState _
    | intro

theorem keepProbes_keeps {s : State} {s0 : State} (hk : Keeps s0 s) : Keeps s0 (keepProbes s) := by
  unfold keepProbes
  try dsimp only
  repeat first
    | with_reducible assumption
    | split
    | (with_reducible first | apply Keeps.withFlu)
    | ((with_reducible refine FluKeeps.mk ?_ ?_ ?_ ?_) <;> first | exact fun g => g | exact fun g => kset_kwf _ _ _ g | exact fun g => kerase_kwf _ _ g | exact fun _ => rfl)
    | intro

theorem endWindows_keeps {g : Nat × Nat} {s : State} {s0 : State} (hk : Keeps s0 s) : Keeps s0 (endWindows g s) := by
  unfold endWindows
  try dsimp only
  repeat first
    | with_reducible assumption
    | (with_reducible first | apply lineDue_keeps | apply windowDue_keeps | apply Keeps.each)
    | intro

theorem endSpans_keeps {s : State} {s0 : State} (hk : Keeps s0 s) : Keeps s0 (endSpans s) := by
  unfold endSpans
  try dsimp only
  repeat first
    | with_reducible assumption
    | (with_reducible first | apply endWindows_keeps | apply ppsEdge_keeps | apply Keeps.each)
    | intro

theorem clockEnds_keeps {s : State} {s0 : State} (hk : Keeps s0 s) : Keeps s0 (clockEnds s) := by
  unfold clockEnds
  try dsimp only
  repeat first
    | with_reducible assumption
    | (with_reducible first | apply releaseDue_keeps | apply pulseDue_keeps | apply stepEndDue_keeps)
    | (with_reducible first | apply readTimeDue_keeps | apply Keeps.each)
    | intro

theorem clockStarts_keeps {s : State} {s0 : State} (hk : Keeps s0 s) : Keeps s0 (clockStarts s) := by
  unfold clockStarts
  try dsimp only
  repeat first
    | with_reducible assumption
    | (with_reducible first | apply windowStartDue_keeps | apply startDue_keeps | apply Keeps.each)
    | intro

theorem closeTick_keeps {x : TickIn} {s : State} {s0 : State} (hk : Keeps s0 s) : Keeps s0 (closeTick x s).2 := by
  unfold closeTick
  try dsimp only
  repeat first
    | with_reducible assumption
    | (with_reducible first | apply clockStarts_keeps | apply clockEnds_keeps | apply endSpans_keeps)
    | (with_reducible first | apply keepProbes_keeps | apply closeHearth_keeps | apply drain_keeps)
    | (with_reducible first | apply runSamples_keeps | apply runTddLines_keeps | apply showPkg_keeps)
    | (with_reducible first | apply Keeps.each)
    | intro

theorem openTick_keeps {s : State} {s0 : State} (hk : Keeps s0 s) : Keeps s0 (openTick s) := by
  unfold openTick
  try dsimp only
  repeat first
    | with_reducible assumption
    | (with_reducible first | apply Keeps.modSys | apply Keeps.modCpx | apply Keeps.modTbu)
    | split
    | exact fun _ => List.prefix_refl _
    | exact fun _ => List.prefix_append _ _
    | exact fun _ h => h
    | exact fun _ h => kset_kwf _ _ _ h
    | exact fun _ _ => rfl
    | intro

theorem armHearth_keeps {s : State} {h : Nat} {s : State} {s0 : State} (hk : Keeps s0 s) : Keeps s0 (armHearth s h s) := by
  unfold armHearth
  try dsimp only
  repeat first
    | with_reducible assumption
    | (with_reducible first | apply Keeps.modHearth)
    | split
    | ((with_reducible refine HearthKeeps.mk ?_ ?_) <;> first | rfl | exact fun g => g | exact fun g => by simpa [hearthShape] using g)
    | intro

theorem armTick_keeps {s : State} {s0 : State} (hk : Keeps s0 s) : Keeps s0 (armTick s) := by
  unfold armTick
  try dsimp only
  repeat first
    | with_reducible assumption
    | (with_reducible first | apply armHearth_keeps | apply armPaths_keeps | apply Keeps.each | apply Keeps.modSec)
    | exact fun _ => @rfl SecState _
    | intro

theorem workTick_keeps {x : TickIn} {o : TickOut} {s : State} {s0 : State} (hk : Keeps s0 s) : Keeps s0 (workTick x o s) := by
  unfold workTick
  try dsimp only
  repeat first
    | with_reducible assumption
    | (with_reducible first | apply countSection_keeps | apply applySection_keeps | apply restartSlots_keeps)
    | (with_reducible first | apply runSlots_keeps | apply superviseHearth_keeps | apply phaseTimers_keeps)
    | (with_reducible first | apply captureArrivals_keeps | apply captureTick_keeps | apply evaluatePort_keeps)
    | (with_reducible first | apply fesTick_keeps | apply grateBoundary_keeps | apply orderlyReset_keeps)
    | (with_reducible first | apply Keeps.modAlog | apply Keeps.each)
    | (with_reducible first | apply Keeps.withArrivals)
    | intro

theorem applyConfigs_keeps {s : State} {s0 : State} (hk : Keeps s0 s) : Keeps s0 (applyConfigs s) := by
  unfold applyConfigs
  try dsimp only
  repeat first
    | with_reducible assumption
    | (with_reducible first | apply applyWrites_keeps | apply applyRate_keeps | apply modFcol_keeps)
    | (with_reducible first | apply Keeps.modAlog | apply Keeps.each)
    | intro

theorem captureWrites_keeps {s : State} {s0 : State} (hk : Keeps s0 s) : Keeps s0 (captureWrites s) := by
  unfold captureWrites
  try dsimp only
  repeat first
    | with_reducible assumption
    | (with_reducible first | apply captureWrite_keeps | apply Keeps.each)
    | split
    | (with_reducible first | apply Keeps.withArrivals)
    | intro

theorem passBoundary_keeps {s : State} {s0 : State} (hk : Keeps s0 s) : Keeps s0 (passBoundary s) := by
  unfold passBoundary
  try dsimp only
  repeat first
    | with_reducible assumption
    | (with_reducible first | apply applyConfigs_keeps | apply armTick_keeps | apply openTick_keeps)
    | (with_reducible first | apply writeDue_keeps | apply latchWords_keeps | apply snapDue_keeps)

theorem execControlTick_keeps {x : TickIn} {s : State} {s0 : State} (hk : Keeps s0 s) : OutKeeps s0 (execControlTick x s) := by
  unfold execControlTick
  try dsimp only
  repeat first
    | with_reducible assumption
    | (with_reducible first | apply OutKeeps.next | apply passBoundary_keeps | apply captureWrites_keeps)
    | (with_reducible first | apply applyConfigs_keeps | apply workTick_keeps | apply openTick_keeps)
    | (with_reducible first | apply closeTick_keeps | apply writeDue_keeps)
    | split

end Sys2Proof.Machine
end

