-- ==== Sys2Proof/Laws/KeepsErrors.lean ====
section
/-! SUPPORT. Laws/KeepsErrors.lean: every operation of Machine/Errors.lean is among those that `Keeps` describes. -/

namespace Sys2Proof.Machine

theorem failHeld_keeps {c : Held} {s : State} {s0 : State} (hk : Keeps s0 s) : Keeps s0 (failHeld c s) := by
  unfold failHeld
  try dsimp only
  repeat first
    | with_reducible assumption
    | (with_reducible first | apply abortEffect_keeps | apply endHeld_keeps)

theorem failDue_keeps {mask : Nat} {s : State} {s0 : State} (hk : Keeps s0 s) : Keeps s0 (failDue mask s) := by
  unfold failDue
  try dsimp only
  repeat first
    | with_reducible assumption
    | (with_reducible first | apply Keeps.modCpx)
    | split
    | exact fun _ => List.prefix_refl _
    | exact fun _ => List.prefix_append _ _
    | exact fun _ h => h
    | exact fun _ h => kset_kwf _ _ _ h
    | exact fun _ _ => rfl
    | intro

theorem arrestorError_keeps {h : Nat} {n : Nat} {data : Nat} {s : State} {s0 : State} (hk : Keeps s0 s) : Keeps s0 (arrestorError h n data s) := by
  unfold arrestorError
  try dsimp only
  repeat first
    | with_reducible assumption
    | (with_reducible first | apply muteHearth_keeps | apply quench_keeps | apply shutGate_keeps)
    | (with_reducible first | apply updateGates_keeps | apply modSpa_keeps | apply arrive_keeps | apply Keeps.each)
    | (with_reducible first | apply Keeps.modHearth)
    | split
    | ((with_reducible refine HearthKeeps.mk ?_ ?_) <;> first | rfl | exact fun g => g | exact fun g => by simpa [hearthShape] using g)
    | intro

theorem cancellerError_keeps {h : Nat} {n : Nat} {data : Nat} {s : State} {s0 : State} (hk : Keeps s0 s) : Keeps s0 (cancellerError h n data s) := by
  unfold cancellerError
  try dsimp only
  repeat first
    | with_reducible assumption
    | (with_reducible first | apply resetBdc_keeps | apply failRestore_keeps | apply muteHearth_keeps)
    | (with_reducible first | apply resetTaps_keeps | apply modPath_keeps)
    | split

theorem radioError_keeps {h : Nat} {n : Nat} {data : Nat} {s : State} {s0 : State} (hk : Keeps s0 s) : Keeps s0 (radioError h n data s) := by
  unfold radioError
  try dsimp only
  repeat first
    | with_reducible assumption
    | (with_reducible first | apply resetRfc_keeps | apply resetAllTaps_keeps | apply muteHearth_keeps)
    | (with_reducible first | apply refreshPort_keeps | apply hearthGates_keeps | apply modFes_keeps)
    | (with_reducible first | apply quench_keeps | apply repeatSyn_keeps | apply modPort_keeps | apply arrive_keeps)
    | (with_reducible first | apply Keeps.each)
    | split
    | intro

theorem calibrationError_keeps {h : Nat} {n : Nat} {data : Nat} {s : State} {s0 : State} (hk : Keeps s0 s) : Keeps s0 (calibrationError h n data s) := by
  unfold calibrationError
  try dsimp only
  repeat first
    | with_reducible assumption
    | (with_reducible first | apply muteSection_keeps | apply abortEst_keeps | apply modLcalH_keeps)
    | (with_reducible first | apply reloadChain_keeps | apply resetChainTaps_keeps | apply modLcal_keeps)
    | (with_reducible first | apply emit_keeps | apply Keeps.each)
    | split
    | intro

theorem airError_keeps {h : Nat} {n : Nat} {data : Nat} {s : State} {s0 : State} (hk : Keeps s0 s) : Keeps s0 (airError h n data s) := by
  unfold airError
  try dsimp only
  repeat first
    | with_reducible assumption
    | (with_reducible first | apply loseSource_keeps | apply retrack_keeps | apply modAirSec_keeps)
    | (with_reducible first | apply modAir_keeps)
    | split
    | intro

theorem dropEq_keeps {h : Nat} {s : State} {s0 : State} (hk : Keeps s0 s) : Keeps s0 (dropEq h s) := by
  unfold dropEq
  try dsimp only
  repeat first
    | with_reducible assumption
    | (with_reducible first | apply takeFree_keeps | apply Keeps.each | apply Keeps.modSec)
    | split
    | exact fun _ => @rfl SecState _
    | intro

theorem loseStaged_keeps {h : Nat} {s : State} {s0 : State} (hk : Keeps s0 s) : Keeps s0 (loseStaged h s) := by
  unfold loseStaged
  try dsimp only
  repeat first
    | with_reducible assumption
    | (with_reducible first | apply dropBlock_keeps | apply modStream_keeps | apply takeFree_keeps)
    | split
    | intro

theorem uceEffect_keeps {h : Nat} {region : Nat} {address : Nat} {s : State} {s0 : State} (hk : Keeps s0 s) : Keeps s0 (uceEffect h region address s) := by
  unfold uceEffect
  try dsimp only
  repeat first
    | with_reducible assumption
    | (with_reducible first | apply loseStaged_keeps | apply dropEq_keeps | apply failRestore_keeps)
    | (with_reducible first | apply raiseSource_keeps | apply Keeps.modAlog | apply Keeps.modHearth)
    | split
    | (with_reducible first | apply Keeps.withFlu)
    | ((with_reducible refine HearthKeeps.mk ?_ ?_) <;> first | rfl | exact fun g => g | exact fun g => by simpa [hearthShape] using g)
    | ((with_reducible refine FluKeeps.mk ?_ ?_ ?_ ?_) <;> first | exact fun g => g | exact fun g => kset_kwf _ _ _ g | exact fun g => kerase_kwf _ _ g | exact fun _ => rfl)
    | intro

theorem execDramUce_keeps {h : Nat} {region : Nat} {r : LineRead} {s : State} {s0 : State} (hk : Keeps s0 s) : OutKeeps s0 (execDramUce h region r s) := by
  unfold execDramUce
  try dsimp only
  repeat first
    | with_reducible assumption
    | (with_reducible first | apply OutKeeps.next | apply uceEffect_keeps | apply noteUce_keeps)
    | split

theorem recordError_keeps {h : Nat} {n : Nat} {data : Nat} {s : State} {s0 : State} (hk : Keeps s0 s) : Keeps s0 (recordError h n data s) := by
  unfold recordError
  try dsimp only
  repeat first
    | with_reducible assumption
    | (with_reducible first | apply breakSensor_keeps | apply trip_keeps | apply modFcol_keeps | apply Keeps.modAlog)
    | split
    | intro

theorem failSlot_keeps {h : Nat} {n : Nat} {s : State} {s0 : State} (hk : Keeps s0 s) : Keeps s0 (failSlot h n s) := by
  unfold failSlot
  try dsimp only
  repeat first
    | with_reducible assumption
    | (with_reducible first | apply applySection_keeps | apply loseSlot_keeps)
    | split

theorem deviceAction_keeps {h n d : Nat} {s s0 : State} (hk : Keeps s0 s) : Keeps s0 (deviceAction h n d s) := by
  unfold deviceAction
  refine iteKeeps ((failDue_keeps hk).each fun _ _ hu => failHeld_keeps hu) <| iteKeeps (queueError_keeps hk) <| iteKeeps (queueError_keeps hk) <|
    iteKeeps (hk.each fun _ _ hu => failHeld_keeps hu) <| iteKeeps (hk.each fun _ _ hu => endHeld_keeps hu) <|
    iteKeeps (radioError_keeps hk) <| iteKeeps (calibrationError_keeps hk) <| iteKeeps (cancellerError_keeps hk) <|
    iteKeeps (resetDamper_keeps (muteHearth_keeps hk)) <| iteKeeps (arrestorError_keeps hk) <|
    iteKeeps (iteKeeps (failSlot_keeps hk) hk) <| iteKeeps (airError_keeps hk) <|
    iteKeeps (hk.trans (.of_eq rfl rfl rfl rfl rfl rfl (Nat.le_refl _) rfl rfl)) <| iteKeeps (iteKeeps (standBy_keeps hk) hk) <|
    iteKeeps (recordError_keeps hk) hk

theorem execErrorDetected_keeps {h : Nat} {source : Nat} {data : Nat} {s : State} {s0 : State} (hk : Keeps s0 s) : OutKeeps s0 (execErrorDetected h source data s) := by
  unfold execErrorDetected
  try dsimp only
  repeat first
    | with_reducible assumption
    | (with_reducible first | apply OutKeeps.next | apply deviceAction_keeps | apply raiseSource_keeps)
    | split

end Sys2Proof.Machine
end

