-- ==== Sys2Proof/Laws/KeepsExec.lean ====
section
/-! SUPPORT. Laws/KeepsExec.lean: every command but those that reset the package or program one-time programmable memory is
among those that `Keeps` describes. -/

namespace Sys2Proof.Machine

/-- The commands that reset the package, or start or end the programming of one-time programmable memory. -/
def resetsOrFuses : Instr → Bool
  | .resetNRise _ _ => true
  | .kindlingComplete _ => true
  | .firebrickWrite _ => true
  | .firebrickRevoke _ => true
  | .firebrickProgramDone _ _ => true
  | .imageActivate _ => true
  | .rollbackProgramDone _ => true
  | .oemKeyWrite _ => true
  | .keyProgramDone _ => true
  | .resetNLow => true
  | .powerLoss => true
  | .warmReset => true
  | _ => false

theorem exec_keeps {c : Instr} {s : State} (h : resetsOrFuses c = false) : OutKeeps s (exec c s) := by
  cases c
  case resetNRise => exact absurd h (by simp [resetsOrFuses])
  case bootStageComplete => exact execBootStageComplete_keeps (Keeps.refl s)
  case kindlingComplete => exact absurd h (by simp [resetsOrFuses])
  case controlTick => exact execControlTick_keeps (Keeps.refl s)
  case sectionUndamp => exact execSectionUndamp_keeps (Keeps.refl s)
  case sectionRampDone => exact execSectionRampDone_keeps (Keeps.refl s)
  case downRampEnd => exact execDownRampEnd_keeps (Keeps.refl s)
  case sectionResume => exact execSectionResume_keeps (Keeps.refl s)
  case frameBoundary => exact execFrameBoundary_keeps (Keeps.refl s)
  case frameAlignment => exact execFrameAlignment_keeps (Keeps.refl s)
  case ppsInEdge => exact execPpsInEdge_keeps (Keeps.refl s)
  case syncNEdge => exact execSyncNEdge_keeps (Keeps.refl s)
  case grtBlankEnd => exact execGrtBlankEnd_keeps (Keeps.refl s)
  case scheduledAction => exact execScheduledAction_keeps (Keeps.refl s)
  case sectionDefine => exact execSectionDefine_keeps (Keeps.refl s)
  case sectionDelete => exact execSectionDelete_keeps (Keeps.refl s)
  case sectionQuery => exact execSectionQuery_keeps (Keeps.refl s)
  case sectionStart => exact execSectionStart_keeps (Keeps.refl s)
  case sectionStop => exact execSectionStop_keeps (Keeps.refl s)
  case grateSync => exact execGrateSync_keeps (Keeps.refl s)
  case bdcPathConfig => exact execBdcPathConfig_keeps (Keeps.refl s)
  case bdcPathQuery => exact execBdcPathQuery_keeps (Keeps.refl s)
  case bdcPathMode => exact execBdcPathMode_keeps (Keeps.refl s)
  case bdcTapReset => exact execBdcTapReset_keeps (Keeps.refl s)
  case bdcSnapshot => exact execBdcSnapshot_keeps (Keeps.refl s)
  case snapshotDramDone => exact execSnapshotDramDone_keeps (Keeps.refl s)
  case bdcRestore => exact execBdcRestore_keeps (Keeps.refl s)
  case restoreApply => exact execRestoreApply_keeps (Keeps.refl s)
  case bdcMeasPublish => exact execBdcMeasPublish_keeps (Keeps.refl s)
  case acquisitionEnd => exact execAcquisitionEnd_keeps (Keeps.refl s)
  case pathFreeze => exact execPathFreeze_keeps (Keeps.refl s)
  case bdcCompactionStep => exact execBdcCompactionStep_keeps (Keeps.refl s)
  case lineDetect => exact execLineDetect_keeps (Keeps.refl s)
  case toneTestHalfPeriod => exact execToneTestHalfPeriod_keeps (Keeps.refl s)
  case strangerMaskExpiry => exact execStrangerMaskExpiry_keeps (Keeps.refl s)
  case inputStale => exact execInputStale_keeps (Keeps.refl s)
  case squelchWindow => exact execSquelchWindow_keeps (Keeps.refl s)
  case uplinkIdle => exact execUplinkIdle_keeps (Keeps.refl s)
  case noiseFloorSubperiod => exact execNoiseFloorSubperiod_keeps (Keeps.refl s)
  case dutyLimitReached => exact execDutyLimitReached_keeps (Keeps.refl s)
  case switchMismatch => exact execSwitchMismatch_keeps (Keeps.refl s)
  case quenchRetry => exact execQuenchRetry_keeps (Keeps.refl s)
  case quenchHistoryReset => exact execQuenchHistoryReset_keeps (Keeps.refl s)
  case limitCopyReload => exact execLimitCopyReload_keeps (Keeps.refl s)
  case dmpConfig => exact execDmpConfig_keeps (Keeps.refl s)
  case dmpQuery => exact execDmpQuery_keeps (Keeps.refl s)
  case dmpStrangerClear => exact execDmpStrangerClear_keeps (Keeps.refl s)
  case dmpGroupCeil => exact execDmpGroupCeil_keeps (Keeps.refl s)
  case spaConfig => exact execSpaConfig_keeps (Keeps.refl s)
  case spaQuery => exact execSpaQuery_keeps (Keeps.refl s)
  case spaHistoryClear => exact execSpaHistoryClear_keeps (Keeps.refl s)
  case handoverEnd => exact execHandoverEnd_keeps (Keeps.refl s)
  case lostHoldExpiry => exact execLostHoldExpiry_keeps (Keeps.refl s)
  case tuneTimeout => exact execTuneTimeout_keeps (Keeps.refl s)
  case externalRampTimeout => exact execExternalRampTimeout_keeps (Keeps.refl s)
  case setptValidityChange => exact execSetptValidityChange_keeps (Keeps.refl s)
  case loopConfig => exact execLoopConfig_keeps (Keeps.refl s)
  case loopQuery => exact execLoopQuery_keeps (Keeps.refl s)
  case loopClose => exact execLoopClose_keeps (Keeps.refl s)
  case loopOpen => exact execLoopOpen_keeps (Keeps.refl s)
  case loopMode => exact execLoopMode_keeps (Keeps.refl s)
  case loopSetpoint => exact execLoopSetpoint_keeps (Keeps.refl s)
  case loopTune => exact execLoopTune_keeps (Keeps.refl s)
  case loopTable => exact execLoopTable_keeps (Keeps.refl s)
  case setptConfig => exact execSetptConfig_keeps (Keeps.refl s)
  case synLocked => exact execSynLocked_keeps (Keeps.refl s)
  case synAttemptFail => exact execSynAttemptFail_keeps (Keeps.refl s)
  case synLockLost => exact execSynLockLost_keeps (Keeps.refl s)
  case synthWaitExpiry => exact execSynthWaitExpiry_keeps (Keeps.refl s)
  case pmbusSupplyRead => exact execPmbusSupplyRead_keeps (Keeps.refl s)
  case portEvaluation => exact execPortEvaluation_keeps (Keeps.refl s)
  case trimDelayExpiry => exact execTrimDelayExpiry_keeps (Keeps.refl s)
  case actSequenceEnd => exact execActSequenceEnd_keeps (Keeps.refl s)
  case stepTableReload => exact execStepTableReload_keeps (Keeps.refl s)
  case radioConfig => exact execRadioConfig_keeps (Keeps.refl s)
  case pwrTableWrite => exact execPwrTableWrite_keeps (Keeps.refl s)
  case pwrPortConfig => exact execPwrPortConfig_keeps (Keeps.refl s)
  case fesConfig => exact execFesConfig_keeps (Keeps.refl s)
  case fesGpioConfig => exact execFesGpioConfig_keeps (Keeps.refl s)
  case fesSeqWrite => exact execFesSeqWrite_keeps (Keeps.refl s)
  case fesBusAccess => exact execFesBusAccess_keeps (Keeps.refl s)
  case busOperationDone => exact execBusOperationDone_keeps (Keeps.refl s)
  case rffeReadTimeout => exact execRffeReadTimeout_keeps (Keeps.refl s)
  case lcalEstimateStart => exact execLcalEstimateStart_keeps (Keeps.refl s)
  case lcalEstimateComplete => exact execLcalEstimateComplete_keeps (Keeps.refl s)
  case lcalEstimateAbandon => exact execLcalEstimateAbandon_keeps (Keeps.refl s)
  case deltaWithdraw => exact execDeltaWithdraw_keeps (Keeps.refl s)
  case orxAlternate => exact execOrxAlternate_keeps (Keeps.refl s)
  case lcalConfig => exact execLcalConfig_keeps (Keeps.refl s)
  case lcalRun => exact execLcalRun_keeps (Keeps.refl s)
  case lcalQuery => exact execLcalQuery_keeps (Keeps.refl s)
  case lcalHold => exact execLcalHold_keeps (Keeps.refl s)
  case airVisit => exact execAirVisit_keeps (Keeps.refl s)
  case airScanDwell => exact execAirScanDwell_keeps (Keeps.refl s)
  case airConfig => exact execAirConfig_keeps (Keeps.refl s)
  case airScanRange => exact execAirScanRange_keeps (Keeps.refl s)
  case airSectionConfig => exact execAirSectionConfig_keeps (Keeps.refl s)
  case airCellRead => exact execAirCellRead_keeps (Keeps.refl s)
  case airStrangerRead => exact execAirStrangerRead_keeps (Keeps.refl s)
  case firebrickWrite => exact absurd h (by simp [resetsOrFuses])
  case firebrickRevoke => exact absurd h (by simp [resetsOrFuses])
  case firebrickProgramDone => exact absurd h (by simp [resetsOrFuses])
  case firebrickRowInForce => exact execFirebrickRowInForce_keeps (Keeps.refl s)
  case firebrickRead => exact execFirebrickRead_keeps (Keeps.refl s)
  case calsetQuery => exact execCalsetQuery_keeps (Keeps.refl s)
  case calsetExport => exact execCalsetExport_keeps (Keeps.refl s)
  case calsetImport => exact execCalsetImport_keeps (Keeps.refl s)
  case calsetStore => exact execCalsetStore_keeps (Keeps.refl s)
  case calsetWriteDone => exact execCalsetWriteDone_keeps (Keeps.refl s)
  case sqTailWrite => exact execSqTailWrite_keeps (Keeps.refl s)
  case cqHeadWrite => exact execCqHeadWrite_keeps (Keeps.refl s)
  case sqExtensionTimeout => exact execSqExtensionTimeout_keeps (Keeps.refl s)
  case pad => exact execPad_keeps (Keeps.refl s)
  case identify => exact execIdentify_keeps (Keeps.refl s)
  case nop => exact execNop_keeps (Keeps.refl s)
  case hostUnlock => exact execHostUnlock_keeps (Keeps.refl s)
  case unlockChallenge => exact execUnlockChallenge_keeps (Keeps.refl s)
  case queueCreate => exact execQueueCreate_keeps (Keeps.refl s)
  case queueDelete => exact execQueueDelete_keeps (Keeps.refl s)
  case counterSnapshot => exact execCounterSnapshot_keeps (Keeps.refl s)
  case wideRead => exact execWideRead_keeps (Keeps.refl s)
  case packageHold => exact execPackageHold_keeps (Keeps.refl s)
  case sysReset => exact execSysReset_keeps (Keeps.refl s)
  case scriptControl => exact execScriptControl_keeps (Keeps.refl s)
  case packageStatus => exact execPackageStatus_keeps (Keeps.refl s)
  case linkReset => exact execLinkReset_keeps (Keeps.refl s)
  case flrVf => exact execFlrVf_keeps (Keeps.refl s)
  case d3hotChange => exact execD3hotChange_keeps (Keeps.refl s)
  case linkRetrain => exact execLinkRetrain_keeps (Keeps.refl s)
  case dmaReadErr => exact execDmaReadErr_keeps (Keeps.refl s)
  case streamExportBlock => exact execStreamExportBlock_keeps (Keeps.refl s)
  case streamImportBlock => exact execStreamImportBlock_keeps (Keeps.refl s)
  case streamStartTime => exact execStreamStartTime_keeps (Keeps.refl s)
  case strHostPtrWrite => exact execStrHostPtrWrite_keeps (Keeps.refl s)
  case streamConfig => exact execStreamConfig_keeps (Keeps.refl s)
  case streamControl => exact execStreamControl_keeps (Keeps.refl s)
  case captureConfig => exact execCaptureConfig_keeps (Keeps.refl s)
  case captureArm => exact execCaptureArm_keeps (Keeps.refl s)
  case captureQuery => exact execCaptureQuery_keeps (Keeps.refl s)
  case captureTrigger => exact execCaptureTrigger_keeps (Keeps.refl s)
  case captureRecordDone => exact execCaptureRecordDone_keeps (Keeps.refl s)
  case captureReadoutDone => exact execCaptureReadoutDone_keeps (Keeps.refl s)
  case captureTimeout => exact execCaptureTimeout_keeps (Keeps.refl s)
  case beaconReceive => exact execBeaconReceive_keeps (Keeps.refl s)
  case planRoundRetry => exact execPlanRoundRetry_keeps (Keeps.refl s)
  case ftfDiscard => exact execFtfDiscard_keeps (Keeps.refl s)
  case replyFrameReceive => exact execReplyFrameReceive_keeps (Keeps.refl s)
  case ptpSyncReceive => exact execPtpSyncReceive_keeps (Keeps.refl s)
  case ptpMessageReceive => exact execPtpMessageReceive_keeps (Keeps.refl s)
  case transportSend => exact execTransportSend_keeps (Keeps.refl s)
  case transportReceive => exact execTransportReceive_keeps (Keeps.refl s)
  case transportLost => exact execTransportLost_keeps (Keeps.refl s)
  case transportRestored => exact execTransportRestored_keeps (Keeps.refl s)
  case probeWindowStart => exact execProbeWindowStart_keeps (Keeps.refl s)
  case probeWindowEnd => exact execProbeWindowEnd_keeps (Keeps.refl s)
  case probeReportReceive => exact execProbeReportReceive_keeps (Keeps.refl s)
  case couplingExpiry => exact execCouplingExpiry_keeps (Keeps.refl s)
  case flueLinkChange => exact execFlueLinkChange_keeps (Keeps.refl s)
  case fluePortConfig => exact execFluePortConfig_keeps (Keeps.refl s)
  case groupConfig => exact execGroupConfig_keeps (Keeps.refl s)
  case groupQuery => exact execGroupQuery_keeps (Keeps.refl s)
  case ptpConfig => exact execPtpConfig_keeps (Keeps.refl s)
  case splitConfig => exact execSplitConfig_keeps (Keeps.refl s)
  case probeSchedule => exact execProbeSchedule_keeps (Keeps.refl s)
  case probeRead => exact execProbeRead_keeps (Keeps.refl s)
  case dramCorrectedRead => exact execDramCorrectedRead_keeps (Keeps.refl s)
  case dramUce => exact execDramUce_keeps (Keeps.refl s)
  case scrubLine h n r d o => exact execScrubLine_keeps (_overwritten := o) (Keeps.refl s)
  case pageCrcMismatch => exact execPageCrcMismatch_keeps (Keeps.refl s)
  case linkFrameRetry => exact execLinkFrameRetry_keeps (Keeps.refl s)
  case linkFail => exact execLinkFail_keeps (Keeps.refl s)
  case errorDetected => exact execErrorDetected_keeps (Keeps.refl s)
  case fcolCapture => exact execFcolCapture_keeps (Keeps.refl s)
  case railFault => exact execRailFault_keeps (Keeps.refl s)
  case fcolSequenceEnd => exact execFcolSequenceEnd_keeps (Keeps.refl s)
  case blockResetRelease => exact execBlockResetRelease_keeps (Keeps.refl s)
  case fcolInjectionApply => exact execFcolInjectionApply_keeps (Keeps.refl s)
  case fcolSourceConfig => exact execFcolSourceConfig_keeps (Keeps.refl s)
  case fcolInject => exact execFcolInject_keeps (Keeps.refl s)
  case fcolQuery => exact execFcolQuery_keeps (Keeps.refl s)
  case logEntryArrival => exact execLogEntryArrival_keeps (Keeps.refl s)
  case logDrop => exact execLogDrop_keeps (Keeps.refl s)
  case bucketRefill => exact execBucketRefill_keeps (Keeps.refl s)
  case emberWriteDone => exact execEmberWriteDone_keeps (Keeps.refl s)
  case emberEraseDone => exact execEmberEraseDone_keeps (Keeps.refl s)
  case alogRead => exact execAlogRead_keeps (Keeps.refl s)
  case embersRead => exact execEmbersRead_keeps (Keeps.refl s)
  case alogRateConfig => exact execAlogRateConfig_keeps (Keeps.refl s)
  case alogMark => exact execAlogMark_keeps (Keeps.refl s)
  case thmConversion => exact execThmConversion_keeps (Keeps.refl s)
  case shedTimer => exact execShedTimer_keeps (Keeps.refl s)
  case thermalTrip => exact execThermalTrip_keeps (Keeps.refl s)
  case thermalConfig => exact execThermalConfig_keeps (Keeps.refl s)
  case thermalResume => exact execThermalResume_keeps (Keeps.refl s)
  case thermalQuery => exact execThermalQuery_keeps (Keeps.refl s)
  case attest => exact execAttest_keeps (Keeps.refl s)
  case certRead => exact execCertRead_keeps (Keeps.refl s)
  case imageWrite => exact execImageWrite_keeps (Keeps.refl s)
  case imageWriteDone => exact execImageWriteDone_keeps (Keeps.refl s)
  case imageActivate => exact absurd h (by simp [resetsOrFuses])
  case rollbackProgramDone => exact absurd h (by simp [resetsOrFuses])
  case oemKeyWrite => exact absurd h (by simp [resetsOrFuses])
  case keyProgramDone => exact absurd h (by simp [resetsOrFuses])
  case tddPatternWrite => exact execTddPatternWrite_keeps (Keeps.refl s)
  case tddPatternSelect => exact execTddPatternSelect_keeps (Keeps.refl s)
  case frameSource => exact execFrameSource_keeps (Keeps.refl s)
  case timeSet => exact execTimeSet_keeps (Keeps.refl s)
  case timeSchedule => exact execTimeSchedule_keeps (Keeps.refl s)
  case timeScheduleCancel => exact execTimeScheduleCancel_keeps (Keeps.refl s)
  case wideReqWrite => exact execWideReqWrite_keeps (Keeps.refl s)
  case wideData3Read => exact execWideData3Read_keeps (Keeps.refl s)
  case snapCmdWrite => exact execSnapCmdWrite_keeps (Keeps.refl s)
  case sysHbWrite => exact execSysHbWrite_keeps (Keeps.refl s)
  case sysIntEnWrite => exact execSysIntEnWrite_keeps (Keeps.refl s)
  case sysIntPendClear => exact execSysIntPendClear_keeps (Keeps.refl s)
  case fcolPendClear => exact execFcolPendClear_keeps (Keeps.refl s)
  case fcolAlertClear => exact execFcolAlertClear_keeps (Keeps.refl s)
  case fcolLostClear => exact execFcolLostClear_keeps (Keeps.refl s)
  case fcolFfClr => exact execFcolFfClr_keeps (Keeps.refl s)
  case fcolCntClr => exact execFcolCntClr_keeps (Keeps.refl s)
  case grtTxsatClr => exact execGrtTxsatClr_keeps (Keeps.refl s)
  case secSatClr => exact execSecSatClr_keeps (Keeps.refl s)
  case bdcCntClr => exact execBdcCntClr_keeps (Keeps.refl s)
  case dmpCntClr => exact execDmpCntClr_keeps (Keeps.refl s)
  case spaCntClr => exact execSpaCntClr_keeps (Keeps.refl s)
  case blwCntClr => exact execBlwCntClr_keeps (Keeps.refl s)
  case rfcCntClr => exact execRfcCntClr_keeps (Keeps.refl s)
  case lcalCntClr => exact execLcalCntClr_keeps (Keeps.refl s)
  case airCntClr => exact execAirCntClr_keeps (Keeps.refl s)
  case fluCntClr => exact execFluCntClr_keeps (Keeps.refl s)
  case xmcCntClr => exact execXmcCntClr_keeps (Keeps.refl s)
  case xmcMarkClr => exact execXmcMarkClr_keeps (Keeps.refl s)
  case emberNow => exact execEmberNow_keeps (Keeps.refl s)
  case thmCntClr => exact execThmCntClr_keeps (Keeps.refl s)
  case registerWrite => exact execRegisterWrite_keeps (Keeps.refl s)
  case tddPatternEdge => exact execTddPatternEdge_keeps (Keeps.refl s)
  case ppsOutEdge => exact execPpsOutEdge_keeps (Keeps.refl s)
  case stepSequenceEnd => exact execStepSequenceEnd_keeps (Keeps.refl s)
  case railFaultEnd => exact execRailFaultEnd_keeps (Keeps.refl s)
  case resetNLow => exact absurd h (by simp [resetsOrFuses])
  case powerLoss => exact absurd h (by simp [resetsOrFuses])
  case warmReset => exact absurd h (by simp [resetsOrFuses])
  case frameSourceInvalid => exact execFrameSourceInvalid_keeps (Keeps.refl s)
  case holdoverExpiry => exact execHoldoverExpiry_keeps (Keeps.refl s)
  case ppsWindowClose => exact execPpsWindowClose_keeps (Keeps.refl s)
  case scriptRecord => exact execScriptRecord_keeps (Keeps.refl s)
  case scriptWaitTimeout => exact execScriptWaitTimeout_keeps (Keeps.refl s)
  case scriptRetry => exact execScriptRetry_keeps (Keeps.refl s)
  case unlockVerifyDone => exact execUnlockVerifyDone_keeps (Keeps.refl s)
  case challengeExpiry => exact execChallengeExpiry_keeps (Keeps.refl s)
  case unlockLockoutEnd => exact execUnlockLockoutEnd_keeps (Keeps.refl s)
  case flrPf0 => exact execFlrPf0_keeps (Keeps.refl s)
  case flrPf1 => exact execFlrPf1_keeps (Keeps.refl s)
  case planRoundEnd => exact execPlanRoundEnd_keeps (Keeps.refl s)
  case leaderTakeover => exact execLeaderTakeover_keeps (Keeps.refl s)
  case digestTimeout => exact execDigestTimeout_keeps (Keeps.refl s)
  case ptpTimeout => exact execPtpTimeout_keeps (Keeps.refl s)
  case ptpHoldoverExpiry => exact execPtpHoldoverExpiry_keeps (Keeps.refl s)
  case surveyRoundStart => exact execSurveyRoundStart_keeps (Keeps.refl s)
  case faultPinPulseEnd => exact execFaultPinPulseEnd_keeps (Keeps.refl s)
  case powerFailWarning => exact execPowerFailWarning_keeps (Keeps.refl s)
  case resumeOkSet => exact execResumeOkSet_keeps (Keeps.refl s)
  case attestSignDone => exact execAttestSignDone_keeps (Keeps.refl s)
  case snapCopy => exact execSnapCopy_keeps (Keeps.refl s)
  case heartbeatDecrement => exact execHeartbeatDecrement_keeps (Keeps.refl s)
  case queue0Enable => exact execQueue0Enable_keeps (Keeps.refl s)
  case queue0Disable => exact execQueue0Disable_keeps (Keeps.refl s)
  case cpxCntClr => exact execCpxCntClr_keeps (Keeps.refl s)
  case hifCntClr => exact execHifCntClr_keeps (Keeps.refl s)
  case alogCntClr => exact execAlogCntClr_keeps (Keeps.refl s)
  case perstNRise => exact execPerstNRise_keeps (Keeps.refl s)

end Sys2Proof.Machine
end

