-- ==== Sys2Proof/Laws/KeepsFuses.lean ====
section
/-! SUPPORT. Laws/KeepsFuses.lean: what the commands that program one-time programmable memory do, up to what `Keeps` describes. -/

namespace Sys2Proof.Machine

/-- A command row either does no more than `Keeps` describes, or handles its packet in a state that is among those. -/
theorem captureQueue_reaches {ci : CmdInfo} {l : Bool} {body : Packet → State → Done} {p : Packet} {s : State} :
    Keeps s (captureQueue ci l body p s) ∨ ∃ u, Keeps s u ∧ captureQueue ci l body p s = handle ci l body p u := by
  unfold captureQueue
  extract_lets q x n need fits want t
  split
  · exact .inl (Keeps.refl s)
  split
  · split
    · exact .inl (refuseLength_keeps (takeSlots_keeps (Keeps.refl s)))
    · exact .inl (Keeps.refl s)
  split
  · split
    · exact .inl (Keeps.refl s)
    · exact .inl (modQueue_keeps (Keeps.refl s))
  split
  · split
    · exact .inr ⟨t, takeSlots_keeps (Keeps.refl s), rfl⟩
    · exact .inl (refuseLength_keeps (takeSlots_keeps (Keeps.refl s)))
  · exact .inl (Keeps.refl s)

theorem runCommandWith_reaches {ci : CmdInfo} {l : Bool} {body : Packet → State → Done} {p : Packet} {s : State} :
    Keeps s (runCommandWith ci l body p s) ∨ ∃ u, Keeps s u ∧ runCommandWith ci l body p s = handle ci l body p u := by
  unfold runCommandWith
  split
  · exact captureQueue_reaches
  split
  · exact .inl (Keeps.refl s)
  split
  · split
    · refine .inr ⟨_, ?_, rfl⟩
      exact countCapture_keeps ((Keeps.refl s).modCpx (fun _ => List.prefix_refl _) (fun _ h => h))
    · exact .inl (Keeps.refl s)
  split
  · split
    · exact .inl (Keeps.refl s)
    split
    · extract_lets t1 f1 t2
      have k1 : Keeps s t1 := (tookFrame_keeps (Keeps.refl s)).modCpx (fun _ => List.prefix_refl _) (fun _ h => h)
      have k2 : Keeps s t2 := by
        unfold t2
        split
        · exact k1.withFlu (FluKeeps.mk id id id id)
        · exact k1
      refine .inr ⟨_, ?_, rfl⟩
      exact countCapture_keeps k2
    · exact .inl ((tookFrame_keeps (Keeps.refl s)).modCpx (fun _ => List.prefix_refl _) (fun _ h => h))
  split
  · refine .inr ⟨_, ?_, rfl⟩
    exact countCapture_keeps (Keeps.refl s)
  · exact .inl (Keeps.refl s)

/-- A command row does no more than `Keeps` describes, or its opcode's own handling runs in such a state, and what that
handling leaves is kept up to the reply or the wait. -/
theorem runCommandWith_cases (ci : CmdInfo) (l : Bool) (body : Packet → State → Done) (p : Packet) (s : State) :
    Keeps s (runCommandWith ci l body p s) ∨
      ∃ u, Keeps s u ∧ firstFailure ci l p u = none ∧
        ((∃ st ws t, body p u = .reply st ws t ∧ Keeps t (runCommandWith ci l body p s))
          ∨ ∃ k d t, body p u = .hold k d t ∧ Keeps t (runCommandWith ci l body p s)) := by
  rcases runCommandWith_reaches (ci := ci) (l := l) (body := body) (p := p) (s := s) with h | ⟨u, hk, e⟩
  · exact .inl h
  rw [e]
  unfold handle
  dsimp only
  split
  · exact .inl (sendReply_keeps hk)
  rename_i hf
  split
  · rename_i st ws t hb
    refine .inr ⟨u, hk, hf, .inl ⟨st, ws, t, hb, ?_⟩⟩
    exact sendReply_keeps (groupTouched_keeps' _ (Keeps.refl t))
  rename_i k d t hb
  split
  · exact .inl (sendReply_keeps hk)
  refine .inr ⟨u, hk, hf, .inr ⟨k, d, t, hb, ?_⟩⟩
  exact Keeps.modCpx (groupTouched_keeps (Keeps.refl t)) (fun _ => List.prefix_refl _) (fun _ h => h)

/-- A Firebrick row may be programmed: nothing programs, and it is blank (spec/11 R332). -/
theorem firebrickWrite_cases (p : Packet) (s : State) :
    Keeps s (runCommand infoFirebrickWrite firebrickWrite p s) ∨
      ∃ u g, Keeps s u ∧ g.revoke = false ∧ (rowAt u g.row).written = false ∧ (rowAt u g.row).revoked = false
        ∧ Keeps { u with limits := { u.limits with prog := some g } } (runCommand infoFirebrickWrite firebrickWrite p s) := by
  unfold runCommand
  rcases runCommandWith_cases infoFirebrickWrite true firebrickWrite p s with h | ⟨u, hk, -, ⟨st, ws, t, hb, ht⟩ | ⟨k, d, t, hb, ht⟩⟩
  · exact .inl h
  · refine .inl (hk.trans (Keeps.trans ?_ ht))
    unfold firebrickWrite check at hb
    dsimp only at hb
    repeat' split at hb
    all_goals (cases hb)
    all_goals first | exact Keeps.refl _ | exact lockedRow_keeps (Keeps.refl _)
  · refine .inr ⟨u, { row := fld (wordAt p.payload 0) 0 6, words := (p.payload.drop 1).take 5 ++ [rowCrc ((p.payload.drop 1).take 5)] }, hk, rfl, ?_⟩
    unfold firebrickWrite check at hb
    dsimp only at hb
    split at hb
    · split at hb
      · cases hb
      · rename_i hw
        split at hb
        · rename_i hc
          split at hb
          · cases hb
            simp only [Bool.and_eq_true, beq_iff_eq] at hc
            have hr := List.find?_some hc.1.2
            unfold rowBlank at hr
            simp only [Bool.and_eq_true, Bool.not_eq_true'] at hr
            exact ⟨hr.1.2, hr.2, ht⟩
          · cases hb
        · cases hb
    · cases hb

theorem firebrickRevoke_cases (p : Packet) (s : State) :
    Keeps s (runCommand infoFirebrickRevoke firebrickRevoke p s) ∨
      ∃ u g, Keeps s u ∧ g.revoke = true
        ∧ Keeps { u with limits := { u.limits with prog := some g } } (runCommand infoFirebrickRevoke firebrickRevoke p s) := by
  unfold runCommand
  rcases runCommandWith_cases infoFirebrickRevoke true firebrickRevoke p s with h | ⟨u, hk, -, ⟨st, ws, t, hb, ht⟩ | ⟨k, d, t, hb, ht⟩⟩
  · exact .inl h
  · refine .inl (hk.trans (Keeps.trans ?_ ht))
    unfold firebrickRevoke check at hb
    dsimp only at hb
    repeat' split at hb
    all_goals (cases hb)
    all_goals first | exact Keeps.refl _ | exact lockedRow_keeps (Keeps.refl _)
  · refine .inr ⟨u, { row := fld (wordAt p.payload 0) 0 6, revoke := true }, hk, rfl, ?_⟩
    unfold firebrickRevoke check at hb
    dsimp only at hb
    repeat' split at hb
    all_goals (cases hb)
    exact ht

/-- A key slot may be programmed while it is empty (spec/20 R589). -/
theorem oemKeyWrite_cases (p : Packet) (s : State) :
    Keeps s (runCommand infoOemKeyWrite oemKeyWrite p s) ∨
      ∃ u id key, Keeps s u ∧ (id = 0 → u.sec.oemKey = none) ∧ (id = 1 → u.sec.hostKey = none)
        ∧ Keeps (modBoot (fun x => { x with keyProg := some (id, key) }) u) (runCommand infoOemKeyWrite oemKeyWrite p s) := by
  unfold runCommand
  rcases runCommandWith_cases infoOemKeyWrite true oemKeyWrite p s with h | ⟨u, hk, -, ⟨st, ws, t, hb, ht⟩ | ⟨k, d, t, hb, ht⟩⟩
  · exact .inl h
  · refine .inl (hk.trans (Keeps.trans ?_ ht))
    unfold oemKeyWrite check at hb
    dsimp only at hb
    repeat' split at hb
    all_goals (cases hb)
    all_goals first | exact Keeps.refl _ | exact lockedRow_keeps (Keeps.refl _)
  · refine .inr ⟨u, fld (wordAt p.payload 0) 0 2, bytesValue (keyBytes p.payload), hk, ?_⟩
    unfold oemKeyWrite at hb
    extract_lets w id bs held signer msg at hb
    unfold check at hb
    split at hb
    · split at hb
      · cases hb
      · rename_i hn
        split at hb
        · split at hb
          · cases hb
            refine ⟨fun h0 => ?_, fun h1 => ?_, ht⟩
            · have h0 : id = 0 := h0
              have e : held = u.sec.oemKey := by unfold held; rw [if_pos h0]
              rw [e, h0] at hn
              simpa using hn
            · have h1 : id = 1 := h1
              have e : held = u.sec.hostKey := by unfold held; rw [h1]; rfl
              rw [e, h1] at hn
              simpa using hn
          · cases hb
        · cases hb
    · cases hb

/-- The rollback counter may be programmed upwards only (spec/20 R585). -/
theorem imageActivate_cases (p : Packet) (s : State) :
    Keeps s (runCommand infoImageActivate imageActivate p s) ∨
      ∃ u v, Keeps s u ∧ u.sec.rollback < v
        ∧ Keeps (modBoot (fun x => { x with rollbackProg := some v }) u) (runCommand infoImageActivate imageActivate p s) := by
  unfold runCommand
  rcases runCommandWith_cases infoImageActivate true imageActivate p s with h | ⟨u, hk, -, ⟨st, ws, t, hb, ht⟩ | ⟨k, d, t, hb, ht⟩⟩
  · exact .inl h
  · refine .inl (hk.trans (Keeps.trans ?_ ht))
    unfold imageActivate at hb
    dsimp only at hb
    repeat' split at hb
    all_goals first
      | (cases hb; done)
      | (cases hb; first | exact Keeps.refl _ | exact activated_keeps (Keeps.refl _) | exact activated_keeps (selectSlot_keeps (Keeps.refl _)))
      | (have := activateBoot_keeps (w := wordAt p.payload 0) (p := p) (target := fld (wordAt p.payload 0) 4 2) (Keeps.refl u); rw [hb] at this; exact this)
  · unfold imageActivate at hb
    dsimp only at hb
    split at hb
    · cases hb
    split at hb
    · cases hb
    split at hb
    · split at hb
      · cases hb
      split at hb
      · cases hb
      · rename_i hr
        cases hb
        exact .inr ⟨u, u.sec.fwSvn, hk, by omega, ht⟩
    split at hb
    · cases hb
    split at hb
    · cases hb
    split at hb
    · cases hb
    refine .inl (hk.trans (Keeps.trans ?_ ht))
    have := activateBoot_keeps (w := wordAt p.payload 0) (p := p) (target := fld (wordAt p.payload 0) 4 2) (Keeps.refl u)
    rw [hb] at this
    exact this

/-- The state that the end of a row's programming leaves, before its reply (spec/11 R334). -/
theorem firebrickProgramDone_cases (ok : Bool) (left : List Word) (s : State) :
    (s.limits.prog = none ∧ execFirebrickProgramDone ok left s = .next s) ∨
      ∃ g f due dueBy treated t, s.limits.prog = some g ∧ execFirebrickProgramDone ok left s = .next t
        ∧ (g.revoke = true → ∀ r, ((f r).words = r.words ∧ (f r).written = r.written) ∧ (r.revoked = true → (f r).revoked = true))
        ∧ Keeps { s with limits := { s.limits with prog := none, due := due, dueBy := dueBy, treated := treated, rows := s.limits.rows.modify g.row f } } t := by
  unfold execFirebrickProgramDone
  cases hp : s.limits.prog with
  | none => exact .inl ⟨rfl, rfl⟩
  | some g =>
    right
    dsimp only
    by_cases hr : g.revoke = true
    · simp only [hr, if_true]
      cases ok
      · refine ⟨g, id, dueRow s (g.row, true, true), s.tbu.tick + 64, g.row :: s.limits.treated, _, rfl, rfl, fun _ r => ⟨⟨rfl, rfl⟩, id⟩, ?_⟩
        rw [if_neg (by simp), List.modify_id]
        exact raiseSource_keeps (Keeps.refl _)
      · refine ⟨g, fun r => { r with revoked := true }, dueRow s (g.row, true, false), s.tbu.tick + 64, s.limits.treated, _, rfl, rfl,
          fun _ r => ⟨⟨rfl, rfl⟩, fun _ => rfl⟩, ?_⟩
        rw [if_pos rfl]
        exact Keeps.refl _
    · simp only [if_neg hr]
      cases ok
      · let kept := keptWords left g.words
        refine ⟨g, fun r => { r with words := kept, revoked := kept.any (· != 0) }, s.limits.due, s.limits.dueBy, s.limits.treated, _, rfl, rfl,
          fun h => absurd h hr, ?_⟩
        rw [if_neg (by simp)]
        exact endRowCommand_keeps (raiseSource_keeps (Keeps.refl _))
      · refine ⟨g, fun r => { r with words := g.words, written := true }, dueRow s (g.row, false, false), s.tbu.tick + 64, s.limits.treated, _, rfl, rfl,
          fun h => absurd h hr, ?_⟩
        rw [if_pos rfl]
        exact Keeps.refl _

theorem keyProgramDone_cases (ok : Bool) (s : State) :
    (s.sec.keyProg = none ∧ execKeyProgramDone ok s = .next s) ∨
      ∃ id key t, s.sec.keyProg = some (id, key) ∧ execKeyProgramDone ok s = .next t
        ∧ Keeps (modBoot (fun x => { x with
            keyProg := none
            oemKey := if ok && id == 0 then some key else x.oemKey
            hostKey := if ok && id == 1 then some key else x.hostKey
            oemFrom := if ok && id == 0 then s.tbu.tick + 1 else x.oemFrom
            hostFrom := if ok && id == 1 then s.tbu.tick + 1 else x.hostFrom }) s) t := by
  unfold execKeyProgramDone
  cases hp : s.sec.keyProg with
  | none => exact .inl ⟨rfl, rfl⟩
  | some g =>
    obtain ⟨id, key⟩ := g
    refine .inr ⟨id, key, _, rfl, rfl, ?_⟩
    exact endHeldFor_keeps (Keeps.onlyIf (Keeps.refl _) (fun _ h => emit_keeps h))

theorem rollbackProgramDone_cases (ok : Bool) (s : State) :
    (s.sec.rollbackProg = none ∧ execRollbackProgramDone ok s = .next s) ∨
      ∃ v new t, s.sec.rollbackProg = some v ∧ execRollbackProgramDone ok s = .next t ∧ (s.sec.rollback ≤ v → s.sec.rollback ≤ new)
        ∧ ∃ u, Keeps s u ∧ Keeps (modBoot (fun x => { x with rollback := new, rollbackProg := none }) u) t := by
  unfold execRollbackProgramDone
  cases hp : s.sec.rollbackProg with
  | none => exact .inl ⟨rfl, rfl⟩
  | some v =>
    right
    dsimp only
    refine ⟨v, if ok then v else s.sec.rollback + (takeFree s).1.toNat % (v - s.sec.rollback), _, rfl, rfl, ?_,
      if ok then s else (takeFree s).2, ?_, ?_⟩
    rotate_left
    · cases ok
      · exact takeFree_keeps (Keeps.refl s)
      · exact Keeps.refl s
    · refine endHeldFor_keeps (Keeps.each (Keeps.onlyIf (Keeps.onlyIf (Keeps.refl _) ?_) ?_) ?_)
      · exact fun _ h => raiseSource_keeps h
      · exact fun _ h => emit_keeps h
      · exact fun _ _ h => activated_keeps h
    · intro h; cases ok
      · simp
      · simpa using h

/-- A step idles on an empty queue, or takes its first command. -/
theorem step_next {s t : State} (h : step s = .next t) :
    (s.pending = [] ∧ t = s) ∨ ∃ c rest, s.pending = c :: rest ∧ exec c { s with pending := rest } = .next t := by
  unfold step at h
  cases hp : s.pending with
  | nil => rw [hp] at h; cases h; exact .inl ⟨rfl, rfl⟩
  | cons c rest => rw [hp] at h; exact .inr ⟨c, rest, rfl, h⟩

end Sys2Proof.Machine
end

