-- ==== Sys2Proof/Laws/KeepsInvariants.lean ====
section
/-! SUPPORT. Laws/KeepsInvariants.lean: resets, loss of power and DOUSED, as lemmas that the statements over every step cite. -/

namespace Sys2Proof.Machine

/-- Hearths as reset leaves them have their fixed shape. -/
theorem resetBase_shape : ∀ x ∈ List.replicate 8 ({} : Hearth), hearthShape x := by
  intro x hx; rw [List.eq_of_mem_replicate hx]; exact ⟨rfl,rfl,rfl,rfl,rfl,rfl⟩

/-- What a warm reset does before the configuration clears is among what `Keeps` describes. -/
theorem warm_keeps_before {s : State} (hd : s.pkg ≠ .doused) :
    Keeps s (setHolds (fun x => { ({} : Holds) with thermal := x.thermal }) (dropStreams 3 (each (allSections (setPkg .kindling s)) (fun g => setSec g.1 g.2 .cold) (setPkg .kindling s)))) := by
  refine setHolds_keeps (dropStreams_keeps (Keeps.each ?_ fun _ _ h => setSec_keeps h))
  exact setPkg_keeps (Keeps.refl s) (fun h => absurd h hd) (fun _ => ⟨(fun h => by cases h), (fun h => by cases h)⟩)

/-- A programming that power has cut short leaves the tables canonical and the rows in number. -/
theorem cut_canon {s : State} (h : Canon s) (hs : Shape s) : kwf (cutPrograms s).sec.flash = true ∧ kwf (cutPrograms s).sec.staging = true ∧ (cutPrograms s).limits.rows.length = 64 := by
  unfold cutPrograms
  extract_lets f ws t1 t2 t3 t4
  have e0 : Canon f.2 ∧ f.2.limits.rows.length = 64 := ⟨h, hs.2⟩
  have e1 : Canon t1 ∧ t1.limits.rows.length = 64 := by
    unfold t1; split
    · exact ⟨e0.1, by show (List.modify _ _ _).length = 64; rw [List.length_modify]; exact e0.2⟩
    · exact e0
  have e2 : Canon t2 ∧ t2.limits.rows.length = 64 := by
    unfold t2; split
    · rename_i g _
      have k := cutItem_keeps (g := g) (ws := (freeWords g.words.length t1).1) (crc := wordAt (freeWords 1 (freeWords g.words.length t1).2).1 0)
        (freeWords_keeps (n := 1) (freeWords_keeps (n := g.words.length) (Keeps.refl t1)))
      exact ⟨k.canon e1.1, by rw [k.rows]; exact e1.2⟩
    · exact e1
  have e3 : Canon t3 ∧ t3.limits.rows.length = 64 := by
    unfold t3; split
    · exact ⟨e2.1, e2.2⟩
    · exact e2
  have e4 : Canon t4 ∧ t4.limits.rows.length = 64 := by
    unfold t4; split
    · exact ⟨e3.1, e3.2⟩
    · exact e3
  split
  · rename_i c _
    have k := spoilChunk_keeps (c := c) (Keeps.refl t4)
    have c2 := k.canon e4.1
    exact ⟨c2.1, c2.2.1, by rw [k.rows]; exact e4.2⟩
  · exact ⟨e4.1.1, e4.1.2.1, e4.2⟩

/-- A change that leaves one-time programmable memory alone keeps what holds of it. -/
theorem fuse_of {s t : State} (hf : FuseOk s) (h1 : t.sec.rollbackProg = s.sec.rollbackProg) (h2 : t.sec.rollback = s.sec.rollback)
   (h3 : t.sec.keyProg = s.sec.keyProg) (h4 : t.sec.oemKey = s.sec.oemKey) (h5 : t.sec.hostKey = s.sec.hostKey) (h6 : t.limits.prog = s.limits.prog)
   (h7 : t.limits.rows = s.limits.rows) : FuseOk t ∧ FusesGain s t := by
  refine ⟨?_, ?_⟩
  · unfold FuseOk rowAt at *
    rw [h1, h2, h3, h4, h5, h6, h7]; exact hf
  · unfold FusesGain rowAt
    rw [h2, h4, h5, h7]
    exact ⟨Nat.le_refl _, fun _ h => h, fun _ h => h, fun _ h => ⟨h, rfl⟩, fun _ h => h⟩

/-- What `Keeps` describes leaves one-time programmable memory alone. -/
theorem Keeps.fuse {s t : State} (k : Keeps s t) (hf : FuseOk s) : FuseOk t ∧ FusesGain s t :=
  fuse_of hf k.rollbackProg k.rollback k.keyProg k.oemKey k.hostKey k.prog k.rows

/-- Gains add up. -/
theorem FusesGain.trans {s t u : State} (a : FusesGain s t) (b : FusesGain t u) : FusesGain s u :=
  ⟨Nat.le_trans a.1 b.1, fun k h => b.2.1 k (a.2.1 k h), fun k h => b.2.2.1 k (a.2.2.1 k h),
   fun n h => ⟨(b.2.2.2.1 n (a.2.2.2.1 n h).1).1, (b.2.2.2.1 n (a.2.2.2.1 n h).1).2.trans (a.2.2.2.1 n h).2⟩,
   fun n h => b.2.2.2.2 n (a.2.2.2.2 n h)⟩

/-- A row changes into one that keeps what was written or revoked. -/
theorem rows_gain {rows : List FbRow} {k : Nat} {f : FbRow → FbRow}
   (hf : ∀ r, r = (rows[k]?).getD {} → (r.written = true → (f r).written = true ∧ (f r).words = r.words) ∧ (r.revoked = true → (f r).revoked = true)) (n : Nat) :
   (((rows[n]?).getD {}).written = true → (((rows.modify k f)[n]?).getD {}).written = true ∧ (((rows.modify k f)[n]?).getD {}).words = ((rows[n]?).getD {}).words)
   ∧ (((rows[n]?).getD {}).revoked = true → (((rows.modify k f)[n]?).getD {}).revoked = true) := by
  rw [List.getElem?_modify]
  by_cases e : k = n
  · subst e
    simp only [if_true]
    cases hr : rows[k]? with
    | none => simp
    | some r => simpa using hf r (by rw [hr]; rfl)
  · simp only [if_neg e]
    cases rows[n]? <;> simp

/-- A change of one row that gives nothing back keeps what holds of one-time programmable memory. -/
theorem fuse_rows {s t : State} {k : Nat} {f : FbRow → FbRow} (hf : FuseOk s)
   (h1 : t.sec.rollbackProg = s.sec.rollbackProg) (h2 : t.sec.rollback = s.sec.rollback)
   (h3 : t.sec.keyProg = s.sec.keyProg) (h4 : t.sec.oemKey = s.sec.oemKey) (h5 : t.sec.hostKey = s.sec.hostKey) (h6 : t.limits.prog = none)
   (h7 : t.limits.rows = s.limits.rows.modify k f)
   (hg : (rowAt s k).written = true ∨ (rowAt s k).revoked = true → ∀ r, ((f r).words = r.words ∧ (f r).written = r.written) ∧ (r.revoked = true → (f r).revoked = true)) :
   FuseOk t ∧ FusesGain s t := by
  refine ⟨?_, ?_⟩
  · refine ⟨by rw [h1, h2]; exact hf.1, by rw [h3, h4]; exact hf.2.1, by rw [h3, h5]; exact hf.2.2.1, fun g h => by rw [h6] at h; cases h⟩
  · have G := fun n => rows_gain (rows := s.limits.rows) (k := k) (f := f) (by
      intro r hr
      have e : rowAt s k = r := by unfold rowAt; rw [List.getD_eq_getElem?_getD]; exact hr.symm
      rw [e] at hg
      exact ⟨fun w => ⟨((hg (.inl w) r).1.2).trans w, (hg (.inl w) r).1.1⟩, fun w => (hg (.inr w) r).2 w⟩) n
    refine ⟨Nat.le_of_eq h2.symm, fun _ h => h4.trans h, fun _ h => h5.trans h, fun n h => ?_, fun n h => ?_⟩
    · unfold rowAt at *
      rw [h7]; simp only [List.getD_eq_getElem?_getD] at *
      exact (G n).1 h
    · unfold rowAt at *
      rw [h7]; simp only [List.getD_eq_getElem?_getD] at *
      exact (G n).2 h

/-- One-time programmable memory that power has cut short has only gained. -/
theorem cut_fuses {s : State} (hf : FuseOk s) (t : State) (hr : t.sec.rollbackProg = none) (hk : t.sec.keyProg = none) (hp : t.limits.prog = none)
   (e1 : t.sec.rollback = (cutPrograms s).sec.rollback) (e2 : t.sec.oemKey = (cutPrograms s).sec.oemKey)
   (e3 : t.sec.hostKey = (cutPrograms s).sec.hostKey) (e4 : t.limits.rows = (cutPrograms s).limits.rows) : FuseOk t ∧ FusesGain s t := by
  refine ⟨⟨(fun v h => by rw [hr] at h; cases h), (fun v h => by rw [hk] at h; cases h), (fun v h => by rw [hk] at h; cases h), (fun v h => by rw [hp] at h; cases h)⟩, ?_⟩
  suffices H : FusesGain s (cutPrograms s) by
    unfold FusesGain rowAt at *
    rw [e1, e2, e3, e4]; exact H
  clear e1 e2 e3 e4 hr hk hp t
  unfold cutPrograms
  extract_lets f ws t1 t2 t3 t4
  have g1 : FusesGain s t1 ∧ t1.sec = s.sec := by
    unfold t1
    split
    · rename_i g hp
      have := hf.2.2.2 g hp
      refine ⟨(fuse_rows (s := s) (t := { s with limits := { s.limits with prog := none, rows := s.limits.rows.modify g.row (fun r => cutRow r g ws) } }) hf rfl rfl rfl rfl rfl rfl rfl ?_).2, rfl⟩
      intro hw r
      by_cases hv : g.revoke = true
      · unfold cutRow; rw [if_pos hv]; exact ⟨⟨rfl, rfl⟩, fun h => by simp [h]⟩
      · have := this (by simpa using hv)
        rw [this.1, this.2] at hw; simp at hw
    · exact ⟨⟨Nat.le_refl _, fun _ h => h, fun _ h => h, fun _ h => ⟨h, rfl⟩, fun _ h => h⟩, rfl⟩
  have g2 : FusesGain s t2 ∧ t2.sec.rollback = s.sec.rollback := by
    unfold t2
    split
    · rename_i g _
      have k := cutItem_keeps (g := g) (ws := (freeWords g.words.length t1).1) (crc := wordAt (freeWords 1 (freeWords g.words.length t1).2).1 0)
        (freeWords_keeps (n := 1) (freeWords_keeps (n := g.words.length) (Keeps.refl t1)))
      refine ⟨g1.1.trans ?_, by rw [k.rollback, g1.2]⟩
      unfold FusesGain rowAt
      rw [k.rollback, k.oemKey, k.hostKey, k.rows]
      exact ⟨Nat.le_refl _, fun _ h => h, fun _ h => h, fun _ h => ⟨h, rfl⟩, fun _ h => h⟩
    · exact ⟨g1.1, by rw [g1.2]⟩
  clear_value t2
  have g3 : FusesGain s t3 ∧ t3.sec.rollback = s.sec.rollback := by
    unfold t3
    split
    · rename_i id key hp
      obtain ⟨⟨a, b, c, d⟩, e⟩ := g2
      refine ⟨⟨a, ?_, ?_, d⟩, by show t2.sec.rollback = _; rw [e]⟩
      · intro k hk
        have : id ≠ 0 := by rintro rfl; rw [hf.2.1 key hp] at hk; cases hk
        show (if id = 0 then _ else t2.sec.oemKey) = _
        rw [if_neg this]; exact b k hk
      · intro k hk
        have : id ≠ 1 := by rintro rfl; rw [hf.2.2.1 key hp] at hk; cases hk
        show (if id = 1 then _ else t2.sec.hostKey) = _
        rw [if_neg this]; exact c k hk
    · exact g2
  have g4 : FusesGain s t4 := by
    unfold t4
    split
    · obtain ⟨⟨a, b⟩, e⟩ := g3
      exact ⟨by show _ ≤ t3.sec.rollback + _; rw [e]; exact Nat.le_add_right _ _, b⟩
    · exact g3.1
  split
  · rename_i c _
    have k := spoilChunk_keeps (c := c) (Keeps.refl t4)
    refine g4.trans ?_
    unfold FusesGain rowAt
    rw [k.rollback, k.oemKey, k.hostKey, k.rows]
    exact ⟨Nat.le_refl _, fun _ h => h, fun _ h => h, fun _ h => ⟨h, rfl⟩, fun _ h => h⟩
  · exact g4

/-- In DOUSED a captured packet is answered DOUSED (spec/01 R33). -/
theorem handle_doused {ci : CmdInfo} {l : Bool} {body : Packet → State → Done} {p : Packet} {u : State} (h : u.pkg = .doused) :
    handle ci l body p u = sendReply (heldOf ci p) .doused [] u := by
  have : firstFailure ci l p u = some .doused := by unfold firstFailure; simp [h]
  unfold handle; rw [this]

/-- The capture of a packet leaves the package state. -/
theorem afterCapture_pkg (ci : CmdInfo) (p : Packet) (s : State) : (afterCapture ci p s).pkg = s.pkg := by
  unfold afterCapture takeSlots countCapture
  split
  · rfl
  split
  · rfl
  split
  · unfold afterLeader tookFrame; dsimp only; split <;> rfl
  · rfl

/-- In DOUSED a command row that is captured only replies DOUSED (spec/01 R33). -/
theorem exec_doused {c : Instr} {s : State} {ci : CmdInfo} {p : Packet} (hd : s.pkg = .doused) (hc : commandOf c = some (ci, p)) (hcap : captures ci p s = true) :
    exec c s = .next (sendReply (heldOf ci p) .doused [] (afterCapture ci p s)) := by
  have hu := (afterCapture_pkg ci p s).trans hd
  have key : ∀ l body, runCommandWith ci l body p s = sendReply (heldOf ci p) .doused [] (afterCapture ci p s) := by
    intro l body; rw [runCommandWith_taken hcap, handle_doused hu]
  cases c <;> (first | (cases hc; done) | skip)
  all_goals (cases hc; exact congrArg _ (key _ _))

end Sys2Proof.Machine
end

