-- ==== Sys2Proof/WellFormed.lean ====
section
/-! DEFINITION. WellFormed.lean: the ranges of the operands that the spec's encodings and counts admit. A command outside them can
be queued and has a meaning all the same; the statements about every command hold of it too. -/

namespace Sys2Proof

/-- A DRAM line has 16 beats of 10 symbols (spec/16 R499). -/
def lineShape (line : DramLine) : Bool := line.length == 16 && line.all fun c => c.length == 10 && c.all fun x => decide (x < 16)

/-- The fields of a packet lie in the widths of its header (spec/12 R355, R352), and a leader's port is one of 16 (spec/15 R442). -/
def packetOk (p : Packet) : Bool :=
  decide (p.src ≤ 0x42) && decide (p.flags < 256) && decide (p.hearth < 16) && decide (p.sect < 16) && decide (p.tag < 65536)
    && decide (p.seq < 2 ^ 32) && decide (p.payload.length < 4096) && decide (p.port < 16) && decide (p.frame < 2 ^ 32)

/-- Every operand of a command lies in its range: hearths 0 to 7 and sections 0 to 7 (spec/01 R15), paths and loop slots 0 to 63
(spec/04 R97, spec/07 R189), synthesisers and ports 0 to 3 (spec/01 R15), queues 0 to 63 (spec/12 R359), calibration items 0 to 8
(spec/09 R276), error sources 0 to 511 (spec/17 R509), device indices 0 to 1,023 (spec/15 R447), VFs 1 to 30 (spec/14 R411), and the widths of register fields. -/
def wellFormed : Instr → Bool
  | .resetNRise bootSrc _ => decide (bootSrc < 4)
  | .bootStageComplete b => b.trainFail.all fun h => decide (h < 8)
  | .kindlingComplete _ => true
  | .controlTick _ => true
  | .sectionUndamp h i => decide (h < 8) && decide (i < 8)
  | .sectionRampDone h i => decide (h < 8) && decide (i < 8)
  | .downRampEnd h i => decide (h < 8) && decide (i < 8)
  | .sectionResume h i => decide (h < 8) && decide (i < 8)
  | .frameBoundary _ => true
  | .frameAlignment _ _ => true
  | .ppsInEdge _ => true
  | .syncNEdge _ => true
  | .grtBlankEnd h i => decide (h < 8) && decide (i < 8)
  | .scheduledAction handle _ => decide (handle < 2 ^ 32)
  | .sectionDefine p => packetOk p
  | .sectionDelete p => packetOk p
  | .sectionQuery p => packetOk p
  | .sectionStart p => packetOk p
  | .sectionStop p => packetOk p
  | .grateSync p => packetOk p
  | .bdcPathConfig p => packetOk p
  | .bdcPathQuery p => packetOk p
  | .bdcPathMode p => packetOk p
  | .bdcTapReset p => packetOk p
  | .bdcSnapshot p => packetOk p
  | .snapshotDramDone h i => decide (h < 8) && decide (i < 8)
  | .bdcRestore p => packetOk p
  | .restoreApply h i => decide (h < 8) && decide (i < 8)
  | .bdcMeasPublish h n => decide (h < 8) && decide (n < 64)
  | .acquisitionEnd h n => decide (h < 8) && decide (n < 64)
  | .pathFreeze h n => decide (h < 8) && decide (n < 64)
  | .bdcCompactionStep h => decide (h < 8)
  | .lineDetect h i d b _ _ => decide (h < 8) && decide (i < 8) && decide (d < 2) && decide (b < 2)
  | .toneTestHalfPeriod h i d => decide (h < 8) && decide (i < 8) && decide (d < 2)
  | .strangerMaskExpiry h i d b bin => decide (h < 8) && decide (i < 8) && decide (d < 2) && decide (b < 2) && decide (bin < 64)
  | .inputStale h n => decide (h < 8) && decide (n < 64)
  | .squelchWindow h i b _ => decide (h < 8) && decide (i < 8) && decide (b < 2)
  | .uplinkIdle h i => decide (h < 8) && decide (i < 8)
  | .noiseFloorSubperiod h i => decide (h < 8) && decide (i < 8)
  | .dutyLimitReached h i d => decide (h < 8) && decide (i < 8) && decide (d < 2)
  | .switchMismatch h x => decide (h < 8) && decide (x.pin < 16)
  | .quenchRetry h i => decide (h < 8) && decide (i < 8)
  | .quenchHistoryReset h i => decide (h < 8) && decide (i < 8)
  | .limitCopyReload h => decide (h < 8)
  | .dmpConfig p => packetOk p
  | .dmpQuery p => packetOk p
  | .dmpStrangerClear p => packetOk p
  | .dmpGroupCeil p => packetOk p
  | .spaConfig p => packetOk p
  | .spaQuery p => packetOk p
  | .spaHistoryClear p => packetOk p
  | .handoverEnd h n => decide (h < 8) && decide (n < 64)
  | .lostHoldExpiry h n => decide (h < 8) && decide (n < 64)
  | .tuneTimeout h n => decide (h < 8) && decide (n < 64)
  | .externalRampTimeout h n => decide (h < 8) && decide (n < 64)
  | .setptValidityChange pin _ => decide (pin < 2)
  | .loopConfig p => packetOk p
  | .loopQuery p => packetOk p
  | .loopClose p => packetOk p
  | .loopOpen p => packetOk p
  | .loopMode p => packetOk p
  | .loopSetpoint p => packetOk p
  | .loopTune p => packetOk p
  | .loopTable p => packetOk p
  | .setptConfig p => packetOk p
  | .synLocked h n _ => decide (h < 8) && decide (n < 4)
  | .synAttemptFail h n => decide (h < 8) && decide (n < 4)
  | .synLockLost h x => decide (h < 8) && decide (x.n < 4)
  | .synthWaitExpiry h i => decide (h < 8) && decide (i < 8)
  | .pmbusSupplyRead h n _ => decide (h < 8) && decide (n < 4)
  | .portEvaluation h n => decide (h < 8) && decide (n < 4)
  | .trimDelayExpiry h n => decide (h < 8) && decide (n < 4)
  | .actSequenceEnd h n => decide (h < 8) && decide (n < 16)
  | .stepTableReload h n => decide (h < 8) && decide (n < 4)
  | .radioConfig p => packetOk p
  | .pwrTableWrite p => packetOk p
  | .pwrPortConfig p => packetOk p
  | .fesConfig p => packetOk p
  | .fesGpioConfig p => packetOk p
  | .fesSeqWrite p => packetOk p
  | .fesBusAccess p => packetOk p
  | .busOperationDone h _ _ => decide (h < 8)
  | .rffeReadTimeout h => decide (h < 8)
  | .lcalEstimateStart h c item => decide (h < 8) && decide (c < 10) && decide (item ≤ 8)
  | .lcalEstimateComplete h c item _ => decide (h < 8) && decide (c < 10) && decide (item ≤ 8)
  | .lcalEstimateAbandon h c item => decide (h < 8) && decide (c < 10) && decide (item ≤ 8)
  | .deltaWithdraw h c => decide (h < 8) && decide (c < 10)
  | .orxAlternate h n => decide (h < 8) && decide (n < 2)
  | .lcalConfig p => packetOk p
  | .lcalRun p => packetOk p
  | .lcalQuery p => packetOk p
  | .lcalHold p => packetOk p
  | .airVisit h _ => decide (h < 8)
  | .airScanDwell h _ => decide (h < 8)
  | .airConfig p => packetOk p
  | .airScanRange p => packetOk p
  | .airSectionConfig p => packetOk p
  | .airCellRead p => packetOk p
  | .airStrangerRead p => packetOk p
  | .firebrickWrite p => packetOk p
  | .firebrickRevoke p => packetOk p
  | .firebrickProgramDone _ left => decide (left.length ≤ 6)
  | .firebrickRowInForce row => decide (row < 64)
  | .firebrickRead p => packetOk p
  | .calsetQuery p => packetOk p
  | .calsetExport p => packetOk p
  | .calsetImport p => packetOk p
  | .calsetStore p => packetOk p
  | .calsetWriteDone _ => true
  | .sqTailWrite q x => decide (q < 64) && decide (x.tail < 65536)
  | .cqHeadWrite q head => decide (q < 64) && decide (head < 65536)
  | .sqExtensionTimeout q p => decide (q < 64) && packetOk p
  | .pad p => packetOk p
  | .identify p => packetOk p
  | .nop p => packetOk p
  | .hostUnlock p => packetOk p
  | .unlockChallenge p => packetOk p
  | .queueCreate p => packetOk p
  | .queueDelete p => packetOk p
  | .counterSnapshot p => packetOk p
  | .wideRead p => packetOk p
  | .packageHold p => packetOk p
  | .sysReset p => packetOk p
  | .scriptControl p => packetOk p
  | .packageStatus p => packetOk p
  | .linkReset cause => decide (cause < 4)
  | .flrVf n => decide (1 ≤ n) && decide (n ≤ 30)
  | .d3hotChange pf _ => decide (pf < 2)
  | .linkRetrain gen width => decide (1 ≤ gen) && decide (gen ≤ 5) && (width == 4 || width == 8 || width == 16)
  | .dmaReadErr d => d.capture && decide (d.hearth < 8) || !d.capture && decide (d.hearth < 8) && decide (d.sect < 8) && decide (d.kind < 2)
  | .streamExportBlock h i _ => decide (h < 8) && decide (i < 8)
  | .streamImportBlock h i _ => decide (h < 8) && decide (i < 8)
  | .streamStartTime h i kind => decide (h < 8) && decide (i < 8) && decide (kind < 2)
  | .strHostPtrWrite h i kind _ => decide (h < 8) && decide (i < 8) && decide (kind < 2)
  | .streamConfig p => packetOk p
  | .streamControl p => packetOk p
  | .captureConfig p => packetOk p
  | .captureArm p => packetOk p
  | .captureQuery p => packetOk p
  | .captureTrigger h _ => decide (h < 8)
  | .captureRecordDone h => decide (h < 8)
  | .captureReadoutDone h => decide (h < 8)
  | .captureTimeout h => decide (h < 8)
  | .beaconReceive b => decide (b.port < 16) && decide (b.src < 1024) && decide (b.seq < 2 ^ 32)
  | .planRoundRetry member => decide (member < 1024)
  | .ftfDiscard port frame => decide (port < 16) && decide (frame.length ≤ 9010)
  | .replyFrameReceive member seq a =>
    decide (member < 1024) && decide (seq < 2 ^ 32) && decide (a.port < 16) && decide (a.cmd < 2 ^ 32) && decide (a.status < 256)
  | .ptpSyncReceive x => decide (x.port < 16)
  | .ptpMessageReceive m => decide (m.port < 16)
  | .transportSend h i => decide (h < 8) && decide (i < 8)
  | .transportReceive h i f => decide (h < 8) && decide (i < 8) && decide (f.port < 16)
  | .transportLost h i => decide (h < 8) && decide (i < 8)
  | .transportRestored h i => decide (h < 8) && decide (i < 8)
  | .probeWindowStart _ => true
  | .probeWindowEnd _ _ => true
  | .probeReportReceive r => decide (r.port < 16) && decide (r.src < 1024) && decide (r.seq < 2 ^ 32)
  | .couplingExpiry _ => true
  | .flueLinkChange h port _ => decide (h < 8) && decide (port < 2)
  | .fluePortConfig p => packetOk p
  | .groupConfig p => packetOk p
  | .groupQuery p => packetOk p
  | .ptpConfig p => packetOk p
  | .splitConfig p => packetOk p
  | .probeSchedule p => packetOk p
  | .probeRead p => packetOk p
  | .dramCorrectedRead h sub rank line => decide (h < 8) && decide (sub < 2) && decide (rank < 2) && lineShape line
  | .dramUce h _ r => decide (h < 8) && decide (r.sub < 2) && decide (r.rank < 2) && decide (r.address < 2 ^ 64) && lineShape r.line
  | .scrubLine h sub rank line _ => decide (h < 8) && decide (sub < 2) && decide (rank < 2) && lineShape line
  | .pageCrcMismatch h _ _ => decide (h < 8)
  | .linkFrameRetry h link _ => decide (h < 8) && decide (link < 2)
  | .linkFail h link => decide (h < 8) && decide (link < 2)
  | .errorDetected h source _ => decide (h < 8) && decide (source < 512)
  | .fcolCapture h _ => decide (h < 8)
  | .railFault h source _ _ => decide (h < 8) && decide (source < 512)
  | .fcolSequenceEnd h => decide (h < 8)
  | .blockResetRelease h => decide (h < 8)
  | .fcolInjectionApply h _ _ => decide (h < 8)
  | .fcolSourceConfig p => packetOk p
  | .fcolInject p => packetOk p
  | .fcolQuery p => packetOk p
  | .logEntryArrival h => decide (h < 8)
  | .logDrop h _ => decide (h < 8)
  | .bucketRefill code => decide (code < 65536)
  | .emberWriteDone _ => true
  | .emberEraseDone _ => true
  | .alogRead p => packetOk p
  | .embersRead p => packetOk p
  | .alogRateConfig p => packetOk p
  | .alogMark p => packetOk p
  | .thmConversion h temps => decide (h < 8) && decide (temps.length = 16)
  | .shedTimer h => decide (h < 8)
  | .thermalTrip h zone => decide (h < 8) && decide (zone < 8)
  | .thermalConfig p => packetOk p
  | .thermalResume p => packetOk p
  | .thermalQuery p => packetOk p
  | .attest p => packetOk p
  | .certRead p => packetOk p
  | .imageWrite p => packetOk p
  | .imageWriteDone _ => true
  | .imageActivate p => packetOk p
  | .rollbackProgramDone _ => true
  | .oemKeyWrite p => packetOk p
  | .keyProgramDone _ => true
  | .tddPatternWrite p => packetOk p
  | .tddPatternSelect p => packetOk p
  | .frameSource p => packetOk p
  | .timeSet p => packetOk p
  | .timeSchedule p => packetOk p
  | .timeScheduleCancel p => packetOk p
  | .wideReqWrite m id => decide (m < 34) && decide (id < 65536)
  | .wideData3Read m => decide (m < 34)
  | .snapCmdWrite _ => true
  | .sysHbWrite m count => decide (m < 34) && decide (count < 65536)
  | .sysIntEnWrite m en => decide (m < 34) && decide (en < 1024)
  | .sysIntPendClear mask => decide (mask < 1024)
  | .fcolPendClear h k _ => decide (h < 8) && decide (k < 16)
  | .fcolAlertClear h => decide (h < 8)
  | .fcolLostClear h => decide (h < 8)
  | .fcolFfClr m h => decide (m < 34) && decide (h < 8)
  | .fcolCntClr h => decide (h < 8)
  | .grtTxsatClr h => decide (h < 8)
  | .secSatClr h i => decide (h < 8) && decide (i < 8)
  | .bdcCntClr h => decide (h < 8)
  | .dmpCntClr h => decide (h < 8)
  | .spaCntClr h => decide (h < 8)
  | .blwCntClr h => decide (h < 8)
  | .rfcCntClr h => decide (h < 8)
  | .lcalCntClr h => decide (h < 8)
  | .airCntClr h => decide (h < 8)
  | .fluCntClr h => decide (h < 8)
  | .xmcCntClr h => decide (h < 8)
  | .xmcMarkClr m h => decide (m < 34) && decide (h < 8)
  | .emberNow m => decide (m < 34)
  | .thmCntClr h => decide (h < 8)
  | .registerWrite m address _ => (decide (m < 34) || decide (64 ≤ m ∧ m < 96)) && decide (address < 2 ^ 28)
  | .tddPatternEdge h n _ => decide (h < 8) && decide (n < 8)
  | .ppsOutEdge _ => true
  | .stepSequenceEnd h n => decide (h < 8) && decide (n < 4)
  | .railFaultEnd h source _ => decide (h < 8) && decide (source < 512)
  | .resetNLow => true
  | .powerLoss => true
  | .warmReset => true
  | .frameSourceInvalid => true
  | .holdoverExpiry => true
  | .ppsWindowClose => true
  | .scriptRecord => true
  | .scriptWaitTimeout => true
  | .scriptRetry => true
  | .unlockVerifyDone => true
  | .challengeExpiry => true
  | .unlockLockoutEnd => true
  | .flrPf0 => true
  | .flrPf1 => true
  | .planRoundEnd => true
  | .leaderTakeover => true
  | .digestTimeout => true
  | .ptpTimeout => true
  | .ptpHoldoverExpiry => true
  | .surveyRoundStart => true
  | .faultPinPulseEnd => true
  | .powerFailWarning => true
  | .resumeOkSet => true
  | .attestSignDone => true
  | .snapCopy => true
  | .heartbeatDecrement => true
  | .queue0Enable => true
  | .queue0Disable => true
  | .cpxCntClr => true
  | .hifCntClr => true
  | .alogCntClr => true
  | .perstNRise => true

end Sys2Proof
end

