-- ==== Sys2Proof/Laws/PerInstr.lean ====
section
/-! SUPPORT. Laws/PerInstr.lean: what holds of every command as syntax, one lemma per constructor. -/

namespace Sys2Proof.Laws.Fields

open Sys2Proof.Machine

/-- A command row that is well formed carries a packet whose fields have the widths of its header, and the properties that its
packet is checked by are those that the command index gives its opcode (spec/12 R355, spec/13 R376). -/
def Statement (c : Instr) : Prop :=
  wellFormed c = true → ∀ ci p, commandOf c = some (ci, p) → packetOk p = true ∧ infoOf ci.op = some ci

theorem of_event {c : Instr} (h : commandOf c = none) : Statement c := by
  intro _ ci p e
  rw [h] at e
  cases e

theorem of_command {c : Instr} {ci : CmdInfo} {p : Packet} (h : commandOf c = some (ci, p)) (hw : wellFormed c = packetOk p)
    (hi : infoOf ci.op = some ci) : Statement c := by
  intro w ci' p' e
  rw [h] at e
  cases e
  exact ⟨hw.symm.trans w, hi⟩

theorem resetNRise (bootSrc : Nat) (refsel : Bool) : Statement (.resetNRise bootSrc refsel) := of_event rfl
theorem bootStageComplete (b : BootIn) : Statement (.bootStageComplete b) := of_event rfl
theorem kindlingComplete (ms : Nat) : Statement (.kindlingComplete ms) := of_event rfl
theorem controlTick (x : TickIn) : Statement (.controlTick x) := of_event rfl
theorem sectionUndamp (h : Nat) (i : Nat) : Statement (.sectionUndamp h i) := of_event rfl
theorem sectionRampDone (h : Nat) (i : Nat) : Statement (.sectionRampDone h i) := of_event rfl
theorem downRampEnd (h : Nat) (i : Nat) : Statement (.downRampEnd h i) := of_event rfl
theorem sectionResume (h : Nat) (i : Nat) : Statement (.sectionResume h i) := of_event rfl
theorem frameBoundary (clk : Nat) : Statement (.frameBoundary clk) := of_event rfl
theorem frameAlignment (clk : Int) (sfn : Option Nat) : Statement (.frameAlignment clk sfn) := of_event rfl
theorem ppsInEdge (clk : Nat) : Statement (.ppsInEdge clk) := of_event rfl
theorem syncNEdge (clk : Nat) : Statement (.syncNEdge clk) := of_event rfl
theorem grtBlankEnd (h : Nat) (i : Nat) : Statement (.grtBlankEnd h i) := of_event rfl
theorem scheduledAction (handle : Nat) (clk : Nat) : Statement (.scheduledAction handle clk) := of_event rfl
theorem sectionDefine (p : Packet) : Statement (.sectionDefine p) := of_command rfl rfl rfl
theorem sectionDelete (p : Packet) : Statement (.sectionDelete p) := of_command rfl rfl rfl
theorem sectionQuery (p : Packet) : Statement (.sectionQuery p) := of_command rfl rfl rfl
theorem sectionStart (p : Packet) : Statement (.sectionStart p) := of_command rfl rfl rfl
theorem sectionStop (p : Packet) : Statement (.sectionStop p) := of_command rfl rfl rfl
theorem grateSync (p : Packet) : Statement (.grateSync p) := of_command rfl rfl rfl
theorem bdcPathConfig (p : Packet) : Statement (.bdcPathConfig p) := of_command rfl rfl rfl
theorem bdcPathQuery (p : Packet) : Statement (.bdcPathQuery p) := of_command rfl rfl rfl
theorem bdcPathMode (p : Packet) : Statement (.bdcPathMode p) := of_command rfl rfl rfl
theorem bdcTapReset (p : Packet) : Statement (.bdcTapReset p) := of_command rfl rfl rfl
theorem bdcSnapshot (p : Packet) : Statement (.bdcSnapshot p) := of_command rfl rfl rfl
theorem snapshotDramDone (h : Nat) (i : Nat) : Statement (.snapshotDramDone h i) := of_event rfl
theorem bdcRestore (p : Packet) : Statement (.bdcRestore p) := of_command rfl rfl rfl
theorem restoreApply (h : Nat) (i : Nat) : Statement (.restoreApply h i) := of_event rfl
theorem bdcMeasPublish (h : Nat) (n : Nat) : Statement (.bdcMeasPublish h n) := of_event rfl
theorem acquisitionEnd (h : Nat) (n : Nat) : Statement (.acquisitionEnd h n) := of_event rfl
theorem pathFreeze (h : Nat) (n : Nat) : Statement (.pathFreeze h n) := of_event rfl
theorem bdcCompactionStep (h : Nat) : Statement (.bdcCompactionStep h) := of_event rfl
theorem lineDetect (h : Nat) (i : Nat) (d : Nat) (b : Nat) (first : Nat) (last : Nat) : Statement (.lineDetect h i d b first last) := of_event rfl
theorem toneTestHalfPeriod (h : Nat) (i : Nat) (d : Nat) : Statement (.toneTestHalfPeriod h i d) := of_event rfl
theorem strangerMaskExpiry (h : Nat) (i : Nat) (d : Nat) (b : Nat) (bin : Nat) : Statement (.strangerMaskExpiry h i d b bin) := of_event rfl
theorem inputStale (h : Nat) (n : Nat) : Statement (.inputStale h n) := of_event rfl
theorem squelchWindow (h : Nat) (i : Nat) (b : Nat) (first : Nat) : Statement (.squelchWindow h i b first) := of_event rfl
theorem uplinkIdle (h : Nat) (i : Nat) : Statement (.uplinkIdle h i) := of_event rfl
theorem noiseFloorSubperiod (h : Nat) (i : Nat) : Statement (.noiseFloorSubperiod h i) := of_event rfl
theorem dutyLimitReached (h : Nat) (i : Nat) (d : Nat) : Statement (.dutyLimitReached h i d) := of_event rfl
theorem switchMismatch (h : Nat) (x : PinChange) : Statement (.switchMismatch h x) := of_event rfl
theorem quenchRetry (h : Nat) (i : Nat) : Statement (.quenchRetry h i) := of_event rfl
theorem quenchHistoryReset (h : Nat) (i : Nat) : Statement (.quenchHistoryReset h i) := of_event rfl
theorem limitCopyReload (h : Nat) : Statement (.limitCopyReload h) := of_event rfl
theorem dmpConfig (p : Packet) : Statement (.dmpConfig p) := of_command rfl rfl rfl
theorem dmpQuery (p : Packet) : Statement (.dmpQuery p) := of_command rfl rfl rfl
theorem dmpStrangerClear (p : Packet) : Statement (.dmpStrangerClear p) := of_command rfl rfl rfl
theorem dmpGroupCeil (p : Packet) : Statement (.dmpGroupCeil p) := of_command rfl rfl rfl
theorem spaConfig (p : Packet) : Statement (.spaConfig p) := of_command rfl rfl rfl
theorem spaQuery (p : Packet) : Statement (.spaQuery p) := of_command rfl rfl rfl
theorem spaHistoryClear (p : Packet) : Statement (.spaHistoryClear p) := of_command rfl rfl rfl
theorem handoverEnd (h : Nat) (n : Nat) : Statement (.handoverEnd h n) := of_event rfl
theorem lostHoldExpiry (h : Nat) (n : Nat) : Statement (.lostHoldExpiry h n) := of_event rfl
theorem tuneTimeout (h : Nat) (n : Nat) : Statement (.tuneTimeout h n) := of_event rfl
theorem externalRampTimeout (h : Nat) (n : Nat) : Statement (.externalRampTimeout h n) := of_event rfl
theorem setptValidityChange (pin : Nat) (x : SetptChange) : Statement (.setptValidityChange pin x) := of_event rfl
theorem loopConfig (p : Packet) : Statement (.loopConfig p) := of_command rfl rfl rfl
theorem loopQuery (p : Packet) : Statement (.loopQuery p) := of_command rfl rfl rfl
theorem loopClose (p : Packet) : Statement (.loopClose p) := of_command rfl rfl rfl
theorem loopOpen (p : Packet) : Statement (.loopOpen p) := of_command rfl rfl rfl
theorem loopMode (p : Packet) : Statement (.loopMode p) := of_command rfl rfl rfl
theorem loopSetpoint (p : Packet) : Statement (.loopSetpoint p) := of_command rfl rfl rfl
theorem loopTune (p : Packet) : Statement (.loopTune p) := of_command rfl rfl rfl
theorem loopTable (p : Packet) : Statement (.loopTable p) := of_command rfl rfl rfl
theorem setptConfig (p : Packet) : Statement (.setptConfig p) := of_command rfl rfl rfl
theorem synLocked (h : Nat) (n : Nat) (ns : Nat) : Statement (.synLocked h n ns) := of_event rfl
theorem synAttemptFail (h : Nat) (n : Nat) : Statement (.synAttemptFail h n) := of_event rfl
theorem synLockLost (h : Nat) (x : LockLoss) : Statement (.synLockLost h x) := of_event rfl
theorem synthWaitExpiry (h : Nat) (i : Nat) : Statement (.synthWaitExpiry h i) := of_event rfl
theorem pmbusSupplyRead (h : Nat) (n : Nat) (value : Option Nat) : Statement (.pmbusSupplyRead h n value) := of_event rfl
theorem portEvaluation (h : Nat) (n : Nat) : Statement (.portEvaluation h n) := of_event rfl
theorem trimDelayExpiry (h : Nat) (n : Nat) : Statement (.trimDelayExpiry h n) := of_event rfl
theorem actSequenceEnd (h : Nat) (n : Nat) : Statement (.actSequenceEnd h n) := of_event rfl
theorem stepTableReload (h : Nat) (n : Nat) : Statement (.stepTableReload h n) := of_event rfl
theorem radioConfig (p : Packet) : Statement (.radioConfig p) := of_command rfl rfl rfl
theorem pwrTableWrite (p : Packet) : Statement (.pwrTableWrite p) := of_command rfl rfl rfl
theorem pwrPortConfig (p : Packet) : Statement (.pwrPortConfig p) := of_command rfl rfl rfl
theorem fesConfig (p : Packet) : Statement (.fesConfig p) := of_command rfl rfl rfl
theorem fesGpioConfig (p : Packet) : Statement (.fesGpioConfig p) := of_command rfl rfl rfl
theorem fesSeqWrite (p : Packet) : Statement (.fesSeqWrite p) := of_command rfl rfl rfl
theorem fesBusAccess (p : Packet) : Statement (.fesBusAccess p) := of_command rfl rfl rfl
theorem busOperationDone (h : Nat) (data : Option Nat) (clk : Nat) : Statement (.busOperationDone h data clk) := of_event rfl
theorem rffeReadTimeout (h : Nat) : Statement (.rffeReadTimeout h) := of_event rfl
theorem lcalEstimateStart (h : Nat) (c : Nat) (item : Nat) : Statement (.lcalEstimateStart h c item) := of_event rfl
theorem lcalEstimateComplete (h : Nat) (c : Nat) (item : Nat) (r : LcalResult) : Statement (.lcalEstimateComplete h c item r) := of_event rfl
theorem lcalEstimateAbandon (h : Nat) (c : Nat) (item : Nat) : Statement (.lcalEstimateAbandon h c item) := of_event rfl
theorem deltaWithdraw (h : Nat) (c : Nat) : Statement (.deltaWithdraw h c) := of_event rfl
theorem orxAlternate (h : Nat) (n : Nat) : Statement (.orxAlternate h n) := of_event rfl
theorem lcalConfig (p : Packet) : Statement (.lcalConfig p) := of_command rfl rfl rfl
theorem lcalRun (p : Packet) : Statement (.lcalRun p) := of_command rfl rfl rfl
theorem lcalQuery (p : Packet) : Statement (.lcalQuery p) := of_command rfl rfl rfl
theorem lcalHold (p : Packet) : Statement (.lcalHold p) := of_command rfl rfl rfl
theorem airVisit (h : Nat) (v : VisitIn) : Statement (.airVisit h v) := of_event rfl
theorem airScanDwell (h : Nat) (v : DwellIn) : Statement (.airScanDwell h v) := of_event rfl
theorem airConfig (p : Packet) : Statement (.airConfig p) := of_command rfl rfl rfl
theorem airScanRange (p : Packet) : Statement (.airScanRange p) := of_command rfl rfl rfl
theorem airSectionConfig (p : Packet) : Statement (.airSectionConfig p) := of_command rfl rfl rfl
theorem airCellRead (p : Packet) : Statement (.airCellRead p) := of_command rfl rfl rfl
theorem airStrangerRead (p : Packet) : Statement (.airStrangerRead p) := of_command rfl rfl rfl
theorem firebrickWrite (p : Packet) : Statement (.firebrickWrite p) := of_command rfl rfl rfl
theorem firebrickRevoke (p : Packet) : Statement (.firebrickRevoke p) := of_command rfl rfl rfl
theorem firebrickProgramDone (ok : Bool) (left : List Word) : Statement (.firebrickProgramDone ok left) := of_event rfl
theorem firebrickRowInForce (row : Nat) : Statement (.firebrickRowInForce row) := of_event rfl
theorem firebrickRead (p : Packet) : Statement (.firebrickRead p) := of_command rfl rfl rfl
theorem calsetQuery (p : Packet) : Statement (.calsetQuery p) := of_command rfl rfl rfl
theorem calsetExport (p : Packet) : Statement (.calsetExport p) := of_command rfl rfl rfl
theorem calsetImport (p : Packet) : Statement (.calsetImport p) := of_command rfl rfl rfl
theorem calsetStore (p : Packet) : Statement (.calsetStore p) := of_command rfl rfl rfl
theorem calsetWriteDone (ok : Bool) : Statement (.calsetWriteDone ok) := of_event rfl
theorem sqTailWrite (q : Nat) (x : TailWrite) : Statement (.sqTailWrite q x) := of_event rfl
theorem cqHeadWrite (q : Nat) (head : Nat) : Statement (.cqHeadWrite q head) := of_event rfl
theorem sqExtensionTimeout (q : Nat) (p : Packet) : Statement (.sqExtensionTimeout q p) := of_event rfl
theorem pad (p : Packet) : Statement (.pad p) := of_event rfl
theorem identify (p : Packet) : Statement (.identify p) := of_command rfl rfl rfl
theorem nop (p : Packet) : Statement (.nop p) := of_command rfl rfl rfl
theorem hostUnlock (p : Packet) : Statement (.hostUnlock p) := of_command rfl rfl rfl
theorem unlockChallenge (p : Packet) : Statement (.unlockChallenge p) := of_command rfl rfl rfl
theorem queueCreate (p : Packet) : Statement (.queueCreate p) := of_command rfl rfl rfl
theorem queueDelete (p : Packet) : Statement (.queueDelete p) := of_command rfl rfl rfl
theorem counterSnapshot (p : Packet) : Statement (.counterSnapshot p) := of_command rfl rfl rfl
theorem wideRead (p : Packet) : Statement (.wideRead p) := of_command rfl rfl rfl
theorem packageHold (p : Packet) : Statement (.packageHold p) := of_command rfl rfl rfl
theorem sysReset (p : Packet) : Statement (.sysReset p) := of_command rfl rfl rfl
theorem scriptControl (p : Packet) : Statement (.scriptControl p) := of_command rfl rfl rfl
theorem packageStatus (p : Packet) : Statement (.packageStatus p) := of_command rfl rfl rfl
theorem linkReset (cause : Nat) : Statement (.linkReset cause) := of_event rfl
theorem flrVf (n : Nat) : Statement (.flrVf n) := of_event rfl
theorem d3hotChange (pf : Nat) (enter : Bool) : Statement (.d3hotChange pf enter) := of_event rfl
theorem linkRetrain (gen : Nat) (width : Nat) : Statement (.linkRetrain gen width) := of_event rfl
theorem dmaReadErr (d : DmaErr) : Statement (.dmaReadErr d) := of_event rfl
theorem streamExportBlock (h : Nat) (i : Nat) (b : BlockIn) : Statement (.streamExportBlock h i b) := of_event rfl
theorem streamImportBlock (h : Nat) (i : Nat) (b : BlockIn) : Statement (.streamImportBlock h i b) := of_event rfl
theorem streamStartTime (h : Nat) (i : Nat) (kind : Nat) : Statement (.streamStartTime h i kind) := of_event rfl
theorem strHostPtrWrite (h : Nat) (i : Nat) (kind : Nat) (ptr : Nat) : Statement (.strHostPtrWrite h i kind ptr) := of_event rfl
theorem streamConfig (p : Packet) : Statement (.streamConfig p) := of_command rfl rfl rfl
theorem streamControl (p : Packet) : Statement (.streamControl p) := of_command rfl rfl rfl
theorem captureConfig (p : Packet) : Statement (.captureConfig p) := of_command rfl rfl rfl
theorem captureArm (p : Packet) : Statement (.captureArm p) := of_command rfl rfl rfl
theorem captureQuery (p : Packet) : Statement (.captureQuery p) := of_command rfl rfl rfl
theorem captureTrigger (h : Nat) (clk : Nat) : Statement (.captureTrigger h clk) := of_event rfl
theorem captureRecordDone (h : Nat) : Statement (.captureRecordDone h) := of_event rfl
theorem captureReadoutDone (h : Nat) : Statement (.captureReadoutDone h) := of_event rfl
theorem captureTimeout (h : Nat) : Statement (.captureTimeout h) := of_event rfl
theorem beaconReceive (b : Beacon) : Statement (.beaconReceive b) := of_event rfl
theorem planRoundRetry (member : Nat) : Statement (.planRoundRetry member) := of_event rfl
theorem ftfDiscard (port : Nat) (frame : FrameBytes) : Statement (.ftfDiscard port frame) := of_event rfl
theorem replyFrameReceive (member : Nat) (seq : Nat) (a : ReplyIn) : Statement (.replyFrameReceive member seq a) := of_event rfl
theorem ptpSyncReceive (x : PtpSync) : Statement (.ptpSyncReceive x) := of_event rfl
theorem ptpMessageReceive (m : PtpMsg) : Statement (.ptpMessageReceive m) := of_event rfl
theorem transportSend (h : Nat) (i : Nat) : Statement (.transportSend h i) := of_event rfl
theorem transportReceive (h : Nat) (i : Nat) (f : TransportIn) : Statement (.transportReceive h i f) := of_event rfl
theorem transportLost (h : Nat) (i : Nat) : Statement (.transportLost h i) := of_event rfl
theorem transportRestored (h : Nat) (i : Nat) : Statement (.transportRestored h i) := of_event rfl
theorem probeWindowStart (n : Nat) : Statement (.probeWindowStart n) := of_event rfl
theorem probeWindowEnd (n : Nat) (start : Nat) : Statement (.probeWindowEnd n start) := of_event rfl
theorem probeReportReceive (r : ProbeReport) : Statement (.probeReportReceive r) := of_event rfl
theorem couplingExpiry (n : Nat) : Statement (.couplingExpiry n) := of_event rfl
theorem flueLinkChange (h : Nat) (port : Nat) (up : Bool) : Statement (.flueLinkChange h port up) := of_event rfl
theorem fluePortConfig (p : Packet) : Statement (.fluePortConfig p) := of_command rfl rfl rfl
theorem groupConfig (p : Packet) : Statement (.groupConfig p) := of_command rfl rfl rfl
theorem groupQuery (p : Packet) : Statement (.groupQuery p) := of_command rfl rfl rfl
theorem ptpConfig (p : Packet) : Statement (.ptpConfig p) := of_command rfl rfl rfl
theorem splitConfig (p : Packet) : Statement (.splitConfig p) := of_command rfl rfl rfl
theorem probeSchedule (p : Packet) : Statement (.probeSchedule p) := of_command rfl rfl rfl
theorem probeRead (p : Packet) : Statement (.probeRead p) := of_command rfl rfl rfl
theorem dramCorrectedRead (h : Nat) (sub : Nat) (rank : Nat) (line : DramLine) : Statement (.dramCorrectedRead h sub rank line) := of_event rfl
theorem dramUce (h : Nat) (region : Nat) (r : LineRead) : Statement (.dramUce h region r) := of_event rfl
theorem scrubLine (h : Nat) (sub : Nat) (rank : Nat) (line : DramLine) (overwritten : Bool) : Statement (.scrubLine h sub rank line overwritten) := of_event rfl
theorem pageCrcMismatch (h : Nat) (region : Nat) (page : Nat) : Statement (.pageCrcMismatch h region page) := of_event rfl
theorem linkFrameRetry (h : Nat) (link : Nat) (again : Bool) : Statement (.linkFrameRetry h link again) := of_event rfl
theorem linkFail (h : Nat) (link : Nat) : Statement (.linkFail h link) := of_event rfl
theorem errorDetected (h : Nat) (source : Nat) (data : Nat) : Statement (.errorDetected h source data) := of_event rfl
theorem fcolCapture (h : Nat) (clk : Nat) : Statement (.fcolCapture h clk) := of_event rfl
theorem railFault (h : Nat) (source : Nat) (clk : Nat) (data : Nat) : Statement (.railFault h source clk data) := of_event rfl
theorem fcolSequenceEnd (h : Nat) : Statement (.fcolSequenceEnd h) := of_event rfl
theorem blockResetRelease (h : Nat) : Statement (.blockResetRelease h) := of_event rfl
theorem fcolInjectionApply (h : Nat) (clk : Nat) (data : Nat) : Statement (.fcolInjectionApply h clk data) := of_event rfl
theorem fcolSourceConfig (p : Packet) : Statement (.fcolSourceConfig p) := of_command rfl rfl rfl
theorem fcolInject (p : Packet) : Statement (.fcolInject p) := of_command rfl rfl rfl
theorem fcolQuery (p : Packet) : Statement (.fcolQuery p) := of_command rfl rfl rfl
theorem logEntryArrival (h : Nat) : Statement (.logEntryArrival h) := of_event rfl
theorem logDrop (h : Nat) (e : LogIn) : Statement (.logDrop h e) := of_event rfl
theorem bucketRefill (code : Nat) : Statement (.bucketRefill code) := of_event rfl
theorem emberWriteDone (ok : Bool) : Statement (.emberWriteDone ok) := of_event rfl
theorem emberEraseDone (ok : Bool) : Statement (.emberEraseDone ok) := of_event rfl
theorem alogRead (p : Packet) : Statement (.alogRead p) := of_command rfl rfl rfl
theorem embersRead (p : Packet) : Statement (.embersRead p) := of_command rfl rfl rfl
theorem alogRateConfig (p : Packet) : Statement (.alogRateConfig p) := of_command rfl rfl rfl
theorem alogMark (p : Packet) : Statement (.alogMark p) := of_command rfl rfl rfl
theorem thmConversion (h : Nat) (temps : List Int) : Statement (.thmConversion h temps) := of_event rfl
theorem shedTimer (h : Nat) : Statement (.shedTimer h) := of_event rfl
theorem thermalTrip (h : Nat) (zone : Nat) : Statement (.thermalTrip h zone) := of_event rfl
theorem thermalConfig (p : Packet) : Statement (.thermalConfig p) := of_command rfl rfl rfl
theorem thermalResume (p : Packet) : Statement (.thermalResume p) := of_command rfl rfl rfl
theorem thermalQuery (p : Packet) : Statement (.thermalQuery p) := of_command rfl rfl rfl
theorem attest (p : Packet) : Statement (.attest p) := of_command rfl rfl rfl
theorem certRead (p : Packet) : Statement (.certRead p) := of_command rfl rfl rfl
theorem imageWrite (p : Packet) : Statement (.imageWrite p) := of_command rfl rfl rfl
theorem imageWriteDone (ok : Bool) : Statement (.imageWriteDone ok) := of_event rfl
theorem imageActivate (p : Packet) : Statement (.imageActivate p) := of_command rfl rfl rfl
theorem rollbackProgramDone (ok : Bool) : Statement (.rollbackProgramDone ok) := of_event rfl
theorem oemKeyWrite (p : Packet) : Statement (.oemKeyWrite p) := of_command rfl rfl rfl
theorem keyProgramDone (ok : Bool) : Statement (.keyProgramDone ok) := of_event rfl
theorem tddPatternWrite (p : Packet) : Statement (.tddPatternWrite p) := of_command rfl rfl rfl
theorem tddPatternSelect (p : Packet) : Statement (.tddPatternSelect p) := of_command rfl rfl rfl
theorem frameSource (p : Packet) : Statement (.frameSource p) := of_command rfl rfl rfl
theorem timeSet (p : Packet) : Statement (.timeSet p) := of_command rfl rfl rfl
theorem timeSchedule (p : Packet) : Statement (.timeSchedule p) := of_command rfl rfl rfl
theorem timeScheduleCancel (p : Packet) : Statement (.timeScheduleCancel p) := of_command rfl rfl rfl
theorem wideReqWrite (m : Nat) (id : Nat) : Statement (.wideReqWrite m id) := of_event rfl
theorem wideData3Read (m : Nat) : Statement (.wideData3Read m) := of_event rfl
theorem snapCmdWrite (go : Bool) : Statement (.snapCmdWrite go) := of_event rfl
theorem sysHbWrite (m : Nat) (count : Nat) : Statement (.sysHbWrite m count) := of_event rfl
theorem sysIntEnWrite (m : Nat) (en : Nat) : Statement (.sysIntEnWrite m en) := of_event rfl
theorem sysIntPendClear (mask : Nat) : Statement (.sysIntPendClear mask) := of_event rfl
theorem fcolPendClear (h : Nat) (k : Nat) (mask : Word) : Statement (.fcolPendClear h k mask) := of_event rfl
theorem fcolAlertClear (h : Nat) : Statement (.fcolAlertClear h) := of_event rfl
theorem fcolLostClear (h : Nat) : Statement (.fcolLostClear h) := of_event rfl
theorem fcolFfClr (m : Nat) (h : Nat) : Statement (.fcolFfClr m h) := of_event rfl
theorem fcolCntClr (h : Nat) : Statement (.fcolCntClr h) := of_event rfl
theorem grtTxsatClr (h : Nat) : Statement (.grtTxsatClr h) := of_event rfl
theorem secSatClr (h : Nat) (i : Nat) : Statement (.secSatClr h i) := of_event rfl
theorem bdcCntClr (h : Nat) : Statement (.bdcCntClr h) := of_event rfl
theorem dmpCntClr (h : Nat) : Statement (.dmpCntClr h) := of_event rfl
theorem spaCntClr (h : Nat) : Statement (.spaCntClr h) := of_event rfl
theorem blwCntClr (h : Nat) : Statement (.blwCntClr h) := of_event rfl
theorem rfcCntClr (h : Nat) : Statement (.rfcCntClr h) := of_event rfl
theorem lcalCntClr (h : Nat) : Statement (.lcalCntClr h) := of_event rfl
theorem airCntClr (h : Nat) : Statement (.airCntClr h) := of_event rfl
theorem fluCntClr (h : Nat) : Statement (.fluCntClr h) := of_event rfl
theorem xmcCntClr (h : Nat) : Statement (.xmcCntClr h) := of_event rfl
theorem xmcMarkClr (m : Nat) (h : Nat) : Statement (.xmcMarkClr m h) := of_event rfl
theorem emberNow (m : Nat) : Statement (.emberNow m) := of_event rfl
theorem thmCntClr (h : Nat) : Statement (.thmCntClr h) := of_event rfl
theorem registerWrite (m : Nat) (address : Nat) (value : Word) : Statement (.registerWrite m address value) := of_event rfl
theorem tddPatternEdge (h : Nat) (n : Nat) (clk : Nat) : Statement (.tddPatternEdge h n clk) := of_event rfl
theorem ppsOutEdge (rise : Bool) : Statement (.ppsOutEdge rise) := of_event rfl
theorem stepSequenceEnd (h : Nat) (n : Nat) : Statement (.stepSequenceEnd h n) := of_event rfl
theorem railFaultEnd (h : Nat) (source : Nat) (error : Option Nat) : Statement (.railFaultEnd h source error) := of_event rfl
theorem resetNLow : Statement (.resetNLow) := of_event rfl
theorem powerLoss : Statement (.powerLoss) := of_event rfl
theorem warmReset : Statement (.warmReset) := of_event rfl
theorem frameSourceInvalid : Statement (.frameSourceInvalid) := of_event rfl
theorem holdoverExpiry : Statement (.holdoverExpiry) := of_event rfl
theorem ppsWindowClose : Statement (.ppsWindowClose) := of_event rfl
theorem scriptRecord : Statement (.scriptRecord) := of_event rfl
theorem scriptWaitTimeout : Statement (.scriptWaitTimeout) := of_event rfl
theorem scriptRetry : Statement (.scriptRetry) := of_event rfl
theorem unlockVerifyDone : Statement (.unlockVerifyDone) := of_event rfl
theorem challengeExpiry : Statement (.challengeExpiry) := of_event rfl
theorem unlockLockoutEnd : Statement (.unlockLockoutEnd) := of_event rfl
theorem flrPf0 : Statement (.flrPf0) := of_event rfl
theorem flrPf1 : Statement (.flrPf1) := of_event rfl
theorem planRoundEnd : Statement (.planRoundEnd) := of_event rfl
theorem leaderTakeover : Statement (.leaderTakeover) := of_event rfl
theorem digestTimeout : Statement (.digestTimeout) := of_event rfl
theorem ptpTimeout : Statement (.ptpTimeout) := of_event rfl
theorem ptpHoldoverExpiry : Statement (.ptpHoldoverExpiry) := of_event rfl
theorem surveyRoundStart : Statement (.surveyRoundStart) := of_event rfl
theorem faultPinPulseEnd : Statement (.faultPinPulseEnd) := of_event rfl
theorem powerFailWarning : Statement (.powerFailWarning) := of_event rfl
theorem resumeOkSet : Statement (.resumeOkSet) := of_event rfl
theorem attestSignDone : Statement (.attestSignDone) := of_event rfl
theorem snapCopy : Statement (.snapCopy) := of_event rfl
theorem heartbeatDecrement : Statement (.heartbeatDecrement) := of_event rfl
theorem queue0Enable : Statement (.queue0Enable) := of_event rfl
theorem queue0Disable : Statement (.queue0Disable) := of_event rfl
theorem cpxCntClr : Statement (.cpxCntClr) := of_event rfl
theorem hifCntClr : Statement (.hifCntClr) := of_event rfl
theorem alogCntClr : Statement (.alogCntClr) := of_event rfl
theorem perstNRise : Statement (.perstNRise) := of_event rfl

end Sys2Proof.Laws.Fields
end

