-- ==== Sys2Proof/Machine/Pinout.lean ====
section
/-! DEFINITION. Machine/Pinout.lean: the signals and the ball map of the package (spec/22 R619, R620, R623 to R627) and the junction temperature
that a lid temperature and the powers give (spec/22 R645). No command reads or changes them. -/

namespace Sys2Proof.Machine

/-- Rows and columns of the ball array (spec/22 R623). -/
def arraySize : Part → Nat
  | .brd110 => 37
  | .brd220 => 51
  | .brd440 => 61
  | .brd880 => 76

/-- The 19 row letters (spec/22 R623). -/
def rowLetters : List String :=
  ["A", "B", "C", "D", "E", "F", "G", "H", "J", "K", "L", "M", "N", "P", "T", "U", "V", "W", "Y"]

/-- Name of row `r`, counted from 1 (spec/22 R623). -/
def rowName (r : Nat) : String :=
  (["", "A", "B", "C"].getD ((r - 1) / 19) "") ++ rowLetters.getD ((r - 1) % 19) ""

/-- Name of the ball at row `r` and column `c` (spec/22 R623). -/
def ballName (r c : Nat) : String := rowName r ++ toString c

/-- Row and column of the origins of the hearth tiles, hearth 0 first (spec/22 R624). -/
def hearthOrigins : Part → List (Nat × Nat)
  | .brd110 => [(1, 1)]
  | .brd220 => [(1, 1), (1, 20)]
  | .brd440 => [(1, 1), (1, 20), (1, 39), (20, 1)]
  | .brd880 => [(1, 1), (1, 20), (1, 39), (1, 58), (58, 1), (58, 20), (58, 39), (58, 58)]

/-- Row and column of the origin of the global tile (spec/22 R624). -/
def globalOrigin : Part → Nat × Nat
  | .brd110 => (1, 20)
  | .brd220 => (20, 1)
  | .brd440 => (20, 20)
  | .brd880 => (20, 20)

/-- What a ball connects to (spec/22 R620, R621, R625 to R627). -/
inductive Ball where
  | signal (name : String)
  | vss
  | rail (name : String)
  | nc
  deriving DecidableEq, Repr

/-- The ball of a list that stands at offset `k`; VSS where it lists none (spec/22 R625, R626). -/
def ballAt (names : List String) (k : Nat) : Ball :=
  match names[k]? with
  | some n => if n = "" then .vss else .signal n
  | none => .vss

/-- The two balls of a differential signal (spec/22 R625). -/
def diffPair (n : String) : List String := [n ++ "_P", n ++ "_N"]

/-- Names of differential signals laid at every third column from 0 (spec/22 R625: columns 1 and 2, 4 and 5, and so on). -/
def diffRow (ns : List String) : List String := ns.flatMap fun n => "" :: diffPair n

/-- The 7 signals of SPI bus `b` (spec/22 R625). -/
def spiRow (b : Nat) : List String :=
  ["SCLK", "MOSI", "MISO", "CS0_N", "CS1_N", "CS2_N", "CS3_N"].map fun n => "SPI" ++ toString b ++ "_" ++ n

/-- Prefix of the signals of a DDR5 subchannel (spec/22 R620). -/
def ddrName (u : Nat) (n : String) : String := (if u = 0 then "DDRA_" else "DDRB_") ++ n

/-- A numbered signal (spec/22 R625). -/
def indexed (n : String) (k : Nat) : String := n ++ "[" ++ toString k ++ "]"

/-- Address and control balls of a subchannel at rows 10 to 18, given by their offset from row 10: left column, then right
(spec/22 R625). -/
def ddrControl (u right k : Nat) : String :=
  if right = 0 then ddrName u (indexed "CA" k)
  else if k < 5 then ddrName u (indexed "CA" (9 + k))
  else ddrName u (["CS0_N", "CS1_N", "CK_T", "CK_C"].getD (k - 5) "")

/-- Data balls of the devices at rows 10 to 17 and columns 0 to 14: a block of 2 rows and 3 columns for each device
(spec/22 R625). -/
def ddrData (dr dc : Nat) : String :=
  let k := dr - 10
  let u := k / 4
  let i := 5 * ((k / 2) % 2) + dc / 3
  let low := 2 * (k % 2)
  match dc % 3 with
  | 0 => ddrName u (indexed "DQ" (4 * i + low))
  | 1 => ddrName u (indexed "DQ" (4 * i + low + 1))
  | _ => ddrName u (indexed (if low = 0 then "DQS_T" else "DQS_C") i)

/-- The ball at an offset of a hearth tile, without the hearth's prefix (spec/22 R625). -/
def hearthTile (dr dc : Nat) : Ball :=
  match dr with
  | 1 => ballAt (diffRow ["DRX0", "DRX1", "SRX0", "SRX1", "ORX0", "ORX1"]) dc
  | 3 => ballAt (diffRow ["STX0", "STX1", "DTX0", "DTX1"]) dc
  | 5 => ballAt (diffRow ["FL0_TX", "FL0_RX", "FL1_TX", "FL1_RX"]) dc
  | 7 =>
    if dc < 8 then .signal ("RFFE" ++ toString (dc / 2) ++ (if dc % 2 = 0 then "_SCLK" else "_SDATA"))
    else if dc = 8 then .vss else ballAt (spiRow 0) (dc - 9)
  | 8 => if dc < 16 then .signal (indexed "GPIO" dc) else .vss
  | 9 => if dc < 9 then .vss else ballAt (spiRow 1) (dc - 9)
  | _ =>
    if dr < 10 then .vss
    else if 15 ≤ dc then .signal (ddrControl ((dc - 15) / 2) ((dc - 15) % 2) (dr - 10))
    else if dr < 18 then .signal (ddrData dr dc)
    else ballAt ["DDR_RESET_N", "DDR_ALERT_N"] dc

/-- A PCIe lane ball: lanes 0 to 7 in the first of two rows, 8 to 15 in the second (spec/22 R626). -/
def pcieBall (n : String) (upper dc : Nat) : Ball :=
  .signal (indexed n (8 * upper + dc / 2) ++ (if dc % 2 = 0 then "_P" else "_N"))

/-- The ball at an offset of the global tile; the set-point balls connect to nothing but on BRD-880 (spec/22 R621, R626). -/
def globalTile (part : Part) (dr dc : Nat) : Ball :=
  match dr with
  | 1 => pcieBall "PCIE_TX" 0 dc
  | 3 => pcieBall "PCIE_TX" 1 dc
  | 5 => pcieBall "PCIE_RX" 0 dc
  | 7 => pcieBall "PCIE_RX" 1 dc
  | 9 => ballAt ["PCIE_REFCLK_P", "PCIE_REFCLK_N", "", "PERST_N", "WAKE_N", "", "REFCLK_P", "REFCLK_N", "",
      "FLUE_REFCLK_P", "FLUE_REFCLK_N"] dc
  | 11 => ballAt ["SYNC_N", "PPS_IN", "PPS_OUT", "RESET_N", "PWR_GOOD", "FAULT_N", "ALERT_N", "BOOT_SRC[0]", "BOOT_SRC[1]",
      "REFSEL"] dc
  | 13 =>
    if dc = 14 ∨ dc = 15 then .rail "VDD_OTP"
    else if (dc = 11 ∨ dc = 12) ∧ part ≠ .brd880 then .nc
    else ballAt ["QSPI0_SCLK", "QSPI0_CS_N", "QSPI0_IO[0]", "QSPI0_IO[1]", "QSPI0_IO[2]", "QSPI0_IO[3]", "", "PM_SCL", "PM_SDA",
      "", "", "SETPT_A", "SETPT_P"] dc
  | _ => .vss

/-- A ball outside every tile (spec/22 R627). -/
def supplyBall (r c : Nat) : Ball :=
  if (r + c) % 2 = 0 then .vss
  else .rail (["VDD_CORE", "VDD_CORE", "VDD_CORE", "VDD_CORE", "VDD_CORE", "VDD_SERDES", "VDDA_CONV", "VDDQ_DDR", "VDDH_SERDES",
    "VDDA_RF", "VDDA_LO", "VDD_IO"].getD (c % 12) "")

/-- Offset of a ball in a tile of `rows` by `cols` balls, where it lies in it (spec/22 R624). -/
def tileOffset (origin : Nat × Nat) (rows cols r c : Nat) : Option (Nat × Nat) :=
  if origin.1 ≤ r ∧ r < origin.1 + rows ∧ origin.2 ≤ c ∧ c < origin.2 + cols then some (r - origin.1, c - origin.2) else none

/-- The hearth prefix of a signal (spec/22 R619). -/
def hearthBall (h : Nat) : Ball → Ball
  | .signal n => .signal ("H" ++ toString h ++ "_" ++ n)
  | b => b

/-- What the ball at row `r` and column `c`, both counted from 1, connects to; none outside the array (spec/22 R619, R623 to
R627). -/
def ballOf (part : Part) (r c : Nat) : Option Ball :=
  if 1 ≤ r ∧ r ≤ arraySize part ∧ 1 ≤ c ∧ c ≤ arraySize part then
    match ((hearthOrigins part).zipIdx.findSome? fun (o, h) => (tileOffset o 19 19 r c).map fun d => hearthBall h (hearthTile d.1 d.2)),
      tileOffset (globalOrigin part) 14 16 r c with
    | some b, _ => some b
    | none, some d => some (globalTile part d.1 d.2)
    | none, none => some (supplyBall r c)
  else none

/-- Direction of a signal (spec/22 R620). -/
inductive PinDir where
  | input
  | output
  | both
  deriving DecidableEq, Repr

/-- State of a pin while PWR_GOOD or RESET_N is low (spec/22 R619, R620). -/
inductive PinRest where
  | terminated
  | driverOff
  | electricalIdle
  | stopped
  | input
  | low
  | high
  | highImpedance
  deriving DecidableEq, Repr

/-- Signals of one row of the table of R620. -/
structure PinRow where
  /-- 22 R619: each hearth has the signals, under its prefix. -/
  perHearth : Bool
  /-- 22 R620: names without prefix, polarity and index. -/
  names : List String
  /-- 22 R620. -/
  dir : PinDir
  /-- 22 R620. -/
  rest : PinRest
  deriving DecidableEq, Repr

/-- Signals of every hearth (spec/22 R620). -/
def hearthSignals : List PinRow :=
  [⟨true, ["DRX", "SRX", "ORX"], .input, .terminated⟩, ⟨true, ["STX", "DTX"], .output, .driverOff⟩,
   ⟨true, ["FL_TX"], .output, .electricalIdle⟩, ⟨true, ["FL_RX"], .input, .terminated⟩,
   ⟨true, ["DDRA", "DDRB"], .both, .stopped⟩, ⟨true, ["DDR_RESET_N"], .output, .low⟩, ⟨true, ["DDR_ALERT_N"], .input, .input⟩,
   ⟨true, ["RFFE_SCLK"], .output, .low⟩, ⟨true, ["RFFE_SDATA"], .both, .low⟩, ⟨true, ["SPI_SCLK", "SPI_MOSI"], .output, .low⟩,
   ⟨true, ["SPI_MISO"], .input, .input⟩, ⟨true, ["SPI_CS_N"], .output, .high⟩, ⟨true, ["GPIO"], .both, .input⟩]

/-- Signals of the package; SETPT_A and SETPT_P are those of BRD-880 (spec/22 R620). -/
def packageSignals : List PinRow :=
  [⟨false, ["PCIE_TX"], .output, .electricalIdle⟩, ⟨false, ["PCIE_RX"], .input, .terminated⟩,
   ⟨false, ["PCIE_REFCLK", "PERST_N", "REFCLK", "FLUE_REFCLK", "SYNC_N", "PPS_IN"], .input, .input⟩,
   ⟨false, ["WAKE_N", "FAULT_N", "ALERT_N"], .output, .highImpedance⟩, ⟨false, ["PPS_OUT"], .output, .low⟩,
   ⟨false, ["RESET_N", "PWR_GOOD", "BOOT_SRC", "REFSEL", "SETPT_A", "SETPT_P"], .input, .input⟩,
   ⟨false, ["QSPI0_SCLK"], .output, .low⟩, ⟨false, ["QSPI0_CS_N"], .output, .high⟩,
   ⟨false, ["QSPI0_IO", "PM_SCL", "PM_SDA"], .both, .highImpedance⟩]

/-- State of a signal in reset (spec/22 R619, R620). -/
def pinRest (n : String) : Option PinRest := ((hearthSignals ++ packageSignals).find? fun r => r.names.contains n).map (·.rest)

/-- THETA_H and THETA_X in hundredths of a degree per watt (spec/22 R645). -/
def thermalResistance : Part → Int × Int
  | .brd110 => (20, 0)
  | .brd220 => (26, 3)
  | .brd440 => (30, 3)
  | .brd880 => (34, 2)

/-- Junction temperature of a hearth in thousandths of a degree, from the lid temperature in thousandths of a degree and the
hearth's and the package's power in tenths of a watt; BRD-110 has no other hearth, so that its THETA_X plays no part
(spec/22 R645). -/
def junctionTemp (part : Part) (lid ownPower packagePower : Int) : Int :=
  let (own, other) := thermalResistance part
  lid + own * ownPower + other * (packagePower - ownPower)

end Sys2Proof.Machine
end

