-- ==== Sys2Proof/Tests/Slice0.lean ====
section
/-! SUPPORT. Tests/Slice0.lean: small states that meet the hypotheses of the statements, and worked examples of the spec. -/

-- one theorem after the other, so that no test waits for the rest on a thread of its own
set_option Elab.async false

namespace Sys2Proof.Machine

/-- Queue 0 active, with slots submitted and a deep completion ring. -/
def busyQueue : Queue := { state := 1, sqM1 := 65535, cqM1 := 65535, sqTail := 60000, sqSeen := 60000 }

/-- A package in EMBER whose host has queue 0. -/
def ready : State := { State.reset with
  pkg := .ember, pkgShown := .ember, cpx := { State.reset.cpx with queues := busyQueue :: List.replicate 63 {} }, sec := { State.reset.sec with stage := 7 } }

/-- A packet of queue 0 for section 0 of hearth 0. -/
def pkt (ws : List Word) : Packet := { payload := ws }

/-- Queue 0's packet is captured, passes the checks before its opcode's own, and leaves a state with a property. -/
def meets (ci : CmdInfo) (p : Packet) (s : State) (c : State → Bool) : Bool :=
  captures ci p s && (firstFailure ci true p (afterCapture ci p s)).isNone && c (afterCapture ci p s)

/-- Fewer than 256 commands are held. -/
def roomHeld (t : State) : Bool := decide (t.cpx.held.length < 256)

/-- Section 0 of hearth 0 transmits. -/
def singing : State := modSec 0 0 (fun x => { x with state := .live, defn := some {} }) { ready with pkg := .alight, pkgShown := .alight }

/-- WIDE_MODE is SNAPSHOT. -/
def inMode (s : State) : State := modBoot (fun x => { x with wideMode := true }) s

/-- Captured, accepted under a length rule, and with a property in the state that handles it. -/
def meetsIf (ci : CmdInfo) (l : Bool) (p : Packet) (s : State) (c : State → Bool) : Bool :=
  captures ci p s && (firstFailure ci l p (afterCapture ci p s)).isNone && c (afterCapture ci p s)

/-! ### Small states -/

/-- A packet for section 0 of hearth 0 from the group leader. -/
def fromLeader (ws : List Word) : Packet := { payload := ws, src := 0x41, seq := 1 }

/-- Hearth 0, its section 0, and the timebase, changed in the ready state. -/
def inHearth (f : Hearth → Hearth) : State := modHearth 0 f ready
def inSec (f : Section → Section) : State := modSec 0 0 f ready
def inTime (f : Tbu → Tbu) (s : State) : State := modTbu f s

/-- A definition on branch 0 of hearth 0, frequency division and time division. -/
def aDef : SecDef := defOf [42, 184250000, 174750000, 2000000, 0, 180000000, 170000000, 65536]
def tddDef : SecDef := { aDef with tdd := true }

/-- Section 0 in a state, with that definition. -/
def atState (st : SecState) : State := inSec fun x => { x with state := st, defn := some aDef }

/-- Firebrick rows that enclose the bands of the definition. -/
def aRow (lo hi w : Nat) : FbRow :=
  let ws : List Word := [BitVec.ofNat 32 lo, BitVec.ofNat 32 hi, BitVec.ofNat 32 w, 503324160, 0]
  { words := ws ++ [crc32Words ws], written := true }
def withRows (s : State) : State := distributeRows
  { s with limits := { s.limits with
    rows := [aRow 180000000 190000000 134240768, aRow 170000000 180000000 134306304] ++ List.replicate 62 ({} : FbRow) } }

/-- Both chains of section 0 have their oscillators locked, or settling. -/
def synsIn (k : Nat) (s : State) : State := modHearth 0 (fun x => { x with rfc := { x.rfc with synOf := [some 0, none, some 1, none] }, syns := x.syns.map fun y => { y with state := k } }) s
def tabled (s : State) : State :=
  modHearth 0 (fun x => { x with ports := x.ports.map fun y => { y with tableValid := true } }) (withRows s)
def locked (s : State) : State := tabled (synsIn 3 s)
def settling (s : State) : State := tabled (synsIn 2 s)

/-- A member of a group. -/
def member (s : State) : State := modCpx (fun c => { c with leaderAny := true }) (modFlu (fun x => { x with acting := 1, ports := x.ports.set 0 { group := true } }) s)

/-- Boot at a stage. -/
def booting (k : Nat) : State := { State.reset with sec := { State.reset.sec with stage := k } }

/-- A state with that queue. -/
def waiting (c : Instr) (s : State) : State := { s with pending := [c] }

theorem witness_shapeAndTablesKept :
    let s := waiting (.sectionStop (pkt [])) ready
    ((decide (s.hearths.length = 8) && s.hearths.all fun x => x.sections.length == 8 && x.patterns.length == 8 && x.paths.length == 64
      && x.loops.length == 64 && x.syns.length == 4 && x.ports.length == 4) && s.limits.rows.length == 64) = true ∧ Canon s
      ∧ (match step s with | .next _ => true | _ => false) = true := by
  refine ⟨by decide +kernel, by unfold Canon; decide +kernel, by rfl⟩

/-- A revoke of row 3, a key and the rollback counter are being programmed when power is lost. -/
def fusing : State := waiting .powerLoss { ready with
  sec := { ready.sec with rollbackProg := some 5, rollback := 2, keyProg := some (1, 7) }, limits := { ready.limits with prog := some { row := 3 } } }

theorem witness_fusesOnlyGain : FuseOk fusing ∧ (match step fusing with | .next _ => true | _ => false) = true := by
  refine ⟨⟨?_, ?_, ?_, ?_⟩, by rfl⟩
  · intro v h; cases h; decide
  · intro k h; exact absurd h (by simp [fusing, waiting])
  · intro k h; rfl
  · intro g h _; cases h; exact ⟨rfl, rfl⟩

/-- The package is in DOUSED, with queue 0 active. -/
def doused : State := { ready with pkg := .doused }

theorem witness_dousedHolds :
    (doused.pkg = .doused ∧ doused.sec.resetLow = false ∧ (match step (waiting .resetNLow doused) with | .next _ => true | _ => false) = true)
    ∧ (match step (waiting .warmReset doused) with | .next _ => true | _ => false) = true
    ∧ (match step (waiting .powerLoss doused) with | .next _ => true | _ => false) = true
    ∧ captures infoSysReset (pkt [1]) doused = true
    ∧ (match step (waiting (.sysReset (pkt [1])) doused) with | .next _ => true | _ => false) = true := by
  refine ⟨⟨rfl, rfl, by rfl⟩, by rfl, by rfl, by decide +kernel, by rfl⟩

theorem witness_packageFollowsSections :
    let a := waiting (.sectionStop (pkt [])) singing
    let b := waiting (.kindlingComplete 3) { State.reset with sec := { State.reset.sec with stage := 6 } }
    (a.pkg = .alight ∧ transmitting a ≠ 0 ∧ (match step a with | .next _ => true | _ => false) = true)
    ∧ (b.pkg = .kindling ∧ transmitting b = 0 ∧ (match step b with | .next _ => true | _ => false) = true) := by
  refine ⟨⟨rfl, by decide +kernel, by rfl⟩, rfl, by decide +kernel, by rfl⟩

theorem witness_queueIdentityAndRepliesKept :
    (match step (waiting .warmReset { ready with warmDue := true, ident := { ready.ident with part := .brd110 } }) with | .next t => t.pending == [] && t.pkg == .kindling | _ => false) = true := by
  decide +kernel

/-- Every clause of `PackageCommandsComplete` has a state and a packet that meet its hypotheses. -/
theorem witness_packageCommands :
    (meets infoIdentify (pkt []) ready fun _ => true) ∧ (meets infoNop (pkt []) ready fun _ => true)
    ∧ (meets infoPackageStatus (pkt []) ready fun _ => true)
    ∧ (meets infoWideRead (pkt [0xF010]) ready fun t => zeroAt 0xF010 16 16 && (wideValue t 0xF010 t.tbu.tickLen).isSome)
    ∧ (meets infoCounterSnapshot (pkt []) (inMode ready) fun t => t.sec.wideMode)
    ∧ (meets infoPackageHold (pkt [1]) singing fun _ => true)
    ∧ (meets infoPackageHold (pkt [3]) ready fun t => transmitting (setHolds (fun x => { x with host := true }) t) == 0)
    ∧ (meets infoPackageHold (pkt [3]) singing fun t => transmitting (setHolds (fun x => { x with host := true }) t) != 0 && roomHeld t)
    ∧ (meets infoPackageHold (pkt [0]) ready fun _ => true)
    ∧ (meets infoSysReset (pkt [0xA55A0000]) ready fun _ => true)
    ∧ (meets infoSysReset (pkt [0xA55A0001]) singing fun t => !t.holds.reset && roomHeld t) := by
  decide +kernel

/-- A host-unlock key is provisioned, and PF0 is not unlocked. -/
def keyed : State := modBoot (fun x => { x with hostKey := some 5 }) ready

/-- The script runs. -/
def scripted (busy : Bool) : State := modCpx (fun c => { c with script := { c.script with state := 1, busy := busy } }) ready

/-- Every clause of `PrivilegeAndScriptCommandsComplete` has a state and a packet that meet its hypotheses. -/
theorem witness_privilegeCommands :
    (meets infoHostUnlock (pkt [1]) ready fun _ => true)
    ∧ (meets infoHostUnlock (pkt [0]) ready fun t => (hostKeyNow t).isNone)
    ∧ (meets infoHostUnlock (pkt (List.replicate 25 0)) (modCpx (fun c => { c with challenge := some (7, 9) }) keyed) fun t =>
        hostKeyNow t == some 5 && !pf0Priv t && t.cpx.challenge == some (7, 9) && decide (t.tbu.tick < 9) && t.cpx.verifying.isNone && roomHeld t)
    ∧ (meets infoUnlockChallenge (pkt []) keyed fun t => hostKeyNow t == some 5 && !lockedOut t)
    ∧ (meets infoScriptControl (pkt [0]) ready fun _ => true)
    ∧ (meets infoScriptControl (pkt [1]) ready fun t => t.cpx.script.state != 1)
    ∧ (meets infoScriptControl (pkt [1]) (scripted true) fun t => t.cpx.script.state == 1 && t.cpx.script.busy && roomHeld t)
    ∧ (meets infoScriptControl (pkt [1]) (scripted false) fun t => t.cpx.script.state == 1 && !t.cpx.script.busy)
    ∧ (meets infoScriptControl (pkt [2]) (modBoot (fun x => { x with record := some (List.replicate 32 1) }) ready) fun t =>
        t.cpx.script.state != 1 && decide (0 < scriptCount t)) := by
  decide +kernel

/-- Every clause of `HostUnlockAnswers` has a state and a packet that meet its hypotheses, with each outcome of the third. -/
theorem witness_hostUnlockAnswers :
    (meets infoHostUnlock (pkt [1]) ready fun _ => true)
    ∧ (meets infoHostUnlock (pkt [0]) ready fun t => (hostKeyNow t).isNone)
    ∧ (meets infoHostUnlock (pkt (List.replicate 25 0)) (modCpx (fun c => { c with unlocked := true }) keyed) fun t => (hostKeyNow t).isSome && pf0Priv t)
    ∧ (meets infoHostUnlock (pkt (List.replicate 25 0)) keyed fun t => (hostKeyNow t).isSome && !pf0Priv t && roomHeld t && t.cpx.challenge.isNone)
    ∧ (meets infoHostUnlock (pkt (List.replicate 25 0)) (modCpx (fun c => { c with challenge := some (7, 9), verifying := some (1, []) }) keyed)
        fun t => (hostKeyNow t).isSome && roomHeld t && t.cpx.verifying.isSome)
    ∧ (meets infoHostUnlock (pkt (List.replicate 25 0)) (modCpx (fun c => { c with challenge := some (7, 9) }) keyed)
        fun t => (hostKeyNow t).isSome && roomHeld t && t.cpx.verifying.isNone)
    ∧ (meets infoUnlockChallenge (pkt []) (modCpx (fun c => { c with unlocked := true }) ready) fun t => (hostKeyNow t).isNone)
    ∧ (meets infoUnlockChallenge (pkt []) (modCpx (fun c => { c with lockoutEnd := some 5 }) keyed) fun t => lockedOut t)
    ∧ (meets infoUnlockChallenge (pkt []) keyed fun t => (hostKeyNow t).isSome && !lockedOut t) := by
  decide +kernel

/-- A Kindling record with a script of at least one record. -/
def recordHeld : State := modBoot (fun x => { x with record := some (List.replicate 32 1) }) ready

/-- Every clause of `ScriptControlAnswers` has a state and a packet that meet its hypotheses, with each outcome of RUN. -/
theorem witness_scriptControlAnswers :
    (meets infoScriptControl (pkt [3]) ready fun _ => true)
    ∧ (meets infoScriptControl (pkt [0]) ready fun _ => true)
    ∧ (meets infoScriptControl (pkt [1]) (scripted false) fun t => t.cpx.script.state == 1 && !t.cpx.script.busy)
    ∧ (meets infoScriptControl (pkt [1]) (scripted true) fun t => t.cpx.script.state == 1 && t.cpx.script.busy && roomHeld t)
    ∧ (meets infoScriptControl (pkt [2]) (scripted false) fun t => t.cpx.script.state == 1)
    ∧ (meets infoScriptControl (pkt [2]) ready fun t => t.cpx.script.state != 1 && scriptCount t == 0)
    ∧ (meets infoScriptControl (pkt [0xFFFF0002]) recordHeld fun t => t.cpx.script.state != 1 && decide (scriptCount t ≤ 0xFFFF) && scriptCount t != 0)
    ∧ (meets infoScriptControl (pkt [2]) recordHeld fun t => t.cpx.script.state != 1 && decide (0 < scriptCount t)) := by
  decide +kernel

/-- Queue 1 is ACTIVE and waits for further slots of a packet. -/
def secondQueue : State := modQueue 1 (fun _ => { busyQueue with sqTail := 1, sqSeen := 1, extWait := some 0 })
  (modTbu (fun x => { x with clock := 983040 }) ready)

/-- Every clause of `QueueCommandsComplete` has a state and operands that meet its hypotheses. -/
theorem witness_queueCommands :
    ((queueAt ready 0).state = 1 ∧ sqUsed (queueAt ready 0) ≠ 0 ∧ queuesSleep ready = false)
    ∧ (captures infoPad { pkt [] with src := 0x42 } ready = true ∧ (afterCapture infoPad { pkt [] with src := 0x42 } ready).pkg ≠ .doused)
    ∧ (infoOf 0xFF00 = none ∧ captures (unlisted 0xFF00) { pkt [] with code := some 0xFF00 } ready = true
        ∧ (afterCapture (unlisted 0xFF00) { pkt [] with code := some 0xFF00 } ready).pkg ≠ .doused)
    ∧ (meets infoQueueCreate (pkt [5, 0x1000, 0, 0x9000, 0, 0x000F000F]) ready fun t =>
        queueCreateOk [5, 0x1000, 0, 0x9000, 0, 0x000F000F] && (queueAt t 5).state == 0)
    ∧ (meets infoQueueDelete (pkt [1]) secondQueue fun t => (queueAt t 1).state != 0 && roomHeld t)
    ∧ ((queueAt ready 0).state == 1 && decide (65535 ≤ (queueAt ready 0).sqM1))
    ∧ ((queueAt secondQueue 1).extWait = some 0 ∧ (queueAt secondQueue 1).state = 1)
    ∧ ((queueAt ready 0).state == 1 && decide ((0 + ((queueAt ready 0).cqM1 + 1) - (queueAt ready 0).cqHead) % ((queueAt ready 0).cqM1 + 1)
        ≤ cqUsed (queueAt ready 0)))
    ∧ (let s := modQueue 0 (fun _ => { sqM1 := 1, cqM1 := 1 }) ready
       (queueAt s 0).state = 0 ∧ (queueAt s 0).sqM1 ≠ 0 ∧ (queueAt s 0).cqM1 ≠ 0)
    ∧ (queueAt ready 0).state ≠ 0
    ∧ ((queueAt secondQueue 1).state = 1 ∧ (queueAt secondQueue 1).extWait = some 0 ∧ 983040 < secondQueue.tbu.clock + secondQueue.tbu.tickLen ∧ queuesSleep secondQueue = false ∧ secondQueue.pkg ≠ .doused
        ∧ cqUsed (queueAt secondQueue 1) + (queueAt secondQueue 1).reserved + 1 ≤ (queueAt secondQueue 1).cqM1)
    ∧ ready.pkg ≠ .doused := by
  decide +kernel

theorem witness_strangerClearEndsEveryMask :
    meets infoDmpStrangerClear (pkt []) (inSec fun x => { x with state := .live, defn := some aDef }) fun t =>
      groupRule (pkt []) t && (secAt t 0 0).state != .cold := by
  decide +kernel

theorem witness_historyClearKeepsLatchAndRetry :
    meets infoSpaHistoryClear (pkt []) (inSec fun x => { x with state := .quenched, defn := some aDef, spa := { x.spa with latched := true } }) fun t =>
      groupRule (pkt []) t && (secAt t 0 0).state != .cold && (secAt t 0 0).spa.latched := by
  decide +kernel

/-- Loop slot 0 of hearth 0 is CLOSED. -/
def closedSlot : State := inHearth fun x => { x with loops := x.loops.modify 0 fun l => { l with state := 1 } }

theorem witness_loopConfigurationOnlyWhileOpen :
    (meets infoLoopConfig (pkt (List.replicate 17 0)) closedSlot fun t => loopGroup (pkt (List.replicate 17 0)) t && (loopIn (pkt (List.replicate 17 0)) t).state != 0)
    ∧ (meetsIf infoLoopTable (lengthRule closedSlot (.loopTable (pkt [0x200, 0, 1]))) (pkt [0x200, 0, 1]) closedSlot fun t =>
        loopGroup (pkt [0x200, 0, 1]) t && (loopIn (pkt [0x200, 0, 1]) t).state != 0)
    ∧ (meets infoLoopMode (pkt [0x200, 0]) closedSlot fun t => loopGroup (pkt [0x200, 0]) t && loopModeOk t.ident.part [0x200, 0] (loopIn (pkt [0x200, 0]) t))
    ∧ (meets infoLoopSetpoint (pkt [0x50000]) closedSlot fun t => loopGroup (pkt [0x50000]) t && zeroAt (0x50000 : Word) 6 10) := by
  decide +kernel

theorem witness_timeSetApplies :
    (meets infoTimeSet (pkt [7, 9, 2]) (modCpx (fun c => { c with unlocked := true }) ready) fun _ => !zeroAt (2 : Word) 1 31)
    ∧ (meets infoTimeSet (pkt [7, 9, 1]) ready fun t => zeroAt (1 : Word) 1 31 && t.tbu.timeStatus != 3 && t.tbu.timeStatus != 4 && bitOf (1 : Word) 0)
    ∧ (meets infoTimeSet (pkt [7, 9, 0]) ready fun t => zeroAt (0 : Word) 1 31 && t.tbu.timeStatus != 3 && t.tbu.timeStatus != 4 && !bitOf (0 : Word) 0)
    ∧ (let s := inTime (fun x => { x with timeSetNext := some 7 }) ready; s.tbu.timeSetNext = some 7)
    ∧ (let s := inTime (fun x => { x with timeSetPps := some 7 }) ready; s.tbu.timeSetPps = some 7 ∧ inTick s 1000 = true) := by
  decide +kernel

theorem witness_markEventCarriesItsWords :
    meets infoAlogMark (pkt [0x04030201, 5]) ready fun t => decide (0 < t.hearths.length) && decide ((hearthAt t 0).dfb.logQ.length < 1024) := by
  decide +kernel

theorem witness_packetChecksInOrder :
    (captures infoNop (pkt []) doused && (afterCapture infoNop (pkt []) doused).pkg == .doused)
    ∧ (captures infoQueueCreate { src := 0x42 } ready && !sourceOk infoQueueCreate 0x42 && (afterCapture infoQueueCreate { src := 0x42 } ready).pkg != .doused)
    ∧ (captures infoTimeSet (pkt [1]) ready && decide ((pkt [1]).payload.length < infoTimeSet.lenLo))
    ∧ captures infoNop { pkt [] with flags := 9 } ready
    ∧ (captures infoTimeSet (pkt [1, 2, 0]) (modBoot (fun x => { x with hostKey := some 5 }) ready)
        && !permitted infoTimeSet 0 (afterCapture infoTimeSet (pkt [1, 2, 0]) (modBoot (fun x => { x with hostKey := some 5 }) ready)))
    ∧ (captures infoTimeSet (pkt [1, 2, 0]) { ready with pkg := .kindling, pkgShown := .kindling }
        && permitted infoTimeSet 0 (afterCapture infoTimeSet (pkt [1, 2, 0]) { ready with pkg := .kindling, pkgShown := .kindling })
        && !stateOk infoTimeSet (afterCapture infoTimeSet (pkt [1, 2, 0]) { ready with pkg := .kindling, pkgShown := .kindling }))
    ∧ (captures infoSectionQuery { pkt [] with sect := 9 } ready && !targetOk infoSectionQuery { pkt [] with sect := 9 } (afterCapture infoSectionQuery { pkt [] with sect := 9 } ready)
        && stateOk infoSectionQuery (afterCapture infoSectionQuery { pkt [] with sect := 9 } ready)) := by
  decide +kernel

/-- Queue 0 has a held command. -/
def heldCount (n : Nat) (s : State) : State := modCpx (fun c => { c with held := List.replicate n {} }) s

theorem witness_packetsWaitOrAreDiscarded :
    commandOf (.nop (pkt [])) = some (infoNop, pkt [])
    ∧ (queueAt State.reset 0).state ≠ 1
    ∧ (maskHas ({ pkt [] with flags := 1 } : Packet).flags 0 = true ∧ ({} : Held) ∈ (heldCount 1 ready).cpx.held)
    ∧ (let x := queueAt (modQueue 0 (fun q => { q with cqM1 := 4, reserved := 4 }) ready) 0
       x.sqHead + slotsOf 0 ≤ x.sqM1 + 1 ∧ slotsOf 0 ≤ sqUsed x ∧ reservation infoNop.reply ≤ x.cqM1 ∧ x.cqM1 < cqUsed x + x.reserved + reservation infoNop.reply)
    ∧ ready.cpx.script.turn.any (spelledBy · infoNop.op { src := 0x40 }) = false
    ∧ ready.flu.acting = 0
    ∧ leaderFrame { src := 0x41, port := 1 } (member ready) = false
    ∧ (let s := modCpx (fun c => { c with leaderAny := false, leaderSeq := 7 }) (member ready)
       captureRoom 0x41 s = true ∧ s.flu.acting ≠ 0 ∧ s.flu.versionMismatch = false ∧ leaderFrame { src := 0x41, seq := 7 } s = true ∧ s.cpx.leaderAny = false ∧ serialGt 7 s.cpx.leaderSeq = false) := by
  decide +kernel

theorem witness_atMost256CommandsAreHeld :
    let p := pkt (List.replicate 25 0)
    let s (n : Nat) := heldCount n (modCpx (fun c => { c with challenge := some (7, 9) }) keyed)
    ∀ n ∈ [0, 256], meetsIf infoHostUnlock (unlockLength p (s n)) p (s n) fun t => (match hostUnlock p t with | .hold _ _ _ => true | _ => false) && t.cpx.held.length == n := by
  decide +kernel

theorem witness_queriesLeaveEverythingUntouched :
    (match exec (.identify (pkt [])) ready with | .next t => t.cpx.due.length == 1 | _ => false) = true := by
  decide +kernel

theorem witness_linkAndHostLeaveSections :
    (match exec .flrPf1 singing with | .next t => t.pkg == .alight | _ => false) = true ∧ ready.cpx.held = []
    ∧ (match exec (.linkReset 2) singing with | .next t => t.pkg == .alight | _ => false) = true := by
  decide +kernel

theorem witness_unprivilegedWritesReachNoPrivilegedField :
    masterPriv (modBoot (fun x => { x with hostKey := some 5 }) ready) 0 = false ∧ masterPriv ready 3 = false
    ∧ (match exec (.registerWrite 0 0x10F0008 5) (modBoot (fun x => { x with hostKey := some 5 }) ready) with | .next t => t.tbu.ppsWidth == 100 | _ => false) = true
    ∧ (match exec (.registerWrite 3 0xFF0000 5) ready with | .next _ => true | _ => false) = true
    ∧ (match exec (.registerWrite 4 0xF000 5) ready with | .next _ => true | _ => false) = true := by
  decide +kernel

theorem witness_imageWriteStaysInItsTarget :
    let p := pkt [0x103, 0, 7, 8]
    meets infoImageWrite p ready fun t => roomHeld t && !stagesRun t && (heldFor t 0x0D0A 0).isEmpty && zeroAt (0x103 : Word) 2 6 && zeroAt (0x103 : Word) 10 22
      && (targetArea t 3).1 % 4 == 0 && bitOf (0x103 : Word) 8 && decide (8 ≤ (targetArea t 3).2) := by
  decide +kernel

/-- A hold of the host is present. -/
def held (s : State) : State := { s with holds := { s.holds with host := true } }

theorem witness_noSectionStartsUnderAHold :
    (meets infoSectionStart (pkt []) (held (atState .ready)) fun t => anyHold t && roleRule (pkt []) t && (secAt t 0 0).state == .ready && !(secAt t 0 0).startDue && (startHeld t 0 0).isEmpty)
    ∧ anyHold (held ready) = true
    ∧ (let s := held (inSec fun x => { x with state := .ready, startDue := true }); (secAt s 0 0).startDue = true ∧ anyHold s = true)
    ∧ (let s := held (modSpa 0 0 (fun x => { x with retryAt := some 0 }) (atState .quenched))
       s.hearths.length = 8 ∧ present s 0 = true ∧ anyHold s = true ∧ (secAt s 0 0).state = .quenched ∧ (secAt s 0 0).spa.latched = false
        ∧ (secAt s 0 0).spa.retryAt.any (fun t => decide (t ≤ s.tbu.tick)) = true) := by
  decide +kernel

theorem witness_resetsLeave :
    (match exec .warmReset { singing with warmDue := true, ident := { ready.ident with part := .brd110 } } with | .next t => t.pkg == .kindling && (secAt t 0 0).state == .cold | _ => false) = true
    ∧ (match exec .resetNLow singing with | .next t => t.sec.resetLow | _ => false) = true := by
  decide +kernel

theorem witness_tenantWindows :
    let s := modSec 0 5 (fun x => { x with state := .live, defn := some { aDef with tenant := 3 } }) ready
    vfSees s 3 5 = true ∧ vfSees s 3 4 = false ∧ regRead s 6 (0x300 * 5) ≠ 0 := by
  decide +kernel

/-- RESET_N held low. -/
def heldLow : State := { ready with pkg := .kindling, sec := { ready.sec with resetLow := true } }
/-- Every clause of `BootAndResetEvents` has a state and operands that meet its hypotheses. -/
theorem witness_bootAndResetEvents :
    ((fun (_ : Nat) (_ : Bool) (s : State) =>
    decide (s.sec.resetLow)) 0 false heldLow) = true
    ∧ ((fun (_ : BootIn) (s : State) =>
    decide (kindles s) && decide (s.sec.stage = 0) && decide (s.limits.prog.isSome = false)) {} (booting 0)) = true
    ∧ ((fun (_ : BootIn) (s : State) =>
    decide (kindles s) && decide (s.sec.stage = 1) && decide (s.limits.prog.isSome = false) &&
      decide (¬(!s.alog.emberRead && s.alog.emberWriting))) {} (booting 1)) = true
    ∧ ((fun (_ : BootIn) (s : State) =>
    decide (kindles s) && decide (s.sec.stage = 2)) {} (booting 2)) = true
    ∧ ((fun (_ : BootIn) (s : State) =>
    decide (kindles s) && decide (s.sec.stage = 3)) {} (booting 3)) = true
    ∧ ((fun (_ : BootIn) (s : State) =>
    decide (kindles s) && decide (s.sec.stage = 4)) {} (booting 4)) = true
    ∧ ((fun (_ : BootIn) (s : State) =>
    decide (kindles s) && decide (s.sec.stage = 5)) {} (booting 5)) = true
    ∧ ((fun (_ : Nat) (s : State) =>
    let t := bootDone { modBoot (fun x => { x with result := 1, bootMs := bootTime s }) s with pkg := .ember }
    decide (kindles s) && decide (s.sec.stage = 6) && decide (t.sec.scriptOk)) 100 (modBoot (fun x => { x with scriptOk := true }) (booting 6))) = true
    ∧ ((fun (_ : Nat) (s : State) =>
    let t := bootDone { modBoot (fun x => { x with result := 1, bootMs := bootTime s }) s with pkg := .ember }
    decide (kindles s) && decide (s.sec.stage = 6) && decide (t.sec.scriptOk = false)) 100 (booting 6)) = true
    ∧ ((fun (s : State) =>
    decide (s.pkg ≠ .doused)) ready) = true
    ∧ ((fun (_ : State) =>
    true) ready) = true
    ∧ ((fun (s : State) =>
    decide (s.warmDue) && decide (s.pkg ≠ .doused) && decide (s.pkg ≠ .kindling)) { ready with warmDue := true }) = true
    ∧ ((fun (s : State) =>
    decide (¬(s.warmDue && s.pkg != .doused && s.pkg != .kindling))) ready) = true := by
  decide +kernel

/-- Every clause of `TimebaseEvents` has a state and operands that meet its hypotheses. -/
theorem witness_timebaseEvents :
    ((fun (_ : TickIn) (s : State) =>
    decide (s.sec.powered) && decide (s.sec.resetLow = false) && decide (s.pkg = .doused)) {} { ready with pkg := .doused }) = true
    ∧ ((fun (_ : TickIn) (s : State) =>
    decide (s.sec.powered) && decide (s.sec.resetLow = false) && decide (s.pkg ≠ .doused)) {} ready) = true
    ∧ ((fun (clk : Nat) (s : State) =>
    decide (s.sec.powered) && decide (s.sec.resetLow = false) && decide (¬(clk ≠ nextFrameClock s)) &&
      decide (clk < s.tbu.clock + s.tbu.tickLen) && decide (s.pkg = .doused)) frameClocks (inTime (fun x => { x with frameStart := 0, clock := frameClocks - 1 }) { ready with pkg := .doused })) = true
    ∧ ((fun (clk : Nat) (s : State) =>
    decide (s.sec.powered) && decide (s.sec.resetLow = false) && decide (¬(clk ≠ nextFrameClock s)) &&
      decide (clk < s.tbu.clock + s.tbu.tickLen) && decide (s.pkg ≠ .doused)) frameClocks (inTime (fun x => { x with frameStart := 0, clock := frameClocks - 1 }) ready)) = true
    ∧ ((fun (clk : Int) (sfn : Option Nat) (s : State) =>
    decide (sourceAlignment s = some (clk, sfn))) 5 none (inTime (fun x => { x with source := some 2, airAlign := some (5, none) }) ready)) = true
    ∧ ((fun (_ : Int) (_ : Option Nat) (s : State) =>
    decide (s.tbu.source = some 1 ∨ s.tbu.source = some 2)) 5 none (inTime (fun x => { x with source := some 1 }) ready)) = true
    ∧ ((fun (clk : Nat) (s : State) =>
    decide (inTick s clk)) 5 ready) = true
    ∧ ((fun (clk : Nat) (s : State) =>
    decide (inTick s clk)) 5 ready) = true
    ∧ ((fun (rise : Bool) (s : State) =>
    let clk := ppsEdgeClock rise s
    decide (s.tbu.ppsOut ≠ rise) && decide (clk < s.tbu.clock + s.tbu.tickLen)) true ready) = true
    ∧ ((fun (s : State) =>
    decide (sourceLapsed s)) (inTime (fun x => { x with source := some 2, srcValid := true }) ready)) = true
    ∧ ((fun (s : State) =>
    decide (s.tbu.inHoldover) && decide (s.tbu.holdoverLeft = 0)) (inTime (fun x => { x with inHoldover := true, holdoverLeft := 0 }) ready)) = true
    ∧ ((fun (s : State) =>
    match s.tbu.ppsOpen with
    | some c =>
        decide (s.tbu.source = some 4) && decide (c + secondClocks + 983 < s.tbu.clock)
    | _ => false) (inTime (fun x => { x with source := some 4, ppsOpen := some 0, clock := secondClocks + 984 }) ready)) = true
    ∧ ((fun (handle : Nat) (clk : Nat) (s : State) =>
    match kget s.tbu.sched handle with
    | some a =>
        decide (inTick s clk) && decide (actionDue s a clk) && decide (actionFirst s handle clk)
    | _ => false) 0 0 (inTime (fun x => { x with sched := [(0, { time := 0, select := false })] }) ready)) = true := by
  decide +kernel

/-- Every clause of `TimeCommandsComplete` has a state and operands that meet its hypotheses. -/
theorem witness_timeCommandsComplete :
    ((fun (p : Packet) (s0 : State) => meetsIf infoTddPatternWrite (patternLength p.payload) p s0 fun s =>
    let n := fld (wordAt p.payload 0) 0 3
    decide (patternOk p.payload) && decide ((targets p s).all fun h => !selectionPending s h n)) (pkt [655360, 0, 11141120, 1, 0, 65706]) ready) = true
    ∧ ((fun (p : Packet) (s0 : State) => meetsIf infoTddPatternSelect true p s0 fun s =>
    let w := wordAt p.payload 0
    let ns := maskBits 8 (fld w 0 8)
    decide (zeroAt w 16 16) &&
      decide ((targets p s).all fun h => ns.all fun n => (bankOf (patternAt s h n) (bitOf w (8 + n))).isSome) &&
      decide (s.cpx.held.length < 256)) (pkt [0]) ready) = true
    ∧ ((fun (p : Packet) (s0 : State) => meetsIf infoFrameSource true p s0 fun s =>
    let w0 := wordAt p.payload 0
    let w2 := wordAt p.payload 2
    let w3 := wordAt p.payload 3
    let src := fld w0 0 3
    let off := sfld (wordAt p.payload 1) 0 32
    let hold := fld w3 0 13
    let g := fld w0 3 6
    let pci := fld w0 9 10
    decide (src ≤ 4) && decide (zeroAt w0 19 13) && decide (off.natAbs < frameClocks) &&
      decide (zeroAt w2 10 22) && decide (zeroAt w3 21 11) && decide (hold ≤ 6000) && decide (pci ≤ 1007) &&
      decide (src != 2 || airTracks s g pci) && decide (src = 0)) (pkt [0, 0, 0, 0]) ready) = true
    ∧ ((fun (p : Packet) (s0 : State) => meetsIf infoFrameSource true p s0 fun s =>
    let w0 := wordAt p.payload 0
    let w2 := wordAt p.payload 2
    let w3 := wordAt p.payload 3
    let src := fld w0 0 3
    let off := sfld (wordAt p.payload 1) 0 32
    let hold := fld w3 0 13
    let g := fld w0 3 6
    let pci := fld w0 9 10
    let t := modTbu (fun x => { x with
      source := some src, srcSection := g, srcPci := pci, frameOffset := off, sfnOffset := fld w2 0 10
      holdoverCfg := hold, stepLimit := fld w3 13 8, firstAlign := true, slew := 0
      ppsOpen := none, ppsFirst := src == 4, airAlign := none, airAge := if src = 2 then sourceAge s g pci else 0 }) s
    decide (src ≤ 4) && decide (zeroAt w0 19 13) && decide (off.natAbs < frameClocks) &&
      decide (zeroAt w2 10 22) && decide (zeroAt w3 21 11) && decide (hold ≤ 6000) && decide (pci ≤ 1007) &&
      decide (src != 2 || airTracks s g pci) && decide (src ≠ 0) &&
      decide ((src = 2 ∧ t.tbu.airAge ≤ 16) ∨ (src = 1 ∧ t.tbu.timeStatus = 3))) (pkt [1, 0, 0, 0]) (inTime (fun x => { x with timeStatus := 3 }) ready)) = true
    ∧ ((fun (p : Packet) (s0 : State) => meetsIf infoFrameSource true p s0 fun s =>
    let w0 := wordAt p.payload 0
    let w2 := wordAt p.payload 2
    let w3 := wordAt p.payload 3
    let src := fld w0 0 3
    let off := sfld (wordAt p.payload 1) 0 32
    let hold := fld w3 0 13
    let g := fld w0 3 6
    let pci := fld w0 9 10
    let t := modTbu (fun x => { x with
      source := some src, srcSection := g, srcPci := pci, frameOffset := off, sfnOffset := fld w2 0 10
      holdoverCfg := hold, stepLimit := fld w3 13 8, firstAlign := true, slew := 0
      ppsOpen := none, ppsFirst := src == 4, airAlign := none, airAge := if src = 2 then sourceAge s g pci else 0 }) s
    decide (src ≤ 4) && decide (zeroAt w0 19 13) && decide (off.natAbs < frameClocks) &&
      decide (zeroAt w2 10 22) && decide (zeroAt w3 21 11) && decide (hold ≤ 6000) && decide (pci ≤ 1007) &&
      decide (src != 2 || airTracks s g pci) && decide (src ≠ 0) && decide (¬(src = 2 ∧ t.tbu.airAge ≤ 16)) &&
      decide (¬(src = 1 ∧ t.tbu.timeStatus = 3))) (pkt [3, 0, 0, 0]) ready) = true
    ∧ ((fun (p : Packet) (s0 : State) => meetsIf infoTimeSet true p s0 fun s =>
    let w2 := wordAt p.payload 2
    decide (zeroAt w2 1 31) && decide (s.tbu.timeStatus ≠ 3) && decide (s.tbu.timeStatus ≠ 4) && decide (bitOf w2 0)) (pkt [0, 0, 1]) ready) = true
    ∧ ((fun (p : Packet) (s0 : State) => meetsIf infoTimeSet true p s0 fun s =>
    let w2 := wordAt p.payload 2
    decide (zeroAt w2 1 31) && decide (s.tbu.timeStatus ≠ 3) && decide (s.tbu.timeStatus ≠ 4) &&
      decide (bitOf w2 0 = false)) (pkt [0, 0, 0]) ready) = true
    ∧ ((fun (p : Packet) (s0 : State) => meetsIf infoTimeSchedule true p s0 fun s =>
    let w := wordAt p.payload 2
    let act := fld w 0 4
    let t := pairAt p.payload 0
    let d := timeDiff t (openTime s)
    let mask := fld w 8 8
    let banks := fld w 16 8
    decide (act == 1 || act == 2) && decide (zeroAt w 4 4) && decide (zeroAt w 24 8) && decide (act == 1 || (hearthsOf s).all fun h => (maskBits 8 mask).all fun n => (bankOf (patternAt s h n) (maskHas banks n)).isSome) && decide (d ≤ 2 ^ 63) && decide (0 < d) &&
    match freeHandle s with
    | some _ =>
        true
    | _ => false) (pkt [0, 5, 1]) ready) = true
    ∧ ((fun (p : Packet) (s0 : State) => meetsIf infoTimeScheduleCancel true p s0 fun s =>
    let k := fld (wordAt p.payload 0) 0 4
    decide (s.tbu.sched.any fun e => e.1 == k)) (pkt [0]) (inTime (fun x => { x with sched := [(0, {})] }) ready)) = true
    ∧ ((fun (p : Packet) (s0 : State) => meetsIf infoGrateSync true p s0 fun _ =>
    true) (pkt []) ready) = true := by
  decide +kernel

/-- Every clause of `SectionCommandsComplete` has a state and operands that meet its hypotheses. -/
theorem witness_sectionCommandsComplete :
    ((fun (p : Packet) (s0 : State) => meetsIf infoSectionDefine true p s0 fun s =>
    let h := p.hearth
    let i := p.sect
    let d := defOf p.payload
    let st := secNow (secAt s h i)
    decide (defineRule p d s) && decide (st == .cold || st == .ready) && decide (defFieldsOk p.payload) &&
      decide (ratioOk d) && decide (passbandsOk d) && decide (profileOk d) && decide (bandsFit s h i d) &&
      decide (bandsClear s h i d) && decide (losFree s h i d) &&
      decide (!d.tdd || (activeBank (patternAt s h d.pattern)).isSome) && decide (slotsFree s h i d) &&
      decide (slotsOpen s h i d)) (pkt [42, 184250000, 174750000, 2000000, 0, 180000000, 170000000, 65536]) (withRows ready)) = true
    ∧ ((fun (p : Packet) (s0 : State) => meetsIf infoSectionDelete true p s0 fun s =>
    let st := secNow (secAt s p.hearth p.sect)
    decide (roleRule p s) && decide (st == .ready || st == .quenched)) (pkt []) (atState .ready)) = true
    ∧ ((fun (p : Packet) (s0 : State) => meetsIf infoSectionQuery true p s0 fun _ =>
    true) (pkt []) ready) = true
    ∧ ((fun (p : Packet) (s0 : State) => meetsIf infoSectionStart true p s0 fun s =>
    let h := p.hearth
    let i := p.sect
    let st := secNow (secAt s h i)
    decide (roleRule p s) && decide (st ≠ .cold) && decide (transmits st)) (pkt []) { atState .live with pkg := .alight }) = true
    ∧ ((fun (p : Packet) (s0 : State) => meetsIf infoSectionStart true p s0 fun s =>
    let h := p.hearth
    let i := p.sect
    let st := secNow (secAt s h i)
    decide (roleRule p s) && decide (st ≠ .cold) && decide (transmits st = false) &&
      decide ((startHeld s h i).isEmpty) && decide (startBar s h i = none) && decide (losLocked s h i)) (pkt []) (locked (atState .ready))) = true
    ∧ ((fun (p : Packet) (s0 : State) => meetsIf infoSectionStart true p s0 fun s =>
    let h := p.hearth
    let i := p.sect
    let st := secNow (secAt s h i)
    decide (roleRule p s) && decide (st ≠ .cold) && decide (transmits st = false) &&
      decide ((startHeld s h i).isEmpty) && decide (startBar s h i = none) && decide (losLocked s h i = false) &&
      decide (s.cpx.held.length < 256)) (pkt []) (settling (atState .ready))) = true
    ∧ ((fun (p : Packet) (s0 : State) => meetsIf infoSectionStop true p s0 fun s =>
    let h := p.hearth
    let i := p.sect
    decide (roleRule p s) && decide ((secAt s h i).state ≠ .cold)) (pkt []) (atState .ready)) = true := by
  decide +kernel

/-- Every clause of `SectionEvents` has a state and operands that meet its hypotheses. -/
theorem witness_sectionEvents :
    ((fun (h : Nat) (i : Nat) (s : State) =>
    let x := secAt s h i
    decide (present s h) && decide (x.state = .damped) && decide (x.downRamp.isNone) &&
      decide (x.next.held.any id = false) && decide (480 ≤ x.heldFalse)) 0 0 (inSec fun x => { x with state := .damped, heldFalse := 480 })) = true
    ∧ ((fun (h : Nat) (i : Nat) (s : State) =>
    let x := secAt s h i
    decide (present s h) && decide (x.state = .ramping) && decide (x.downRamp.isNone) &&
      decide (0 < x.rampTicks) && decide (rampDone s h i)) 0 0 (inSec fun x => { x with state := .ramping, rampTicks := 1 })) = true
    ∧ ((fun (h : Nat) (i : Nat) (s : State) =>
    match (secAt s h i).downRamp with
    | some r =>
        decide (present s h) && decide (r.endTick ≤ s.tbu.tick)
    | _ => false) 0 0 (inSec fun x => { x with downRamp := some { endTick := 0 } })) = true
    ∧ ((fun (h : Nat) (i : Nat) (s : State) =>
    let x := secAt s h i
    decide (present s h) && decide (x.state = .ready) && decide (x.resume) && decide (anyHold s = false) &&
      decide (anyWait x = false) && decide (s.pkg == .ember || s.pkg == .alight) &&
      decide (¬((hearthAt s h).fbCopyBad)) && decide (losLocked s h i) &&
      decide (tableMissing s h i || !firebrickOk s h i)) 0 0 (synsIn 3 (inSec fun x => { x with state := .ready, resume := true, defn := some aDef }))) = true
    ∧ ((fun (h : Nat) (i : Nat) (s : State) =>
    let x := secAt s h i
    decide (present s h) && decide (x.state = .ready) && decide (x.resume) && decide (anyHold s = false) &&
      decide (anyWait x = false) && decide (s.pkg == .ember || s.pkg == .alight) &&
      decide (¬((hearthAt s h).fbCopyBad)) && decide (losLocked s h i) && decide (tableMissing s h i = false) &&
      decide (firebrickOk s h i)) 0 0 (locked (inSec fun x => { x with state := .ready, resume := true, defn := some aDef }))) = true
    ∧ ((fun (h : Nat) (i : Nat) (s : State) =>
    let x := secAt s h i
    decide (x.syncSettle) && decide (x.blankEnd ≤ s.tbu.tick)) 0 0 (inSec fun x => { x with syncSettle := true, blankEnd := 0 })) = true
    ∧ ((fun (h : Nat) (s : State) =>
    decide (present s h) && decide (writable s)) 0 ready) = true
    ∧ ((fun (h : Nat) (_ : Nat) (s : State) =>
    decide (present s h) && decide (writable s)) 0 0 ready) = true := by
  decide +kernel

/-- Section 0 READY with path 0 enabled. -/
def onePath : State := modPath 0 0 (fun x => { x with enabled := true, len := 16, measLog2 := 12 }) (atState .ready)
/-- Slot 0 keeps a snapshot of path 0. -/
def kept : State :=
  let g : Snapshot := { path := 0, len := 16, rate := aDef.rate, ratio := aDef.ratio }
  modBdc 0 (fun b => { b with slots := [(0, g)] }) onePath
/-- Every clause of `CancellerCommandsComplete` has a state and operands that meet its hypotheses. -/
theorem witness_cancellerCommandsComplete :
    ((fun (p : Packet) (s0 : State) => meetsIf infoBdcPathConfig true p s0 fun s =>
    let ws := p.payload
    let w := wordAt ws 0
    let h := p.hearth
    let i := p.sect
    let ps := maskPaths i (fld w 0 8)
    let on := bitOf w 8
    let orx := bitOf w 9
    let st := secNow (secAt s h i)
    let idle := st == .ready || st == .quenched
    let changes := ps.any fun q =>
      let x := pathAt s h q
      if on then !x.enabled || x.len != fld (wordAt ws 1) 0 13 || x.decor != fld (wordAt ws 1) 16 12 || x.orx != orx else x.enabled
    decide (maskOk s h i (fld w 0 8)) && decide (zeroAt w 10 22) && decide (!on || pathFieldsOk ws) &&
      decide (!(on && (secAt s h i).split.role != 0)) && decide (st ≠ .cold) && decide (idle || !changes) &&
      decide (on = false)) (pkt [1, 0, 0, 0]) onePath) = true
    ∧ ((fun (p : Packet) (s0 : State) => meetsIf infoBdcPathConfig true p s0 fun s =>
    let ws := p.payload
    let w := wordAt ws 0
    let h := p.hearth
    let i := p.sect
    let ps := maskPaths i (fld w 0 8)
    let on := bitOf w 8
    let orx := bitOf w 9
    let d := ((secAt s h i).defn).getD {}
    let st := secNow (secAt s h i)
    let idle := st == .ready || st == .quenched
    let changes := ps.any fun q =>
      let x := pathAt s h q
      if on then !x.enabled || x.len != fld (wordAt ws 1) 0 13 || x.decor != fld (wordAt ws 1) 16 12 || x.orx != orx else x.enabled
    let t := each ps (configurePath ws h) s
    let t := if orx then each ps (fun q => moveOrx h (pathOrx q) (pathDir q)) t else t
    let t := refreshBudget h (if (hearthAt s h).bdc.reloc then t else placePaths h t)
    decide (maskOk s h i (fld w 0 8)) && decide (zeroAt w 10 22) && decide (!on || pathFieldsOk ws) &&
      decide (!(on && (secAt s h i).split.role != 0)) && decide (st ≠ .cold) && decide (idle || !changes) &&
      decide (on) && decide (!orx || orxFree s h ps) &&
      decide (stepOf (fld (wordAt ws 2) 0 11) ≤ stepMax (hearthAt s h).bdc.gradDiv (fld (wordAt ws 1) 0 13) (rateOf d)) &&
      decide (budgetOk t h) && decide (allPlaced t h)) (pkt [257, 16, 20, 0]) (atState .ready)) = true
    ∧ ((fun (p : Packet) (s0 : State) => meetsIf infoBdcPathConfig true p s0 fun s =>
    let ws := p.payload
    let w := wordAt ws 0
    let h := p.hearth
    let i := p.sect
    let ps := maskPaths i (fld w 0 8)
    let on := bitOf w 8
    let orx := bitOf w 9
    let d := ((secAt s h i).defn).getD {}
    let st := secNow (secAt s h i)
    let idle := st == .ready || st == .quenched
    let changes := ps.any fun q =>
      let x := pathAt s h q
      if on then !x.enabled || x.len != fld (wordAt ws 1) 0 13 || x.decor != fld (wordAt ws 1) 16 12 || x.orx != orx else x.enabled
    let t := each ps (configurePath ws h) s
    let t := if orx then each ps (fun q => moveOrx h (pathOrx q) (pathDir q)) t else t
    let t := refreshBudget h (if (hearthAt s h).bdc.reloc then t else placePaths h t)
    decide (maskOk s h i (fld w 0 8)) && decide (zeroAt w 10 22) && decide (!on || pathFieldsOk ws) &&
      decide (!(on && (secAt s h i).split.role != 0)) && decide (st ≠ .cold) && decide (idle || !changes) &&
      decide (on) && decide (!orx || orxFree s h ps) &&
      decide (stepOf (fld (wordAt ws 2) 0 11) ≤ stepMax (hearthAt s h).bdc.gradDiv (fld (wordAt ws 1) 0 13) (rateOf d)) &&
      decide (budgetOk t h) && decide (allPlaced t h = false) && decide (s.cpx.held.length < 256)) (pkt [257, 16, 20, 0]) (modBdc 0 (fun b => { b with reloc := true }) (atState .ready))) = true
    ∧ ((fun (p : Packet) (s0 : State) => meetsIf infoBdcPathQuery true p s0 fun s =>
    let w := wordAt p.payload 0
    decide (zeroAt w 3 29) && decide ((secAt s p.hearth p.sect).state ≠ .cold)) (pkt [0]) onePath) = true
    ∧ ((fun (p : Packet) (s0 : State) => meetsIf infoBdcPathMode true p s0 fun s =>
    let w := wordAt p.payload 0
    let ps := maskPaths p.sect (fld w 0 8)
    decide (maskOk s p.hearth p.sect (fld w 0 8)) && decide (zeroAt w 10 22) && decide (fld w 8 2 ≠ 3) &&
      decide ((secAt s p.hearth p.sect).state ≠ .cold) && decide (ps.all fun q => (pathAt s p.hearth q).enabled)) (pkt [1]) onePath) = true
    ∧ ((fun (p : Packet) (s0 : State) => meetsIf infoBdcTapReset true p s0 fun s =>
    let w := wordAt p.payload 0
    decide (maskOk s p.hearth p.sect (fld w 0 8)) && decide (zeroAt w 8 24) &&
      decide ((secAt s p.hearth p.sect).state ≠ .cold)) (pkt [1]) onePath) = true
    ∧ ((meetsIf infoBdcSnapshot true (pkt [1]) (modBdc 0 (fun b => { b with stage := some {} }) onePath) fun s => maskOk s 0 0 1 && (pathAt s 0 0).enabled && (hearthAt s 0).bdc.stage.isSome && (slotPairs 0 1).all (fun e => (pathAt s 0 e.1).enabled && decide (e.2 ≤ 1023)))) = true
    ∧ ((meetsIf infoBdcSnapshot true (pkt [1]) onePath fun s => maskOk s 0 0 1 && (hearthAt s 0).bdc.stage.isNone && (slotPairs 0 1).all (fun e => (pathAt s 0 e.1).enabled && decide (e.2 ≤ 1023)))) = true
    ∧ ((meetsIf infoBdcRestore true (pkt [1]) (modBdc 0 (fun b => { b with stage := some {} }) onePath) fun s => maskOk s 0 0 1 && (hearthAt s 0).bdc.stage.isSome && (slotPairs 0 1).all (fun e => (pathAt s 0 e.1).enabled && decide (e.2 ≤ 1023)))) = true
    ∧ ((meetsIf infoBdcRestore true (pkt [1]) kept fun s => maskOk s 0 0 1 && (hearthAt s 0).bdc.stage.isNone && (slotPairs 0 1).all (fun e => (pathAt s 0 e.1).enabled && decide (e.2 ≤ 1023) && restorable s 0 e.1 e.2))) = true := by
  decide +kernel

/-- A snapshot or a restoration of section 0 in progress. -/
def staged (r : Bool) : State := modBdc 0 (fun b => { b with stage := some { sect := 0, restore := r } }) (atState .ready)
/-- Path 0 of section 0 enabled, changed. -/
def inPath (f : Path → Path) : State := modPath 0 0 (fun x => f { x with enabled := true, len := 16, measLog2 := 12 }) (atState .live)
/-- Every clause of `CancellerEvents` has a state and operands that meet its hypotheses. -/
theorem witness_cancellerEvents :
    ((fun (h : Nat) (i : Nat) (s : State) =>
    match (hearthAt s h).bdc.stage with
    | some g =>
        decide (present s h) && decide (g.restore = false) && decide (g.sect = i)
    | _ => false) 0 0 (staged false)) = true
    ∧ ((fun (h : Nat) (i : Nat) (s : State) =>
    match (hearthAt s h).bdc.stage with
    | some g =>
        decide (present s h) && decide (g.restore) && decide (g.sect = i)
    | _ => false) 0 0 (staged true)) = true
    ∧ ((fun (h : Nat) (n : Nat) (s : State) =>
    let x := pathAt s h n
    let bs := (x.cur :: x.blocks).take 8
    let eh := tapEnergy x
    decide (present s h) && decide (x.enabled) && decide (2 ^ (x.measLog2 - 3) ≤ x.cur.ticks) &&
      decide (residualEnergy x.len eh bs = none)) 0 0 (inPath fun x => { x with cur := { ticks := 512 } })) = true
    ∧ ((fun (h : Nat) (n : Nat) (s : State) =>
    let x := pathAt s h n
    let bs := (x.cur :: x.blocks).take 8
    let eh := tapEnergy x
    decide (present s h) && decide (x.enabled) && decide (2 ^ (x.measLog2 - 3) ≤ x.cur.ticks) &&
    match residualEnergy x.len eh bs with
    | some _ =>
        true
    | _ => false) 0 0 (inPath fun x => { x with cur := { ticks := 512, p := 5, n := 5 } })) = true
    ∧ ((fun (h : Nat) (n : Nat) (s : State) =>
    let x := pathAt s h n
    decide (present s h) && decide (x.enabled) && decide (x.acq) && decide (x.acqTick + 96 * x.track ≤ s.tbu.tick)) 0 0 (inPath fun x => { x with acq := true, acqTick := 0, track := 0 })) = true
    ∧ ((fun (h : Nat) (n : Nat) (s : State) =>
    let x := pathAt s h n
    decide (present s h) && decide (x.enabled) && decide (x.mode = 0) && decide (x.frozen = false) &&
      decide (480 ≤ x.suspRun)) 0 0 (inPath fun x => { x with suspRun := 480 })) = true
    ∧ ((fun (h : Nat) (s : State) =>
    let b := (hearthAt s h).bdc
    decide (present s h) && decide (b.reloc) && decide (¬((enabledPaths s h).any (fun p => (pathAt s h p).moveTo.isSome))) &&
    match nextMove (runs s h) 0 with
    | some (_, _) =>
        true
    | _ => false) 0 (modBdc 0 (fun b => { b with reloc := true }) (inPath fun x => { x with base := 64, placed := true }))) = true
    ∧ ((fun (h : Nat) (s : State) =>
    let b := (hearthAt s h).bdc
    decide (present s h) && decide (b.reloc) &&
      decide (¬((enabledPaths s h).any (fun p => (pathAt s h p).moveTo.isSome))) &&
      decide (nextMove (runs s h) 0 = none)) 0 (modBdc 0 (fun b => { b with reloc := true }) ready)) = true
    ∧ ((fun (h : Nat) (s : State) =>
    decide (present s h) && decide (writable s)) 0 ready) = true := by
  decide +kernel

/-- A spectrum with a line in bin 30, after four without one. -/
def growingLine : List Int := (List.replicate 64 (-30000)).set 30 0
def heard (r : Option DownRamp) : State :=
  modBr 0 0 0 (fun y => { y with spectra := List.replicate 4 (List.replicate 64 (-30000)) }) (inSec fun x => { x with
    state := .live, defn := some aDef, downRamp := r })
/-- Section 0 LIVE, its Damper direction 0 changed. -/
def inDir (f : DmpDir → DmpDir) : State := modDir 0 0 0 f (atState .live)
/-- Every clause of `DamperRows` has a state and operands that meet its hypotheses. -/
theorem witness_damperRows :
    ((fun (p : Packet) (s0 : State) => meetsIf infoDmpConfig true p s0 fun s =>
    let w (k : Nat) : Word := wordAt p.payload k
    let backoff := fld (w 2) 0 4
    let marginOk (lo : Nat) : Bool := decide (0x600 ≤ fld (w 0) lo 16) && decide (fld (w 0) lo 16 ≤ 0x2800)
    let isoOk (lo : Nat) : Bool := decide (fld (w 1) lo 16 ≤ 0x7800)
    decide (groupRule p s) && decide ((secAt s p.hearth p.sect).state ≠ .cold) && decide (marginOk 0) &&
      decide (marginOk 16) && decide (isoOk 0) && decide (isoOk 16) && decide (1 ≤ backoff) &&
      decide (backoff ≤ 12) && decide (zeroAt (w 2) 4 28)) (pkt [0x06000600, 0, 1]) (atState .ready)) = true
    ∧ ((meets infoDmpQuery (pkt []) (atState .ready) fun s => (secAt s 0 0).state != .cold)) = true
    ∧ ((fun (p : Packet) (s0 : State) => meetsIf infoDmpStrangerClear true p s0 fun s =>
    decide (groupRule p s) && decide ((secAt s p.hearth p.sect).state ≠ .cold)) (pkt []) (atState .ready)) = true
    ∧ ((fun (p : Packet) (s0 : State) => meetsIf infoDmpGroupCeil true p s0 fun s =>
    decide ((secAt s p.hearth p.sect).defn.any (·.group))) (fromLeader [0]) (member (inSec fun x => { x with state := .ready, defn := some { aDef with group := true } }))) = true
    ∧ ((fun (h : Nat) (i : Nat) (d : Nat) (b : Nat) (first : Nat) (last : Nat) (s : State) =>
    let x := secAt s h i
    match x.defn with
    | some e =>
        decide (present s h) && decide (transmits x.state) && decide (d < 2) && decide (b < 2) &&
          decide (maskHas e.branchMask b) && decide ((brOf s h i (2 * d + b)).winTick = first) &&
          decide (last = s.tbu.tick) && decide (first + windowTicks e ≤ last + 1) &&
          decide (¬(s.arrivals.contains (.spectrum h i (2 * d + b))))
    | _ => false) 0 0 0 0 0 1000000 (inTime (fun x => { x with tick := 1000000 }) (atState .live))) = true
    ∧ ((fun (_ : Nat) (_ : Nat) (_ : Nat) (_ : State) =>
    true) 0 0 0 ready) = true
    ∧ ((fun (h : Nat) (_ : Nat) (d : Nat) (s : State) =>
    decide (present s h) && decide (d < 2)) 0 0 0 (inTime (fun x => { x with tick := 100000000 }) (inDir fun x => { x with test := some { means := [1, 2, 3, 4, 5, 6, 7] } }))) = true
    ∧ ((fun (h : Nat) (_ : Nat) (_ : Nat) (_ : Nat) (_ : Nat) (s : State) =>
    decide (present s h)) 0 0 0 0 0 ready) = true
    ∧ ((fun (h : Nat) (n : Nat) (s : State) =>
    let x := pathAt s h n
    decide (present s h) && decide (x.enabled) && decide (x.mode ≠ 2) && decide (x.stale = false) &&
      decide (x.pubTick + 2 * 2 ^ x.measLog2 ≤ s.tbu.tick)) 0 0 (inTime (fun x => { x with tick := 100000 }) (modPath 0 0 (fun x => { x with enabled := true }) ready))) = true
    ∧ ((fun (h : Nat) (s : State) =>
    decide (present s h) && decide (writable s)) 0 ready) = true := by
  decide +kernel

/-- Section 0 LIVE with the definition, its arrestor changed. -/
def inSpa (f : Spa → Spa) : State := modSpa 0 0 f (atState .live)
/-- Every clause of `ArrestorRows` has a state and operands that meet its hypotheses. -/
theorem witness_arrestorRows :
    ((fun (p : Packet) (s0 : State) => meetsIf infoSpaConfig true p s0 fun s =>
    decide (groupRule p s) && decide ((secAt s p.hearth p.sect).state ≠ .cold) && decide (spaCfgOk p.payload)) (pkt [0xA6009900, 0x01060000, 4800, 0x80000000, 0]) (atState .ready)) = true
    ∧ ((meets infoSpaQuery (pkt []) (atState .ready) fun s => (secAt s 0 0).state != .cold)) = true
    ∧ ((fun (p : Packet) (s0 : State) => meetsIf infoSpaHistoryClear true p s0 fun s =>
    decide (groupRule p s) && decide ((secAt s p.hearth p.sect).state ≠ .cold)) (pkt []) (atState .ready)) = true
    ∧ ((fun (h : Nat) (i : Nat) (b : Nat) (first : Nat) (s : State) =>
    let x := secAt s h i
    match x.defn with
    | some d =>
        decide (present s h) && decide (transmits x.state) && decide (b < 2) && decide (maskHas d.branchMask b) &&
          decide (x.spa.sqTick.getD b 0 = first) && decide (first + squelchTicks d ≤ s.tbu.tick + 1)
    | _ => false) 0 0 0 0 (inTime (fun x => { x with tick := 1000000 }) (inSpa id))) = true
    ∧ ((fun (h : Nat) (i : Nat) (_ : Nat) (s : State) =>
    let x := secAt s h i
    decide (x.defn = none)) 0 0 0 ready) = true
    ∧ ((fun (h : Nat) (i : Nat) (b : Nat) (s : State) =>
    let x := secAt s h i
    let w := x.spa.sqSum.getD b (0, 0)
    let u := modSpa h i (fun sp => { sp with sqSum := sp.sqSum.set b (0, 0) }) s
    match x.defn with
    | some d =>
        let nw := windowDensity x d b (meanOf w)
        let t := updateFloor h i (modSpa h i (fun sp => { sp with subMins := sp.subMins.modify b (minInto nw) }) u)
        let sp := (secAt t h i).spa
        decide (transmits x.state) && decide (32 ≤ w.2) &&
          decide (sp.noiseUse.getD b logMax + 256 * (sp.cfg.actThresh : Int) ≤ nw)
    | _ => false) 0 0 0 (inSec fun x => { x with state := .live, defn := some aDef, spa := { x.spa with sqSum := [(0x7FFFFFFF, 32), (0, 0)], noiseUse := [-30000, -30000] } })) = true
    ∧ ((fun (h : Nat) (i : Nat) (b : Nat) (s : State) =>
    let x := secAt s h i
    let w := x.spa.sqSum.getD b (0, 0)
    let u := modSpa h i (fun sp => { sp with sqSum := sp.sqSum.set b (0, 0) }) s
    match x.defn with
    | some d =>
        let nw := windowDensity x d b (meanOf w)
        let t := updateFloor h i (modSpa h i (fun sp => { sp with subMins := sp.subMins.modify b (minInto nw) }) u)
        let sp := (secAt t h i).spa
        decide (transmits x.state) && decide (32 ≤ w.2) &&
          decide (nw < sp.noiseUse.getD b logMax + 256 * (sp.cfg.actThresh : Int))
    | _ => false) 0 0 0 (inSec fun x => { x with state := .live, defn := some aDef, spa := { x.spa with sqSum := [(0, 32), (0, 0)], noiseUse := [0, 0] } })) = true
    ∧ ((fun (h : Nat) (i : Nat) (b : Nat) (s : State) =>
    let x := secAt s h i
    let w := x.spa.sqSum.getD b (0, 0)
    match x.defn with
    | some _ =>
        decide (¬(transmits x.state && decide (32 ≤ w.2)))
    | _ => false) 0 0 0 (inSec fun x => { x with state := .ready, defn := some aDef })) = true
    ∧ ((fun (h : Nat) (i : Nat) (s : State) =>
    let x := secAt s h i
    decide (present s h) && decide (transmits x.state) && decide (x.spa.ulIdle = false) &&
      decide (x.spa.activeTick < s.tbu.tick) && decide (x.spa.activeTick + x.spa.cfg.hang ≤ s.tbu.tick)) 0 0 (inTime (fun x => { x with tick := 1000000 }) (inSpa fun x => { x with ulIdle := false }))) = true
    ∧ ((fun (h : Nat) (i : Nat) (s : State) =>
    let x := secAt s h i
    decide (present s h) && decide (transmits x.state) && decide (30000 ≤ x.spa.subTick)) 0 0 (inSpa fun x => { x with subTick := 30000 })) = true
    ∧ ((fun (h : Nat) (i : Nat) (d : Nat) (s : State) =>
    let x := secAt s h i
    match x.defn with
    | some e =>
        let limit := dutyLimit s h e d
        match dutyClock x.spa d limit with
        | some clk =>
            decide (present s h) && decide (d < 2) && decide (e.tdd) &&
              decide (x.spa.dutyClosed.getD d true = false) && decide (clk ≤ s.tbu.clock + s.tbu.tickLen)
        | _ => false
    | _ => false) 0 0 0 (inSec fun x => { x with state := .live, defn := some tddDef, spa := { x.spa with dutyClosed := [false, false], gateSince := [some 0, none] } })) = true
    ∧ ((fun (h : Nat) (x : PinChange) (s : State) =>
    let g := (hearthAt s h).fes.gpio.getD x.pin {}
    decide (present s h) && decide (x.pin < 16) && decide (g.func == 2 || g.func == 3) &&
      decide (inTick s x.clk) && decide (lineDisagrees s h x.pin x.clk x.level)) 0 { pin := 0, clk := 100, level := true } (modFes 0 (fun f => { f with gpio := f.gpio.set 0 { func := 2 } }) (inSec fun x => { x with state := .live, defn := some tddDef }))) = true
    ∧ ((fun (h : Nat) (i : Nat) (s : State) =>
    let x := secAt s h i
    decide (present s h) && decide (x.state = .quenched) && decide (x.spa.latched = false) &&
      decide (x.spa.retryAt.any (fun t => decide (t ≤ s.tbu.tick)))) 0 0 (inSec fun x => { x with state := .quenched, spa := { x.spa with retryAt := some 0 } })) = true
    ∧ ((fun (h : Nat) (i : Nat) (s : State) =>
    decide (present s h) && decide (latchWindow ≤ (secAt s h i).spa.okTicks)) 0 0 (inSpa fun x => { x with okTicks := latchWindow })) = true
    ∧ ((fun (h : Nat) (s : State) =>
    decide (present s h) && decide ((hearthAt s h).fbCopyBad)) 0 (inHearth fun x => { x with fbCopyBad := true })) = true
    ∧ ((fun (h : Nat) (n : Nat) (clk : Nat) (s : State) =>
    decide (present s h) && decide (n < 8) && decide (inTick s clk)) 0 0 0 ready) = true
    ∧ ((fun (h : Nat) (s : State) =>
    decide (present s h) && decide (writable s)) 0 ready) = true := by
  decide +kernel

/-- Loop slot 0 of hearth 0 changed. -/
def inLoop (f : Loop → Loop) : State := modLoop 0 0 f ready
def loopWords : List Word :=
  [262144, 1048576, 268435456, 0, 2147450879, 2147418112, 0, 0, 0, 167788544, 50331649, 16777232, 503316580, 512, 0, 4194560, 4096]
def measured : LoopCfg := { loopCfgOf loopWords with outMin := -20000, outMax := 20000 }
/-- A four-hearth part with the pins of setpoint inputs. -/
def bigPart : State := { ready with ident := { ready.ident with part := .brd880 } }
/-- Every clause of `LoopCommandsComplete` has a state and operands that meet its hypotheses. -/
theorem witness_loopCommandsComplete :
    ((fun (p : Packet) (s0 : State) => meetsIf infoLoopConfig true p s0 fun s =>
    let h := p.hearth
    let n := slotIn p
    let x := loopIn p s
    let c := loopCfgOf p.payload
    let full : LoopCfg := { c with act := if x.bound.isSome then 1 else c.act }
    decide (loopGroup p s) && decide (x.state = 0) && decide (loopZeroBits p.payload) &&
      decide (loopCfgOk x.bound.isSome x.mode c) && decide (actTaken s h n c = false) &&
      decide (c.measSrc != 4 || decide (channelsBut s h n < 16)) &&
      decide (costMax (cfgsWith s h n full) ≤ costBudget)) (pkt loopWords) ready) = true
    ∧ ((fun (p : Packet) (s0 : State) => meetsIf infoLoopQuery true p s0 fun _ =>
    decide (zeroAt (wordAt p.payload 0) 6 26)) (pkt [0]) ready) = true
    ∧ ((fun (p : Packet) (s0 : State) => meetsIf infoLoopClose true p s0 fun s =>
    let x := loopIn p s
    decide (zeroAt (wordAt p.payload 0) 6 26) && decide (!(modeNeeds x.mode && x.cfg.measSrc == 0)) &&
      decide (!(x.mode == 3 && x.table.isEmpty)) && decide (x.state ≠ 2) && decide (x.state = 1)) (pkt [0]) (inLoop fun x => { x with state := 1, cfg := measured })) = true
    ∧ ((fun (p : Packet) (s0 : State) => meetsIf infoLoopClose true p s0 fun s =>
    let x := loopIn p s
    decide (zeroAt (wordAt p.payload 0) 6 26) && decide (!(modeNeeds x.mode && x.cfg.measSrc == 0)) &&
      decide (!(x.mode == 3 && x.table.isEmpty)) && decide (x.state ≠ 2) && decide (x.state ≠ 1)) (pkt [0]) (inLoop fun x => { x with state := 0, cfg := measured })) = true
    ∧ ((fun (p : Packet) (s0 : State) => meetsIf infoLoopOpen true p s0 fun s =>
    let x := loopIn p s
    decide (zeroAt (wordAt p.payload 0) 6 26) && decide (x.state = 0)) (pkt [0]) ready) = true
    ∧ ((fun (p : Packet) (s0 : State) => meetsIf infoLoopOpen true p s0 fun s =>
    let x := loopIn p s
    decide (zeroAt (wordAt p.payload 0) 6 26) && decide (x.state ≠ 0) && decide (x.state = 2)) (pkt [0]) (inLoop fun x => { x with state := 2 })) = true
    ∧ ((fun (p : Packet) (s0 : State) => meetsIf infoLoopOpen true p s0 fun s =>
    let x := loopIn p s
    decide (zeroAt (wordAt p.payload 0) 6 26) && decide (x.state ≠ 0) && decide (x.state ≠ 2)) (pkt [0]) (inLoop fun x => { x with state := 1 })) = true
    ∧ ((fun (p : Packet) (s0 : State) => meetsIf infoLoopMode true p s0 fun s =>
    decide (loopGroup p s) && decide (loopModeOk s.ident.part p.payload (loopIn p s))) (pkt [512, 0]) (inLoop fun x => { x with cfg := measured })) = true
    ∧ ((fun (p : Packet) (s0 : State) => meetsIf infoLoopSetpoint true p s0 fun s =>
    let w := wordAt p.payload 0
    decide (loopGroup p s) && decide (zeroAt w 6 10)) (pkt [369098752]) ready) = true
    ∧ ((fun (p : Packet) (s0 : State) => meetsIf infoLoopTune true p s0 fun s =>
    let h := p.hearth
    let w := wordAt p.payload 0
    let x := loopIn p s
    let amp : Int := x.cfg.relayAmp
    decide (zeroAt w 6 2) && decide (zeroAt w 9 23) && decide (loopGroup p s) && decide (x.state = 0) &&
      decide (tuneSection s h x) && decide (x.cfg.measSrc ≠ 0) && decide (x.cfg.outMin ≤ x.openOut - amp) &&
      decide (x.openOut + amp ≤ x.cfg.outMax) && decide (s.cpx.held.length < 256)) (pkt [0]) (inLoop fun x => { x with cfg := measured, openOut := 0 })) = true
    ∧ ((fun (p : Packet) (s0 : State) => meetsIf infoLoopTable (p.payload.length == 1 + fld (wordAt p.payload 0) 8 5) p s0 fun s =>
    let x := loopIn p s
    decide (loopGroup p s) && decide (x.state = 0) && decide (loopTableOk p.payload x.cfg)) (pkt [512, 0x00010001, 0x00020002]) (inLoop fun x => { x with cfg := { measured with outMin := -32768, outMax := 32767 } })) = true
    ∧ ((fun (p : Packet) (s0 : State) => meetsIf infoSetptConfig true p s0 fun s =>
    let ws := p.payload
    decide (s.ident.part = .brd880) && decide (setptOk ws)) (pkt [0, 100, 2000, 3000]) bigPart) = true := by
  decide +kernel

/-- Every clause of `LoopEvents` has a state and operands that meet its hypotheses. -/
theorem witness_loopEvents :
    ((fun (h : Nat) (_ : Nat) (s : State) =>
    decide (present s h)) 0 0 (inLoop fun x => { x with handover := true, handN := 16 })) = true
    ∧ ((fun (h : Nat) (_ : Nat) (s : State) =>
    decide (present s h)) 0 0 (inLoop fun x => { x with state := 3, cfg := { x.cfg with holdMax := 0 } })) = true
    ∧ ((fun (h : Nat) (_ : Nat) (s : State) =>
    decide (present s h)) 0 0 (inLoop fun x => { x with tune := some { execs := 64 }, cfg := { x.cfg with tuneMax := 64 } })) = true
    ∧ ((fun (h : Nat) (_ : Nat) (s : State) =>
    decide (present s h)) 0 0 (modSec 0 0 (fun x => { x with state := .ramping, rampTicks := 4800 }) (inLoop fun x => { x with bound := some (0, 0), state := 1, mode := 4 }))) = true
    ∧ ((fun (pin : Nat) (_ : SetptChange) (s : State) =>
    decide (s.ident.part = .brd880) && decide (pin < 2) && decide (pin = 0)) 0 {} bigPart) = true
    ∧ ((fun (pin : Nat) (_ : SetptChange) (s : State) =>
    decide (s.ident.part = .brd880) && decide (pin < 2) && decide (pin ≠ 0)) 1 {} bigPart) = true
    ∧ ((fun (h : Nat) (s : State) =>
    decide (present s h) && decide (writable s)) 0 ready) = true := by
  decide +kernel

/-- Synthesiser 0 and port 0 of hearth 0 changed. -/
def inSyn (f : Syn → Syn) : State := modSyn 0 0 f ready
def inPort (f : Port → Port) : State := modPort 0 0 f ready
/-- Every clause of `SynthesiserAndPortEvents` has a state and operands that meet its hypotheses. -/
theorem witness_synthesiserAndPortEvents :
    ((fun (h : Nat) (n : Nat) (_ : Nat) (s : State) =>
    decide (present s h) && decide (n < 4) && decide (tuning (synAt s h n))) 0 0 100 (inSyn fun x => { x with state := 1 })) = true
    ∧ ((fun (h : Nat) (n : Nat) (_ : Nat) (s : State) =>
    decide (tuning (synAt s h n))) 0 0 100 (inSyn fun x => { x with state := 1 })) = true
    ∧ ((fun (h : Nat) (n : Nat) (s : State) =>
    decide (present s h) && decide (n < 4) && decide (tuning (synAt s h n))) 0 0 (inSyn fun x => { x with state := 1 })) = true
    ∧ ((fun (h : Nat) (n : Nat) (s : State) =>
    let t := modSyn h n (fun x => { x with fails := incSat 8 x.fails, tries := x.tries + 1 }) s
    decide (tuning (synAt s h n)) && decide (3 ≤ (synAt t h n).tries)) 0 0 (inSyn fun x => { x with state := 1, tries := 2 })) = true
    ∧ ((fun (h : Nat) (n : Nat) (s : State) =>
    let t := modSyn h n (fun x => { x with fails := incSat 8 x.fails, tries := x.tries + 1 }) s
    decide (tuning (synAt s h n)) && decide ((synAt t h n).tries < 3)) 0 0 (inSyn fun x => { x with state := 1, tries := 0 })) = true
    ∧ ((fun (h : Nat) (x : LockLoss) (s : State) =>
    decide (present s h) && decide (x.n < 4) && decide (inTick s x.clk) && decide ((synAt s h x.n).state = 3) &&
      decide ((synAt s h x.n).lostAt.isNone)) 0 { n := 0, clk := 5 } (inSyn fun x => { x with state := 3 })) = true
    ∧ ((fun (h : Nat) (n : Nat) (s : State) =>
    decide ((synAt s h n).state = 3) && decide ((synAt s h n).lostAt.isSome)) 0 0 (inSyn fun x => { x with state := 3, lostAt := some 5 })) = true
    ∧ ((fun (h : Nat) (_ : Nat) (s : State) =>
    decide (present s h)) 0 0 ready) = true
    ∧ ((fun (h : Nat) (n : Nat) (_ : Option Nat) (s : State) =>
    let x := portAt s h n
    decide (present s h) && decide (n < 4) && decide (x.cfg.supSrc = 2)) 0 0 none (inPort fun x => { x with cfg := { x.cfg with supSrc := 2 } })) = true
    ∧ ((fun (h : Nat) (n : Nat) (s : State) =>
    let x := portAt s h n
    let d := if x.change.isSome then 0 else if missAt s h n 0 ≠ 0 then rangeMove s h n else sumMove s h n
    decide (present s h) && decide (n < 4) && decide (x.cfg.auto) && decide (s.tbu.tick % 480 = 0) && decide (d = 0)) 0 0 (inPort fun x => { x with cfg := { x.cfg with auto := true } })) = true
    ∧ ((fun (h : Nat) (n : Nat) (s : State) =>
    let x := portAt s h n
    let d := if x.change.isSome then 0 else if missAt s h n 0 ≠ 0 then rangeMove s h n else sumMove s h n
    let target := (clampInt x.cfg.stepMin x.cfg.stepMax ((x.step : Int) + d)).toNat
    decide (present s h) && decide (n < 4) && decide (x.cfg.auto) && decide (s.tbu.tick % 480 = 0) &&
      decide (d ≠ 0) && decide (target = x.step)) 0 0 (inPort fun x => { x with cfg := { x.cfg with auto := true, stepMax := 0 }, pkNow := some 0 })) = true
    ∧ ((fun (h : Nat) (n : Nat) (s : State) =>
    let x := portAt s h n
    let d := if x.change.isSome then 0 else if missAt s h n 0 ≠ 0 then rangeMove s h n else sumMove s h n
    let target := (clampInt x.cfg.stepMin x.cfg.stepMax ((x.step : Int) + d)).toNat
    decide (present s h) && decide (n < 4) && decide (x.cfg.auto) && decide (s.tbu.tick % 480 = 0) &&
      decide (d ≠ 0) && decide (target ≠ x.step)) 0 0 (inPort fun x => { x with cfg := { x.cfg with auto := true }, pkNow := some 0 })) = true
    ∧ ((fun (h : Nat) (n : Nat) (s : State) =>
    let x := portAt s h n
    decide (present s h) && decide (x.trimWant ≠ x.trim) &&
      decide (x.trimSince.any (fun t => decide (t + 480 ≤ s.tbu.tick + 1)))) 0 0 (inTime (fun x => { x with tick := 480 }) (inPort fun x => { x with trimWant := 1, trimSince := some 1 }))) = true
    ∧ ((fun (h : Nat) (n : Nat) (s : State) =>
    decide (present s h) && decide ((portAt s h n).eccReload.isSome)) 0 0 (inPort fun x => { x with eccReload := some 3 })) = true := by
  decide +kernel

/-- Every clause of `RadioCommandsComplete` has a state and operands that meet its hypotheses. -/
theorem witness_radioCommandsComplete :
    ((fun (p : Packet) (s0 : State) => meetsIf infoRadioConfig true p s0 fun s =>
    decide (radioOk p.payload) && decide (¬((targets p s).any fun h => radioBusy p.payload h s))) (pkt [0, 5140, 1]) ready) = true
    ∧ ((fun (p : Packet) (s0 : State) => meetsIf infoPwrTableWrite (tableLength p.payload) p s0 fun s =>
    let w := wordAt p.payload 0
    let c := fld w 0 2
    let first := fld w 8 8
    let count := fld w 16 9
    let es := stepPairs (p.payload.drop 1) first count
    let ok (h : Nat) : Bool := tableRises (es.foldl (fun m e => kset m e.1 e.2) (portAt s h c).table)
    decide (zeroAt w 2 6) && decide (zeroAt w 25 7) && decide (count ≠ 0) && decide (first + count ≤ 256) &&
      decide (es.all (fun e => stepOk e.2)) && decide ((targets p s).all ok) &&
      decide (¬((targets p s).any fun h => busyIdx s h c))) (pkt [65536, 10176, 0]) ready) = true
    ∧ ((fun (p : Packet) (s0 : State) => meetsIf infoPwrPortConfig true p s0 fun _ =>
    decide (portCfgOk p.payload)) (pkt [2561, 4093705984, 512, 0, 0, 0, 0]) ready) = true
    ∧ ((fun (p : Packet) (s0 : State) => meetsIf infoFesConfig true p s0 fun s =>
    let ws := p.payload
    decide (fesOk ws) && decide (¬((targets p s).any (sequencesRun s))) &&
      decide ((targets p s).all fun h => limitsOk (hearthAt s h).fes (rffeOf ws) (spiOf ws))) (pkt [0x00260026, 0x00260026, 0x00140014]) ready) = true
    ∧ ((fun (p : Packet) (s0 : State) => meetsIf infoFesGpioConfig true p s0 fun s =>
    decide ((targets p s).all fun h => gpioOk p.payload h s) && decide (¬((targets p s).any (hearthTransmits s)))) (pkt [0, 0]) ready) = true
    ∧ ((fun (p : Packet) (s0 : State) => meetsIf infoFesSeqWrite (seqLength p.payload) p s0 fun s =>
    let ws := p.payload
    let fes (h : Nat) : Fes := (hearthAt s h).fes
    decide ((targets p s).all fun h => seqFieldsOk ws (fes h)) &&
      decide ((targets p s).all fun h => limitsOk (seqApplied ws (fes h)) (fes h).rffeDiv (fes h).spiDiv) &&
      decide (¬((targets p s).any fun h => (seqTouched ws (fes h)).any (eventRuns s h)))) (pkt [65536, 0, 0, 0]) ready) = true
    ∧ ((fun (p : Packet) (s0 : State) => meetsIf infoFesBusAccess true p s0 fun s =>
    let e : SeqEntry := (wordAt p.payload 0, wordAt p.payload 1)
    decide (accessOk e) && decide (s.cpx.held.length < 256)) (pkt [1537, 0]) ready) = true := by
  decide +kernel

/-- A bus operation runs on hearth 0. -/
def onBus (op : Nat) : State := modFes 0 (fun f => { f with bus := some (BitVec.ofNat 32 op, 0), busEnd := some 100 }) ready
/-- Every clause of `FrontEndEvents` has a state and operands that meet its hypotheses. -/
theorem witness_frontEndEvents :
    ((fun (h : Nat) (n : Nat) (s : State) =>
    decide (present s h) && decide (actDone s h n)) 0 0 (modFes 0 (fun f => { f with actRun := [(0, {})] }) ready)) = true
    ∧ ((fun (h : Nat) (n : Nat) (s : State) =>
    let f := (hearthAt s h).fes
    decide (present s h) && decide (f.stepSeq.getD n 0 = 2) &&
      decide (f.bndEnd.getD n 0 ≤ s.tbu.clock + s.tbu.tickLen)) 0 0 (modFes 0 (fun f => { f with stepSeq := [2, 0, 0, 0] }) ready)) = true
    ∧ ((fun (h : Nat) (data : Option Nat) (clk : Nat) (s : State) =>
    match (hearthAt s h).fes.bus, (hearthAt s h).fes.busEnd with
    | some e, some stop =>
        decide (present s h) && decide (inTick s clk) && decide (opOf e = 7) &&
        match data with
        | some _ =>
            decide (clk ≤ stop)
        | _ => false
    | _, _ => false) 0 (some 5) 50 (onBus 7)) = true
    ∧ ((fun (h : Nat) (data : Option Nat) (clk : Nat) (s : State) =>
    match (hearthAt s h).fes.bus, (hearthAt s h).fes.busEnd with
    | some e, some stop =>
        decide (present s h) && decide (inTick s clk) && decide (opOf e = 7) &&
        match data with
        | some _ =>
            decide (stop < clk)
        | _ => false
    | _, _ => false) 0 (some 5) 150 (onBus 7)) = true
    ∧ ((fun (h : Nat) (data : Option Nat) (clk : Nat) (s : State) =>
    match (hearthAt s h).fes.bus, (hearthAt s h).fes.busEnd with
    | some e, some _ =>
        decide (present s h) && decide (inTick s clk) && decide (opOf e = 7) && decide (data = none)
    | _, _ => false) 0 none 50 (onBus 7)) = true
    ∧ ((fun (h : Nat) (_ : Option Nat) (clk : Nat) (s : State) =>
    match (hearthAt s h).fes.bus, (hearthAt s h).fes.busEnd with
    | some e, some stop =>
        decide (present s h) && decide (inTick s clk) && decide (opOf e ≠ 7) && decide (stop ≤ clk)
    | _, _ => false) 0 (some 5) 100 (onBus 1)) = true
    ∧ ((fun (h : Nat) (s : State) =>
    let f := (hearthAt s h).fes
    decide (present s h) && decide (f.bus.any (fun e => opOf e == 7)) &&
      decide (f.busEnd.any (fun c => decide (c < s.tbu.clock + s.tbu.tickLen)))) 0 (onBus 7)) = true
    ∧ ((fun (h : Nat) (s : State) =>
    decide (present s h) && decide (writable s)) 0 ready) = true := by
  decide +kernel

/-- Item 0 of chain 0 enabled on hearth 0, estimates as given. -/
def calOn (f : LcalCh → LcalCh) : State := inTime (fun t => { t with tick := 10000000 }) (synsIn 3 (modLcal 0 0 (fun x => f { x with enabled := 1 }) ready))
def estOn : State := calOn fun x => { x with est := [(0, {})] }
/-- Every clause of `LiveCalibrationRows` has a state and operands that meet its hypotheses. -/
theorem witness_liveCalibrationRows :
    ((fun (p : Packet) (s0 : State) => meetsIf infoLcalConfig true p s0 fun _ =>
    let w0 := wordAt p.payload 0
    let w1 := wordAt p.payload 1
    let mask := fld w0 0 10
    let item := fld w0 16 4
    let period := fld w1 0 13
    let win := fld w1 16 3
    decide (item ≤ 8) && decide (period ≤ 6000) && decide (zeroAt w0 10 6) && decide (zeroAt w0 21 11) &&
      decide (zeroAt w1 13 3) && decide (zeroAt w1 19 13) && decide (mask &&& (1023 - itemChains item) == 0) &&
      decide (win &&& (7 - itemWindows item) == 0)) (pkt [0, 1]) ready) = true
    ∧ ((fun (p : Packet) (s0 : State) => meetsIf infoLcalRun true p s0 fun s =>
    let w := wordAt p.payload 0
    let n := fld w 0 4
    let item := fld w 8 4
    let h := p.hearth
    decide (n ≤ 9) && decide (zeroAt w 4 4) && decide (zeroAt w 12 20) && decide (maskHas (itemChains item) n) &&
      decide (¬(maskHas (hearthAt s h).lcal.hold n)) && decide ((heldFor s 0x0802 (runKey h n item)).isEmpty) &&
      decide (s.cpx.held.length < 256)) (pkt [0]) ready) = true
    ∧ ((fun (p : Packet) (s0 : State) => meetsIf infoLcalQuery true p s0 fun _ =>
    let w := wordAt p.payload 0
    decide (fld w 0 4 ≤ 9) && decide (zeroAt w 4 28)) (pkt [0]) ready) = true
    ∧ ((fun (p : Packet) (s0 : State) => meetsIf infoLcalHold true p s0 fun _ =>
    let w := wordAt p.payload 0
    decide (zeroAt w 10 6) && decide (zeroAt w 17 15)) (pkt [1]) ready) = true
    ∧ ((fun (h : Nat) (c : Nat) (item : Nat) (s : State) =>
    let x := lcalAt s h c
    let due : Bool := match kget x.last item with
      | none => true
      | some t => decide (t + itemPeriod s h item ≤ s.tbu.tick)
    let lock := item == 6 || item == 7 || lockedIdx s h (chainIdx s h c)
    decide (present s h) && decide (s.pkg == .ember || s.pkg == .alight) && decide (itemOn s h c item) &&
      decide (due) && decide (lock) && decide ((kget x.est item).isNone)) 0 0 0 (calOn id)) = true
    ∧ ((fun (h : Nat) (c : Nat) (item : Nat) (r : LcalResult) (s : State) =>
    match kget (lcalAt s h c).est item with
    | some e =>
        let dead := (item == 6 || item == 7) && (hearthAt s h).lcal.detStop
        decide (present s h) && decide (c < 10) && decide (item < 9) && decide (itemSamples item ≤ e.got) &&
          decide (dead = false) && decide (r.good)
    | _ => false) 0 0 0 {} (calOn fun x => { x with est := [(0, { got := 2 ^ 20 })] })) = true
    ∧ ((fun (h : Nat) (c : Nat) (item : Nat) (r : LcalResult) (s : State) =>
    match kget (lcalAt s h c).est item with
    | some e =>
        let dead := (item == 6 || item == 7) && (hearthAt s h).lcal.detStop
        decide (present s h) && decide (c < 10) && decide (item < 9) && decide (itemSamples item ≤ e.got) &&
          decide (dead = false) && decide (r.good = false)
    | _ => false) 0 0 0 { good := false } (calOn fun x => { x with est := [(0, { got := 2 ^ 20 })] })) = true
    ∧ ((fun (h : Nat) (c : Nat) (item : Nat) (s : State) =>
    match kget (lcalAt s h c).est item with
    | some e =>
        let t := modLcal h c (fun x => { x with noWindow := x.noWindow ||| 2 ^ item }) (endEst h c item s)
        let t := emit h 0x0813 [c, item] t
        let t := onlyIf (!maskHas (runsStaged (lcalAt t h c)) item) (endHeldFor 0x0802 (runKey h c item) .timeout []) t
        decide (present s h) && decide (e.start + 2 * itemPeriod s h item ≤ s.tbu.tick) &&
          decide (itemOn t h c item)
    | _ => false) 0 0 0 estOn) = true
    ∧ ((fun (h : Nat) (c : Nat) (item : Nat) (s : State) =>
    match kget (lcalAt s h c).est item with
    | some e =>
        let t := modLcal h c (fun x => { x with noWindow := x.noWindow ||| 2 ^ item }) (endEst h c item s)
        let t := emit h 0x0813 [c, item] t
        let t := onlyIf (!maskHas (runsStaged (lcalAt t h c)) item) (endHeldFor 0x0802 (runKey h c item) .timeout []) t
        decide (present s h) && decide (e.start + 2 * itemPeriod s h item ≤ s.tbu.tick) &&
          decide (itemOn t h c item = false)
    | _ => false) 0 0 0 (modLcal 0 0 (fun x => { x with enabled := 0 }) estOn)) = true
    ∧ ((fun (h : Nat) (c : Nat) (s : State) =>
    let x := lcalAt s h c
    match x.delta with
    | some d =>
        decide (present s h) && decide (d.tick + 480 ≤ s.tbu.tick)
    | _ => false) 0 0 (calOn fun x => { x with delta := some {} })) = true
    ∧ ((fun (h : Nat) (n : Nat) (s : State) =>
    let r := (hearthAt s h).rfc
    decide (present s h) && decide (n < 2) && decide (orxInUse s h n = false) &&
      decide (r.orxTurn.getD n 0 + 480 ≤ s.tbu.tick + 1)) 0 0 (calOn id)) = true
    ∧ ((fun (h : Nat) (s : State) =>
    decide (present s h) && decide (writable s)) 0 ready) = true := by
  decide +kernel

/-- The air monitor enabled, with a range, and a cell that section 0 tracks. -/
def listening : State := modHearth 0 (fun x => { x with
  rfc := { x.rfc with lo := [184250000, 184250000, 174750000, 174750000] }
  air := { x.air with enabled := true, ranges := [{ enable := true, chain := 0, rats := 7, start := 184250000, stop := 184250000, step := 1000 }]
                      cells := [(0, { tracked := true, trackedBy := 1, sect := 0, freq := 184250000 })] } }) (atState .ready)
/-- Every clause of `AirMonitorRows` has a state and operands that meet its hypotheses. -/
theorem witness_airMonitorRows :
    ((fun (p : Packet) (s0 : State) => meetsIf infoAirConfig true p s0 fun s =>
    let w := wordAt p.payload 0
    let on := bitOf w 0
    let n := fld w 4 4
    let period := fld w 8 8
    let lost := fld w 16 5
    let k := fld w 24 3
    decide (zeroAt w 2 2) && decide (zeroAt w 21 3) && decide (zeroAt w 27 5) && decide (wordAt p.payload 1 = 0) &&
      decide (1 ≤ n) && decide (n ≤ 8) && decide (1 ≤ period) && decide (period ≤ 100) && decide (1 ≤ lost) &&
      decide (lost ≤ 16) && decide (k ≤ 4) &&
      decide (!on || (targets p s).all fun h => decide (otherChannels s h + n ≤ 16))) (pkt [0x01010110, 0]) ready) = true
    ∧ ((fun (p : Packet) (s0 : State) => meetsIf infoAirScanRange true p s0 fun _ =>
    let w := wordAt p.payload 0
    let start := (wordAt p.payload 1).toNat
    let stop := (wordAt p.payload 2).toNat
    let step := (wordAt p.payload 3).toNat
    let r : ScanRange := { enable := bitOf w 4, chain := fld w 5 1, rats := fld w 8 3, caseC := bitOf w 12, ssbPeriod := fld w 14 2
                           start := start, stop := stop, step := step }
    decide (zeroAt w 6 2) && decide (zeroAt w 11 1) && decide (zeroAt w 13 1) && decide (zeroAt w 16 16) &&
      decide (41000000 ≤ start) && decide (start ≤ stop) && decide (stop ≤ 712500000) &&
      decide (!r.enable || r.rats != 0) && decide (step == 0 || decide (1000 ≤ step))) (pkt [0x0110, 100000000, 100001000, 1000]) ready) = true
    ∧ ((fun (p : Packet) (s0 : State) => meetsIf infoAirSectionConfig true p s0 fun s =>
    let w := wordAt p.payload 0
    let w1 := wordAt p.payload 1
    let d := ((secAt s p.hearth p.sect).defn).getD {}
    let n := fld w 12 4
    let margin := sfld w 16 16
    let fl := sfld w1 0 16
    decide (groupRule p s) && decide ((secAt s p.hearth p.sect).state ≠ .cold) && decide (zeroAt w 7 1) &&
      decide (zeroAt w 10 2) && decide (zeroAt w1 16 16) && decide (1 ≤ n) && decide (768 ≤ margin) &&
      decide (margin ≤ 7680) && decide (fl ≤ 0) && decide (d.tdd || !bitOf w 8)) (pkt [0x03001000, 0]) (atState .ready)) = true
    ∧ ((fun (p : Packet) (s0 : State) => meetsIf infoAirCellRead true p s0 fun _ =>
    let w := wordAt p.payload 0
    let first := fld w 0 10
    let n := fld w 16 7
    decide (zeroAt w 10 6) && decide (zeroAt w 23 1) && decide (zeroAt w 25 7) && decide (1 ≤ n) &&
      decide (n ≤ 64) && decide (first + n ≤ 1024) && decide (bitOf w 24)) (pkt [0x01010000]) ready) = true
    ∧ ((fun (p : Packet) (s0 : State) => meetsIf infoAirCellRead true p s0 fun _ =>
    let w := wordAt p.payload 0
    let first := fld w 0 10
    let n := fld w 16 7
    decide (zeroAt w 10 6) && decide (zeroAt w 23 1) && decide (zeroAt w 25 7) && decide (1 ≤ n) &&
      decide (n ≤ 64) && decide (first + n ≤ 1024) && decide (bitOf w 24 = false)) (pkt [0x00010000]) ready) = true
    ∧ ((fun (p : Packet) (s0 : State) => meetsIf infoAirStrangerRead true p s0 fun _ =>
    let w := wordAt p.payload 0
    decide (zeroAt w 1 31)) (pkt [0]) ready) = true
    ∧ ((fun (h : Nat) (x : VisitIn) (s : State) =>
    let v := onlyDetectable x fun _ => visitCase s h x
    decide (visitTaken s h v) && decide ((hearthAt s h).air.visitBad)) 0 { chain := 0, freq := 184250000 } (modAir 0 (fun a => { a with visitBad := true }) listening)) = true
    ∧ ((fun (h : Nat) (x : VisitIn) (s : State) =>
    let v := onlyDetectable x fun _ => visitCase s h x
    decide (visitTaken s h v) && decide (¬((hearthAt s h).air.visitBad))) 0 { chain := 0, freq := 184250000 } listening) = true
    ∧ ((fun (h : Nat) (x : DwellIn) (s : State) =>
    let case (rat : Nat) : Bool := ((scanOf s h x rat).map (·.1)).getD true
    let v := onlyDetectable x case
    let rats := [0, 1, 2].filter (scanVisits s h v)
    decide (airHears s h v) && decide (¬((hearthAt s h).air.starved)) && decide (rats.isEmpty = false) &&
      decide ((hearthAt s h).air.visitBad)) 0 { chain := 0, freq := 184250000 } (inTime (fun x => { x with tick := 1000000 }) (modAir 0 (fun a => { a with visitBad := true }) listening))) = true
    ∧ ((fun (h : Nat) (x : DwellIn) (s : State) =>
    let case (rat : Nat) : Bool := ((scanOf s h x rat).map (·.1)).getD true
    let v := onlyDetectable x case
    let rats := [0, 1, 2].filter (scanVisits s h v)
    decide (airHears s h v) && decide (¬((hearthAt s h).air.starved)) && decide (rats.isEmpty = false) &&
      decide (¬((hearthAt s h).air.visitBad))) 0 { chain := 0, freq := 184250000 } (inTime (fun x => { x with tick := 1000000 }) listening)) = true
    ∧ ((fun (h : Nat) (s : State) =>
    decide (present s h) && decide (writable s)) 0 ready) = true := by
  decide +kernel

/-- A programming of row 5 and a write of an item in progress; rows and an OEM key at hand. -/
def burning (r : Bool) : State := { ready with limits := { ready.limits with prog := some { row := 5, revoke := r } } }
def rowWords : List Word := [180000000, 190000000, 134240768, 503324160, 0]
def unlocked : State := modBoot (fun x => { x with oemKey := some 5 }) ready
def itemWriting : State := { ready with limits := { ready.limits with calProg := some {} } }
def anItem : List Word := [5, 4093705984, 512, 0, 0, 0, 0]
/-- A Kindling record that places the calibration set, blank or with one item. -/
def aSet : State := modBoot (fun x => { x with record := some (List.replicate 10 0 ++ [0x20000, 0x10000] ++ List.replicate 20 0) }) ready
def withItem : State := putFlash 0x20040 [0, 8256, 0, 0] (putFlash 0x20000 [0x10001] aSet)
/-- Every clause of `LimitsAndCalibrationRows` has a state and operands that meet its hypotheses. -/
theorem witness_limitsAndCalibrationRows :
    ((meetsIf infoFirebrickWrite true (pkt (0 :: rowWords ++ List.replicate 24 0)) unlocked fun s => !rowsBusy s && !(rowAt s 0).written && lowestBlank s == some 0 && rowFieldsOk rowWords && roomHeld s)) = true
    ∧ ((meetsIf infoFirebrickRevoke true (pkt (0 :: List.replicate 24 0)) (withRows unlocked) fun s => !rowsBusy s && !(rowAt s 0).revoked && !rowBlank (rowAt s 0) && !revokeWidens s 0 && roomHeld s)) = true
    ∧ ((fun (p : Packet) (s0 : State) => meetsIf infoFirebrickRead true p s0 fun _ =>
    true) (pkt []) ready) = true
    ∧ ((fun (ok : Bool) (_ : List Word) (s : State) =>
    match s.limits.prog with
    | some g =>
        decide (g.revoke) && decide (ok)
    | _ => false) true [] (burning true)) = true
    ∧ ((fun (ok : Bool) (_ : List Word) (s : State) =>
    match s.limits.prog with
    | some g =>
        decide (g.revoke) && decide (ok = false)
    | _ => false) false [] (burning true)) = true
    ∧ ((fun (ok : Bool) (_ : List Word) (s : State) =>
    match s.limits.prog with
    | some g =>
        decide (g.revoke = false) && decide (ok)
    | _ => false) true [] (burning false)) = true
    ∧ ((fun (ok : Bool) (_ : List Word) (s : State) =>
    match s.limits.prog with
    | some g =>
        decide (g.revoke = false) && decide (ok = false)
    | _ => false) false [] (burning false)) = true
    ∧ ((fun (row : Nat) (s : State) =>
    match s.limits.due with
    | some (k, _, _) =>
        decide (k = row)
    | _ => false) 5 { ready with limits := { ready.limits with due := some (5, false, false) } }) = true
    ∧ ((fun (p : Packet) (s0 : State) => meetsIf infoCalsetQuery true p s0 fun s =>
    decide (calBusy s = false)) (pkt []) ready) = true
    ∧ ((fun (p : Packet) (s0 : State) => meetsIf infoCalsetExport true p s0 fun s =>
    let w := wordAt p.payload 0
    let id := fld w 0 16
    decide (calBusy s = false) && decide (zeroAt w 16 16) &&
    match dirIndex s (calBase s) id with
    | some _ =>
        true
    | _ => false) (pkt [0]) withItem) = true
    ∧ ((meetsIf infoCalsetImport (importLength anItem) (pkt anItem) aSet fun s => !calBusy s && !stagesRun s && zeroAt (wordAt anItem 0) 17 15 && itemKnown s (fld (wordAt anItem 0) 0 16) && itemOk (fld (wordAt anItem 0) 0 16) (anItem.drop 1) && itemRoom s (fld (wordAt anItem 0) 0 16) (anItem.drop 1).length && itemType (fld (wordAt anItem 0) 0 16) != 4 && roomHeld s)) = true
    ∧ ((meetsIf infoCalsetStore true (pkt (anItem.take 1)) aSet fun s => !calBusy s && !stagesRun s && itemKnown s (fld (wordAt anItem 0) 0 16) && (storeWords s (fld (wordAt anItem 0) 0 16)).any (fun ws => itemRoom s (fld (wordAt anItem 0) 0 16) ws.length) && roomHeld s)) = true
    ∧ ((fun (ok : Bool) (s : State) =>
    match s.limits.calProg with
    | some _ =>
        decide (ok)
    | _ => false) true itemWriting) = true
    ∧ ((fun (ok : Bool) (s : State) =>
    match s.limits.calProg with
    | some _ =>
        decide (ok = false)
    | _ => false) false itemWriting) = true := by
  decide +kernel

def counting (n : Nat) : State := modSys (fun x => { x with hbCount := n, hbPhase := 480 }) ready
/-- Every clause of `SysRegisterRows` has a state and operands that meet its hypotheses. -/
theorem witness_sysRegisterRows :
    ((fun (_ : Nat) (_ : Nat) (s : State) =>
    decide (s.sec.wideMode = false) && decide (writable s)) 0 0 ready) = true
    ∧ ((fun (_ : Nat) (s : State) =>
    decide (s.sec.wideMode = false)) 0 ready) = true
    ∧ ((fun (go : Bool) (s : State) =>
    decide (go) && decide (s.sec.wideMode) && decide (writable s)) true (inMode ready)) = true
    ∧ ((fun (s : State) =>
    decide (s.sys.snapPending)) (modSys (fun x => { x with snapPending := true }) ready)) = true
    ∧ ((fun (m : Nat) (_ : Nat) (s : State) =>
    decide (masterPriv s m) && decide (writable s)) 1 5 ready) = true
    ∧ ((fun (s : State) =>
    decide (s.sys.hbCount ≠ 0) && decide (480 ≤ s.sys.hbPhase) && decide (s.sys.hbCount = 1)) (counting 1)) = true
    ∧ ((fun (s : State) =>
    decide (s.sys.hbCount ≠ 0) && decide (480 ≤ s.sys.hbPhase) && decide (s.sys.hbCount ≠ 1)) (counting 2)) = true
    ∧ ((fun (m : Nat) (_ : Nat) (s : State) =>
    decide (masterPriv s m) && decide (writable s)) 1 5 ready) = true
    ∧ ((fun (_ : Nat) (s : State) =>
    decide (writable s)) 5 ready) = true
    ∧ ((decide (0x78 % 4 = 0) && ready.sec.powered && !ready.sec.resetLow)) = true
    ∧ ((decide (3 % 4 ≠ 0))) = true
    ∧ ((decide (0x40 % 4 = 0) && ready.sec.powered && !ready.sec.resetLow && !breaksReserved 0 0x40 0 ready && ready.pkg != .doused)) = true
    ∧ ((decide (0x40 % 4 = 0) && ready.sec.powered && !ready.sec.resetLow && !breaksReserved 5 0x40 0 ready && decide (2 < 5))) = true
    ∧ ((decide (0x10F0008 ≠ 0x60) && !rwoLocked ready 0x10F0008)) = true
    ∧ ((rwoLocked (modSys (fun x => { x with board := some 0 }) ready) 0x18)) = true
    ∧ ((true)) = true
    ∧ ((ready.pkg != .doused)) = true
    ∧ ((ready.pkg != .doused)) = true := by
  decide +kernel

/-- The script stands before record 0, whose header is given. -/
def atRecord (hd : Word) (f : Script → Script) : State := inTime (fun t => { t with tick := 1000000000 })
  (modCpx (fun c => { c with script := f { c.script with state := 1 } })
    (modBoot (fun x => { x with record := some ((List.replicate 32 (0 : Word)).set 16 1), flash := [(0, hd)] }) ready))
/-- Every clause of `ScriptAndUnlockEvents` has a state and operands that meet its hypotheses. -/
theorem witness_scriptAndUnlockEvents :
    ((fun (s : State) =>
    decide (scriptIdle s) && decide (s.cpx.script.retryAt.isNone) && decide (scriptDue s ≤ s.tbu.tick) &&
      decide (scriptWait s s.cpx.script.next)) (atRecord 0 id)) = true
    ∧ ((fun (s : State) =>
    let n := s.cpx.script.next
    let ws := fld (scriptHeader s n) 24 8
    decide (scriptIdle s) && decide (s.cpx.script.retryAt.isNone) && decide (ws ≠ 0) &&
      decide (scriptWait s n = false) && decide (scriptDue s + ws * ticksPerSecond ≤ s.tbu.tick)) (atRecord 0x01010000 id)) = true
    ∧ ((fun (s : State) =>
    decide (scriptIdle s) && decide (s.cpx.script.retryAt.any fun t => decide (t ≤ s.tbu.tick))) (atRecord 0 fun x => { x with retryAt := some 5 })) = true
    ∧ (((modCpx (fun c => { c with verifying := some (7, []) }) ready).cpx.verifying == some (7, []))) = true
    ∧ ((fun (s : State) =>
    decide (s.cpx.challenge.any fun c => decide (c.2 ≤ s.tbu.tick))) (inTime (fun t => { t with tick := 10 }) (modCpx (fun c => { c with challenge := some (7, 9) }) ready))) = true
    ∧ ((fun (s : State) =>
    decide (s.cpx.lockoutEnd.any fun e => decide (e ≤ s.tbu.tick))) (inTime (fun t => { t with tick := 10 }) (modCpx (fun c => { c with lockoutEnd := some 9 }) ready))) = true := by
  decide +kernel

/-- A capture of hearth 0, and the export and import streams of section 0, in a state. -/
def capIn (f : Cap → Cap) : State := inHearth fun x => { x with cap := f x.cap }
def streamIn (f : Stream → Stream) : State := modStream 0 0 1 f (modStream 0 0 0 f (atState .ready))
/-- Every clause of `LinkEvents` has a state and operands that meet its hypotheses. -/
theorem witness_linkEvents :
    ((fun (_ : Nat) (_ : State) =>
    true) 0 ready) = true
    ∧ ((fun (n : Nat) (_ : State) =>
    decide (n ≠ 0)) 1 ready) = true
    ∧ ((fun (_ : State) =>
    true) ready) = true
    ∧ ((fun (_ : State) =>
    true) ready) = true
    ∧ ((fun (_ : Nat) (enter : Bool) (_ : State) =>
    decide (enter)) 0 true ready) = true
    ∧ ((fun (_ : Nat) (enter : Bool) (_ : State) =>
    decide (enter = false)) 0 false ready) = true
    ∧ ((fun (gen : Nat) (width : Nat) (_ : State) =>
    decide (1 ≤ gen) && decide (gen ≤ 5) && decide (width = 4 ∨ width = 8 ∨ width = 16)) 4 8 ready) = true
    ∧ ((fun (d : DmaErr) (s : State) =>
    decide (d.capture) && decide ((hearthAt s d.hearth).cap.state ≠ 0)) { capture := true } (capIn fun c => { c with state := 2 })) = true
    ∧ ((fun (d : DmaErr) (s : State) =>
    decide (d.capture = false) && decide (2 ≤ (streamAt s d.hearth d.sect d.kind).state)) { capture := false } (streamIn fun x => { x with state := 2 })) = true
    ∧ ((fun (_ : State) =>
    true) ready) = true
    ∧ ((fun (s : State) =>
    decide (s.pkg ≠ .doused)) ready) = true := by
  decide +kernel

def wideStream : Stream → Stream := fun x => { x with state := 2, ringLog2 := 20, hostPtr := 2 ^ 19 }
/-- An export that ends with one sample buffered. -/
def lastBlock : Stream → Stream := fun x => { wideStream x with ending := true, stopClk := 0, entries := [{}] }
/-- Every clause of `StreamRows` has a state and operands that meet its hypotheses. -/
theorem witness_streamRows :
    ((fun (p : Packet) (s0 : State) => meetsIf infoStreamConfig true p s0 fun s =>
    let kind := fld (wordAt p.payload 0) 0 1
    let old := streamAt s p.hearth p.sect kind
    match (secAt s p.hearth p.sect).defn with
    | some d =>
        let x := streamFrom p.payload old
        decide (old.state ≤ 1) && decide (streamOk d p.payload) &&
          decide (bandwidthSum s kind 1 - bandwidthAt s p.hearth p.sect kind 1 + streamBandwidth d x ≤ linkLimit s)
    | _ => false) (pkt [4, 0x1000, 0, 16, 0, 0, 0, 0]) (modHif (fun x => { x with gen := 5, width := 16 }) (atState .ready))) = true
    ∧ ((fun (p : Packet) (s0 : State) => meetsIf infoStreamControl true p s0 fun _ =>
    let w := wordAt p.payload 0
    let op := fld w 0 2
    decide (op ≤ 1) && decide (zeroAt w 2 2) && decide (zeroAt w 5 27) && decide (op = 0)) (pkt [0]) ready) = true
    ∧ ((fun (p : Packet) (s0 : State) => meetsIf infoStreamControl true p s0 fun s =>
    let w := wordAt p.payload 0
    let op := fld w 0 2
    let kind := fld w 4 1
    let x := streamAt s p.hearth p.sect kind
    decide (op ≤ 1) && decide (zeroAt w 2 2) && decide (zeroAt w 5 27) && decide (op ≠ 0) &&
      decide (x.state ≠ 0) && decide (2 ≤ x.state)) (pkt [1]) (streamIn fun x => { x with state := 2 })) = true
    ∧ ((fun (p : Packet) (s0 : State) => meetsIf infoStreamControl true p s0 fun s =>
    let w := wordAt p.payload 0
    let op := fld w 0 2
    let kind := fld w 4 1
    let x := streamAt s p.hearth p.sect kind
    decide (op ≤ 1) && decide (zeroAt w 2 2) && decide (zeroAt w 5 27) && decide (op ≠ 0) &&
      decide (x.state ≠ 0) && decide (x.state < 2) &&
      decide (x.startTime = 0 ∨ timeDiff x.startTime (nextTime s) ≤ 0)) (pkt [1]) (streamIn fun x => { x with state := 1 })) = true
    ∧ ((fun (p : Packet) (s0 : State) => meetsIf infoStreamControl true p s0 fun s =>
    let w := wordAt p.payload 0
    let op := fld w 0 2
    let kind := fld w 4 1
    let x := streamAt s p.hearth p.sect kind
    decide (op ≤ 1) && decide (zeroAt w 2 2) && decide (zeroAt w 5 27) && decide (op ≠ 0) &&
      decide (x.state ≠ 0) && decide (x.state < 2) && decide (x.startTime ≠ 0) &&
      decide (0 < timeDiff x.startTime (nextTime s))) (pkt [1]) (streamIn fun x => { x with state := 1, startTime := 2 ^ 40 })) = true
    ∧ ((fun (h : Nat) (i : Nat) (b : BlockIn) (s : State) =>
    let x := streamAt s h i 0
    let es := exportGives x s.tbu.clock
    decide (es.isEmpty = false) && decide (b.memErr)) 0 0 { memErr := true } (streamIn lastBlock)) = true
    ∧ ((fun (h : Nat) (i : Nat) (b : BlockIn) (s : State) =>
    let x := streamAt s h i 0
    let es := exportGives x s.tbu.clock
    decide (es.isEmpty = false) && decide (b.memErr = false) && decide (s.hif.d3pf0 || s.hif.d3pf1)) 0 0 {} (modHif (fun x => { x with d3pf0 := true }) (streamIn lastBlock))) = true
    ∧ ((fun (h : Nat) (i : Nat) (b : BlockIn) (s : State) =>
    let x := streamAt s h i 0
    let es := exportGives x s.tbu.clock
    let ws := blockOf s h i x es
    decide (es.isEmpty = false) && decide (b.memErr = false) && decide (s.hif.d3pf0 = false) &&
      decide (s.hif.d3pf1 = false) && decide (x.staged = []) && decide (ringRoom x (4 * ws.length))) 0 0 {} (streamIn lastBlock)) = true
    ∧ ((fun (h : Nat) (i : Nat) (b : BlockIn) (s : State) =>
    let x := streamAt s h i 0
    let es := exportGives x s.tbu.clock
    let ws := blockOf s h i x es
    decide (es.isEmpty = false) && decide (b.memErr = false) && decide (s.hif.d3pf0 = false) &&
      decide (s.hif.d3pf1 = false) && decide (¬(x.staged = [] ∧ ringRoom x (4 * ws.length) = true)) &&
      decide (x.staged.length < 8)) 0 0 {} (streamIn fun x => { lastBlock x with staged := [[]] })) = true
    ∧ ((fun (h : Nat) (i : Nat) (b : BlockIn) (s : State) =>
    let x := streamAt s h i 0
    let es := exportGives x s.tbu.clock
    let ws := blockOf s h i x es
    decide (es.isEmpty = false) && decide (b.memErr = false) && decide (s.hif.d3pf0 = false) &&
      decide (s.hif.d3pf1 = false) && decide (¬(x.staged = [] ∧ ringRoom x (4 * ws.length) = true)) &&
      decide (8 ≤ x.staged.length)) 0 0 {} (streamIn fun x => { lastBlock x with staged := List.replicate 8 [] })) = true
    ∧ ((fun (h : Nat) (i : Nat) (b : BlockIn) (s : State) =>
    let x := streamAt s h i 1
    decide (x.state = 2) && decide (!b.ready || x.devPtr == x.hostPtr || s.hif.d3pf0 || s.hif.d3pf1)) 0 0 { ready := false } (streamIn fun x => { wideStream x with underrun := true })) = true
    ∧ ((fun (h : Nat) (i : Nat) (b : BlockIn) (s : State) =>
    let x := streamAt s h i 1
    let w := wordAt b.words 0
    decide (x.state = 2) && decide (b.ready) && decide (x.devPtr ≠ x.hostPtr) && decide (s.hif.d3pf0 = false) &&
      decide (s.hif.d3pf1 = false) && decide (bitOf w 12)) 0 0 { words := [4096] } (streamIn wideStream)) = true
    ∧ ((fun (h : Nat) (i : Nat) (b : BlockIn) (s : State) =>
    let x := streamAt s h i 1
    let w := wordAt b.words 0
    decide (x.state = 2) && decide (b.ready) && decide (x.devPtr ≠ x.hostPtr) && decide (s.hif.d3pf0 = false) &&
      decide (s.hif.d3pf1 = false) && decide (bitOf w 12 = false) && decide (importMatches h i x w)) 0 0 { words := [64 + 128] } (streamIn fun x => { wideStream x with dir := 1, branchMask := 1 })) = true
    ∧ ((fun (h : Nat) (i : Nat) (b : BlockIn) (s : State) =>
    let x := streamAt s h i 1
    let w := wordAt b.words 0
    decide (x.state = 2) && decide (b.ready) && decide (x.devPtr ≠ x.hostPtr) && decide (s.hif.d3pf0 = false) &&
      decide (s.hif.d3pf1 = false) && decide (bitOf w 12 = false) && decide (importMatches h i x w = false)) 0 0 { words := [1] } (streamIn wideStream)) = true
    ∧ ((fun (h : Nat) (i : Nat) (kind : Nat) (s : State) =>
    let x := streamAt s h i kind
    decide (x.state = 3) && decide (timeDiff x.startTime (nextTime s) ≤ 0)) 0 0 0 (streamIn fun x => { x with state := 3 })) = true
    ∧ ((fun (h : Nat) (i : Nat) (kind : Nat) (ptr : Nat) (s : State) =>
    let x := streamAt s h i kind
    let v := ptr / 64 * 64 % 2 ^ 30
    decide (present s h) && decide (i < 8) && decide (s.pkg ≠ .doused) && decide (x.state = 0 ∨ 2 ^ x.ringLog2 ≤ v)) 0 0 0 0 ready) = true
    ∧ ((fun (h : Nat) (i : Nat) (kind : Nat) (ptr : Nat) (s : State) =>
    let x := streamAt s h i kind
    let v := ptr / 64 * 64 % 2 ^ 30
    decide (present s h) && decide (i < 8) && decide (s.pkg ≠ .doused) && decide (x.state ≠ 0) &&
      decide (v < 2 ^ x.ringLog2) && decide (kind = 0)) 0 0 0 64 (streamIn wideStream)) = true
    ∧ ((fun (h : Nat) (i : Nat) (kind : Nat) (ptr : Nat) (s : State) =>
    let x := streamAt s h i kind
    let v := ptr / 64 * 64 % 2 ^ 30
    decide (present s h) && decide (i < 8) && decide (s.pkg ≠ .doused) && decide (x.state ≠ 0) &&
      decide (v < 2 ^ x.ringLog2) && decide (kind ≠ 0)) 0 0 1 64 (streamIn wideStream)) = true := by
  decide +kernel

/-- Every clause of `CaptureRows` has a state and operands that meet its hypotheses. -/
theorem witness_captureRows :
    ((fun (p : Packet) (s0 : State) => meetsIf infoCaptureConfig true p s0 fun s =>
    let h := p.hearth
    let x := captureFrom p.payload
    let m := (hearthAt s h).xmc
    decide (captureOk p.payload) && decide ((hearthAt s h).cap.state = 0) &&
      decide (x.spectrum || decide (x.srcs.length * (x.length * 4096) ≤ captureMib m * 2 ^ 20)) &&
      decide (demandFits s h x.srcs.length)) (pkt [0x1FFF0, 0, 0, 0x000A, 0x1000, 0, 0, 0]) (modXmc 0 (fun x => { x with speed := 1 }) ready)) = true
    ∧ ((fun (p : Packet) (s0 : State) => meetsIf infoCaptureArm true p s0 fun s =>
    let h := p.hearth
    let w := wordAt p.payload 0
    let w1 := wordAt p.payload 1
    let op := fld w 0 2
    let trig := fld w 4 3
    let x := (hearthAt s h).cap
    decide (op ≤ 1) && decide (trig ≤ 4) && decide (zeroAt w 2 2) && decide (zeroAt w 7 9) &&
      decide (zeroAt w1 16 16) && decide (op = 1) && decide (x.state ≠ 0)) (pkt [1, 0]) (capIn fun c => { c with state := 1 })) = true
    ∧ ((fun (p : Packet) (s0 : State) => meetsIf infoCaptureArm true p s0 fun s =>
    let h := p.hearth
    let w := wordAt p.payload 0
    let w1 := wordAt p.payload 1
    let op := fld w 0 2
    let trig := fld w 4 3
    let x := (hearthAt s h).cap
    decide (op ≤ 1) && decide (trig ≤ 4) && decide (zeroAt w 2 2) && decide (zeroAt w 7 9) &&
      decide (zeroAt w1 16 16) && decide (op ≠ 1) && decide (x.state = 0) && decide (x.cfg.isSome) &&
      decide (s.cpx.held.length < 256)) (pkt [0, 0]) (capIn fun c => { c with cfg := some {} })) = true
    ∧ ((meets infoCaptureQuery (pkt []) ready fun _ => true)) = true
    ∧ ((fun (h : Nat) (clk : Nat) (s : State) =>
    let c := (hearthAt s h).cap
    decide (inTick s clk) && decide (triggersAt s c clk)) 0 5 (capIn fun c => { c with state := 1, trigDue := some 5 })) = true
    ∧ ((fun (h : Nat) (s : State) =>
    let c := (hearthAt s h).cap
    decide (c.state = 2) && decide (c.buf.all (fun l => decide (captureNeeds c ≤ l.length)) = true)) 0 (capIn fun c => { c with state := 2 })) = true
    ∧ ((fun (h : Nat) (s : State) =>
    let c := (hearthAt s h).cap
    decide (c.state = 3) && decide (s.hif.d3pf0 ≠ true) && decide (s.hif.d3pf1 ≠ true)) 0 (capIn fun c => { c with state := 3 })) = true
    ∧ ((fun (h : Nat) (s : State) =>
    decide (¬(triggerArrived s (hearthAt s h).cap))) 0 (capIn fun c => { c with state := 1, deadline := some 0 })) = true := by
  decide +kernel

/-- Flue changed in the ready state. -/
def inFlu (f : Flu → Flu) : State := modFlu f ready
/-- An acting leader; every port carries the group, transport and time. -/
def leading : State := inFlu fun x => { x with
  acting := 2, ports := List.replicate 16 { mode := 1, group := true, transport := true, ptp := true, link := true, slave := true } }
/-- Every clause of `FlueCommandsComplete` has a state and operands that meet its hypotheses. -/
theorem witness_flueCommandsComplete :
    ((fun (p : Packet) (s0 : State) => meetsIf infoFluePortConfig true p s0 fun s =>
    let ws := p.payload
    let w := wordAt ws 0
    let h := p.hearth
    let port := fld w 0 1
    let old := s.flu.ports.getD (2 * h + port) {}
    let mode := fld w 4 2
    let gone := mode != old.mode || (old.transport && !bitOf w 13)
    decide (fluePortOk ws) && decide (!(gone && portSplits s h port))) (pkt [0, 0, 0, 0]) ready) = true
    ∧ ((fun (p : Packet) (s0 : State) => meetsIf infoGroupConfig true p s0 fun s =>
    let w (k : Nat) : Word := wordAt p.payload k
    let expect := fld (w 2) 0 8
    decide (groupFieldsOk p.payload) && decide (expect == 0 || expect == s.sec.protoMajor) &&
      decide (groupBusy s = false)) (pkt [0, 0x88B50000, 0, 0, 43581440, 128, 0, 0]) ready) = true
    ∧ ((fun (p : Packet) (s0 : State) => meetsIf infoGroupQuery true p s0 fun _ =>
    true) (pkt []) ready) = true
    ∧ ((fun (p : Packet) (s0 : State) => meetsIf infoPtpConfig true p s0 fun s =>
    let w (k : Nat) : Word := wordAt p.payload k
    let old := s.flu.ptp
    let domain := fld (w 0) 0 8
    let mode := fld (w 0) 8 2
    let moved := domain != old.domain || mode != old.mode
    decide (ptpOk p.payload s) && decide (!(moved && s.tbu.timeStatus == 3) || mode == 0)) (pkt [0, 0, 0x02000000, 0, 6553610, 0]) ready) = true
    ∧ ((fun (p : Packet) (s0 : State) => meetsIf infoSplitConfig true p s0 fun s =>
    let h := p.hearth
    let i := p.sect
    let x := splitFrom p.payload
    let t := applySplit h i x s
    decide (groupRule p s) && decide (secNow (secAt s h i) = .ready) && decide (splitOk p.payload h i s) &&
      decide (x.role == 0 || (s.flu.ports.getD (2 * h + x.port) {}).link) &&
      decide (x.role == 0 || splitFits h x.port t && demandFits t h (liveSources (hearthAt t h).cap))) (pkt [0, 0, 0, 0, 0, 0]) (modFlu (fun x => { x with role := 1 }) (atState .ready))) = true
    ∧ ((fun (p : Packet) (s0 : State) => meetsIf infoProbeSchedule true p s0 fun s =>
    let x := windowFrom p.payload
    decide (windowOk p.payload) && decide (s.flu.windows.length < 4) &&
      decide (¬(s.flu.windows.any (windowsOverlap x))) && decide (openTime s < x.start)) (pkt [0, 1, 0x00190400, 10]) leading) = true
    ∧ ((fun (p : Packet) (s0 : State) => meetsIf infoProbeRead true p s0 fun s =>
    let w := wordAt p.payload 0
    decide (zeroAt w 10 6) && decide (zeroAt w 22 2) && decide (zeroAt w 25 7) && decide (2 ≤ s.flu.acting) &&
      decide (s.flu.acting = 3)) (pkt [0]) (modFlu (fun x => { x with acting := 3 }) ready)) = true
    ∧ ((fun (p : Packet) (s0 : State) => meetsIf infoProbeRead true p s0 fun s =>
    let w := wordAt p.payload 0
    decide (zeroAt w 10 6) && decide (zeroAt w 22 2) && decide (zeroAt w 25 7) && decide (2 ≤ s.flu.acting) &&
      decide (s.flu.acting ≠ 3)) (pkt [0]) leading) = true
    ∧ ((fun (h : Nat) (s : State) =>
    decide (present s h) && decide (writable s)) 0 ready) = true := by
  decide +kernel

/-- A round with member 4 in progress, or due for its retry. -/
def round (f : Flu → Flu) : State := modFlu f leading
def secondTry (bad : Bool) : State := round fun x => { x with
  rounds := [(4, { retryAt := some 0, count := 1 })], heard := if bad then [(4, { mismatch := true })] else [] }
/-- Every clause of `GroupEvents` has a state and operands that meet its hypotheses. -/
theorem witness_groupEvents :
    ((fun (b : Beacon) (s : State) =>
    decide (groupPort s b.port)) { src := 0 } leading) = true
    ∧ ((fun (b : Beacon) (s : State) =>
    let u := noteTwin b s
    decide (groupPort s b.port) && decide (b.src = u.flu.deviceIndex)) { src := 0 } leading) = true
    ∧ ((fun (b : Beacon) (s : State) =>
    let u := noteTwin b s
    decide (groupPort s b.port) && decide (b.src ≠ u.flu.deviceIndex) && decide (frameNew u b.src 1 b.seq = false)) { src := 4, seq := 5 } (round fun x => { x with rxSeq := [(33, 9)] })) = true
    ∧ ((fun (b : Beacon) (s : State) =>
    let u := noteTwin b s
    decide (groupPort s b.port) && decide (b.src ≠ u.flu.deviceIndex) && decide (frameNew u b.src 1 b.seq) &&
      decide (2 ≤ u.flu.acting)) { src := 4, seq := 5 } leading) = true
    ∧ ((fun (b : Beacon) (s : State) =>
    let u := noteTwin b s
    decide (groupPort s b.port) && decide (b.src ≠ u.flu.deviceIndex) && decide (frameNew u b.src 1 b.seq) &&
      decide (u.flu.acting < 2)) { src := 4, seq := 5 } (round fun x => { x with acting := 1 })) = true
    ∧ ((fun (s : State) =>
    match s.flu.roundEnd with
    | some _ =>
        decide (s.flu.roundReplied)
    | _ => false) (round fun x => { x with roundEnd := some (1, 2), roundReplied := true })) = true
    ∧ ((fun (member : Nat) (s : State) =>
    let due := (kget s.flu.rounds member).any fun r => r.retryAt.any fun t => decide (t ≤ s.tbu.tick)
    decide (s.flu.acting = 2) && decide (due) && decide (mayCommand s member)) 4 (secondTry false)) = true
    ∧ ((fun (member : Nat) (s : State) =>
    let due := (kget s.flu.rounds member).any fun r => r.retryAt.any fun t => decide (t ≤ s.tbu.tick)
    decide (s.flu.acting = 2) && decide (due) && decide (mayCommand s member = false)) 4 (secondTry true)) = true
    ∧ ((fun (_ : Nat) (_ : Nat) (_ : ReplyIn) (_ : State) =>
    true) 4 1 {} leading) = true
    ∧ ((fun (member : Nat) (seq : Nat) (a : ReplyIn) (s : State) =>
    decide (s.flu.acting = 2) && decide (groupPort s a.port) && decide (frameNew s member 3 seq) &&
      decide ((kget s.flu.rounds member).filter (inRound · a.cmd) = none)) 4 1 {} leading) = true
    ∧ ((fun (member : Nat) (seq : Nat) (a : ReplyIn) (s : State) =>
    decide (s.flu.acting = 2) && decide (groupPort s a.port) && decide (frameNew s member 3 seq) &&
    match (kget s.flu.rounds member).filter (inRound · a.cmd) with
    | some _ =>
        true
    | _ => false) 4 1 {} (secondTry false)) = true
    ∧ ((fun (port : Nat) (frame : List (BitVec 8)) (s : State) =>
    decide (port < 2 * hearthCount s) && decide (ftfBad s port frame)) 0 [] ready) = true
    ∧ ((fun (s : State) =>
    decide (s.flu.acting = 3) && decide (5 ≤ s.flu.missed)) (round fun x => { x with acting := 3, missed := 5 })) = true
    ∧ ((fun (s : State) =>
    let x := s.flu
    decide (followsLeader s) && decide (x.digestAgree = false) && decide (x.digestWait = false) &&
      decide (x.digestSince + ticksPerSecond ≤ s.tbu.tick + 1)) (inTime (fun t => { t with tick := 480000 }) (round fun x => { x with acting := 1, digestAgree := false, digestWait := false }))) = true
    ∧ ((fun (h : Nat) (port : Nat) (up : Bool) (s : State) =>
    let p := s.flu.ports.getD (2 * h + port) {}
    decide (present s h) && decide (port < 2) && decide (p.mode ≠ 0) && decide (p.link ≠ up)) 0 0 false leading) = true := by
  decide +kernel

/-- A split section, changed. -/
def splitWith (st : SecState) (f : Split → Split) : State := modSec 0 0 (fun x => { x with state := st, split := f { x.split with role := 1 } }) leading
def timed (f : Ptp → Ptp) : State := round fun x => { x with ptp := f { x.ptp with mode := 1, portMask := 1 } }
/-- Every clause of `PtpAndTransportEvents` has a state and operands that meet its hypotheses. -/
theorem witness_ptpAndTransportEvents :
    ((fun (_ : PtpSync) (_ : State) =>
    true) {} (timed id)) = true
    ∧ ((fun (x : PtpSync) (s : State) =>
    decide (ptpPort s x.port) && decide (x.domain = s.flu.ptp.domain) &&
      decide (s.flu.ptp.mode == 1 || s.flu.ptp.mode == 2) && decide ((s.flu.ports.getD x.port {}).slave)) {} (round fun x => { x with ptp := { x.ptp with mode := 1, portMask := 1 }, ports := [{ ptp := true, slave := true }] })) = true
    ∧ ((fun (_ : PtpMsg) (_ : State) =>
    true) {} (timed id)) = true
    ∧ ((fun (m : PtpMsg) (s : State) =>
    decide (ptpPort s m.port) && decide (m.domain = s.flu.ptp.domain) && decide (s.flu.ptp.mode ≠ 0)) {} (timed id)) = true
    ∧ ((fun (s : State) =>
    let p := s.flu.ptp
    let late := decide (p.lastAnnounce + p.timeout * intervalTicks p.logAnnounce ≤ s.tbu.tick)
      || decide (p.lastSync + 4 * intervalTicks p.logSync ≤ s.tbu.tick)
    decide (s.tbu.timeStatus = 3) && decide (late)) (inTime (fun t => { t with timeStatus := 3, tick := 1000000000 }) (timed id))) = true
    ∧ ((fun (s : State) =>
    decide (s.tbu.timeStatus = 4) && decide (s.flu.ptp.holdFrom + 60 * ticksPerSecond ≤ s.tbu.tick + 1)) (inTime (fun t => { t with timeStatus := 4, tick := 1000000000 }) (timed id))) = true
    ∧ ((fun (h : Nat) (i : Nat) (s : State) =>
    let x := secAt s h i
    let n := 2 ^ x.split.samplesLog2
    decide (present s h) && decide (x.split.role ≠ 0) && decide (n ≤ x.split.out.length)) 0 0 (splitWith .live fun x => { x with out := List.replicate 2048 {} })) = true
    ∧ ((fun (h : Nat) (i : Nat) (f : TransportIn) (s : State) =>
    let x := secAt s h i
    let w := wordAt f.words 0
    decide (present s h) && decide (x.split.role ≠ 0) && decide ((s.flu.ports.getD f.port {}).transport) &&
      decide (fld w 16 6 = globalOf h i) && decide (fld w 6 1 = splitDir x.split)) 0 0 { words := [64] } (splitWith .live id)) = true
    ∧ ((fun (h : Nat) (i : Nat) (s : State) =>
    let x := secAt s h i
    decide (present s h) && decide (x.split.role ≠ 0) && decide (x.split.lost = false) &&
      decide (x.state ≠ .cold) && decide (480 ≤ x.split.starved)) 0 0 (splitWith .live fun x => { x with starved := 480 })) = true
    ∧ ((fun (h : Nat) (i : Nat) (s : State) =>
    let x := secAt s h i
    decide (present s h) && decide (x.split.role ≠ 0) && decide (x.split.lost) && decide (4800 ≤ x.split.fed) &&
      decide (x.state = .ready) && decide (x.split.stoppedByLoss)) 0 0 (splitWith .ready fun x => { x with lost := true, fed := 4800, stoppedByLoss := true })) = true
    ∧ ((fun (h : Nat) (i : Nat) (s : State) =>
    let x := secAt s h i
    decide (present s h) && decide (x.split.role ≠ 0) && decide (x.split.lost) && decide (4800 ≤ x.split.fed) &&
      decide (¬(x.state = .ready ∧ x.split.stoppedByLoss = true))) 0 0 (splitWith .live fun x => { x with lost := true, fed := 4800 })) = true := by
  decide +kernel

/-- A probe window of an acting leader or a member, waiting or running. -/
def windowed (acting : Nat) (run : Bool) : State := inTime (fun t => { t with time := 2 ^ 70, openAt := 2 ^ 70, tick := 1000000000 })
  (round fun x => { x with acting := acting, windows := [{ running := run }] })
/-- Every clause of `ProbeEvents` has a state and operands that meet its hypotheses. -/
theorem witness_probeEvents :
    ((fun (n : Nat) (s : State) =>
    match s.flu.windows[n]? with
    | some w =>
        decide (w.running = false) && decide (w.start < nextTime s) && decide (s.flu.acting = 2)
    | _ => false) 0 (windowed 2 false)) = true
    ∧ ((fun (n : Nat) (s : State) =>
    match s.flu.windows[n]? with
    | some w =>
        decide (w.running = false) && decide (w.start < nextTime s) && decide (s.flu.acting ≠ 2)
    | _ => false) 0 (windowed 1 false)) = true
    ∧ ((fun (n : Nat) (start : Nat) (s : State) =>
    match s.flu.windows[n]? with
    | some w =>
        decide (w.running) && decide (w.start = start) && decide (w.start + milliTime w.duration ≤ openTime s) &&
          decide (s.flu.acting = 2)
    | _ => false) 0 0 (windowed 2 true)) = true
    ∧ ((fun (n : Nat) (start : Nat) (s : State) =>
    match s.flu.windows[n]? with
    | some w =>
        decide (w.running) && decide (w.start = start) && decide (w.start + milliTime w.duration ≤ openTime s) &&
          decide (s.flu.acting ≠ 2) && decide (s.flu.acting = 0)
    | _ => false) 0 0 (windowed 0 true)) = true
    ∧ ((fun (n : Nat) (start : Nat) (s : State) =>
    match s.flu.windows[n]? with
    | some w =>
        decide (w.running) && decide (w.start = start) && decide (w.start + milliTime w.duration ≤ openTime s) &&
          decide (s.flu.acting ≠ 2) && decide (s.flu.acting ≠ 0)
    | _ => false) 0 0 (windowed 1 true)) = true
    ∧ ((fun (r : ProbeReport) (s : State) =>
    decide (groupPort s r.port) && decide (s.flu.acting = 2) && decide (frameNew s r.src 5 r.seq) &&
      decide (r.start = s.flu.reportStart)) { src := 4, seq := 1, start := 0 } (round fun x => { x with reportStart := 0 })) = true
    ∧ ((fun (r : ProbeReport) (s : State) =>
    decide (groupPort s r.port) && decide (s.flu.acting = 2) && decide (frameNew s r.src 5 r.seq) &&
      decide (r.start ≠ s.flu.reportStart)) { src := 4, seq := 1, start := 9 } (round fun x => { x with reportStart := 0 })) = true
    ∧ ((fun (n : Nat) (s : State) =>
    match s.flu.couplings[n]? with
    | some c =>
        decide (couplingOld s c)
    | _ => false) 0 (inTime (fun t => { t with tick := 100000000000 }) (round fun x => { x with couplings := [{}] }))) = true
    ∧ ((fun (s : State) =>
    let x := s.flu
    decide (x.acting = 2) && decide (x.surveyPeriod ≠ 0) &&
      decide (x.surveyAt.any (fun t => decide (t ≤ s.tbu.tick)) = true)) (round fun x => { x with surveyPeriod := 60, surveyAt := some 0 })) = true := by
  decide +kernel

/-- Every clause of `MemoryAndErrorRows` has a state and operands that meet its hypotheses. -/
theorem witness_memoryAndErrorRows :
    ((fun (h : Nat) (sub : Nat) (rank : Nat) (_ : DramLine) (s : State) =>
    decide (rankOk s h sub rank)) 0 0 0 [] ready) = true
    ∧ ((fun (h : Nat) (region : Nat) (r : LineRead) (s : State) =>
    decide (rankOk s h r.sub r.rank) && decide (regionOf (hearthAt s h).xmc h r.address = some region) &&
      decide (lineUce (markOf s h r.sub r.rank) r.line)) 0 0 { line := [[1, 6, 0, 0, 0, 0, 0, 0, 0, 0]] } ready) = true
    ∧ ((fun (h : Nat) (sub : Nat) (rank : Nat) (_ : DramLine) (_ : Bool) (s : State) =>
    decide (rankOk s h sub rank)) 0 0 0 [] false ready) = true
    ∧ ((fun (h : Nat) (region : Nat) (_ : Nat) (s : State) =>
    decide (present s h) && decide (region == 0 || region == 4) && decide (region = 4)) 0 4 0 ready) = true
    ∧ ((fun (h : Nat) (region : Nat) (_ : Nat) (s : State) =>
    decide (present s h) && decide (region == 0 || region == 4) && decide (region ≠ 4)) 0 0 0 ready) = true
    ∧ ((fun (h : Nat) (link : Nat) (_ : Bool) (s : State) =>
    decide (present s h) && decide (link < 2)) 0 0 false ready) = true
    ∧ ((fun (h : Nat) (link : Nat) (s : State) =>
    decide (present s h) && decide (16 ≤ (hearthAt s h).dfb.retryRun.getD link 0)) 0 0 (modHearth 0 (fun x => { x with dfb := { x.dfb with retryRun := [16, 0] } }) ready)) = true
    ∧ ((fun (h : Nat) (s : State) =>
    decide (s.pkg ≠ .doused) && decide (present s h)) 0 ready) = true
    ∧ ((fun (m : Nat) (h : Nat) (s : State) =>
    decide (masterPriv s m) && decide (s.pkg ≠ .doused) && decide (present s h)) 1 0 ready) = true
    ∧ ((fun (h : Nat) (source : Nat) (_ : Nat) (s : State) =>
    let package := decide (source ≤ 3) || source == 8 || source == 9 || decide (480 ≤ source ∧ source ≤ 495) || decide (504 ≤ source)
    decide (present s h) && decide (source < 512) && decide (assigned source) && decide (ownRow source = false) &&
      decide (¬(package && h != 0)) &&
      decide (448 ≤ source ∧ source ≤ 463 ∨ 320 ≤ source ∧ source ≤ 383 ∧ (loopAt s h (source - 320)).state = 1)) 0 448 0 ready) = true
    ∧ ((fun (h : Nat) (source : Nat) (_ : Nat) (s : State) =>
    let package := decide (source ≤ 3) || source == 8 || source == 9 || decide (480 ≤ source ∧ source ≤ 495) || decide (504 ≤ source)
    decide (present s h) && decide (source < 512) && decide (assigned source) && decide (ownRow source = false) &&
      decide (¬(package && h != 0)) && decide (¬(448 ≤ source ∧ source ≤ 463)) &&
      decide (¬(320 ≤ source ∧ source ≤ 383 ∧ (loopAt s h (source - 320)).state = 1))) 0 1 0 ready) = true := by
  decide +kernel

/-- The fault collector of hearth 0 changed; section 0 held commands. -/
def inFcol (f : Fcol → Fcol) : State := modFcol 0 f ready
/-- Every clause of `FaultCollectorRows` has a state and operands that meet its hypotheses. -/
theorem witness_faultCollectorRows :
    ((fun (p : Packet) (s0 : State) => meetsIf infoFcolSourceConfig true p s0 fun _ =>
    let a := wordAt p.payload 0
    let b := wordAt p.payload 1
    let dflt := bitOf b 16
    let ns := (List.range 512).filter fun n => decide (fld a 0 9 ≤ n) && decide (n ≤ fld a 16 9)
    let cls := fld b 0 2
    let react := fld b 4 5
    decide (zeroAt a 9 7) && decide (zeroAt a 25 7) && decide (zeroAt b 2 2) && decide (zeroAt b 9 7) &&
      decide (zeroAt b 17 15) && decide (fld a 0 9 ≤ fld a 16 9) &&
      decide (dflt || (cls != 3 && ns.all (fun n => !lockedSources.contains n || cls == (sourceDefault n).1) && (!maskHas react 2 || ns.all blockAllowed)))) (pkt [0, 0x10000]) ready) = true
    ∧ ((fun (p : Packet) (s0 : State) => meetsIf infoFcolInject true p s0 fun s =>
    let w := wordAt p.payload 0
    let f := (hearthAt s p.hearth).fcol
    decide (fld w 12 2 ≠ 3) && decide (zeroAt w 9 3) && decide (zeroAt w 14 18) && decide (f.injPending = false) &&
      decide ((kget f.rails (fld w 0 9)).isNone)) (pkt [0]) ready) = true
    ∧ ((fun (p : Packet) (s0 : State) => meetsIf infoFcolQuery true p s0 fun _ =>
    true) (pkt []) ready) = true
    ∧ ((fun (h : Nat) (clk : Nat) (s : State) =>
    let t := takeLostFatal h clk s
    let f := (hearthAt t h).fcol
    decide (present s h) && decide (inTick s clk) && decide (f.seqActive)) 0 5 (inFcol fun x => { x with seqActive := true })) = true
    ∧ ((fun (h : Nat) (clk : Nat) (s : State) =>
    let t := takeLostFatal h clk s
    let f := (hearthAt t h).fcol
    decide (present s h) && decide (inTick s clk) && decide (f.seqActive = false)) 0 5 ready) = true
    ∧ ((fun (h : Nat) (source : Nat) (clk : Nat) (data : Nat) (s : State) =>
    let t := modFcol h (fun x => { x with
      rails := kset x.rails source (data % 2 ^ 32), seen := x.seen.erase source
      err := if x.hold.contains source then x.err else kerase x.err source }) s
    let f := (hearthAt t h).fcol
    decide (present s h) && decide (source < 512) && decide (inTick s clk) &&
      decide ((kget (hearthAt s h).fcol.rails source).isNone) && decide (f.seqActive)) 0 20 5 1 (inFcol fun x => { x with seqActive := true })) = true
    ∧ ((fun (h : Nat) (source : Nat) (clk : Nat) (data : Nat) (s : State) =>
    let t := modFcol h (fun x => { x with
      rails := kset x.rails source (data % 2 ^ 32), seen := x.seen.erase source
      err := if x.hold.contains source then x.err else kerase x.err source }) s
    let f := (hearthAt t h).fcol
    decide (present s h) && decide (source < 512) && decide (inTick s clk) &&
      decide ((kget (hearthAt s h).fcol.rails source).isNone) && decide (f.seqActive = false)) 0 20 5 1 ready) = true
    ∧ ((fun (h : Nat) (source : Nat) (_ : Option Nat) (s : State) =>
    decide (present s h) && decide ((kget (hearthAt s h).fcol.rails source).isSome)) 0 20 none (inFcol fun x => { x with rails := [(20, 1)] })) = true
    ∧ ((fun (h : Nat) (s : State) =>
    let clk := (hearthAt s h).fcol.seqEnd
    let t := takeLostFatal h clk s
    let chip := (hearthAt t h).fcol.chipDue && t.pkg != .doused && t.pkg != .kindling
    decide (present s h) && decide ((hearthAt s h).fcol.seqActive) && decide (clk < s.tbu.clock + s.tbu.tickLen) &&
      decide (chip)) 0 (inFcol fun x => { x with seqActive := true, chipDue := true })) = true
    ∧ ((fun (h : Nat) (s : State) =>
    let clk := (hearthAt s h).fcol.seqEnd
    let t := takeLostFatal h clk s
    let chip := (hearthAt t h).fcol.chipDue && t.pkg != .doused && t.pkg != .kindling
    decide (present s h) && decide ((hearthAt s h).fcol.seqActive) && decide (clk < s.tbu.clock + s.tbu.tickLen) &&
      decide (chip = false)) 0 (inFcol fun x => { x with seqActive := true })) = true
    ∧ ((fun (h : Nat) (s : State) =>
    decide (present s h)) 0 ready) = true
    ∧ ((fun (h : Nat) (clk : Nat) (_ : Nat) (s : State) =>
    let f := (hearthAt s h).fcol
    decide (present s h) && decide (f.injPending) && decide (f.seqActive = false) && decide (inTick s clk) &&
      decide (clk = injectionClock s f)) 0 0 0 (inFcol fun x => { x with injPending := true })) = true
    ∧ ((fun (s : State) =>
    decide (s.pins.faultPulse.any fun e => decide (e < s.tbu.clock + s.tbu.tickLen))) { ready with pins := { ready.pins with faultPulse := some 0 } }) = true
    ∧ ((fun (h : Nat) (k : Nat) (_ : Word) (s : State) =>
    decide (present s h) && decide (k < 16) && decide (writable s)) 0 0 5 ready) = true
    ∧ ((fun (h : Nat) (s : State) =>
    decide (present s h) && decide (writable s)) 0 ready) = true
    ∧ ((fun (h : Nat) (s : State) =>
    decide (present s h) && decide (writable s)) 0 ready) = true
    ∧ ((fun (m : Nat) (h : Nat) (s : State) =>
    decide (present s h) && decide (writable s) && decide (masterPriv s m)) 1 0 ready) = true
    ∧ ((fun (h : Nat) (s : State) =>
    decide (present s h) && decide (writable s)) 0 ready) = true := by
  decide +kernel

/-- The Ash Log changed. -/
def inAlog (f : Alog → Alog) : State := modAlog f ready
/-- A record whose word 6 has every flag. -/
def flagged (s : State) : State := modBoot (fun x => { x with record := some ((List.replicate 32 (0 : Word)).set 6 0xF) }) s
/-- Every clause of `AshLogRows` has a state and operands that meet its hypotheses. -/
theorem witness_ashLogRows :
    ((fun (p : Packet) (s0 : State) => meetsIf infoAlogRead true p s0 fun s =>
    let w := wordAt p.payload 0
    let index := fld w 0 14
    decide (logReadOk w) && decide ((kget s.alog.ring index).isSome)) (pkt [0x00010000]) (inAlog fun a => { a with ring := [(0, {})] })) = true
    ∧ ((fun (p : Packet) (s0 : State) => meetsIf infoEmbersRead true p s0 fun s =>
    let w := wordAt p.payload 0
    let index := fld w 0 14
    let set := s.alog.loadedSet
    decide (logReadOk w) && decide (index < 1024) && decide (s.alog.emberValid) &&
      decide (index < set.entries.length)) (pkt [0x00010000]) (inAlog fun a => { a with emberValid := true, loadedSet := { a.loadedSet with entries := [{}] } })) = true
    ∧ ((fun (p : Packet) (s0 : State) => meetsIf infoAlogRateConfig true p s0 fun s =>
    let w0 := wordAt p.payload 0
    let w1 := wordAt p.payload 1
    let code := fld w0 0 16
    let dflt := bitOf w0 24
    match codeDefaults code with
    | some d =>
        let burst := if dflt then d.1 else fld w0 16 8
        let refill := if dflt then d.2 else fld w1 0 16
        decide ((bucketOf s code).isSome) && decide (zeroAt w0 25 7) && decide (zeroAt w1 16 16) &&
          decide (burst ≠ 0) && decide (refill ≠ 0)
    | _ => false) (pkt [0x01000310, 0]) ready) = true
    ∧ ((fun (p : Packet) (s0 : State) => meetsIf infoAlogMark true p s0 fun _ =>
    true) (pkt [0]) ready) = true
    ∧ ((fun (h : Nat) (s : State) =>
    match (hearthAt s h).dfb.logQ with
    | _ :: _ =>
        true
    | _ => false) 0 (inHearth fun x => { x with dfb := { x.dfb with logQ := [{}] } })) = true
    ∧ ((fun (h : Nat) (_ : LogIn) (s : State) =>
    decide (1024 ≤ (hearthAt s h).dfb.logQ.length)) 0 {} (inHearth fun x => { x with dfb := { x.dfb with logQ := List.replicate 1024 {} } })) = true
    ∧ ((fun (code : Nat) (s : State) =>
    match kget s.alog.buckets code with
    | some b =>
        decide (refillBucket b ≠ b)
    | _ => false) 784 (inAlog fun a => { a with buckets := [(784, { burst := 2, tokens := 1, counter := 5, refillNow := 5 })] })) = true
    ∧ ((fun (s : State) =>
    decide (bitOf (recordWord s 6) 3) && decide (¬(maskHas (hearthAt s 0).fes.gpioIn (fld (recordWord s 6) 4 4)))) (flagged ready)) = true
    ∧ ((fun (m : Nat) (s : State) =>
    decide (masterPriv s m) && decide (s.pkg ≠ .doused)) 1 ready) = true
    ∧ ((fun (ok : Bool) (s : State) =>
    let t := emberWritten ok s
    decide (s.alog.emberWriting) && decide (t.thmPkg.stop = 2)) true (modThmPkg (fun x => { x with stop := 2 }) (inAlog fun a => { a with emberWriting := true }))) = true
    ∧ ((fun (ok : Bool) (s : State) =>
    let t := emberWritten ok s
    decide (s.alog.emberWriting) && decide (t.thmPkg.stop ≠ 2)) true (inAlog fun a => { a with emberWriting := true })) = true
    ∧ ((fun (ok : Bool) (s : State) =>
    decide (s.alog.erasing) && decide (ok)) true (inAlog fun a => { a with erasing := true })) = true
    ∧ ((fun (ok : Bool) (s : State) =>
    decide (s.alog.erasing) && decide (ok = false)) false (inAlog fun a => { a with erasing := true })) = true
    ∧ ((fun (s : State) =>
    decide (s.pkg ≠ .doused)) ready) = true := by
  decide +kernel

/-- The thermal unit of hearth 0, and the package's hold, changed. -/
def hot (f : Thm → Thm) : State := inHearth fun x => { x with thm := f x.thm }
def cooling : State := modThmPkg (fun x => { x with resumeTicks := 480000 }) ready
/-- Every clause of `ThermalRows` has a state and operands that meet its hypotheses. -/
theorem witness_thermalRows :
    ((fun (p : Packet) (s0 : State) => meetsIf infoThermalConfig true p s0 fun _ =>
    decide (thmCfgOk p.payload)) (pkt [1770814835, 16777221, 65537536, 0]) ready) = true
    ∧ ((meets infoThermalResume (pkt []) (setHolds (fun x => { x with thermal := true }) (modThmPkg (fun x => { x with resumeOk := true }) ready)) fun s => s.holds.thermal && s.thmPkg.resumeOk)) = true
    ∧ ((fun (p : Packet) (s0 : State) => meetsIf infoThermalQuery true p s0 fun _ =>
    true) (pkt []) ready) = true
    ∧ ((fun (h : Nat) (_ : List Int) (s : State) =>
    decide (present s h) && decide (s.tbu.tick % 48 = 47) && decide (s.pkg ≠ .doused)) 0 [] (inTime (fun t => { t with tick := 47 }) ready)) = true
    ∧ ((fun (h : Nat) (s : State) =>
    let x := (hearthAt s h).thm
    let n := x.cfg.shedTime * 480
    decide (present s h) && decide (n ≤ x.fullRun) &&
    match lowestUnshed s h with
    | some _ =>
        true
    | _ => false) 0 (modSec 0 0 (fun x => { x with state := .live, defn := some aDef }) (hot fun x => { x with cfg := { x.cfg with shedTime := 1 }, fullRun := 480 }))) = true
    ∧ ((fun (h : Nat) (s : State) =>
    let x := (hearthAt s h).thm
    let n := x.cfg.shedTime * 480
    decide (present s h) && decide (x.fullRun < n) && decide (x.shed.isEmpty = false) && decide (n ≤ x.coolRun)) 0 (hot fun x => { x with cfg := { x.cfg with shedTime := 1 }, shed := [3], coolRun := 480 })) = true
    ∧ ((fun (h : Nat) (zone : Nat) (s : State) =>
    decide (present s h) && decide (zone < 8) && decide (s.pkg ≠ .doused)) 0 0 ready) = true
    ∧ ((fun (s : State) =>
    decide (s.thmPkg.resumeOk = false) && decide (480000 ≤ s.thmPkg.resumeTicks) && decide (s.pkg ≠ .doused) &&
      decide (bitOf (recordWord s 6) 1) && decide (s.holds.thermal)) (setHolds (fun x => { x with thermal := true }) (flagged cooling))) = true
    ∧ ((fun (s : State) =>
    decide (s.thmPkg.resumeOk = false) && decide (480000 ≤ s.thmPkg.resumeTicks) && decide (s.pkg ≠ .doused) &&
      decide (¬(bitOf (recordWord s 6) 1 && s.holds.thermal))) cooling) = true
    ∧ ((fun (h : Nat) (s : State) =>
    decide (present s h) && decide (writable s)) 0 ready) = true := by
  decide +kernel

/-- A command of an opcode is held. -/
def holding (op : Nat) (ws : List Word) : State := modCpx (fun c => { c with held := [{ op := op, words := ws }] }) ready
def resetting (k : PkgState) (s : State) : State := { s with pkg := k }
def recorded : State := modBoot (fun x => { x with record := some [] }) ready
def aKey : List Word := [0, 4] ++ List.replicate 48 0
/-- What an accepted IMAGE_ACTIVATE asks for before the image is verified. -/
def activates (w : Word) (s0 : State) (c : State → Bool) : Bool :=
  meets infoImageActivate (pkt [w]) s0 fun s => !stagesRun s && zeroAt w 2 2 && zeroAt w 6 26 && (decide (2 ≤ fld w 4 2) || s.sec.record.isSome) && c s
/-- Every clause of `SecurityRows` has a state and operands that meet its hypotheses. -/
theorem witness_securityRows :
    ((fun (p : Packet) (s0 : State) => meetsIf infoAttest true p s0 fun s =>
    decide (s.cpx.held.length < 256)) (pkt [0, 0, 0, 0, 0, 0, 0, 0]) ready) = true
    ∧ ((fun (p : Packet) (s0 : State) => meetsIf infoCertRead true p s0 fun _ =>
    let w := wordAt p.payload 0
    decide (fld w 0 2 ≤ 1) && decide (zeroAt w 2 30)) (pkt [0]) ready) = true
    ∧ ((fun (p : Packet) (s0 : State) => meetsIf infoImageWrite true p s0 fun s =>
    let w := wordAt p.payload 0
    let target := fld w 0 2
    let offset := (wordAt p.payload 1).toNat
    let data := p.payload.drop 2
    let first := bitOf w 8
    let room := if target = 3 then 0x10000 else 0x1000000
    decide (stagesRun s = false) && decide ((heldFor s 0x0D0A 0).isEmpty) && decide (zeroAt w 2 6) &&
      decide (zeroAt w 10 22) && decide (decide (2 ≤ target) || s.sec.record.isSome) &&
      decide (if first then offset == 0 else s.sec.xfer.any fun x => x.target == target && x.offset == offset) &&
      decide (offset + 4 * data.length ≤ room) && decide (target = 2)) (pkt [0x102, 0, 5]) ready) = true
    ∧ ((fun (p : Packet) (s0 : State) => meetsIf infoImageWrite true p s0 fun s =>
    let w := wordAt p.payload 0
    let target := fld w 0 2
    let offset := (wordAt p.payload 1).toNat
    let data := p.payload.drop 2
    let first := bitOf w 8
    let room := if target = 3 then 0x10000 else 0x1000000
    decide (stagesRun s = false) && decide ((heldFor s 0x0D0A 0).isEmpty) && decide (zeroAt w 2 6) &&
      decide (zeroAt w 10 22) && decide (decide (2 ≤ target) || s.sec.record.isSome) &&
      decide (if first then offset == 0 else s.sec.xfer.any fun x => x.target == target && x.offset == offset) &&
      decide (offset + 4 * data.length ≤ room) && decide (target ≠ 2) && decide (s.cpx.held.length < 256)) (pkt [0x103, 0, 5]) ready) = true
    ∧ ((fun (ok : Bool) (s : State) =>
    match (heldFor s 0x0D0A 0).head? with
    | some c =>
        let last := bitOf (wordAt c.words 0) 9
        decide (last) && decide (ok = false)
    | _ => false) false (holding 0x0D0A [0x200])) = true
    ∧ ((fun (ok : Bool) (s : State) =>
    match (heldFor s 0x0D0A 0).head? with
    | some c =>
        let last := bitOf (wordAt c.words 0) 9
        decide (¬(last && !ok))
    | _ => false) true (holding 0x0D0A [0x200])) = true
    ∧ ((activates 0x30 ready fun _ => fld (0x30 : Word) 0 2 == 0)) = true
    ∧ ((activates 0x11 recorded fun _ => fld (0x11 : Word) 0 2 == 1 && decide (fld (0x11 : Word) 4 2 < 2))) = true
    ∧ ((activates 0x33 ready fun s => fld (0x33 : Word) 0 2 == 3 && s.sec.rollbackProg.isNone && decide (s.sec.fwSvn ≤ s.sec.rollback))) = true
    ∧ ((activates 0x33 (modBoot (fun x => { x with fwSvn := 5 }) ready) fun s => s.sec.rollbackProg.isNone && decide (s.sec.rollback < s.sec.fwSvn) && roomHeld s)) = true
    ∧ ((activates 0x32 (resetting .kindling (modBoot (fun x => { x with stage := 7 }) recorded)) fun s => s.pkg == .kindling)) = true
    ∧ ((activates 0x32 singing fun s => s.pkg != .kindling && !s.holds.reset && roomHeld s)) = true
    ∧ ((fun (_ : Bool) (s : State) =>
    match s.sec.rollbackProg with
    | some _ =>
        true
    | _ => false) true (modBoot (fun x => { x with rollbackProg := some 3 }) ready)) = true
    ∧ ((meets infoOemKeyWrite (pkt aKey) ready fun s => !stagesRun s && s.sec.keyProg.isNone && s.sec.oemKey.isNone && (keyBytes aKey).head? == some 4 && zeroAt (wordAt aKey 25) 8 24 && roomHeld s)) = true
    ∧ ((fun (_ : Bool) (s : State) =>
    match s.sec.keyProg with
    | some (_, _) =>
        true
    | _ => false) true (modBoot (fun x => { x with keyProg := some (0, 9) }) ready)) = true
    ∧ ((fun (s : State) =>
    match s.cpx.held.find? fun c => c.op == 0x0D08 with
    | some c =>
        match kget s.sec.reports c.key with
        | some _ =>
            true
        | _ => false
    | _ => false) (modBoot (fun x => { x with reports := [(0, [])] }) (holding 0x0D08 []))) = true := by
  decide +kernel


/-! ### Operand ranges (WellFormed.lean) -/

/-- A DRAM line of zeros. -/
def aLine : DramLine := List.replicate 16 (List.replicate 10 0)

/-- One term for each check of `wellFormed` that breaks it alone. -/
def illFormed : List Instr :=
  [.resetNRise 4 false, .bootStageComplete { trainFail := [8] }, .sectionUndamp 8 0, .sectionUndamp 0 8,
    .scheduledAction (2 ^ 32) 0, .bdcMeasPublish 8 0, .bdcMeasPublish 0 64, .bdcCompactionStep 8,
    .lineDetect 8 0 0 0 0 0, .lineDetect 0 8 0 0 0 0,
    .lineDetect 0 0 2 0 0 0, .lineDetect 0 0 0 2 0 0,
    .toneTestHalfPeriod 8 0 0, .toneTestHalfPeriod 0 8 0, .toneTestHalfPeriod 0 0 2,
    .strangerMaskExpiry 8 0 0 0 0, .strangerMaskExpiry 0 8 0 0 0, .strangerMaskExpiry 0 0 2 0 0,
    .strangerMaskExpiry 0 0 0 2 0, .strangerMaskExpiry 0 0 0 0 64, .squelchWindow 8 0 0 0, .squelchWindow 0 8 0 0,
    .squelchWindow 0 0 2 0, .setptValidityChange 2 {}, .synLocked 8 0 0, .synLocked 0 4 0, .actSequenceEnd 8 0,
    .actSequenceEnd 0 16, .lcalEstimateStart 8 0 0, .lcalEstimateStart 0 10 0, .lcalEstimateStart 0 0 9, .deltaWithdraw 8 0,
    .deltaWithdraw 0 10, .orxAlternate 8 0, .orxAlternate 0 2, .firebrickProgramDone false [1, 1, 1, 1, 1, 1, 1],
    .firebrickRowInForce 64, .sqTailWrite 64 {}, .sqTailWrite 0 { tail := 65536 }] ++
  [.cqHeadWrite 64 0, .cqHeadWrite 0 65536, .sqExtensionTimeout 64 {}, .sqExtensionTimeout 0 { src := 0x43 }, .linkReset 4,
    .flrVf 0, .flrVf 31, .d3hotChange 2 false, .linkRetrain 0 16, .linkRetrain 6 16, .linkRetrain 5 2,
    .dmaReadErr { capture := true, hearth := 8 }, .dmaReadErr { hearth := 8 }, .dmaReadErr { sect := 8 },
    .dmaReadErr { kind := 2 }, .streamStartTime 8 0 0, .streamStartTime 0 8 0, .streamStartTime 0 0 2,
    .beaconReceive { port := 16 }, .beaconReceive { src := 1024 }, .beaconReceive { seq := 2 ^ 32 }, .planRoundRetry 1024,
    .ftfDiscard 16 [], .ftfDiscard 0 (List.replicate 9011 0), .replyFrameReceive 1024 0 {}, .replyFrameReceive 0 (2 ^ 32) {}, .replyFrameReceive 0 0 { status := 256 },
    .ptpSyncReceive { port := 16 }, .ptpMessageReceive { port := 16 }, .transportReceive 8 0 {}, .transportReceive 0 8 {},
    .transportReceive 0 0 { port := 16 }, .probeReportReceive { port := 16 }, .probeReportReceive { src := 1024 },
    .probeReportReceive { seq := 2 ^ 32 }, .flueLinkChange 8 0 false, .flueLinkChange 0 2 false, .dramCorrectedRead 8 0 0 aLine,
    .dramCorrectedRead 0 2 0 aLine, .dramCorrectedRead 0 0 2 aLine, .dramCorrectedRead 0 0 0 [], .dramCorrectedRead 0 0 0 (List.replicate 16 []),
    .dramCorrectedRead 0 0 0 (List.replicate 16 (List.replicate 10 16))] ++
  [.dramUce 8 0 { line := aLine }, .dramUce 0 0 { address := 2 ^ 64, line := aLine }, .dramUce 0 0 { sub := 2, line := aLine },
    .dramUce 0 0 { rank := 2, line := aLine }, .dramUce 0 0 {}, .scrubLine 8 0 0 aLine false, .scrubLine 0 2 0 aLine false,
    .scrubLine 0 0 2 aLine false, .scrubLine 0 0 0 [] false, .linkFrameRetry 8 0 false, .linkFrameRetry 0 2 false,
    .errorDetected 8 0 0, .errorDetected 0 512 0, .bucketRefill 65536, .thmConversion 8 (List.replicate 16 0),
    .thmConversion 0 [], .thermalTrip 8 0, .thermalTrip 0 8, .wideReqWrite 34 0, .wideReqWrite 0 65536, .wideData3Read 34,
    .sysHbWrite 34 0, .sysHbWrite 0 65536, .sysIntEnWrite 34 0, .sysIntEnWrite 0 1024, .sysIntPendClear 1024,
    .fcolPendClear 8 0 0, .fcolPendClear 0 16 0, .fcolFfClr 34 0, .fcolFfClr 0 8, .registerWrite 34 0 0, .registerWrite 96 0 0,
    .registerWrite 0 (2 ^ 64) 0, .tddPatternEdge 8 0 0, .tddPatternEdge 0 8 0, .nop { src := 0x43 }, .nop { flags := 256 },
    .nop { hearth := 16 }, .nop { sect := 16 }, .nop { tag := 65536 }, .nop { seq := 2 ^ 32 }, .nop { port := 16 }]

theorem test_illFormedRefused : illFormed.all (fun c => !wellFormed c) = true := by decide +kernel

/-- A payload of 4,096 words has no LENGTH. -/
theorem test_tooLongRefused : wellFormed (.nop { payload := List.replicate 4096 0 }) = false := by decide +kernel

/-- The same terms within the ranges, one for each form of the check. -/
def inRange : List Instr :=
  [.resetNRise 0 false, .bootStageComplete {}, .kindlingComplete 0, .sectionUndamp 0 0, .scheduledAction 0 0,
    .sectionDefine {}, .bdcMeasPublish 0 0, .bdcCompactionStep 0, .lineDetect 0 0 0 0 0 0,
    .toneTestHalfPeriod 0 0 0, .strangerMaskExpiry 0 0 0 0 0, .squelchWindow 0 0 0 0, .setptValidityChange 0 {},
    .synLocked 0 0 0, .actSequenceEnd 0 0, .lcalEstimateStart 0 0 0, .deltaWithdraw 0 0, .orxAlternate 0 0,
    .firebrickProgramDone false [], .firebrickRowInForce 0, .sqTailWrite 0 {}, .cqHeadWrite 0 0, .sqExtensionTimeout 0 {},
    .linkReset 0, .flrVf 1, .d3hotChange 0 false, .linkRetrain 5 16, .dmaReadErr {}, .streamStartTime 0 0 0,
    .beaconReceive {}, .planRoundRetry 0, .ftfDiscard 0 [], .replyFrameReceive 0 0 {}, .ptpSyncReceive {},
    .ptpMessageReceive {}, .transportReceive 0 0 {}, .probeReportReceive {}, .flueLinkChange 0 0 false,
    .dramCorrectedRead 0 0 0 aLine, .dramUce 0 0 { line := aLine }] ++
  [.scrubLine 0 0 0 aLine false, .linkFrameRetry 0 0 false, .errorDetected 0 0 0, .bucketRefill 0,
    .thmConversion 0 (List.replicate 16 0), .thermalTrip 0 0, .wideReqWrite 0 0, .wideData3Read 0, .sysHbWrite 0 0,
    .sysIntEnWrite 0 0, .sysIntPendClear 0, .fcolPendClear 0 0 0, .fcolFfClr 0 0, .registerWrite 0 0 0, .registerWrite 64 0x50 0, .tddPatternEdge 0 0 0]

theorem test_inRangeAccepted : inRange.all wellFormed = true := by decide +kernel

/-! ### Worked examples and numbers of the spec -/

/-- STEP of a tracking time constant (R112). -/
theorem test_trackingSteps : [20, 200, 2000].map stepOf = [17476, 1748, 175] := by decide +kernel

/-- The reset value of TBU_INCR is 2^64 / 983,040,000 rounded (R57). -/
theorem test_tbuIncr : (State.reset.tbu.incr : Int) = roundDiv (2 ^ 64) 983040000 := by decide +kernel

/-- The applied gain and held of R24, before and after the aisle fills (R25's example). -/
theorem test_appliedGain :
    let g (dmp : Int) : GainTerms := { request := min 0x5480 24320, thm := 0x7FFF, dmp := dmp, spa := 0x7FFF, fb := 23040 }
    (appliedOf (g 23552), heldOf24 (g 23552)) = (0x5480, false) ∧ (appliedOf (g 0x4E00), heldOf24 (g 0x4E00)) = (0x4E00, true) := by
  decide +kernel

/-- DDDSU at 30 kHz spacing: the DL ends at 1,825,792 clocks and the UL opens at 1,895,936 (R52's example). -/
def dddsu : Bank := { slotDur := 1, slots := ((List.range 4).map fun _ =>
  ([{}, {}, {}, { typ := 2, dlSym := 10, ulSym := 2 }, { typ := 1 }] : List SlotEntry)).flatten }

theorem test_dddsuEdges :
    [1825791, 1825792, 1895935, 1895936].map (dirAt (bankEdges dddsu)) = [0, 2, 2, 1] ∧ dutyClocks (bankEdges dddsu) 0 = 7303168 := by
  decide +kernel

/-- The S slot of that pattern is 0x00AA in the payload. -/
theorem test_slotEntry : slotOf [0, 0x00AA] 0 = { typ := 2, dlSym := 10, ulSym := 2 } := by decide +kernel

/-- The relay test of R216's example: KU, KP and KI as they are encoded. -/
theorem test_relayGains :
    let c : LoopCfg := { relayAmp := 0x100, tuneRule := 0 }
    ((tuneGains c 96 2304).1.take 2).map (fun e => encodeCoef e.1 e.2) = [some (0x4131, 0), some (0x684E, -5)] := by
  decide +kernel

/-- COST_MAX of the slots of R194's example. -/
theorem test_costMax :
    let gain : LoopCfg := { plausEn := true, mfiltEn := true }
    let trim (p : Nat) : LoopCfg := { k := 3, phase := p, dEn := true, notchEn := true }
    costMax (List.replicate 24 gain ++ [trim 0, trim 2, trim 4, trim 6] ++ List.replicate 36 ({} : LoopCfg)) = 2112 + 112 + 1728 := by
  decide +kernel

/-- Slots and reservations of packets and replies (R360, R364 and the example of the command chapter). -/
theorem test_slots :
    [0, 12, 17, 25, 33, 448, 4095].map slotsOf = [1, 1, 2, 2, 3, 29, 257] ∧ reservation 448 = 57 ∧ reservation 25 = 3 := by decide +kernel

/-- Serial-number order (R353). -/
theorem test_serial : serialGt 0 0xFFFFFFFF = true ∧ serialGt 7 7 = false ∧ serialGt 0x80000007 7 = false := by decide +kernel

/-- A block of 4,096 samples of two branches in FORMAT 0 is 32,832 bytes (R423's example). -/
theorem test_streamBlock : blockBytes { branchMask := 3 } 4096 = 32832 := by decide +kernel

/-- The content words of Firebrick row 0 of R337's example. -/
def row0 : FbRow := { words := [0x13AB6680, 0x16A65700, 0x06005F00, 0x1E001E00, 0x44] }

theorem test_firebrickRow :
    rowStart row0 = 330000000 ∧ rowStop row0 = 380000000 ∧ rowGain row0 = 24320 ∧ rowDir row0 = 0 ∧ rowDuty row0 = 768
      ∧ rowPower row0 0 = 7680 ∧ rowPower row0 1 = 7680 := by decide +kernel

/-- Hearth 3 of a four-hearth part, with a fault collector. -/
def withFcol (f : Fcol) : State := modFcol 3 (fun _ => f) { ready with ident := { ready.ident with part := .brd440 } }

/-- The first capture of R533's example: FF_SRC, FF_SEC0 and FF_CYCLE. -/
theorem test_fcolCapture :
    (match exec (.fcolCapture 3 700) (withFcol { err := [(192, 0), (193, 0), (258, 0)] }) with
      | .next t => (fcolWords (hearthAt t 3).fcol).getD 4 0 == 0x000142C1 && secWord (hearthAt t 3).fcol 0 == 0x830280C0
          && (hearthAt t 3).fcol.ff.cycle == 700 && (hearthAt t 3).fcol.ce == 1 && (hearthAt t 3).fcol.uce == 2 && (hearthAt t 3).fcol.alert
      | _ => false) = true := by decide +kernel

/-- The package source ID of that lead (R509). -/
theorem test_fcolSourceId : (faultData 3 193 0 0 0 0).take 2 = [0xC1, 0x06] := by decide +kernel

/-- The CRC-32 of "123456789" (R541's polynomial). -/
theorem test_crc32 : crc32 ([0x31, 0x32, 0x33, 0x34, 0x35, 0x36, 0x37, 0x38, 0x39] : List (BitVec 8)) = 0xCBF43926 := by decide +kernel

/-- SQUELCH's bucket: four tokens, refilled every 48,000 ticks (R540's example). -/
theorem test_squelchBucket : codeDefaults 0x0513 = some (4, 48000) := by decide +kernel

/-- The filler of the example: with CQ slot 31 of 32 the reply of two slots wraps, and the tail becomes 2. -/
theorem test_fillerAtRingEnd :
    let s := modQueue 3 (fun _ => { state := 1, sqM1 := 63, cqM1 := 31, cqTail := 31, cqHead := 31 }) ready
    let t := queueReply 3 { src := 3, words := List.replicate 25 0 } false s
    (queueAt t 3).cqTail = 2 ∧ (t.cpx.replies.map fun r => (r.fill, r.slot, r.phase)) = [(true, 31, true), (false, 0, false)] := by
  decide +kernel

/-- A write of a reserved field with another value stops (R14); its own value does not. -/
theorem test_reservedWrite :
    exec (.registerWrite 0 0x10F0008 0x400) ready = .fault .reservedWrite
      ∧ (match exec (.registerWrite 0 0x10F0008 50) ready with
        | .next t => t.tbu.ppsWidth == 100 && (applyWrites (captureWrites t)).tbu.ppsWidth == 50 | _ => false) = true := by
  refine ⟨?_, by decide +kernel⟩
  have h : breaksReserved 0 0x10F0008 0x400 ready = true := by decide +kernel
  show execRegisterWrite 0 0x10F0008 0x400 ready = _
  unfold execRegisterWrite
  rw [if_neg (by decide +kernel), if_neg (by decide), if_pos h]

/-- SEC_STATUS of section 5 on hearth 2 lies at 0x0309_01A0, and every master but PF1 and other VFs' owners reads it (R599's example). -/
theorem test_secStatusAddress :
    let s := modSec 2 5 (fun x => { x with state := .live }) { ready with ident := { ready.ident with part := .brd440 } }
    regRead s 0 0x030901A0 = readGrt s 2 0x1A0 ∧ regRead s 0 0x030901A0 ≠ regRead ready 0 0x030901A0 := by decide +kernel

/-- The holding window of R608's example: FF_TICK of hearth 3 at 0x0013_0040, the device time at 0x001F_0030. -/
theorem test_snapshotAddress :
    let s := inMode { ready with sys := { ready.sys with snapWindow := [(0x3004, 41), (0xF003, 7)] } }
    regRead s 0 0x00130040 = 41 ∧ regRead s 0 0x001F0030 = 7 := by decide +kernel

/-- SSB 2 of half-frame 1 in Case C at 30 kHz (R312's example). -/
theorem test_syncPosition : syncPosition true { rat := 2, ssbIdx := 2, half := true } = 5477376 := by decide +kernel

/-- Two splits of two branches at 491.52 MSPS and a capture, at 4,800 and 6,400 MT/s (R497's example). -/
theorem test_demand :
    let s (speed : Nat) : State := modXmc 0 (fun x => { x with speed := speed })
      (each [0, 1] (fun i => modSec 0 i (fun x => { x with defn := some { aDef with rate := 1, branchMask := 3 }, split := { x.split with role := 1 } })) ready)
    [demandFits (s 1) 0 3, demandFits (s 1) 0 4, demandFits (s 3) 0 4] = [true, false, true] := by decide +kernel

/-- The balls of the examples of the pin chapter (R623 to R627). -/
theorem test_balls :
    (ballName 61 25, ballOf .brd880 61 25) = ("CD25", some (.signal "H5_STX1_N"))
      ∧ (ballName 17 52, ballOf .brd440 17 52) = ("V52", some (.signal "H2_DDRB_DQ[37]"))
      ∧ (ballName 21 30, ballOf .brd880 21 30) = ("AB30", some (.signal "PCIE_TX[5]_P"))
      ∧ (ballName 21 42, ballOf .brd880 21 42) = ("AB42", some (.rail "VDDA_CONV")) := by decide +kernel

/-- Hearth 3 of a BRD-880 at 28.0 W of 210 W with the lid at 100 °C (R645's example). -/
theorem test_junctionTemp : junctionTemp .brd880 100000 280 2100 = 113160 := by decide +kernel

end Sys2Proof.Machine
end

section
/-! PROOFS. What every step leaves alone in the queue, the part's identity and the outbox of replies (spec/00 R3, spec/12 R357, R363,
spec/20 R571; log entry 10). -/

namespace Sys2Proof.Machine

/-- The part's identity and the queue of commands are as they were, and no reply has been taken back. -/
structure KeepsOutbox (s t : State) : Prop where
  ident : t.ident = s.ident
  pending : t.pending = s.pending
  replies : s.cpx.replies <+: t.cpx.replies

/-- A change that leaves these three fields as they are. -/
theorem KeepsOutbox.of_eq {s t : State} (hi : t.ident = s.ident) (hp : t.pending = s.pending) (hr : t.cpx.replies = s.cpx.replies) :
    KeepsOutbox s t :=
  ⟨hi, hp, by simp [hr]⟩

theorem KeepsOutbox.trans {s t u : State} (a : KeepsOutbox s t) (b : KeepsOutbox t u) : KeepsOutbox s u :=
  ⟨b.ident.trans a.ident, b.pending.trans a.pending, a.replies.trans b.replies⟩

theorem Keeps.keepsOutbox {s t : State} (k : Keeps s t) : KeepsOutbox s t := ⟨k.ident, k.pending, k.replies⟩

/-- What follows a change of other fields keeps the outbox of the state before it. -/
theorem Keeps.keepsOutbox_after {s u t : State} (k : Keeps u t) (hi : u.ident = s.ident) (hp : u.pending = s.pending)
    (hr : u.cpx.replies = s.cpx.replies) : KeepsOutbox s t :=
  .trans (.of_eq hi hp hr) k.keepsOutbox

/-- Unlike `setPkg_keeps`, this asks nothing of the state that is left. -/
theorem setPkg_keepsOutbox (p : PkgState) (s : State) : KeepsOutbox s (setPkg p s) := by
  unfold setPkg
  split
  · exact .of_eq rfl rfl rfl
  · exact (showPkg_keeps (.refl { s with pkg := p })).keepsOutbox_after rfl rfl rfl

/-! ### Resets -/

theorem execResetNRise_keepsOutbox {b : Nat} {r : Bool} {s t : State} (h : execResetNRise b r s = .next t) : KeepsOutbox s t := by
  cases h
  split <;> exact .of_eq rfl rfl rfl

theorem execResetNLow_keepsOutbox {s t : State} (h : execResetNLow s = .next t) : KeepsOutbox s t := by
  cases h
  split <;> exact .of_eq rfl rfl rfl

theorem execPowerLoss_keepsOutbox {s t : State} (h : execPowerLoss s = .next t) : KeepsOutbox s t := by
  cases h
  exact .of_eq rfl rfl rfl

theorem warmState_keepsOutbox (s : State) : KeepsOutbox s (warmState s) := .of_eq rfl rfl rfl

/-- A warm reset writes the replies that are due and ends what runs, and only then clears the configuration: the outbox is among what
every act of it keeps. -/
theorem execWarmReset_keepsOutbox {s t : State} (h : execWarmReset s = .next t) : KeepsOutbox s t := by
  cases h
  split
  · have written : KeepsOutbox s (setPkg .kindling (writeDue s.tbu.tickLen (s.tbu.tick + 1) (nextTime s) s)) :=
      (writeDue_keeps (.refl s)).keepsOutbox.trans (setPkg_keepsOutbox _ _)
    refine written.trans (.trans (Keeps.keepsOutbox ?_) (.trans (warmState_keepsOutbox _) (thermalDrain_keeps (.refl _)).keepsOutbox))
    refine setHolds_keeps (.each (.each (dropStreams_keeps (.each (.refl _) ?_)) ?_) ?_)
    · exact fun _ _ h => setSec_keeps h
    · exact fun _ _ h => h.each fun _ _ h => warmSlot_keeps h
    · exact fun _ _ h => clearMarks_keeps h
  · exact .of_eq rfl rfl rfl

/-- Kindling ends in EMBER with its event, and the script may start. -/
theorem execKindlingComplete_keepsOutbox (ms : Nat) {s t : State} (h : execKindlingComplete ms s = .next t) : KeepsOutbox s t := by
  cases h
  split
  · refine .trans ?_ (iteKeeps (scriptStart_keeps (.refl _)) (.refl _)).keepsOutbox
    exact (bootDone_keeps (.refl _)).keepsOutbox_after rfl rfl rfl
  · exact .of_eq rfl rfl rfl

/-! ### One-time programmable memory -/

theorem execFirebrickWrite_keepsOutbox {p : Packet} {s t : State} (h : execFirebrickWrite p s = .next t) : KeepsOutbox s t := by
  cases h
  rcases firebrickWrite_cases p s with hk | ⟨u, g, hu, -, -, -, ht⟩
  · exact hk.keepsOutbox
  · exact hu.keepsOutbox.trans (ht.keepsOutbox_after rfl rfl rfl)

theorem execFirebrickRevoke_keepsOutbox {p : Packet} {s t : State} (h : execFirebrickRevoke p s = .next t) : KeepsOutbox s t := by
  cases h
  rcases firebrickRevoke_cases p s with hk | ⟨u, g, hu, -, ht⟩
  · exact hk.keepsOutbox
  · exact hu.keepsOutbox.trans (ht.keepsOutbox_after rfl rfl rfl)

theorem execFirebrickProgramDone_keepsOutbox {ok : Bool} {left : List Word} {s t : State} (h : execFirebrickProgramDone ok left s = .next t) :
    KeepsOutbox s t := by
  rcases firebrickProgramDone_cases ok left s with ⟨-, e⟩ | ⟨g, f, due, dueBy, treated, u, -, e, -, hk⟩
  all_goals cases e.symm.trans h
  · exact .of_eq rfl rfl rfl
  · exact hk.keepsOutbox_after rfl rfl rfl

theorem execOemKeyWrite_keepsOutbox {p : Packet} {s t : State} (h : execOemKeyWrite p s = .next t) : KeepsOutbox s t := by
  cases h
  rcases oemKeyWrite_cases p s with hk | ⟨u, id, key, hu, -, -, ht⟩
  · exact hk.keepsOutbox
  · exact hu.keepsOutbox.trans (ht.keepsOutbox_after rfl rfl rfl)

theorem execKeyProgramDone_keepsOutbox {ok : Bool} {s t : State} (h : execKeyProgramDone ok s = .next t) : KeepsOutbox s t := by
  rcases keyProgramDone_cases ok s with ⟨-, e⟩ | ⟨id, key, u, -, e, hk⟩
  all_goals cases e.symm.trans h
  · exact .of_eq rfl rfl rfl
  · exact hk.keepsOutbox_after rfl rfl rfl

theorem execImageActivate_keepsOutbox {p : Packet} {s t : State} (h : execImageActivate p s = .next t) : KeepsOutbox s t := by
  cases h
  rcases imageActivate_cases p s with hk | ⟨u, v, hu, -, ht⟩
  · exact hk.keepsOutbox
  · exact hu.keepsOutbox.trans (ht.keepsOutbox_after rfl rfl rfl)

theorem execRollbackProgramDone_keepsOutbox {ok : Bool} {s t : State} (h : execRollbackProgramDone ok s = .next t) : KeepsOutbox s t := by
  rcases rollbackProgramDone_cases ok s with ⟨-, e⟩ | ⟨v, new, u, -, e, -, w, hw, hk⟩
  all_goals cases e.symm.trans h
  · exact .of_eq rfl rfl rfl
  · exact hw.keepsOutbox.trans (hk.keepsOutbox_after rfl rfl rfl)

/-! ### Every command -/

/-- Every command keeps the identity, the queue and the outbox: most are among those that `Keeps` describes; the rest reset the package or
program one-time programmable memory. -/
theorem exec_keepsOutbox {c : Instr} {s t : State} (h : exec c s = .next t) : KeepsOutbox s t := by
  by_cases hc : resetsOrFuses c = false
  · have k := exec_keeps (s := s) hc
    rw [h] at k
    exact k.keepsOutbox
  · unfold resetsOrFuses at hc
    split at hc
    · exact execResetNRise_keepsOutbox h
    · rename_i ms
      exact execKindlingComplete_keepsOutbox ms h
    · exact execFirebrickWrite_keepsOutbox h
    · exact execFirebrickRevoke_keepsOutbox h
    · exact execFirebrickProgramDone_keepsOutbox h
    · exact execImageActivate_keepsOutbox h
    · exact execRollbackProgramDone_keepsOutbox h
    · exact execOemKeyWrite_keepsOutbox h
    · exact execKeyProgramDone_keepsOutbox h
    · exact execResetNLow_keepsOutbox h
    · exact execPowerLoss_keepsOutbox h
    · exact execWarmReset_keepsOutbox h
    · exact absurd rfl hc

/-- Settles O8: a step takes the front of the queue off, and its command keeps the rest of the queue, the identity and the outbox. -/
theorem queueIdentityAndRepliesKept : Obligations.QueueIdentityAndRepliesKept := by
  intro s t h
  rcases step_next h with ⟨hp, rfl⟩ | ⟨c, rest, hp, he⟩
  · exact ⟨by rw [hp]; rfl, rfl, (Keeps.refl _).replies⟩
  · obtain ⟨hi, hq, hr⟩ := exec_keepsOutbox he
    exact ⟨by rw [hq, hp]; rfl, hi, hr⟩

end Sys2Proof.Machine
end

section
/-! PROOFS. What a register write can do, by its master: it is ignored, it stops on a reserved field, or it reaches what its master
may write (spec/00 R13, R14; spec/21 R602 to R605). -/

namespace Sys2Proof.Machine

/-- A register write reaches a block at all: it is aligned, and the package has power and is not held in reset (spec/21 R601). -/
def reachesBlock (a : Nat) (s : State) : Prop := a % 4 = 0 ∧ s.sec.powered = true ∧ s.sec.resetLow = false

/-! ### What a register write can do -/

/-- The branches of a register write that concern every master. -/
theorem execRegisterWrite_cases (m a : Nat) (v : Word) (s : State) :
    execRegisterWrite m a v s = .next s
      ∨ 64 ≤ m ∧ execRegisterWrite m a v s = .next (writeConfig (m - 64) a v s)
      ∨ m < 64 ∧ reachesBlock a s ∧ breaksReserved m a v s = true ∧ execRegisterWrite m a v s = .fault .reservedWrite
      ∨ m < 64 ∧ execRegisterWrite m a v s
          = .next (if m ≤ 2 ∧ s.pkg ≠ .doused then writePf0 m a v (writeAlways m a v s) else writeAlways m a v s) := by
  unfold execRegisterWrite
  split
  · exact .inl rfl
  rename_i live
  have live : reachesBlock a s := by simpa [reachesBlock] using live
  split
  · rename_i hm
    exact .inr (.inl ⟨hm, rfl⟩)
  rename_i hm
  split
  · rename_i hb
    exact .inr (.inr (.inl ⟨by omega, live, hb, rfl⟩))
  · exact .inr (.inr (.inr ⟨by omega, rfl⟩))

/-- Every command but a register write answers a next state. -/
theorem exec_answers {c : Instr} (hc : ∀ m a v, c ≠ .registerWrite m a v) (s : State) : ∃ t, exec c s = .next t := by
  cases c
  case registerWrite m a v => exact absurd rfl (hc m a v)
  all_goals exact ⟨_, rfl⟩

/-- Settles O9: of the branches of a register write one stops, on a reserved field; every other command goes on. -/
theorem onlyReservedWritesStop : Obligations.OnlyReservedWritesStop := by
  intro c s
  by_cases hc : ∃ m a v, c = .registerWrite m a v
  · obtain ⟨m, a, v, rfl⟩ := hc
    rcases execRegisterWrite_cases m a v s with e | ⟨-, e⟩ | ⟨hm, ⟨ha, hp, hr⟩, hb, e⟩ | ⟨-, e⟩
    · exact .inl ⟨_, e⟩
    · exact .inl ⟨_, e⟩
    · exact .inr ⟨m, a, v, rfl, hm, ha, hp, hr, hb, e⟩
    · exact .inl ⟨_, e⟩
  · exact .inl (exec_answers (fun m a v e => hc ⟨m, a, v, e⟩) s)

/-! ### Writes that need no privilege -/

/-- A master that is not privileged is PF0 itself, or none of the three that reach PF0 BAR0 (spec/20 R593). -/
theorem unprivileged_master {s : State} {m : Nat} (h : masterPriv s m = false) : m = 0 ∨ 3 ≤ m := by
  unfold masterPriv at h
  split at h
  · exact .inl ‹_›
  · have := of_decide_eq_false h
    omega

/-- What a write in its own cycle reaches: interrupt enables, queue 0's group and the rate selector. -/
theorem writeNow_reaches (a : Nat) (v : Word) (s : State) :
    ∃ q r i, writeNow a v s
      = { s with cpx := { s.cpx with queues := q }, alog := { s.alog with rateSel := r }, hif := { s.hif with capIen := i } } := by
  unfold writeNow
  split
  · exact ⟨_, _, _, rfl⟩
  split
  · exact ⟨_, _, _, rfl⟩
  split
  · unfold writeQueue0
    dsimp only
    split <;> exact ⟨_, _, _, rfl⟩
  split <;> exact ⟨_, _, _, rfl⟩

/-- Of a master without privilege only a write of the vectors of capture and of queue 0 waits for the boundary. -/
theorem writeLate_unprivileged {s : State} {m : Nat} (h : masterPriv s m = false) (a : Nat) (v : Word) :
    writeLate m a v s = s ∨ (a = 0x1010004 ∨ a = 0x1021014) ∧ writeLate m a v s = arrive (.write (.register m a v)) s := by
  unfold writeLate onlyIf
  simp only [h, Bool.and_false, Bool.or_false]
  split
  · rename_i ha
    exact .inr ⟨by simpa using ha, rfl⟩
  · exact .inl rfl

/-- A write to PF1 reaches its MSI-X table alone. -/
theorem writeAlways_pf1 (a : Nat) (v : Word) (s : State) : ∃ x, writeAlways 3 a v s = { s with hif := { s.hif with pf1 := x } } := by
  unfold writeAlways
  rw [if_pos rfl]
  split <;> exact ⟨_, rfl⟩

/-- A write to a VF reaches the MSI-X tables of the VFs alone. -/
theorem writeAlways_vf {m : Nat} (hm : 3 < m) (a : Nat) (v : Word) (s : State) :
    ∃ x, writeAlways m a v s = { s with hif := { s.hif with vfs := x } } := by
  unfold writeAlways
  rw [if_neg (by omega), if_pos hm]
  split <;> exact ⟨_, rfl⟩

/-- Outside DOUSED, a write to PF0 BAR0 reaches PF0's MSI-X table before the registers; in DOUSED it reaches one or the other. -/
theorem writeAlways_pf0 {m : Nat} (hm : m ≤ 2) (a : Nat) (v : Word) (s : State) :
    (∃ x, writeAlways m a v s = { s with hif := { s.hif with pf0 := x } }) ∨ s.pkg = .doused ∧ writeAlways m a v s = writePf0 m a v s := by
  unfold writeAlways
  rw [if_neg (by omega), if_neg (by omega)]
  split
  · exact .inl ⟨_, rfl⟩
  split
  · rename_i hd
    exact .inr ⟨hd.1, rfl⟩
  · exact .inl ⟨_, rfl⟩

/-- A configuration write reaches the configuration of the functions and their MSI-X enables alone. -/
theorem writeConfig_reaches (f a : Nat) (v : Word) (s : State) :
    ∃ p0 c0 p1 c1 e vs, writeConfig f a v s
      = { s with hif := { s.hif with pf0 := p0, cfg0 := c0, pf1 := p1, cfg1 := c1, vfEnable := e, vfs := vs } } := by
  unfold writeConfig
  split
  · exact ⟨_, _, _, _, _, _, rfl⟩
  split
  · unfold modHif
    split <;> exact ⟨_, _, _, _, _, _, rfl⟩
  split
  · unfold modHif
    split
    · exact ⟨_, _, _, _, _, _, rfl⟩
    · split <;> exact ⟨_, _, _, _, _, _, rfl⟩
  split <;> exact ⟨_, _, _, _, _, _, rfl⟩

/-- What a write without privilege leaves alone: only the fields that need no privilege may differ, and at most the write itself waits for
the boundary. -/
structure OpenWrite (m a : Nat) (v : Word) (s t : State) : Prop where
  rest : t = { s with cpx := t.cpx, hif := t.hif, alog := t.alog, arrivals := t.arrivals }
  waits : t.arrivals = s.arrivals ∨ m ≤ 2 ∧ (a = 0x1010004 ∨ a = 0x1021014) ∧ t.arrivals = s.arrivals ++ [.write (.register m a v)]
  queues : { t.cpx with queues := s.cpx.queues } = s.cpx
  rate : { t.alog with rateSel := s.alog.rateSel } = s.alog

/-- A write that reaches the host interface alone. -/
theorem OpenWrite.of_hif (m a : Nat) (v : Word) (s : State) (x : Hif) : OpenWrite m a v s { s with hif := x } :=
  ⟨rfl, .inl rfl, rfl, rfl⟩

/-- PF0's registers after a write to its MSI-X table, which does not bear on privilege. -/
theorem writePf0_open {s : State} {m : Nat} (hm : m ≤ 2) (h : masterPriv s m = false) (a : Nat) (v : Word) (x : Hif) :
    OpenWrite m a v s (writePf0 m a v { s with hif := x }) := by
  unfold writePf0
  obtain ⟨q, r, i, e⟩ := writeNow_reaches a v { s with hif := x }
  rw [e]
  have h' : masterPriv { s with cpx := { s.cpx with queues := q }, alog := { s.alog with rateSel := r }, hif := { x with capIen := i } } m
      = false := h
  rcases writeLate_unprivileged h' a v with e' | ⟨ha, e'⟩
  · rw [e']
    exact ⟨rfl, .inl rfl, rfl, rfl⟩
  · rw [e']
    exact ⟨rfl, .inr ⟨hm, ha, rfl⟩, rfl, rfl⟩

/-- PF0 without privilege, whether its registers take the write or DOUSED lets through the queue 0 group and the MSI-X table alone. -/
theorem pf0Write_open {s : State} {m : Nat} (hm : m ≤ 2) (h : masterPriv s m = false) (a : Nat) (v : Word) :
    OpenWrite m a v s (if m ≤ 2 ∧ s.pkg ≠ .doused then writePf0 m a v (writeAlways m a v s) else writeAlways m a v s) := by
  rcases writeAlways_pf0 hm a v s with ⟨x, e⟩ | ⟨hd, e⟩
  · rw [e]
    split
    · exact writePf0_open hm h a v _
    · exact .of_hif m a v s _
  · rw [if_neg (fun c => c.2 hd), e]
    exact writePf0_open hm h a v s.hif

/-- What a write of PF1, of a VF, or of a configuration register reaches: the host interface alone, and of it PF1's MSI-X table, the VFs'
tables, or the configuration of the functions with their MSI-X enables. -/
structure ForeignWrite (m : Nat) (s t : State) : Prop where
  rest : t = { s with hif := t.hif }
  pf1 : m = 3 → { t.hif with pf1 := s.hif.pf1 } = s.hif
  vf : 3 < m → m < 64 → { t.hif with vfs := s.hif.vfs } = s.hif
  config : 64 ≤ m → { t.hif with pf0 := s.hif.pf0, cfg0 := s.hif.cfg0, pf1 := s.hif.pf1, cfg1 := s.hif.cfg1, vfEnable := s.hif.vfEnable,
                                 vfs := s.hif.vfs } = s.hif

theorem ForeignWrite.openWrite {m : Nat} {s t : State} (w : ForeignWrite m s t) (a : Nat) (v : Word) : OpenWrite m a v s t := by
  rw [w.rest]
  exact .of_hif m a v s _

theorem writeConfig_foreign {m : Nat} (hm : 64 ≤ m) (a : Nat) (v : Word) (s : State) : ForeignWrite m s (writeConfig (m - 64) a v s) := by
  obtain ⟨p0, c0, p1, c1, e, vs, h⟩ := writeConfig_reaches (m - 64) a v s
  rw [h]
  exact ⟨rfl, fun _ => by omega, fun _ _ => by omega, fun _ => rfl⟩

theorem writeAlways_foreign {m : Nat} (h3 : 3 ≤ m) (hm : m < 64) (a : Nat) (v : Word) (s : State) :
    ForeignWrite m s (writeAlways m a v s) := by
  rcases Nat.eq_or_lt_of_le h3 with rfl | h3
  · obtain ⟨x, e⟩ := writeAlways_pf1 a v s
    rw [e]
    exact ⟨rfl, fun _ => rfl, fun _ _ => by omega, fun _ => by omega⟩
  · obtain ⟨x, e⟩ := writeAlways_vf h3 a v s
    rw [e]
    exact ⟨rfl, fun _ => by omega, fun _ _ => rfl, fun _ => by omega⟩

/-- A register write of a master other than PF0, CPX and SEC. -/
theorem execRegisterWrite_foreign {m a : Nat} {v : Word} {s t : State} (h3 : 3 ≤ m) (h : execRegisterWrite m a v s = .next t) :
    ForeignWrite m s t := by
  rcases execRegisterWrite_cases m a v s with e | ⟨hm, e⟩ | ⟨-, -, -, e⟩ | ⟨hm, e⟩
  all_goals cases e.symm.trans h
  · exact ⟨rfl, fun _ => rfl, fun _ _ => rfl, fun _ => rfl⟩
  · exact writeConfig_foreign hm a v s
  · rw [if_neg (by omega)]
    exact writeAlways_foreign h3 hm a v s

/-- A register write of PF0 without privilege. -/
theorem execRegisterWrite_open {m a : Nat} {v : Word} {s t : State} (hm : m ≤ 2) (hp : masterPriv s m = false)
    (h : execRegisterWrite m a v s = .next t) : OpenWrite m a v s t := by
  rcases execRegisterWrite_cases m a v s with e | ⟨h64, -⟩ | ⟨-, -, -, e⟩ | ⟨-, e⟩
  · cases e.symm.trans h
    exact .of_hif m a v s _
  · omega
  · cases e.symm.trans h
  · cases e.symm.trans h
    exact pf0Write_open hm hp a v

/-- Settles O25: an unprivileged master is PF0, whose writes `OpenWrite` bounds, or one that reaches the host interface alone. -/
theorem unprivilegedWritesReachNoPrivilegedField : Obligations.UnprivilegedWritesReachNoPrivilegedField := by
  intro m a v s t hp h
  rcases unprivileged_master hp with rfl | h3
  · obtain ⟨rest, waits, queues, rate⟩ := execRegisterWrite_open (by omega) hp h
    exact ⟨rest, waits, queues, rate, fun h3 => by omega⟩
  · have w := execRegisterWrite_foreign h3 h
    obtain ⟨rest, waits, queues, rate⟩ := w.openWrite a v
    exact ⟨rest, waits, queues, rate, fun _ => ⟨w.rest, w.pf1, w.vf, w.config⟩⟩

end Sys2Proof.Machine
end

section
/-! PROOFS. What every step keeps of the package (spec/01 R15, R16, R31 to R33): the fixed shape and the canonical tables, EMBER and ALIGHT
that follow the sections, and DOUSED. Five commands move the package by themselves, each with its own lemmas; every other one keeps all of
these. -/

namespace Sys2Proof.Machine

/-- The fixed shape of the state and the canonical form of its tables are kept. -/
structure KeepsTables (s t : State) : Prop where
  shape : Shape s → Shape t
  canon : Canon s → Canon t

/-- With the shape and the tables, the agreement of the package state with the sections, DOUSED and RESET_N are kept. -/
structure KeepsPackage (s t : State) : Prop extends KeepsTables s t where
  power : PkgOk s → PkgOk t
  doused : s.pkg = .doused → t.pkg = .doused
  resetLow : t.sec.resetLow = s.sec.resetLow

theorem KeepsTables.trans {s t u : State} (a : KeepsTables s t) (b : KeepsTables t u) : KeepsTables s u :=
  ⟨b.shape ∘ a.shape, b.canon ∘ a.canon⟩

theorem KeepsPackage.trans {s t u : State} (a : KeepsPackage s t) (b : KeepsPackage t u) : KeepsPackage s u :=
  ⟨a.toKeepsTables.trans b.toKeepsTables, b.power ∘ a.power, b.doused ∘ a.doused, b.resetLow.trans a.resetLow⟩

theorem Keeps.keepsPackage {s t : State} (k : Keeps s t) : KeepsPackage s t := ⟨⟨k.shape, k.canon⟩, k.power, k.doused, k.resetLow⟩

/-- What follows a change of the Firebrick rows and their programming, which `Keeps` does not cover, keeps the package as it was before. -/
theorem Keeps.keepsPackage_after_limits {s t : State} {y : Limits} (k : Keeps { s with limits := y } t)
    (hr : y.rows.length = s.limits.rows.length) (hw : y.working = s.limits.working) : KeepsPackage s t := by
  have before : KeepsPackage s { s with limits := y } :=
    { shape := fun ⟨hearths, rows⟩ => ⟨hearths, hr.trans rows⟩
      canon := fun ⟨flash, staging, working, rest⟩ => ⟨flash, staging, (congrArg kwf hw).trans working, rest⟩
      power := id, doused := id, resetLow := rfl }
  exact before.trans k.keepsPackage

/-- What follows a change of keys, the rollback counter and their programming keeps the package as it was before. -/
theorem Keeps.keepsPackage_after_boot {s t : State} {f : Sec → Sec} (k : Keeps (Machine.modBoot f s) t)
    (hf : (f s.sec).flash = s.sec.flash) (hs : (f s.sec).staging = s.sec.staging) (hr : (f s.sec).resetLow = s.sec.resetLow) :
    KeepsPackage s t := by
  have before : KeepsPackage s (Machine.modBoot f s) :=
    { shape := id
      canon := fun ⟨flash, staging, rest⟩ => ⟨(congrArg kwf hf).trans flash, (congrArg kwf hs).trans staging, rest⟩
      power := id, doused := id, resetLow := hr }
  exact before.trans k.keepsPackage

/-! ### One-time programmable memory -/

theorem execFirebrickWrite_keepsPackage {p : Packet} {s t : State} (h : execFirebrickWrite p s = .next t) : KeepsPackage s t := by
  cases h
  rcases firebrickWrite_cases p s with hk | ⟨u, g, hu, -, -, -, ht⟩
  · exact hk.keepsPackage
  · exact hu.keepsPackage.trans (ht.keepsPackage_after_limits rfl rfl)

theorem execFirebrickRevoke_keepsPackage {p : Packet} {s t : State} (h : execFirebrickRevoke p s = .next t) : KeepsPackage s t := by
  cases h
  rcases firebrickRevoke_cases p s with hk | ⟨u, g, hu, -, ht⟩
  · exact hk.keepsPackage
  · exact hu.keepsPackage.trans (ht.keepsPackage_after_limits rfl rfl)

theorem execFirebrickProgramDone_keepsPackage {ok : Bool} {left : List Word} {s t : State} (h : execFirebrickProgramDone ok left s = .next t) :
    KeepsPackage s t := by
  rcases firebrickProgramDone_cases ok left s with ⟨-, e⟩ | ⟨g, f, due, dueBy, treated, u, -, e, -, hk⟩
  all_goals cases e.symm.trans h
  · exact (Keeps.refl s).keepsPackage
  · exact hk.keepsPackage_after_limits (List.length_modify ..) rfl

theorem execOemKeyWrite_keepsPackage {p : Packet} {s t : State} (h : execOemKeyWrite p s = .next t) : KeepsPackage s t := by
  cases h
  rcases oemKeyWrite_cases p s with hk | ⟨u, id, key, hu, -, -, ht⟩
  · exact hk.keepsPackage
  · exact hu.keepsPackage.trans (ht.keepsPackage_after_boot rfl rfl rfl)

theorem execKeyProgramDone_keepsPackage {ok : Bool} {s t : State} (h : execKeyProgramDone ok s = .next t) : KeepsPackage s t := by
  rcases keyProgramDone_cases ok s with ⟨-, e⟩ | ⟨id, key, u, -, e, hk⟩
  all_goals cases e.symm.trans h
  · exact (Keeps.refl s).keepsPackage
  · exact hk.keepsPackage_after_boot rfl rfl rfl

theorem execImageActivate_keepsPackage {p : Packet} {s t : State} (h : execImageActivate p s = .next t) : KeepsPackage s t := by
  cases h
  rcases imageActivate_cases p s with hk | ⟨u, v, hu, -, ht⟩
  · exact hk.keepsPackage
  · exact hu.keepsPackage.trans (ht.keepsPackage_after_boot rfl rfl rfl)

theorem execRollbackProgramDone_keepsPackage {ok : Bool} {s t : State} (h : execRollbackProgramDone ok s = .next t) : KeepsPackage s t := by
  rcases rollbackProgramDone_cases ok s with ⟨-, e⟩ | ⟨v, new, u, -, e, -, w, hw, hk⟩
  all_goals cases e.symm.trans h
  · exact (Keeps.refl s).keepsPackage
  · exact hw.keepsPackage.trans (hk.keepsPackage_after_boot rfl rfl rfl)

/-! ### Every command -/

/-- The commands that move the package by themselves: RESET_N and power, the end of Kindling, and a warm reset. -/
inductive MovesPackage : Instr → Prop
  | resetNRise (bootSrc : Nat) (refsel : Bool) : MovesPackage (.resetNRise bootSrc refsel)
  | kindlingComplete (ms : Nat) : MovesPackage (.kindlingComplete ms)
  | resetNLow : MovesPackage .resetNLow
  | powerLoss : MovesPackage .powerLoss
  | warmReset : MovesPackage .warmReset

/-- A command moves the package by itself, or keeps what holds of it: most are among those that `Keeps` describes, and the rest program
one-time programmable memory. -/
theorem exec_moves_or_keepsPackage {c : Instr} {s t : State} (h : exec c s = .next t) : MovesPackage c ∨ KeepsPackage s t := by
  by_cases hc : resetsOrFuses c = false
  · have k := exec_keeps (s := s) hc
    rw [h] at k
    exact .inr k.keepsPackage
  · unfold resetsOrFuses at hc
    split at hc
    · exact .inl (.resetNRise ..)
    · exact .inl (.kindlingComplete _)
    · exact .inr (execFirebrickWrite_keepsPackage h)
    · exact .inr (execFirebrickRevoke_keepsPackage h)
    · exact .inr (execFirebrickProgramDone_keepsPackage h)
    · exact .inr (execImageActivate_keepsPackage h)
    · exact .inr (execRollbackProgramDone_keepsPackage h)
    · exact .inr (execOemKeyWrite_keepsPackage h)
    · exact .inr (execKeyProgramDone_keepsPackage h)
    · exact .inl .resetNLow
    · exact .inl .powerLoss
    · exact .inl .warmReset
    · exact absurd rfl hc

/-! ### What the commands that move the package do -/

/-- RESET_N rises while it is low, into KINDLING, or does nothing. -/
theorem execResetNRise_cases {b : Nat} {r : Bool} {s t : State} (h : execResetNRise b r s = .next t) :
    t = s ∧ s.sec.resetLow = false ∨ s.sec.resetLow = true ∧ t.pkg = .kindling ∧ KeepsTables s t := by
  cases h
  split
  · exact .inr ⟨‹_›, rfl, id, id⟩
  · rename_i hr
    exact .inl ⟨rfl, by simpa using hr⟩

/-- Once in EMBER, the end of Kindling writes its event and may start the script. -/
theorem enterEmber_keeps (u : State) : Keeps u (if (bootDone u).sec.scriptOk then scriptStart 0 0x40 (bootDone u) else bootDone u) :=
  iteKeeps (scriptStart_keeps (bootDone_keeps (.refl u))) (bootDone_keeps (.refl u))

/-- Kindling ends from KINDLING, in EMBER, which agrees with the sections where none transmits. -/
theorem execKindlingComplete_cases (ms : Nat) {s t : State} (h : execKindlingComplete ms s = .next t) :
    t = s ∨ s.pkg = .kindling ∧ KeepsTables s t ∧ (transmitting s = 0 → PkgOk t) := by
  cases h
  split
  · rename_i hk
    simp only [kindles, Bool.and_eq_true, beq_iff_eq] at hk
    have k := enterEmber_keeps { modBoot (fun x => { x with result := 1, bootMs := bootTime s }) s with pkg := .ember }
    exact .inr ⟨hk.1.1.1, ⟨k.shape, k.canon⟩, fun none => k.power ⟨fun _ => none, nofun⟩⟩
  · exact .inl rfl

/-- The fall of RESET_N does nothing in DOUSED; elsewhere it leads to KINDLING. -/
theorem execResetNLow_cases {s t : State} (h : execResetNLow s = .next t) :
    s.pkg = .doused ∧ t = s ∨ s.pkg ≠ .doused ∧ t.pkg = .kindling ∧ KeepsTables s t := by
  cases h
  split
  · exact .inl ⟨‹_›, rfl⟩
  · refine .inr ⟨‹_›, rfl, ?_, ?_⟩
    · exact fun ⟨_, rows⟩ => ⟨⟨rfl, resetBase_shape⟩, rows⟩
    · exact fun ⟨flash, _⟩ => ⟨flash, rfl, rfl, rfl, rfl, rfl, rfl, rfl⟩

/-- Of the tables only flash outlasts a loss of power, and what was being written to it leaves it in canonical form. -/
theorem execPowerLoss_keepsTables {s t : State} (h : execPowerLoss s = .next t) (hs : Shape s) (hc : Canon s) : Shape t ∧ Canon t := by
  cases h
  obtain ⟨flash, -, rows⟩ := cut_canon hc hs
  exact ⟨⟨⟨rfl, resetBase_shape⟩, rows⟩, flash, rfl, rfl, rfl, rfl, rfl, rfl, rfl⟩

theorem setPkg_keepsTables (p : PkgState) (s : State) : KeepsTables s (setPkg p s) := by
  unfold setPkg
  split
  · exact ⟨id, id⟩
  · exact (⟨id, id⟩ : KeepsTables s { s with pkg := p }).trans (showPkg_keeps (.refl _)).keepsPackage.toKeepsTables

/-- What a hearth keeps at a warm reset has the lists of a hearth after reset. -/
theorem warmState_keepsTables (s : State) : KeepsTables s (warmState s) where
  shape := fun ⟨⟨count, _⟩, rows⟩ => by
    refine ⟨⟨by simpa [warmState] using count, fun y hy => ?_⟩, rows⟩
    obtain ⟨x, -, rfl⟩ := List.mem_map.1 hy
    exact resetBase_shape {} (List.mem_cons_self ..)
  canon := fun ⟨flash, staging, _⟩ => ⟨flash, staging, rfl, rfl, rfl, rfl, rfl, rfl⟩

/-- A warm reset does not take effect in DOUSED. Where it does, it writes the replies that are due and ends what runs before the
configuration clears. -/
theorem execWarmReset_cases {s t : State} (h : execWarmReset s = .next t) :
    t = { s with warmDue := false } ∨ s.pkg ≠ .doused ∧ ∃ u, KeepsTables s u ∧ Keeps (warmState u) t := by
  cases h
  split
  · rename_i hc
    simp only [Bool.and_eq_true, bne_iff_ne] at hc
    refine .inr ⟨hc.1.2, _, ?_, thermalDrain_keeps (.refl _)⟩
    have written := (writeDue_keeps (d := s.tbu.tickLen) (opens := s.tbu.tick + 1) (time := nextTime s) (.refl s)).keepsPackage
    refine (written.toKeepsTables.trans (setPkg_keepsTables .kindling _)).trans (Keeps.keepsPackage ?_).toKeepsTables
    refine setHolds_keeps (.each (.each (dropStreams_keeps (.each (.refl _) ?_)) ?_) ?_)
    · exact fun _ _ k => setSec_keeps k
    · exact fun _ _ k => k.each fun _ _ k => warmSlot_keeps k
    · exact fun _ _ k => clearMarks_keeps k
  · exact .inl rfl

/-! ### The fixed shape and the canonical tables -/

theorem exec_keepsTables {c : Instr} {s t : State} (h : exec c s = .next t) (hs : Shape s) (hc : Canon s) : Shape t ∧ Canon t := by
  have of {t : State} (k : KeepsTables s t) : Shape t ∧ Canon t := ⟨k.shape hs, k.canon hc⟩
  rcases exec_moves_or_keepsPackage h with hm | k
  · cases hm with
    | resetNRise b r =>
      rcases execResetNRise_cases h with ⟨rfl, -⟩ | ⟨-, -, k⟩
      · exact ⟨hs, hc⟩
      · exact of k
    | kindlingComplete ms =>
      rcases execKindlingComplete_cases ms h with rfl | ⟨-, k, -⟩
      · exact ⟨hs, hc⟩
      · exact of k
    | resetNLow =>
      rcases execResetNLow_cases h with ⟨-, rfl⟩ | ⟨-, -, k⟩
      · exact ⟨hs, hc⟩
      · exact of k
    | powerLoss => exact execPowerLoss_keepsTables h hs hc
    | warmReset =>
      rcases execWarmReset_cases h with rfl | ⟨-, u, k, hk⟩
      · exact ⟨hs, hc⟩
      · exact of ((k.trans (warmState_keepsTables u)).trans hk.keepsPackage.toKeepsTables)
  · exact of k.toKeepsTables

/-- Settles O4: an idle step changes nothing, and every command keeps the shape and the tables. -/
theorem shapeAndTablesKept : Obligations.ShapeAndTablesKept := by
  intro s t hs hc h
  rcases step_next h with ⟨-, rfl⟩ | ⟨c, rest, -, he⟩
  · exact ⟨hs, hc⟩
  · exact exec_keepsTables he hs hc

/-! ### EMBER and ALIGHT -/

/-- In KINDLING the package state says nothing of the sections. -/
theorem PkgOk.of_kindling {s : State} (h : s.pkg = .kindling) : PkgOk s := by
  simp [PkgOk, h]

theorem exec_keepsPkgOk {c : Instr} {s t : State} (h : exec c s = .next t) (hp : PkgOk s)
    (hk : ∀ ms, c = .kindlingComplete ms → transmitting s = 0) : PkgOk t := by
  rcases exec_moves_or_keepsPackage h with hm | k
  · cases hm with
    | resetNRise b r =>
      rcases execResetNRise_cases h with ⟨rfl, -⟩ | ⟨-, e, -⟩
      · exact hp
      · exact .of_kindling e
    | kindlingComplete ms =>
      rcases execKindlingComplete_cases ms h with rfl | ⟨-, -, k⟩
      · exact hp
      · exact k (hk ms rfl)
    | resetNLow =>
      rcases execResetNLow_cases h with ⟨-, rfl⟩ | ⟨-, e, -⟩
      · exact hp
      · exact .of_kindling e
    | powerLoss => cases h; exact .of_kindling rfl
    | warmReset =>
      rcases execWarmReset_cases h with rfl | ⟨-, u, -, k⟩
      · exact hp
      · exact k.power (.of_kindling rfl)
  · exact k.power hp

/-- Settles O7: an idle step changes nothing, and every command keeps the agreement, the end of Kindling where no section transmits. -/
theorem packageFollowsSections : Obligations.PackageFollowsSections := by
  intro s t hp hk h
  rcases step_next h with ⟨-, rfl⟩ | ⟨c, rest, hq, he⟩
  · exact hp
  · exact exec_keepsPkgOk he hp fun ms e => hk ms (by rw [hq, e]; rfl)

/-! ### DOUSED -/

/-- In DOUSED with RESET_N high every command but a loss of power stays there. -/
theorem exec_staysDoused {c : Instr} {s t : State} (h : exec c s = .next t) (hd : s.pkg = .doused) (hr : s.sec.resetLow = false)
    (hc : c ≠ .powerLoss) : t.pkg = .doused ∧ t.sec.resetLow = false := by
  rcases exec_moves_or_keepsPackage h with hm | k
  · cases hm with
    | resetNRise b r =>
      rcases execResetNRise_cases h with ⟨rfl, -⟩ | ⟨low, -⟩
      · exact ⟨hd, hr⟩
      · exact absurd low (by simp [hr])
    | kindlingComplete ms =>
      rcases execKindlingComplete_cases ms h with rfl | ⟨e, -⟩
      · exact ⟨hd, hr⟩
      · exact absurd e (by simp [hd])
    | resetNLow =>
      rcases execResetNLow_cases h with ⟨-, rfl⟩ | ⟨e, -⟩
      · exact ⟨hd, hr⟩
      · exact absurd hd e
    | powerLoss => exact absurd rfl hc
    | warmReset =>
      rcases execWarmReset_cases h with rfl | ⟨e, -⟩
      · exact ⟨hd, hr⟩
      · exact absurd hd e
  · exact ⟨k.doused hd, k.resetLow.trans hr⟩

/-- Settles O6: what each command does in DOUSED, for the one in front of the queue. -/
theorem dousedHolds : Obligations.DousedHolds := by
  intro s t hd h
  rcases step_next h with ⟨hq, rfl⟩ | ⟨c, rest, hq, he⟩
  · simp [hq, hd]
  simp only [hq, List.head?_cons, List.tail_cons, Option.some.injEq]
  refine ⟨fun hr hc => exec_staysDoused he hd hr (by simpa using hc), fun hr hc => ?_, fun hc => ?_, fun hc => ?_,
    fun c' ci p hc hi hcap => ?_⟩
  · rcases hc with rfl | ⟨b, r, rfl⟩
    · rcases execResetNLow_cases he with ⟨-, e⟩ | ⟨e, -⟩
      · exact e
      · exact absurd hd e
    · rcases execResetNRise_cases he with ⟨e, -⟩ | ⟨low, -⟩
      · exact e
      · exact absurd low (by simp [hr])
  · subst hc
    rcases execWarmReset_cases he with e | ⟨e, -⟩
    · exact e
    · exact absurd hd e
  · subst hc
    cases he
    exact ⟨rfl, rfl, rfl⟩
  · subst hc
    exact Host.Outcome.next.inj (he.symm.trans (exec_doused (s := { s with pending := rest }) hd hi hcap))

end Sys2Proof.Machine
end

section
/-! PROOFS. Sections: what happens to them under a hold, and their events (spec/01 R34 to R38; spec/03 R85, R92, R94; spec/06 R173, R177;
spec/07 R203). -/

namespace Sys2Proof.Machine

/-! ### Sections after a change -/

theorem secAt_congr {s t : State} (e : t.hearths = s.hearths) (h i : Nat) : secAt t h i = secAt s h i := by
  unfold secAt hearthAt
  rw [e]

@[simp] theorem secAt_evalPkg (s : State) (h i : Nat) : secAt (evalPkg s) h i = secAt s h i := by
  refine secAt_congr ?_ h i
  unfold evalPkg
  split
  · split <;> rfl
  · split <;> rfl
  · rfl

@[simp] theorem secAt_signalVf (n v : Nat) (s : State) (h i : Nat) : secAt (signalVf n v s) h i = secAt s h i := by
  refine secAt_congr ?_ h i
  unfold signalVf
  split <;> rfl

theorem hearthCount_le (s : State) : hearthCount s ≤ 8 := by
  unfold hearthCount
  split <;> omega

/-- A section of a present hearth stands in its lists. -/
theorem Shape.section_stands {s : State} (hs : Shape s) {h i : Nat} (hp : present s h = true) (hi : i < 8) :
    h < s.hearths.length ∧ i < (hearthAt s h).sections.length := by
  obtain ⟨⟨count, shapes⟩, -⟩ := hs
  have hh : h < s.hearths.length := by
    have := hearthCount_le s
    have : h < hearthCount s := of_decide_eq_true hp
    omega
  refine ⟨hh, ?_⟩
  have e : hearthAt s h = s.hearths[h] := by simp [hearthAt, hh]
  rw [e, (shapes _ (List.getElem_mem hh)).1]
  exact hi

/-- A change of a section that leaves its state leaves every section's. -/
theorem state_modSec {f : Section → Section} (hf : ∀ x, (f x).state = x.state) (h i k j : Nat) (s : State) :
    (secAt (modSec h i f s) k j).state = (secAt s k j).state := by
  by_cases e : h = k ∧ i = j
  · obtain ⟨rfl, rfl⟩ := e
    unfold secAt modSec
    rw [hearthAt_modHearth]
    split
    · cases e : (hearthAt s h).sections[i]? <;> simp [e, hf]
    · rfl
  · rw [secAt_modSec_ne (by omega)]

/-- A section that enters READY keeps its RESUME. -/
theorem setSec_ready {s : State} (hs : Shape s) {h i : Nat} (hp : present s h = true) (hi : i < 8) :
    (secAt (setSec h i .ready s) h i).state = .ready ∧ (secAt (setSec h i .ready s) h i).resume = (secAt s h i).resume := by
  obtain ⟨hh, hsec⟩ := hs.section_stands hp hi
  unfold setSec
  dsimp only
  split
  · exact ⟨‹_›, rfl⟩
  · simp [secAt_modSec_self hh hsec, transmits]

/-! ### Under a hold -/

/-- A section whose retry is stopped is READY with RESUME set (spec/01 R37). -/
theorem quenchedToReady_ready {s : State} (hs : Shape s) {h i : Nat} (hp : present s h = true) (hi : i < 8) :
    (secAt (quenchedToReady h i s) h i).state = .ready ∧ (secAt (quenchedToReady h i s) h i).resume = true := by
  obtain ⟨hh, hsec⟩ := hs.section_stands hp hi
  unfold quenchedToReady
  obtain ⟨ready, resume⟩ := setSec_ready (i := i) (modSec_shape (h := h) (i := i) (f := fun x => { x with
    resume := true, spa := { x.spa with retryAt := none, lockWait := false } }) hs) hp hi
  exact ⟨ready, resume.trans (by rw [secAt_modSec_self hh hsec])⟩

theorem retry_under_hold {s : State} (hold : anyHold s = true) (h i : Nat) : retry h i s = retryEvent h i 1 (quenchedToReady h i s) := by
  unfold retry
  simp [hold]

/-- A retry whose time has come meets the hold before the checks that could start the section (spec/06 R179). -/
theorem retryDue_under_hold {s : State} {h i : Nat} (hold : anyHold s = true) (hp : present s h = true)
    (hq : (secAt s h i).state = .quenched) (hl : (secAt s h i).spa.latched = false)
    (hr : (secAt s h i).spa.retryAt.any (fun t => decide (t ≤ s.tbu.tick)) = true) :
    retryDue h i s = retryEvent h i 1 (quenchedToReady h i s) :=
  (if_pos (by simp [hp, hq, hl, hr])).trans (retry_under_hold hold h i)

theorem resumeSection_under_hold {s : State} (hold : anyHold s = true) (h i : Nat) : resumeSection h i s = s := by
  unfold resumeSection
  simp [hold]

theorem startBar_under_hold {s : State} (hold : anyHold s = true) (h i : Nat) : startBar s h i = some .state := by
  unfold startBar
  simp [hold]

/-- A start of the tick that meets a hold as the tick closes only replies (spec/01 R38). -/
theorem closeStart_under_hold {s : State} {h i : Nat} (due : (secAt s h i).startDue = true) (hold : anyHold s = true) (k j : Nat) :
    (secAt (closeStart h i s) k j).state = (secAt s k j).state := by
  unfold closeStart
  simp only [due, hold, Bool.true_or, Bool.and_self, if_true]
  exact (congrArg Section.state (secAt_congr rfl k j)).trans (state_modSec (f := fun y => { y with startDue := false }) (fun _ => rfl) h i k j s)

/-- Of the checks of SECTION_START, that for a hold is the first that a READY or QUENCHED section fails (spec/01 R34, R37). -/
theorem sectionStart_under_hold {p : Packet} {s : State} (hold : anyHold s = true) (role : roleRule p s = true)
    (hst : (secAt s p.hearth p.sect).state = .ready ∨ (secAt s p.hearth p.sect).state = .quenched)
    (waits : startHeld s p.hearth p.sect = []) (due : (secAt s p.hearth p.sect).startDue = false) :
    sectionStart p s = .reply .state [] s := by
  unfold sectionStart check
  rcases hst with e | e
  all_goals simp [role, secNow, due, e, transmits, waits, startBar_under_hold hold]

/-- Settles O27: a start, a resumption, a retry and the close of a tick each meet the hold before anything that starts the section. -/
theorem noSectionStartsUnderAHold : Obligations.NoSectionStartsUnderAHold := by
  refine ⟨fun p s t ha hold role hst waits due => ?_, fun h i s hold => ?_, fun h i s hs hp hi hold hq hl hr => ?_,
    fun h i s due hold k j => closeStart_under_hold due hold k j⟩
  · exact congrArg Host.Outcome.next (ha.fail (st := .state) (by decide) (sectionStart_under_hold hold role hst waits due))
  · exact congrArg Host.Outcome.next (resumeSection_under_hold hold h i)
  · refine ⟨_, congrArg Host.Outcome.next (retryDue_under_hold hold hp hq hl hr), ?_⟩
    simpa only [retryEvent, emit_secAt] using quenchedToReady_ready hs hp hi

/-! ### Events -/

/-- A section that waits to resume, with nothing in its way, is checked against its port tables and the Firebrick (spec/01 R37;
spec/08 R242). -/
theorem resumeSection_checks {s : State} {h i : Nat} (hp : present s h = true) (hst : (secAt s h i).state = .ready)
    (hr : (secAt s h i).resume = true) (hold : anyHold s = false) (hw : anyWait (secAt s h i) = false)
    (hpkg : (s.pkg == .ember || s.pkg == .alight) = true) (hc : ¬(hearthAt s h).fbCopyBad = true) (hl : losLocked s h i = true) :
    resumeSection h i s = if tableMissing s h i || !firebrickOk s h i then modSec h i (fun y => { y with resume := false }) s
      else enterRamping h i s :=
  if_pos (by simp [hp, hst, hr, hold, hw, hpkg, hc, hl])

/-- Settles O34: under its condition each event takes its effect, and each clear its own. -/
theorem sectionEvents : Obligations.SectionEvents := by
  refine ⟨?undamp, ?rampDone, ?downRamp, ?dropped, ?resumed, ?blankEnd, ?txSat, ?secSat⟩
  case undamp =>
    intro h i s x hp hst hd hn hf
    exact congrArg Host.Outcome.next (if_pos (by simp [x, hp, hst, hd, hn, hf]))
  case rampDone =>
    intro h i s x hp hst hd ht hr
    exact congrArg Host.Outcome.next (if_pos (by simp [x, hp, hst, hd, ht, hr]))
  case downRamp =>
    intro h i s r hr hp he
    unfold exec execDownRampEnd downRampTick
    simp [hr, hp, he]
  case dropped =>
    intro h i s x hp hst hr hold hw hpkg hc hl bad
    exact congrArg Host.Outcome.next ((resumeSection_checks hp hst hr hold hw hpkg hc hl).trans (if_pos bad))
  case resumed =>
    intro h i s x hp hst hr hold hw hpkg hc hl hm hf
    exact congrArg Host.Outcome.next ((resumeSection_checks hp hst hr hold hw hpkg hc hl).trans (if_neg (by simp [hm, hf])))
  case blankEnd =>
    intro h i s x hs hb
    exact congrArg Host.Outcome.next (if_pos (by simp [x, hs, hb]))
  case txSat =>
    intro h s hp hw
    exact congrArg Host.Outcome.next (if_pos (by simp [hp, hw]))
  case secSat =>
    intro h i s hp hw
    exact congrArg Host.Outcome.next (if_pos (by simp [hp, hw]))

end Sys2Proof.Machine
end

section
/-! PROOFS. The state right after reset (spec/01 R31 to R35; spec/20 R572; log entry 13). -/

namespace Sys2Proof.Machine

theorem reset_hearth {x : Hearth} (hx : x ∈ State.reset.hearths) : x = {} := List.eq_of_mem_replicate hx

theorem transmitting_reset : transmitting State.reset = 0 := rfl

/-- Settles O2: every hearth, section, queue and row of the state after reset is as a new one. -/
theorem resetValues : Obligations.ResetValues := by
  refine ⟨rfl, rfl, transmitting_reset, fun x hx y hy => ?_, rfl, rfl, rfl, rfl, rfl, rfl, fun q hq => ?_, rfl, rfl,
    fun x hx => ?_, fun x hx => ?_, fun r hr => ?_, rfl, rfl, rfl, rfl⟩
  · cases reset_hearth hx
    cases List.eq_of_mem_replicate hy
    exact ⟨rfl, rfl, rfl⟩
  · cases List.eq_of_mem_replicate hq
    rfl
  · cases reset_hearth hx
    exact ⟨rfl, rfl, rfl, rfl⟩
  · cases reset_hearth hx
    rfl
  · cases List.eq_of_mem_replicate hr
    exact ⟨rfl, rfl⟩

/-- Settles O3: hearths and tables are as new, the package is in KINDLING, and nothing programs. -/
theorem resetMeetsInvariants : Obligations.ResetMeetsInvariants :=
  ⟨⟨⟨rfl, resetBase_shape⟩, rfl⟩, ⟨rfl, rfl, rfl, rfl, rfl, rfl, rfl, rfl⟩, PkgOk.of_kindling rfl, nofun, nofun, nofun, nofun⟩

end Sys2Proof.Machine
end

section
/-! PROOFS. Ticks, frames and device time: what sets package time, the events of the timebase, and its commands (spec/02 R42, R47, R53 to
R55, R58 to R67; spec/03 R90). -/

namespace Sys2Proof.Machine

/-! ### Checks of a command -/

theorem check_passes {ok : Bool} (h : ok = true) (st : Status) (s : State) (next : Done) : check ok st s next = next := if_pos h

theorem check_fails {ok : Bool} (h : ok = false) (st : Status) (s : State) (next : Done) : check ok st s next = .reply st [] s :=
  if_neg (by simp [h])

/-! ### Package time -/

/-- Device time keeps a Time value that it is set to (spec/02 R57). -/
theorem timeValue_shift {v : Nat} (hv : v < 2 ^ 64) : timeValue (v * 2 ^ 32) = v := by
  unfold timeValue
  omega

theorem boundaryTime_of_timeSet {s : State} {v : Nat} (h : s.tbu.timeSetNext = some v) : boundaryTime s = v * 2 ^ 32 := by
  simp [boundaryTime, h]

/-- The count from which an advance of `a` arrives at `t`, modulo `m`. -/
theorem mod_step_back {t m : Nat} (ht : t < m) (a : Nat) : ((t + m - a % m) % m + a) % m = t := by
  have : a % m < m := Nat.mod_lt a (by omega)
  rw [Nat.mod_add_mod, ← Nat.add_mod_mod, Nat.sub_add_cancel (by omega), Nat.add_mod_right, Nat.mod_eq_of_lt ht]

/-- The fields of the timebase after a step are read through this record: a field read by unfolding the step would have the kernel compute
with 2^96. -/
theorem setTimeAt_tbu (d t : Nat) (s : State) :
    (setTimeAt d t s).tbu
      = { s.tbu with time := (t + 2 ^ 96 - d * s.tbu.incr % 2 ^ 96) % 2 ^ 96, stepClock := s.tbu.clock + d } := rfl

theorem setTimeAt_incr (d t : Nat) (s : State) : (setTimeAt d t s).tbu.incr = s.tbu.incr := by
  rw [setTimeAt_tbu]

/-- A time to which device time steps at a clock of the running tick is what it reads there. -/
theorem setTimeAt_reads {t : Nat} (ht : t < 2 ^ 96) (d : Nat) (s : State) : timeAfter (setTimeAt d t s) d = t := by
  rw [timeAfter, setTimeAt_tbu]
  exact mod_step_back ht _

theorem timeAfter_congr {s u : State} (time : u.tbu.time = s.tbu.time) (incr : u.tbu.incr = s.tbu.incr) (d : Nat) :
    timeAfter u d = timeAfter s d := by
  rw [timeAfter, time, incr, timeAfter]

/-- A TIME_SET that waits for a PPS_IN edge sets device time there to its value (spec/02 R66). -/
theorem ppsTime_of_timeSet {s : State} {v : Nat} (h : s.tbu.timeSetPps = some v) (hv : v < 2 ^ 64) (d : Nat) :
    ∃ t, ppsTime d s = modTbu (fun x => { x with timeStatus := 2, timeSetPps := none }) t
      ∧ t.tbu.incr = s.tbu.incr ∧ timeAfter t d = v * 2 ^ 32 :=
  ⟨setTimeAt d (v * 2 ^ 32) s, by simp only [ppsTime, h], setTimeAt_incr .., setTimeAt_reads (by omega) d s⟩

/-- Of the timebase, a PPS_IN edge as a frame source moves its window alone. -/
theorem ppsFrames_tbu (clk : Nat) (s : State) : ∃ o f, (ppsFrames clk s).tbu = { s.tbu with ppsOpen := o, ppsFirst := f } := by
  unfold ppsFrames
  dsimp only
  split
  · exact ⟨_, _, rfl⟩
  split
  · exact ⟨_, _, rfl⟩
  split
  · exact ⟨_, _, rfl⟩
  split
  · exact ⟨_, _, rfl⟩
  · split <;> exact ⟨_, _, rfl⟩

theorem execPpsInEdge_inTick {s : State} {clk : Nat} (h : inTick s clk = true) :
    execPpsInEdge clk s = .next (ppsFrames clk (ppsTime (clk - s.tbu.clock) s)) :=
  congrArg Host.Outcome.next (if_pos h)

/-! ### TIME_SET -/

theorem timeSet_badParam {p : Packet} {s : State} (hz : zeroAt (wordAt p.payload 2) 1 31 = false) : timeSet p s = .reply .badParam [] s :=
  check_fails hz ..

/-- While the time discipline takes it, TIME_SET waits for the edge or for the boundary (spec/02 R58, R66; log entry 136). -/
theorem timeSet_taken {p : Packet} {s : State} (hz : zeroAt (wordAt p.payload 2) 1 31 = true) (h3 : s.tbu.timeStatus ≠ 3)
    (h4 : s.tbu.timeStatus ≠ 4) :
    timeSet p s = if bitOf (wordAt p.payload 2) 0 then
        .reply .ok [] (modTbu (fun x => { x with timeSetPps := some (pairAt p.payload 0) }) s)
      else .reply .ok [] (modTbu (fun x => { x with timeSetNext := some (pairAt p.payload 0), timeSetPps := none }) s) :=
  (check_passes hz ..).trans (check_passes (by simp [h3, h4]) ..)

theorem exec_timeSet_atPps {p : Packet} {s t : State} (ha : Accepted infoTimeSet true p s t)
    (hz : zeroAt (wordAt p.payload 2) 1 31 = true) (h3 : t.tbu.timeStatus ≠ 3) (h4 : t.tbu.timeStatus ≠ 4)
    (hb : bitOf (wordAt p.payload 2) 0 = true) :
    exec (.timeSet p) s
      = .next (answered infoTimeSet p t [] (modTbu (fun x => { x with timeSetPps := some (pairAt p.payload 0) }) t)) :=
  congrArg Host.Outcome.next (ha.reply ((timeSet_taken hz h3 h4).trans (if_pos hb)))

theorem exec_timeSet_atBoundary {p : Packet} {s t : State} (ha : Accepted infoTimeSet true p s t)
    (hz : zeroAt (wordAt p.payload 2) 1 31 = true) (h3 : t.tbu.timeStatus ≠ 3) (h4 : t.tbu.timeStatus ≠ 4)
    (hb : bitOf (wordAt p.payload 2) 0 = false) :
    exec (.timeSet p) s
      = .next (answered infoTimeSet p t []
          (modTbu (fun x => { x with timeSetNext := some (pairAt p.payload 0), timeSetPps := none }) t)) :=
  congrArg Host.Outcome.next (ha.reply ((timeSet_taken hz h3 h4).trans (if_neg (by simp [hb]))))

/-- Settles O18: the command leaves its value for the boundary or for the edge, and each of these sets package time to it. -/
theorem timeSetApplies : Obligations.TimeSetApplies := by
  refine ⟨rfl, rfl, rfl, fun p s t ha => ⟨fun hz => ?_, fun hz h3 h4 => ⟨exec_timeSet_atPps ha hz h3 h4, exec_timeSet_atBoundary ha hz h3 h4⟩⟩,
    fun v s hs hv => ?_, fun clk v s hs hv hc => ?_⟩
  · exact congrArg Host.Outcome.next (ha.fail (by decide) (timeSet_badParam hz))
  · have time : (openTick s).tbu.time = boundaryTime s := rfl
    have latched : (openTick s).tbu.openAt = boundaryTime s := rfl
    refine ⟨?_, time.trans (boundaryTime_of_timeSet hs), ?_, ?_, rfl⟩
    · rw [nextTime, boundaryTime_of_timeSet hs, timeValue_shift hv]
    · rw [openTime, latched, boundaryTime_of_timeSet hs, timeValue_shift hv]
    · simp [openTick, hs]
  · refine ⟨_, execPpsInEdge_inTick hc, ?_⟩
    obtain ⟨t, set, incr, reads⟩ := ppsTime_of_timeSet hs hv (clk - s.tbu.clock)
    obtain ⟨o, f, e⟩ := ppsFrames_tbu clk (modTbu (fun x => { x with timeStatus := 2, timeSetPps := none }) t)
    rw [set]
    refine ⟨by rw [e]; rfl, by rw [e]; rfl, by rw [e]; exact incr, ?_⟩
    exact (timeAfter_congr (s := t) (by rw [e]; rfl) (by rw [e]; rfl) _).trans reads

/-! ### Ticks, frames and edges -/

/-- The time of a device with power, out of reset, goes on: a tick closes and opens, in DOUSED its time alone (log entry 59). -/
theorem execControlTick_powered {s : State} (hp : s.sec.powered = true) (hr : s.sec.resetLow = false) (x : TickIn) :
    execControlTick x s = .next (
      if s.pkg = .doused then
        let t := applyConfigs (openTick s)
        captureWrites (writeDue 0 t.tbu.tick (openTime t) t)
      else workTick x (closeTick x s).1 (passBoundary (closeTick x s).2)) :=
  congrArg Host.Outcome.next (if_neg (by simp [hp, hr]))

/-- At its DSP clock the frame changes, in DOUSED the frame alone (log entry 59). -/
theorem execFrameBoundary_reached {s : State} {clk : Nat} (hp : s.sec.powered = true) (hr : s.sec.resetLow = false)
    (hn : clk = nextFrameClock s) (hc : clk < s.tbu.clock + s.tbu.tickLen) :
    execFrameBoundary clk s = .next (
      let r := frameAdvance s
      if s.pkg = .doused then r.2
      else
        let t := modTbu (fun y => { y with endedInvalid := y.frameInvalidSeen, frameInvalidSeen := !y.frameValid }) r.2
        arriveInOrder (.frameTick r.1.1 r.1.2 clk t.tbu.frameTime) (restartDuty clk (followPatterns clk t))) :=
  congrArg Host.Outcome.next (if_neg (by simp [hp, hr, ← hn, hc]))

theorem ppsEdge_reached {s : State} {rise : Bool} (ho : s.tbu.ppsOut ≠ rise) (hc : ppsEdgeClock rise s < s.tbu.clock + s.tbu.tickLen) :
    ppsEdge rise s
      = modTbu (fun x => { x with ppsOut := rise, ppsAt := if rise then ppsEdgeClock rise s else x.ppsAt }) s :=
  if_pos (by simp [ho, hc])

theorem closePpsWindow_missed {s : State} {c : Nat} (ho : s.tbu.ppsOpen = some c) (hs : s.tbu.source = some 4)
    (hc : c + secondClocks + 983 < s.tbu.clock) :
    closePpsWindow s = loseSource (modTbu (fun x => { x with ppsOpen := none }) s) := by
  unfold closePpsWindow
  simp only [ho]
  exact if_pos ⟨hs, hc⟩

/-- Settles O31: under its condition each tick, frame boundary, edge, lapse and scheduled action takes its effect. -/
theorem timebaseEvents : Obligations.TimebaseEvents := by
  refine ⟨?tickDoused, ?tick, ?frameDoused, ?frame, ?alignment, ?aligned, ?ppsIn, ?syncN, ?ppsOut, ?lapse, ?holdover, ?ppsMissed, ?scheduled⟩
  case tickDoused =>
    intro x s hp hr hd
    exact (execControlTick_powered hp hr x).trans (congrArg Host.Outcome.next (if_pos hd))
  case tick =>
    intro x s hp hr hd
    exact (execControlTick_powered hp hr x).trans (congrArg Host.Outcome.next (if_neg hd))
  case frameDoused =>
    intro clk s hp hr hn hc r hd
    exact (execFrameBoundary_reached hp hr (Decidable.not_not.1 hn) hc).trans (congrArg Host.Outcome.next (if_pos hd))
  case frame =>
    intro clk s hp hr hn hc r hd
    exact (execFrameBoundary_reached hp hr (Decidable.not_not.1 hn) hc).trans (congrArg Host.Outcome.next (if_neg hd))
  case alignment =>
    intro clk sfn s ha
    exact congrArg Host.Outcome.next (if_pos ha)
  case aligned =>
    intro clk sfn s hs
    exact if_pos hs
  case ppsIn =>
    intro clk s hc
    exact execPpsInEdge_inTick hc
  case syncN =>
    intro clk s hc
    exact congrArg Host.Outcome.next (if_pos hc)
  case ppsOut =>
    intro rise s clk ho hc
    exact congrArg Host.Outcome.next (ppsEdge_reached ho hc)
  case lapse =>
    intro s hl
    exact congrArg Host.Outcome.next (if_pos hl)
  case holdover =>
    intro s hh hl
    exact congrArg Host.Outcome.next (if_pos ⟨hh, hl⟩)
  case ppsMissed =>
    intro s c ho hs hc
    exact congrArg Host.Outcome.next (closePpsWindow_missed ho hs hc)
  case scheduled =>
    intro handle clk s a ha hc hd hf
    unfold exec execScheduledAction
    simp [ha, hc, hd, hf]

/-! ### TDD patterns -/

theorem patternWrite_taken {p : Packet} {s : State} (hp : patternOk p.payload = true)
    (hs : ((targets p s).all fun h => !selectionPending s h (fld (wordAt p.payload 0) 0 3)) = true) :
    patternWrite p s = .reply .ok [] (each (targets p s) (fun h => modPattern h (fld (wordAt p.payload 0) 0 3) fun x =>
      if x.activeB then { x with bankA := some (bankFrom p.payload) } else { x with bankB := some (bankFrom p.payload) }) s) :=
  (check_passes hp ..).trans (check_passes hs ..)

/-! ### FRAME_SOURCE -/

/-- The fields of a FRAME_SOURCE payload are ones that R53 and R65 accept. -/
def sourceFieldsOk (p : Packet) (s : State) : Bool :=
  let w0 := wordAt p.payload 0
  let w3 := wordAt p.payload 3
  let src := fld w0 0 3
  decide (src ≤ 4) && zeroAt w0 19 13 && decide ((sfld (wordAt p.payload 1) 0 32).natAbs < frameClocks)
    && zeroAt (wordAt p.payload 2) 10 22 && zeroAt w3 21 11 && decide (fld w3 0 13 ≤ 6000) && decide (fld w0 9 10 ≤ 1007)
    && (src != 2 || airTracks s (fld w0 3 6) (fld w0 9 10))

theorem sourceFieldsOk_iff {p : Packet} {s : State} :
    sourceFieldsOk p s = true ↔ fld (wordAt p.payload 0) 0 3 ≤ 4 ∧ zeroAt (wordAt p.payload 0) 19 13 = true
      ∧ (sfld (wordAt p.payload 1) 0 32).natAbs < frameClocks ∧ zeroAt (wordAt p.payload 2) 10 22 = true
      ∧ zeroAt (wordAt p.payload 3) 21 11 = true ∧ fld (wordAt p.payload 3) 0 13 ≤ 6000 ∧ fld (wordAt p.payload 0) 9 10 ≤ 1007
      ∧ (fld (wordAt p.payload 0) 0 3 != 2 || airTracks s (fld (wordAt p.payload 0) 3 6) (fld (wordAt p.payload 0) 9 10)) = true := by
  simp only [sourceFieldsOk, Bool.and_eq_true, decide_eq_true_eq, and_assoc]

/-- The state once the timebase has taken the source that a FRAME_SOURCE payload spells, before its first alignment (spec/02 R53, R65). -/
def sourceSet (p : Packet) (s : State) : State :=
  let w0 := wordAt p.payload 0
  let w3 := wordAt p.payload 3
  let src := fld w0 0 3
  let g := fld w0 3 6
  let pci := fld w0 9 10
  modTbu (fun x => { x with
    source := some src, srcSection := g, srcPci := pci, frameOffset := sfld (wordAt p.payload 1) 0 32
    sfnOffset := fld (wordAt p.payload 2) 0 10, holdoverCfg := fld w3 0 13, stepLimit := fld w3 13 8, firstAlign := true, slew := 0
    ppsOpen := none, ppsFirst := src == 4, airAlign := none, airAge := if src = 2 then sourceAge s g pci else 0 }) s

/-- The PTP or AIR source of a FRAME_SOURCE payload is valid at once: the cell was detected within the last 16 frames, or the time
discipline is locked (spec/02 R53). -/
def sourceValidNow (p : Packet) (s : State) : Prop :=
  let src := fld (wordAt p.payload 0) 0 3
  (src = 2 ∧ (sourceSet p s).tbu.airAge ≤ 16) ∨ (src = 1 ∧ (sourceSet p s).tbu.timeStatus = 3)

/-- FREE aligns to the next boundary of its own timing at once. -/
theorem frameSource_free {p : Packet} {s : State} (hok : sourceFieldsOk p s = true) (h0 : fld (wordAt p.payload 0) 0 3 = 0) :
    frameSource p s = .reply .ok []
      (align ((sourceSet p s).tbu.clock + (sourceSet p s).tbu.tickLen + sfld (wordAt p.payload 1) 0 32) none (sourceSet p s)) :=
  (check_passes hok ..).trans (if_pos h0)

theorem frameSource_valid {p : Packet} {s : State} (hok : sourceFieldsOk p s = true) (h0 : fld (wordAt p.payload 0) 0 3 ≠ 0)
    (hv : sourceValidNow p s) : frameSource p s = .reply .ok [] (modTbu (fun x => { x with srcValid := true }) (sourceSet p s)) :=
  (check_passes hok ..).trans ((if_neg h0).trans (if_pos hv))

theorem frameSource_waits {p : Packet} {s : State} (hok : sourceFieldsOk p s = true) (h0 : fld (wordAt p.payload 0) 0 3 ≠ 0)
    (hv : ¬ sourceValidNow p s) : frameSource p s = .reply .ok [] (loseSource (sourceSet p s)) :=
  (check_passes hok ..).trans ((if_neg h0).trans (if_neg hv))

/-! ### Scheduled actions -/

/-- The action that a TIME_SCHEDULE payload spells (spec/02 R67). -/
def actionFrom (ws : List Word) : SchedAction :=
  let w := wordAt ws 2
  { time := pairAt ws 0, select := fld w 0 4 == 2, mask := fld w 8 8, banks := fld w 16 8 }

/-- An action whose time is still to come takes the lowest free handle (spec/02 R62). -/
theorem timeSchedule_taken {p : Packet} {s : State} {k : Nat}
    (ha : (fld (wordAt p.payload 2) 0 4 == 1 || fld (wordAt p.payload 2) 0 4 == 2) = true)
    (hlow : zeroAt (wordAt p.payload 2) 4 4 = true) (hhigh : zeroAt (wordAt p.payload 2) 24 8 = true)
    (hb : (fld (wordAt p.payload 2) 0 4 == 1 || (hearthsOf s).all fun h => (maskBits 8 (fld (wordAt p.payload 2) 8 8)).all fun n =>
      (bankOf (patternAt s h n) (maskHas (fld (wordAt p.payload 2) 16 8) n)).isSome) = true)
    (hle : timeDiff (pairAt p.payload 0) (openTime s) ≤ 2 ^ 63) (hpos : 0 < timeDiff (pairAt p.payload 0) (openTime s))
    (hk : freeHandle s = some k) :
    timeSchedule p s
      = .reply .ok [BitVec.ofNat 32 k] (modTbu (fun x => { x with sched := kset x.sched k (actionFrom p.payload) }) s) := by
  unfold timeSchedule
  dsimp only
  rw [check_passes (by simp only [ha, hlow, hhigh, Bool.and_self]), check_passes hb, check_passes (decide_eq_true hle),
    check_passes (decide_eq_true hpos)]
  simp only [hk]
  rfl

/-- Settles O32: in each of its forms a command passes its own checks and takes its effect. -/
theorem timeCommandsComplete : Obligations.TimeCommandsComplete := by
  refine ⟨?patternWrite, ?patternSelect, ?free, ?valid, ?waits, ?atPps, ?atBoundary, ?schedule, ?cancel, ?grateSync⟩
  case patternWrite =>
    intro p s0 s ha n b hp hs
    exact congrArg Host.Outcome.next (ha.reply (patternWrite_taken hp hs))
  case patternSelect =>
    intro p s0 s ha w ns hz hb hn
    exact congrArg Host.Outcome.next (ha.hold hn (check_passes (Bool.and_eq_true_iff.2 ⟨hz, hb⟩) ..))
  case free =>
    intro p s0 s ha w0 w2 w3 src off hold g pci hsrc z0 hoff z2 z3 hhold hpci hair t h0
    have ok := sourceFieldsOk_iff.2 ⟨hsrc, z0, hoff, z2, z3, hhold, hpci, hair⟩
    exact congrArg Host.Outcome.next (ha.reply (frameSource_free ok h0))
  case valid =>
    intro p s0 s ha w0 w2 w3 src off hold g pci hsrc z0 hoff z2 z3 hhold hpci hair t h0 hv
    have ok := sourceFieldsOk_iff.2 ⟨hsrc, z0, hoff, z2, z3, hhold, hpci, hair⟩
    exact congrArg Host.Outcome.next (ha.reply (frameSource_valid ok h0 hv))
  case waits =>
    intro p s0 s ha w0 w2 w3 src off hold g pci hsrc z0 hoff z2 z3 hhold hpci hair t h0 late unlocked
    have ok := sourceFieldsOk_iff.2 ⟨hsrc, z0, hoff, z2, z3, hhold, hpci, hair⟩
    exact congrArg Host.Outcome.next (ha.reply (frameSource_waits ok h0 (not_or.2 ⟨late, unlocked⟩)))
  case atPps =>
    intro p s0 s ha w2 v
    exact exec_timeSet_atPps ha
  case atBoundary =>
    intro p s0 s ha w2 v
    exact exec_timeSet_atBoundary ha
  case schedule =>
    intro p s0 s ha w act t d mask banks hact hlow hhigh hb hle hpos k hk
    exact congrArg Host.Outcome.next (ha.reply (timeSchedule_taken hact hlow hhigh hb hle hpos hk))
  case cancel =>
    intro p s0 s ha k hk
    exact congrArg Host.Outcome.next (ha.reply (check_passes hk ..))
  case grateSync =>
    intro p s0 s ha
    exact congrArg Host.Outcome.next (ha.reply rfl)

end Sys2Proof.Machine
end

section
/-! PROOFS. Sections: their commands (spec/03 R72, R87 to R89; spec/01 R37; spec/08 R240, R241). -/

namespace Sys2Proof.Machine

theorem sectionDelete_taken {p : Packet} {s : State} (role : roleRule p s = true)
    (idle : (secNow (secAt s p.hearth p.sect) == .ready || secNow (secAt s p.hearth p.sect) == .quenched) = true) :
    sectionDelete p s = .reply .ok [] (applyDelete p.hearth p.sect s) :=
  (check_passes role ..).trans (check_passes idle ..)

/-- A section that transmits is already started. -/
theorem sectionStart_transmitting {p : Packet} {s : State} (role : roleRule p s = true)
    (defined : secNow (secAt s p.hearth p.sect) ≠ .cold) (on : transmits (secNow (secAt s p.hearth p.sect)) = true) :
    sectionStart p s = .reply .ok [] s :=
  (check_passes role ..).trans ((check_passes (bne_iff_ne.2 defined) ..).trans (if_pos on))

/-- A section with nothing in the way of its start enters RAMPING at the boundary, or waits for its oscillators (spec/08 R240, R241). -/
theorem sectionStart_unbarred {p : Packet} {s : State} (role : roleRule p s = true)
    (defined : secNow (secAt s p.hearth p.sect) ≠ .cold) (off : transmits (secNow (secAt s p.hearth p.sect)) = false)
    (alone : (startHeld s p.hearth p.sect).isEmpty = true) (bar : startBar s p.hearth p.sect = none) :
    sectionStart p s = if losLocked s p.hearth p.sect then .reply .ok [] (modSec p.hearth p.sect (fun x => { x with startDue := true }) s)
      else .hold (globalOf p.hearth p.sect) (some (s.tbu.tick + (hearthAt s p.hearth).rfc.synthWait)) s := by
  unfold sectionStart
  dsimp only
  rw [check_passes role, check_passes (bne_iff_ne.2 defined), if_neg (by simp [off]), check_passes alone, bar]

theorem sectionStop_taken {p : Packet} {s : State} (role : roleRule p s = true) (defined : (secAt s p.hearth p.sect).state ≠ .cold) :
    sectionStop p s = .reply .ok [] (applyStop p.hearth p.sect (settleStart p.hearth p.sect (if p.src = 0x42 then s
      else modSec p.hearth p.sect (fun x => { x with split := { x.split with stoppedByLoss := false } }) s))) :=
  (check_passes role ..).trans (check_passes (bne_iff_ne.2 defined) ..)

/-- Settles O33: in each of its forms a section command passes its own checks and takes its effect. -/
theorem sectionCommandsComplete : Obligations.SectionCommandsComplete := by
  refine ⟨?define, ?delete, ?query, ?transmitting, ?starts, ?waits, ?stop⟩
  case define =>
    intro p s0 s ha h i d st rule idle fields ratio pass profile fit clear los bank free opened
    refine congrArg Host.Outcome.next (ha.reply ?_)
    unfold sectionDefine
    dsimp only
    rw [check_passes rule, check_passes idle, check_passes fields, check_passes ratio, check_passes pass, check_passes profile,
      check_passes fit, check_passes clear, check_passes los, check_passes bank, check_passes free, check_passes opened]
  case delete =>
    intro p s0 s ha st role idle
    exact congrArg Host.Outcome.next (ha.reply (sectionDelete_taken role idle))
  case query =>
    intro p s0 s ha
    exact congrArg Host.Outcome.next (ha.reply rfl)
  case transmitting =>
    intro p s0 s ha h i st role defined on
    exact congrArg Host.Outcome.next (ha.reply (sectionStart_transmitting role defined on))
  case starts =>
    intro p s0 s ha h i st role defined off alone bar locked
    exact congrArg Host.Outcome.next (ha.reply ((sectionStart_unbarred role defined off alone bar).trans (if_pos locked)))
  case waits =>
    intro p s0 s ha h i st role defined off alone bar unlocked room
    exact congrArg Host.Outcome.next (ha.hold room ((sectionStart_unbarred role defined off alone bar).trans (if_neg (by simp [h, i, unlocked]))))
  case stop =>
    intro p s0 s ha h i role defined
    exact congrArg Host.Outcome.next (ha.reply (sectionStop_taken role defined))

end Sys2Proof.Machine
end

section
/-! PROOFS. What a VF reads: its window of a section beside the section's groups in PF0 BAR0 (spec/03 R95; spec/14 R412, R413; spec/21
R598 to R600). -/

namespace Sys2Proof.Machine

/-! ### Register groups -/

/-- Word j of group k stands at stride times k past the first group. -/
theorem groupReg_word {stride count j k : Nat} (hk : k < count) (hj : 4 * j < stride) (first : Nat) (f : Nat → List Word) :
    groupReg first stride count f (first + stride * k + 4 * j) = wordAt (f k) j := by
  have inside : stride * k + stride ≤ stride * count := Nat.mul_le_mul_left stride hk
  have e : first + stride * k + 4 * j - first = stride * k + 4 * j := by omega
  have group : (stride * k + 4 * j) / stride = k := by
    rw [Nat.mul_add_div (by omega), Nat.div_eq_of_lt hj, Nat.add_zero]
  have word : (stride * k + 4 * j) % stride / 4 = j := by
    rw [Nat.mul_add_mod, Nat.mod_eq_of_lt hj, Nat.mul_div_cancel_left j (by omega)]
  unfold groupReg
  rw [if_pos (by omega), e, group, word]

theorem groupReg_only {stride j : Nat} (hj : 4 * j < stride) (first : Nat) (f : Nat → List Word) :
    groupReg first stride 1 f (first + 4 * j) = wordAt (f 0) j :=
  groupReg_word Nat.one_pos hj first f

/-! ### The groups of a section in the window of its hearth -/

/-- The groups of a section stand outside the registers that hearth 0 alone shows (spec/21 R600). -/
theorem hearth0Only_sectionGroups {a : Nat} (ha : 0x30000 ≤ a ∧ a < 0xF0000 ∨ 0x100200 ≤ a ∧ a < 0x110000) : hearth0Only a = false := by
  simp only [hearth0Only, Bool.decide_and, List.contains_eq_mem, List.mem_cons, List.not_mem_nil, or_false, Bool.decide_or,
    Bool.or_eq_false_iff, beq_eq_false_iff_ne, ne_eq, Bool.and_eq_false_imp, decide_eq_true_eq, decide_eq_false_iff_not]
  omega

/-- A group of a section is read in its block of the window of its hearth (spec/21 R598, R599). -/
theorem regRead_block {s : State} {m h block off : Nat} (hm : m ≤ 2) (hh : h < 8) (hp : present s h = true) (hoff : off < 0x10000)
    (hb : 3 ≤ block ∧ block < 0xF ∨ block = 0x10 ∧ 0x200 ≤ off) :
    regRead s m (0x1000000 * (h + 1) + (0x10000 * block + off)) = readBlock s (masterPriv s m) h block off := by
  have hearth : (0x1000000 * (h + 1) + (0x10000 * block + off) - 0x1000000) / 0x1000000 = h := by omega
  have inside : (0x1000000 * (h + 1) + (0x10000 * block + off)) % 0x1000000 = 0x10000 * block + off := by omega
  have shown : hearth0Only (0x10000 * block + off) = false := hearth0Only_sectionGroups (by omega)
  have block' : (0x10000 * block + off) / 0x10000 = block := by omega
  have off' : (0x10000 * block + off) % 0x10000 = off := by omega
  unfold regRead readPf0
  rw [if_pos hm, if_neg (by omega), if_neg (by omega), if_pos (by omega), hearth, inside]
  unfold readHearth
  simp only [hp, shown, block', off', Bool.not_false, Bool.or_true, Bool.true_or, Bool.and_self, if_true]

/-! ### The window of a section -/

/-- A VF reads a section's window, or 0 where it does not see the section (spec/03 R95; spec/14 R413). -/
theorem regRead_vf {n h i off : Nat} (hn : 1 ≤ n) (hh : h < 8) (hi : i < 8) (hoff : off < 0x300) (s : State) :
    regRead s (3 + n) (0x300 * (8 * h + i) + off) = if vfSees s n (8 * h + i) then tenantWord s h i off else 0 := by
  have sect : (0x300 * (8 * h + i) + off) / 0x300 = 8 * h + i := by omega
  have place : (0x300 * (8 * h + i) + off) % 0x300 = off := by omega
  have hearth : (8 * h + i) / 8 = h := by omega
  have index : (8 * h + i) % 8 = i := by omega
  unfold regRead readVf
  rw [if_neg (by omega), if_neg (by omega), if_pos (by omega), Nat.add_sub_cancel_left, sect, place, hearth, index]

theorem present_of_vfSees {s : State} {n h i : Nat} (hi : i < 8) (hv : vfSees s n (8 * h + i) = true) : present s h = true := by
  have hearth : (8 * h + i) / 8 = h := by omega
  rw [vfSees, hearth, Bool.and_eq_true] at hv
  exact hv.1

section
variable {s : State} {h i k : Nat}

theorem tenantWord_grt (hi : i < 8) (hk : k < 8) : tenantWord s h i (0x00 + 4 * k) = readGrt s h (0x100 + 0x20 * i + 4 * k) := by
  simp (disch := omega) only [tenantWord, readGrt, if_pos, if_neg, groupReg_only, groupReg_word]

theorem tenantWord_dmp (hi : i < 8) (hk : k < 8) : tenantWord s h i (0x20 + 4 * k) = readDmp s h (0x100 + 0x20 * i + 4 * k) := by
  simp (disch := omega) only [tenantWord, readDmp, if_pos, if_neg, groupReg_only, groupReg_word]

theorem tenantWord_spa (hi : i < 8) (hk : k < 16) : tenantWord s h i (0x40 + 4 * k) = readSpa s h (0x100 + 0x40 * i + 4 * k) := by
  simp (disch := omega) only [tenantWord, readSpa, if_pos, if_neg, groupReg_only, groupReg_word]

theorem tenantWord_bdc (hi : i < 8) (hk : k < 4) : tenantWord s h i (0x80 + 4 * k) = readBdc s h (0x900 + 0x10 * i + 4 * k) := by
  simp (disch := omega) only [tenantWord, readBdc, if_pos, if_neg, groupReg_only, groupReg_word]

theorem tenantWord_air (hi : i < 8) (hk : k < 4) : tenantWord s h i (0x90 + 4 * k) = readAir s h (0x100 + 0x10 * i + 4 * k) := by
  simp (disch := omega) only [tenantWord, readAir, if_pos, if_neg, groupReg_only, groupReg_word]

theorem tenantWord_rfc (hi : i < 8) (hk : k < 4) : tenantWord s h i (0xA0 + 4 * k) = readRfc s h (0x200 + 0x10 * i + 4 * k) := by
  simp (disch := omega) only [tenantWord, readRfc, if_pos, if_neg, groupReg_only, groupReg_word]

theorem tenantWord_split (hi : i < 8) (hk : k < 4) : tenantWord s h i (0xB0 + 4 * k) = readFlu s h (0x200 + 0x10 * i + 4 * k) := by
  simp (disch := omega) only [tenantWord, readFlu, if_pos, if_neg, groupReg_only, groupReg_word]

theorem tenantWord_path {j : Nat} (hi : i < 8) (hj : j < 8) (hk : k < 8) :
    tenantWord s h i (0x100 + 0x20 * j + 4 * k) = readBdc s h (0x100 + 0x20 * (8 * i + j) + 4 * k) := by
  simp (disch := omega) only [tenantWord, readBdc, if_pos, if_neg, groupReg_word]

end

/-- A VF that sees a section reads at an address of its window what PF0, CPX and SEC read at the address of the section's group. -/
theorem regRead_mirrored {s : State} {n m h i a a' off block place : Nat} (hn : 1 ≤ n) (hm : m ≤ 2) (hh : h < 8) (hi : i < 8)
    (seen : vfSees s n (8 * h + i) = true) (e : tenantWord s h i off = readBlock s (masterPriv s m) h block place)
    (ha : a = 0x300 * (8 * h + i) + off := by omega) (ha' : a' = 0x1000000 * (h + 1) + (0x10000 * block + place) := by omega)
    (hoff : off < 0x300 := by omega) (hplace : place < 0x10000 := by omega)
    (hb : 3 ≤ block ∧ block < 0xF ∨ block = 0x10 ∧ 0x200 ≤ place := by omega) : regRead s (3 + n) a = regRead s m a' := by
  rw [ha, ha', regRead_vf hn hh hi hoff, if_pos seen, e, regRead_block hm hh (present_of_vfSees hi seen) hplace hb]

/-- Settles O29: a window that the VF sees gives the words of the section's groups, every other one 0. -/
theorem tenantWindowsMirrorTheirGroups : Obligations.TenantWindowsMirrorTheirGroups := by
  intro n h i m s hn hh hi hm w b
  refine ⟨fun unseen off hoff => ?_, fun seen => ⟨fun k hk => ?grt, fun k hk => ?dmp, fun k hk => ?spa, fun k hk => ?bdc, fun k hk => ?rfc,
    fun k hk => ?air, fun k hk => ?split, fun j hj k hk => ?path⟩⟩
  · rw [regRead_vf hn hh hi hoff, unseen]
    rfl
  case grt => exact regRead_mirrored hn hm hh hi seen (block := 0x09) (tenantWord_grt hi hk)
  case dmp => exact regRead_mirrored hn hm hh hi seen (block := 0x0B) (tenantWord_dmp hi hk)
  case spa => exact regRead_mirrored hn hm hh hi seen (block := 0x0D) (tenantWord_spa hi hk)
  case bdc => exact regRead_mirrored hn hm hh hi seen (block := 0x0A) (tenantWord_bdc hi hk)
  case rfc => exact regRead_mirrored hn hm hh hi seen (block := 0x05) (tenantWord_rfc hi hk)
  case air => exact regRead_mirrored hn hm hh hi seen (block := 0x0E) (tenantWord_air hi hk)
  case split => exact regRead_mirrored hn hm hh hi seen (block := 0x10) (tenantWord_split hi hk)
  case path => exact regRead_mirrored hn hm hh hi seen (block := 0x0A) (tenantWord_path hi hj hk)

end Sys2Proof.Machine
end

section
/-! PROOFS. What a query leaves alone (spec/12 R367, R369; spec/15 R456, R485; log entry 51). -/

namespace Sys2Proof.Machine

/-! ### Replies and captures -/

theorem Untouched.trans {s t u : State} (a : Untouched s t) (b : Untouched t u) : Untouched s u := by
  obtain ⟨a1, a2, a3, a4, a5, a6, a7, a8, a9, a10, a11, a12, a13⟩ := a
  obtain ⟨b1, b2, b3, b4, b5, b6, b7, b8, b9, b10, b11, b12, b13⟩ := b
  exact ⟨b1.trans a1, b2.trans a2, b3.trans a3, b4.trans a4, b5.trans a5, b6.trans a6, b7.trans a7, b8.trans a8, b9.trans a9, b10.trans a10,
    b11.trans a11, b12.trans a12, b13.trans a13⟩

theorem Untouched.free {s t : State} (h : Untouched s t) : t.free = s.free := by
  obtain ⟨-, -, -, -, -, -, -, -, -, -, free, -⟩ := h
  exact free

/-- Replies and captures change the queues and the group agent, which `Untouched` does not speak of. -/
theorem untouched_queues (s : State) (x : Cpx) (y : Flu) : Untouched s { s with cpx := x, flu := y } :=
  ⟨rfl, rfl, rfl, rfl, rfl, rfl, rfl, rfl, rfl, rfl, rfl, rfl, rfl⟩

theorem Untouched.refl (s : State) : Untouched s s := untouched_queues s s.cpx s.flu

theorem hearthAt_of_lt {s : State} {k : Nat} (hk : k < s.hearths.length) : hearthAt s k = s.hearths[k] := by
  rw [hearthAt, List.getD_eq_getElem?_getD, List.getElem?_eq_getElem hk, Option.getD_some]

/-- A log event reaches a hearth's log queue and a capture that waits for it alone. -/
theorem emit_quietHearths (h code : Nat) (data : List Nat) (s : State) :
    (emit h code data s).hearths.map quietHearth = s.hearths.map quietHearth := by
  refine List.ext_getElem (by rw [List.length_map, List.length_map, emit_length]) fun k ht hs => ?_
  obtain ⟨c, d, e⟩ := emitFrom_hearth 511 h code data s k
  rw [List.length_map] at ht hs
  rw [List.getElem_map, List.getElem_map, ← hearthAt_of_lt ht, ← hearthAt_of_lt hs]
  exact (congrArg quietHearth e).trans rfl

theorem emit_untouched (h code : Nat) (data : List Nat) (s : State) : Untouched s (emit h code data s) :=
  ⟨emit_ident .., emit_pkg .., emit_holds .., emit_warmDue .., emit_tbu .., emit_setpt .., emit_sec .., emit_limits .., emit_thmPkg ..,
    emit_pins .., emit_free .., emit_pending .., emit_quietHearths ..⟩

theorem sendReply_untouched (c : Held) (st : Status) (words : List Word) (s : State) : Untouched s (sendReply c st words s) := by
  unfold sendReply dueReply
  dsimp only
  split
  · exact untouched_queues s _ _
  · exact (untouched_queues s _ _).trans (emit_untouched ..)

theorem evalDigest_untouched (s : State) : Untouched s (evalDigest s) := by
  unfold evalDigest
  dsimp only
  split
  · exact .refl s
  split
  · exact untouched_queues s _ _
  · exact (untouched_queues s _ _).trans (emit_untouched ..)

theorem groupTouched_untouched (op : Nat) (p : Packet) (s t : State) : Untouched t (groupTouched op p s t) := by
  unfold groupTouched
  split
  · exact (untouched_queues t _ _).trans (evalDigest_untouched _)
  · exact .refl t

theorem answered_untouched (ci : CmdInfo) (p : Packet) (t : State) (words : List Word) (u : State) :
    Untouched u (answered ci p t words u) :=
  (groupTouched_untouched ..).trans (sendReply_untouched ..)

theorem tookFrame_untouched (p : Packet) (s : State) : Untouched s (tookFrame p s) := by
  unfold tookFrame
  split
  · exact .refl s
  · exact untouched_queues s _ _

theorem afterCapture_untouched (ci : CmdInfo) (p : Packet) (s : State) : Untouched s (afterCapture ci p s) := by
  unfold afterCapture
  split
  · exact untouched_queues s _ _
  refine .trans ?_ (untouched_queues _ _ _)
  split
  · exact untouched_queues s _ _
  split
  · exact (tookFrame_untouched p s).trans (untouched_queues _ _ _)
  · exact .refl s

/-! ### Queries -/

/-- The handling of a query replies and leaves the state that it reads as it is. -/
def RepliesInPlace (body : Packet → State → Done) : Prop := ∀ p s, ∃ st words, body p s = .reply st words s

/-- A check before a reply in place. -/
theorem check_inPlace {ok : Bool} {st : Status} {s : State} {next : Done} (h : ∃ st words, next = .reply st words s) :
    ∃ st' words, check ok st s next = .reply st' words s := by
  unfold check
  split
  · exact h
  · exact ⟨_, _, rfl⟩

section
variable {ci : CmdInfo} {l : Bool} {body : Packet → State → Done} (hb : RepliesInPlace body)
include hb

theorem handle_untouched (p : Packet) (s : State) : Untouched s (handle ci l body p s) := by
  unfold handle
  dsimp only
  split
  · exact sendReply_untouched ..
  · obtain ⟨st, words, e⟩ := hb p s
    simp only [e]
    refine .trans ?_ (sendReply_untouched ..)
    split
    · exact groupTouched_untouched ..
    · exact .refl s

theorem captureQueue_untouched (p : Packet) (s : State) : Untouched s (captureQueue ci l body p s) := by
  unfold captureQueue
  dsimp only
  split
  · exact .refl s
  split
  · split
    · exact (untouched_queues s _ _).trans (sendReply_untouched ..)
    · exact .refl s
  split
  · split
    · exact .refl s
    · exact untouched_queues s _ _
  split
  · split
    · exact (untouched_queues s _ _).trans (handle_untouched hb ..)
    · exact .refl s
  · split
    · exact (untouched_queues s _ _).trans (sendReply_untouched ..)
    · exact .refl s

/-- A query waits, is discarded, or replies: none of these changes what `Untouched` speaks of. -/
theorem runCommandWith_untouched (p : Packet) (s : State) : Untouched s (runCommandWith ci l body p s) := by
  unfold runCommandWith
  split
  · exact captureQueue_untouched hb p s
  split
  · exact .refl s
  split
  · split
    · exact (untouched_queues s _ _).trans (handle_untouched hb ..)
    · exact .refl s
  split
  · split
    · exact .refl s
    split
    · refine .trans ?_ (handle_untouched hb ..)
      cases p.roundEnd <;> exact (tookFrame_untouched p s).trans (untouched_queues _ _ _)
    · exact (tookFrame_untouched p s).trans (untouched_queues _ _ _)
  split
  · exact (untouched_queues s _ _).trans (handle_untouched hb ..)
  · exact .refl s

end

theorem reply_inPlace (st : Status) (words : List Word) (s : State) : ∃ st' words', Done.reply st words s = .reply st' words' s :=
  ⟨st, words, rfl⟩

theorem airCellRead_inPlace : RepliesInPlace airCellRead := fun _ _ => by
  refine check_inPlace ?_
  split <;> exact reply_inPlace ..

theorem calsetExport_inPlace : RepliesInPlace calsetExport := fun _ _ => by
  refine check_inPlace (check_inPlace ?_)
  split <;> exact reply_inPlace ..

/-- Every query but PROBE_READ leaves everything untouched. -/
theorem query_untouched {p : Packet} {c : Instr} {s t : State}
    (hc : c ∈ [.sectionQuery p, .bdcPathQuery p, .dmpQuery p, .spaQuery p, .loopQuery p, .lcalQuery p, .airCellRead p, .firebrickRead p,
      .calsetQuery p, .calsetExport p, .identify p, .nop p, .packageStatus p, .wideRead p, .captureQuery p, .groupQuery p, .fcolQuery p,
      .alogRead p, .embersRead p, .thermalQuery p, .certRead p]) (h : exec c s = .next t) : Untouched s t := by
  simp only [List.mem_cons, List.not_mem_nil, or_false] at hc
  rcases hc with rfl | rfl | rfl | rfl | rfl | rfl | rfl | rfl | rfl | rfl | rfl | rfl | rfl | rfl | rfl | rfl | rfl | rfl | rfl | rfl | rfl
  all_goals
    cases h
    refine runCommandWith_untouched (fun p s => ?_) p s
  -- its checks, then its reply, in the order of the list
  · exact reply_inPlace ..
  · exact check_inPlace (check_inPlace (reply_inPlace ..))
  · exact check_inPlace (reply_inPlace ..)
  · exact check_inPlace (reply_inPlace ..)
  · exact check_inPlace (reply_inPlace ..)
  · exact check_inPlace (reply_inPlace ..)
  · exact airCellRead_inPlace p s
  · exact reply_inPlace ..
  · exact check_inPlace (reply_inPlace ..)
  · exact calsetExport_inPlace p s
  · exact reply_inPlace ..
  · exact reply_inPlace ..
  · exact reply_inPlace ..
  · exact check_inPlace (reply_inPlace ..)
  · exact reply_inPlace ..
  · exact reply_inPlace ..
  · exact reply_inPlace ..
  · exact check_inPlace (reply_inPlace ..)
  · exact check_inPlace (check_inPlace (check_inPlace (reply_inPlace ..)))
  · exact reply_inPlace ..
  · exact check_inPlace (reply_inPlace ..)

/-! ### PROBE_READ -/

/-- The standby leader answers PROBE_READ from a copy of free values (spec/15 R477, R485; log entry 51). -/
theorem probeRead_standby {p : Packet} {s : State} (h3 : s.flu.acting = 3)
    (hz : (zeroAt (wordAt p.payload 0) 10 6 && zeroAt (wordAt p.payload 0) 22 2 && zeroAt (wordAt p.payload 0) 25 7) = true) :
    probeRead p s = .reply .ok (copyWords s).1 (copyWords s).2 :=
  (check_passes (by rw [hz, h3]; rfl) ..).trans (if_pos h3)

/-- PROBE_READ on the standby leader takes 34 free values. -/
theorem exec_probeRead_standby {p : Packet} {s t : State} (ha : Accepted infoProbeRead true p s t) (h3 : t.flu.acting = 3)
    (hz : (zeroAt (wordAt p.payload 0) 10 6 && zeroAt (wordAt p.payload 0) 22 2 && zeroAt (wordAt p.payload 0) 25 7) = true) :
    ∃ u, exec (.probeRead p) s = .next u ∧ u.free = s.free + 34 := by
  refine ⟨_, congrArg Host.Outcome.next (ha.reply (probeRead_standby h3 hz)), ?_⟩
  obtain ⟨-, rfl, -⟩ := ha
  calc (answered infoProbeRead p _ _ (copyWords (afterCapture infoProbeRead p s)).2).free
      = (afterCapture infoProbeRead p s).free + 34 := (answered_untouched ..).free
    _ = s.free + 34 := by rw [(afterCapture_untouched ..).free]

/-- A standby leader in EMBER, with everything else as after reset. -/
def standbyLeader : State := { State.reset with pkg := .ember, pkgShown := .ember, flu := { State.reset.flu with acting := 3 } }

/-- The autonomous service asks for the couplings of index 0. -/
def probePacket : Packet := { src := 0x42, payload := [0] }

/-- Refutes O23: the standby leader's reply to PROBE_READ takes free values (log entry 51). -/
theorem not_queriesLeaveEverythingUntouched : ¬ Obligations.QueriesLeaveEverythingUntouched := by
  intro h
  have ha : Accepted infoProbeRead true probePacket standbyLeader (afterCapture infoProbeRead probePacket standbyLeader) :=
    ⟨by decide, rfl, by decide⟩
  obtain ⟨u, he, taken⟩ := exec_probeRead_standby ha rfl (by decide)
  have kept := (h probePacket (.probeRead probePacket) standbyLeader u (by simp) he).free
  omega

end Sys2Proof.Machine
end

section
/-! PROOFS. The canceller: its commands and events (spec/04 R107, R114, R118, R119, R127, R129 to R133, R135). -/

namespace Sys2Proof.Machine

/-! ### BDC_PATH_CONFIG -/

/-- A BDC_PATH_CONFIG changes what only a READY or QUENCHED section lets it change: it enables, resizes or refers anew a masked path, or
releases one that is enabled (spec/04 R129). -/
def reshapes (p : Packet) (s : State) : Bool :=
  let w := wordAt p.payload 0
  let w1 := wordAt p.payload 1
  (maskPaths p.sect (fld w 0 8)).any fun q =>
    let x := pathAt s p.hearth q
    if bitOf w 8 then !x.enabled || x.len != fld w1 0 13 || x.decor != fld w1 16 12 || x.orx != bitOf w 9 else x.enabled

/-- What BDC_PATH_CONFIG asks of its fields and its section, whether it enables paths or releases them (spec/04 R128, R129;
spec/15 R468). -/
structure PathConfigOk (p : Packet) (s : State) : Prop where
  mask : maskOk s p.hearth p.sect (fld (wordAt p.payload 0) 0 8) = true
  reserved : zeroAt (wordAt p.payload 0) 10 22 = true
  ranges : (!bitOf (wordAt p.payload 0) 8 || pathFieldsOk p.payload) = true
  whole : (!(bitOf (wordAt p.payload 0) 8 && (secAt s p.hearth p.sect).split.role != 0)) = true
  defined : secNow (secAt s p.hearth p.sect) ≠ .cold
  settled : (secNow (secAt s p.hearth p.sect) == .ready || secNow (secAt s p.hearth p.sect) == .quenched || !reshapes p s) = true

theorem PathConfigOk.fields {p : Packet} {s : State} (ok : PathConfigOk p s) :
    (maskOk s p.hearth p.sect (fld (wordAt p.payload 0) 0 8) && zeroAt (wordAt p.payload 0) 10 22
      && (!bitOf (wordAt p.payload 0) 8 || pathFieldsOk p.payload)
      && !(bitOf (wordAt p.payload 0) 8 && (secAt s p.hearth p.sect).split.role != 0)) = true := by
  simp only [ok.mask, ok.reserved, ok.ranges, ok.whole, Bool.and_self]

/-- A disabling BDC_PATH_CONFIG releases its paths (spec/04 R129). -/
theorem bdcPathConfig_releases {p : Packet} {s : State} (ok : PathConfigOk p s) (off : bitOf (wordAt p.payload 0) 8 = false) :
    let t := zeroBare p.hearth p.sect
      (refreshBudget p.hearth (each (maskPaths p.sect (fld (wordAt p.payload 0) 0 8)) (releasePath p.hearth) s))
    bdcPathConfig p s = .reply .ok (loadWords t p.hearth) t :=
  (check_passes ok.fields ..).trans <| (check_passes (bne_iff_ne.2 ok.defined) ..).trans <| (check_passes ok.settled ..).trans <|
    if_pos (congrArg not off)

/-- The state once the masked paths have their new configuration, before the tap store is looked at. -/
def pathsConfigured (p : Packet) (s : State) : State :=
  each (maskPaths p.sect (fld (wordAt p.payload 0) 0 8)) (configurePath p.payload p.hearth) s

/-- The state once the observation receivers stand on their ports and, unless a compaction runs, the tap store has placed what fits
(spec/04 R107, R129; spec/08 R234). -/
def pathsAllocated (p : Packet) (s : State) : State :=
  let t := if bitOf (wordAt p.payload 0) 9 then
      each (maskPaths p.sect (fld (wordAt p.payload 0) 0 8)) (fun q => moveOrx p.hearth (pathOrx q) (pathDir q)) (pathsConfigured p s)
    else pathsConfigured p s
  refreshBudget p.hearth (if (hearthAt s p.hearth).bdc.reloc then t else placePaths p.hearth t)

/-- What an enabling BDC_PATH_CONFIG asks besides: its observation receivers, its step size and the budget (spec/04 R129). -/
structure PathEnableOk (p : Packet) (s : State) : Prop extends PathConfigOk p s where
  on : bitOf (wordAt p.payload 0) 8 = true
  orx : (!bitOf (wordAt p.payload 0) 9 || orxFree s p.hearth (maskPaths p.sect (fld (wordAt p.payload 0) 0 8))) = true
  step : stepOf (fld (wordAt p.payload 2) 0 11) ≤ stepMax (hearthAt s p.hearth).bdc.gradDiv (fld (wordAt p.payload 1) 0 13)
    (rateOf ((secAt s p.hearth p.sect).defn.getD {}))
  budget : budgetOk (pathsConfigured p s) p.hearth = true

/-- An enabling BDC_PATH_CONFIG replies once every path has its place in the tap store, and otherwise waits for a compaction (spec/04
R107, R129). -/
theorem bdcPathConfig_enables {p : Packet} {s : State} (ok : PathEnableOk p s) :
    let t := pathsAllocated p s
    bdcPathConfig p s = if allPlaced t p.hearth then .reply .ok (loadWords t p.hearth) t
      else .hold p.hearth none (if (hearthAt s p.hearth).bdc.reloc then t
        else modBdc p.hearth (fun b => { b with reloc := true, relocStart := s.tbu.tick + 1, relocMoved := 0 }) t) :=
  (check_passes ok.fields ..).trans <| (check_passes (bne_iff_ne.2 ok.defined) ..).trans <| (check_passes ok.settled ..).trans <|
    (if_neg (Bool.eq_false_iff.1 (congrArg not ok.on))).trans <|
    (check_passes ok.orx ..).trans <| (check_passes (decide_eq_true ok.step) ..).trans <|
    if_neg (Bool.eq_false_iff.1 (congrArg not ok.budget))

/-! ### BDC_SNAPSHOT and BDC_RESTORE -/

/-- What BDC_SNAPSHOT and BDC_RESTORE ask of their fields, their section and its paths, with room among the held commands (spec/04 R133;
spec/12 R368; log entry 25). -/
structure StageOk (p : Packet) (s : State) : Prop where
  mask : maskOk s p.hearth p.sect (fld (wordAt p.payload 0) 0 8) = true
  low : zeroAt (wordAt p.payload 0) 8 8 = true
  high : zeroAt (wordAt p.payload 0) 26 6 = true
  slots : (slotPairs p.sect (wordAt p.payload 0)).all (fun e => decide (e.2 ≤ 1023)) = true
  defined : (secAt s p.hearth p.sect).state ≠ .cold
  enabled : (slotPairs p.sect (wordAt p.payload 0)).all (fun e => (pathAt s p.hearth e.1).enabled) = true
  room : s.cpx.held.length < 256

theorem StageOk.fields {p : Packet} {s : State} (ok : StageOk p s) :
    (maskOk s p.hearth p.sect (fld (wordAt p.payload 0) 0 8) && zeroAt (wordAt p.payload 0) 8 8 && zeroAt (wordAt p.payload 0) 26 6
      && (slotPairs p.sect (wordAt p.payload 0)).all (fun e => decide (e.2 ≤ 1023))) = true := by
  simp only [ok.mask, ok.low, ok.high, ok.slots, Bool.and_self]

/-- While the staging buffer is in use the command waits for it. -/
theorem stageCommand_waits {restore : Bool} {p : Packet} {s : State} (ok : StageOk p s)
    (busy : (hearthAt s p.hearth).bdc.stage.isSome = true) : stageCommand restore p s = .hold (p.hearth * 8 + p.sect) none s :=
  (check_passes ok.fields ..).trans <| (check_passes (bne_iff_ne.2 ok.defined) ..).trans <| (check_passes ok.enabled ..).trans <|
    (if_pos busy).trans (if_neg (Nat.not_le.2 ok.room))

/-- A command that finds the staging buffer free, and its slots restorable where it restores, takes the buffer. -/
theorem stageCommand_stages {restore : Bool} {p : Packet} {s : State} (ok : StageOk p s)
    (free : (hearthAt s p.hearth).bdc.stage.isSome = false)
    (fit : restore = true → (slotPairs p.sect (wordAt p.payload 0)).all (fun e => restorable s p.hearth e.1 e.2) = true) :
    stageCommand restore p s
      = .hold (p.hearth * 8 + p.sect) none (stageFor restore p.hearth p.sect (wordAt p.payload 0) s) :=
  (check_passes ok.fields ..).trans <| (check_passes (bne_iff_ne.2 ok.defined) ..).trans <| (check_passes ok.enabled ..).trans <|
    (if_neg (Bool.eq_false_iff.1 free)).trans <| (if_neg (by simpa using fit)).trans (if_neg (Nat.not_le.2 ok.room))

/-! ### Commands -/

/-- Settles O35: in each of its forms a command passes its own checks and takes its effect; log entry 109 is the choice that
BDC_TAP_RESET asks for no enabled path. -/
theorem cancellerCommandsComplete : Obligations.CancellerCommandsComplete := by
  refine ⟨?release, ?placed, ?relocates, ?query, ?mode, ?tapReset, ?snapshotWaits, ?snapshot, ?restoreWaits, ?restore⟩
  case release =>
    intro p s0 s ha ws w h i ps on orx st idle changes mask reserved ranges whole defined settled off
    exact congrArg Host.Outcome.next (ha.reply (bdcPathConfig_releases ⟨mask, reserved, ranges, whole, defined, settled⟩ off))
  case placed =>
    intro p s0 s ha ws w h i ps on orx d st idle changes mask reserved ranges whole defined settled isOn free step t0 budget t1 t placed
    have ok : PathEnableOk p s := ⟨⟨mask, reserved, ranges, whole, defined, settled⟩, isOn, free, step, budget⟩
    exact congrArg Host.Outcome.next (ha.reply ((bdcPathConfig_enables ok).trans (if_pos placed)))
  case relocates =>
    intro p s0 s ha ws w h i ps on orx d st idle changes mask reserved ranges whole defined settled isOn free step t0 budget t1 t unplaced
      room
    have ok : PathEnableOk p s := ⟨⟨mask, reserved, ranges, whole, defined, settled⟩, isOn, free, step, budget⟩
    exact congrArg Host.Outcome.next (ha.hold room ((bdcPathConfig_enables ok).trans (if_neg (Bool.eq_false_iff.1 unplaced))))
  case query =>
    intro p s0 s ha w reserved defined
    exact congrArg Host.Outcome.next (ha.reply ((check_passes reserved ..).trans (check_passes (bne_iff_ne.2 defined) ..)))
  case mode =>
    intro p s0 s ha w ps mask reserved known defined enabled
    have fields : (maskOk s p.hearth p.sect (fld w 0 8) && zeroAt w 10 22 && fld w 8 2 != 3) = true := by
      simp only [mask, reserved, bne_iff_ne.2 known, Bool.and_self]
    exact congrArg Host.Outcome.next (ha.reply <|
      (check_passes fields ..).trans <| (check_passes (bne_iff_ne.2 defined) ..).trans (check_passes enabled ..))
  case tapReset =>
    intro p s0 s ha w mask reserved defined
    exact congrArg Host.Outcome.next (ha.reply <|
      (check_passes (Bool.and_eq_true_iff.2 ⟨mask, reserved⟩) ..).trans (check_passes (bne_iff_ne.2 defined) ..))
  case snapshotWaits =>
    intro p s0 s ha w h pairs mask low high slots defined enabled room busy
    exact congrArg Host.Outcome.next (ha.hold room (stageCommand_waits ⟨mask, low, high, slots, defined, enabled, room⟩ busy))
  case snapshot =>
    intro p s0 s ha w h pairs mask low high slots defined enabled room free
    exact congrArg Host.Outcome.next (ha.hold room (stageCommand_stages ⟨mask, low, high, slots, defined, enabled, room⟩ free nofun))
  case restoreWaits =>
    intro p s0 s ha w h pairs mask low high slots defined enabled room busy
    exact congrArg Host.Outcome.next (ha.hold room (stageCommand_waits ⟨mask, low, high, slots, defined, enabled, room⟩ busy))
  case restore =>
    intro p s0 s ha w h pairs mask low high slots defined enabled room free fit
    exact congrArg Host.Outcome.next
      (ha.hold room (stageCommand_stages ⟨mask, low, high, slots, defined, enabled, room⟩ free fun _ => fit))

/-! ### Events -/

/-- Settles O36: under its condition each event takes its effect, and the clear its own; log entry 128 is the choice that a window without
a contributing tick publishes nothing. -/
theorem cancellerEvents : Obligations.CancellerEvents := by
  refine ⟨?snapshotDone, ?restoreApply, ?unmeasured, ?measured, ?acquired, ?freeze, ?moves, ?compacted, ?clear⟩
  case snapshotDone =>
    intro h i s g hg hp hr hi
    refine congrArg Host.Outcome.next ?_
    rewrite [hg]
    exact if_neg (by simp [hp, hr, hi])
  case restoreApply =>
    intro h i s g hg hp hr hi
    refine congrArg Host.Outcome.next ?_
    rewrite [hg]
    exact if_neg (by simp [hp, hr, hi])
  case unmeasured =>
    intro h n s x hp he ht bs eh shut hr
    refine congrArg Host.Outcome.next ((if_neg (by simp [x, hp, he, ht])).trans ?_)
    rewrite [hr]
    rfl
  case measured =>
    intro h n s x hp he ht bs eh shut all hr
    refine congrArg Host.Outcome.next ((if_neg (by simp [x, hp, he, ht])).trans ?_)
    rewrite [hr]
    rfl
  case acquired =>
    intro h n s x hp he ha ht
    exact congrArg Host.Outcome.next (if_pos (by simp [x, hp, he, ha, ht]))
  case freeze =>
    intro h n s x hp he hm hf hr
    exact congrArg Host.Outcome.next (if_pos (by simp [x, hp, he, hm, hf, hr]))
  case moves =>
    intro h s b hp hr idle p slot next
    refine congrArg Host.Outcome.next ((if_neg ?_).trans ?_)
    · simpa [b, hp, hr] using idle
    · rewrite [next]
      rfl
  case compacted =>
    intro h s b hp hr idle next
    refine congrArg Host.Outcome.next ((if_neg ?_).trans ?_)
    · simpa [b, hp, hr] using idle
    · rewrite [next]
      rfl
  case clear =>
    intro h s hp hw
    exact congrArg Host.Outcome.next (if_pos (by simp [hp, hw]))

end Sys2Proof.Machine
end

section
/-! PROOFS. The damper: its commands, its line detection and its other events (spec/05 R146, R147, R149, R151, R153 to R157, R159). -/

namespace Sys2Proof.Machine

/-! ### Commands -/

/-- What DMP_CONFIG asks of its source, its section and its fields (spec/05 R153). -/
structure DmpConfigOk (p : Packet) (s : State) : Prop where
  group : groupRule p s = true
  defined : (secAt s p.hearth p.sect).state ≠ .cold
  marginDl : 0x600 ≤ fld (wordAt p.payload 0) 0 16 ∧ fld (wordAt p.payload 0) 0 16 ≤ 0x2800
  marginUl : 0x600 ≤ fld (wordAt p.payload 0) 16 16 ∧ fld (wordAt p.payload 0) 16 16 ≤ 0x2800
  isoDl : fld (wordAt p.payload 1) 0 16 ≤ 0x7800
  isoUl : fld (wordAt p.payload 1) 16 16 ≤ 0x7800
  backoffLow : 1 ≤ fld (wordAt p.payload 2) 0 4
  backoffHigh : fld (wordAt p.payload 2) 0 4 ≤ 12
  reserved : zeroAt (wordAt p.payload 2) 4 28 = true

/-- The margin and the isolation configured for a direction, from the half-words at `lo` of words 0 and 1 (spec/05 R153). -/
def dirConfigured (p : Packet) (lo : Nat) (y : DmpDir) : DmpDir :=
  { y with margin := fld (wordAt p.payload 0) lo 16, isoCfg := fld (wordAt p.payload 1) lo 16 }

/-- DMP_CONFIG sets the backoff of the section, and the margin and isolation of its two directions (spec/05 R153). -/
theorem dmpConfig_taken {p : Packet} {s : State} (ok : DmpConfigOk p s) :
    dmpConfig p s = .reply .ok [] (modDir p.hearth p.sect 1 (dirConfigured p 16) (modDir p.hearth p.sect 0 (dirConfigured p 0)
      (modDmp p.hearth p.sect (fun x => { x with backoff := fld (wordAt p.payload 2) 0 4 }) s))) :=
  (check_passes ok.group ..).trans <| (check_passes (bne_iff_ne.2 ok.defined) ..).trans <|
    check_passes (by simp [ok.marginDl, ok.marginUl, ok.isoDl, ok.isoUl, ok.backoffLow, ok.backoffHigh, ok.reserved]) ..

/-- A query of a defined section reads its registers and changes nothing. -/
theorem sectionQuery_reads {p : Packet} {s : State} (words : State → Nat → Nat → List Word)
    (defined : (secAt s p.hearth p.sect).state ≠ .cold) :
    sectionQuery words p s = .reply .ok (words s p.hearth p.sect) s := check_passes (bne_iff_ne.2 defined) ..

/-- A section's Damper with every mask of its branches ended (spec/05 R155). -/
def masksEnded (x : Dmp) : Dmp := { x with br := x.br.map fun y => { y with masks := [] } }

theorem masks_of_mem_masksEnded {x : Dmp} {y : DmpBr} (hy : y ∈ (masksEnded x).br) : y.masks = [] := by
  obtain ⟨z, _, rfl⟩ := List.mem_map.1 hy
  rfl

theorem masksEnded_branches (x : Dmp) :
    (masksEnded x).br.map (fun y => { y with masks := [] }) = x.br.map (fun y => { y with masks := [] }) :=
  List.map_map

/-- DMP_STRANGER_CLEAR ends the masks of its section (spec/05 R155). -/
theorem exec_dmpStrangerClear {p : Packet} {s t : State} (ha : Accepted infoDmpStrangerClear true p s t)
    (group : groupRule p t = true) (defined : (secAt t p.hearth p.sect).state ≠ .cold) :
    exec (.dmpStrangerClear p) s = .next (answered infoDmpStrangerClear p t [] (modDmp p.hearth p.sect masksEnded t)) :=
  congrArg Host.Outcome.next <| ha.reply <|
    (check_passes group ..).trans (check_passes (bne_iff_ne.2 defined) ..)

/-- Settles O15: the clear is `masksEnded`, which empties the masks of each branch and keeps every other field. -/
theorem strangerClearEndsEveryMask : Obligations.StrangerClearEndsEveryMask :=
  ⟨rfl, rfl, rfl, fun _ _ _ ha group defined =>
    ⟨masksEnded, exec_dmpStrangerClear ha group defined, fun x => ⟨fun _ => masks_of_mem_masksEnded, rfl, masksEnded_branches x⟩⟩⟩

/-- DMP_GROUP_CEIL of a section in the group sets its group ceilings (spec/05 R156). -/
theorem dmpGroupCeil_taken {p : Packet} {s : State} (grouped : (secAt s p.hearth p.sect).defn.any (·.group) = true) :
    dmpGroupCeil p s = .reply .ok []
      (setGroupCeil p.hearth p.sect (sfld (wordAt p.payload 0) 0 16) (sfld (wordAt p.payload 0) 16 16) s) := check_passes grouped ..

/-! ### Line detection -/

/-- The window of direction `d` and RX branch `b` that began in tick `first` ends with tick `last`, the running one, and its spectrum is
not among the arrivals yet (spec/05 R146). -/
structure WindowEnds (h i d b first last : Nat) (e : SecDef) (s : State) : Prop where
  defn : (secAt s h i).defn = some e
  present : present s h = true
  transmits : transmits (secAt s h i).state = true
  direction : d < 2
  branch : b < 2
  received : maskHas e.branchMask b = true
  start : (brOf s h i (2 * d + b)).winTick = first
  stop : last = s.tbu.tick
  long : first + windowTicks e ≤ last + 1
  fresh : ¬ s.arrivals.contains (.spectrum h i (2 * d + b)) = true

/-- The end of a window waits for the next tick as an arrival (spec/02 R43; spec/05 R147). -/
theorem lineDue_arrives {h i d b first last : Nat} {e : SecDef} {s : State} (w : WindowEnds h i d b first last e s) :
    lineDue h i d b first last s = arrive (.spectrum h i (2 * d + b)) s := by
  simp only [lineDue, w.defn]
  refine if_pos ?_
  have unseen := Bool.eq_false_iff.2 w.fresh
  simp only [w.present, w.transmits, w.direction, w.branch, w.received, w.start, ← w.stop, w.long, unseen, beq_self_eq_true, decide_true,
    Bool.not_false, Bool.and_self]

/-! ### Stale inputs -/

/-- An enabled path that should have published and has not goes stale and raises source 226 (spec/05 R159). -/
theorem staleDue_raises {h n : Nat} {s : State} (hp : present s h = true) (enabled : (pathAt s h n).enabled = true)
    (mode : (pathAt s h n).mode ≠ 2) (fresh : (pathAt s h n).stale = false)
    (late : (pathAt s h n).pubTick + 2 * 2 ^ (pathAt s h n).measLog2 ≤ s.tbu.tick) :
    staleDue h n s = raiseSource h 226 (modPath h n (fun y => { y with stale := true }) s) :=
  if_pos (by simp [hp, enabled, mode, fresh, late])

/-! ### The rows -/

/-- Settles O37: each command passes its own checks and takes its effect, and each event takes its effect under its condition. -/
theorem damperRows : Obligations.DamperRows := by
  refine ⟨?config, ?query, ?strangerClear, ?groupCeil, ?lineDetect, ?spectrum, ?halfPeriod, ?maskExpiry, ?stale, ?clear⟩
  case config =>
    intro p s0 s ha w backoff marginOk isoOk group defined marginDl marginUl isoDl isoUl backoffLow backoffHigh reserved
    have ok : DmpConfigOk p s :=
      { group, defined, backoffLow, backoffHigh, reserved
        marginDl := by simpa [marginOk] using marginDl
        marginUl := by simpa [marginOk] using marginUl
        isoDl := of_decide_eq_true isoDl
        isoUl := of_decide_eq_true isoUl }
    exact congrArg Host.Outcome.next (ha.reply (dmpConfig_taken ok))
  case query =>
    intro p s0 s ha defined
    exact congrArg Host.Outcome.next (ha.reply (sectionQuery_reads dmpWords defined))
  case strangerClear =>
    intro p s0 s ha group defined
    exact exec_dmpStrangerClear ha group defined
  case groupCeil =>
    intro p s0 s ha w grouped
    exact congrArg Host.Outcome.next (ha.reply (dmpGroupCeil_taken grouped))
  case lineDetect =>
    intro h i d b first last s x e defn present transmits direction branch received start stop long fresh
    exact congrArg Host.Outcome.next
      (lineDue_arrives ⟨defn, present, transmits, direction, branch, received, start, stop, long, fresh⟩)
  case spectrum =>
    intro h i k s
    rfl
  case halfPeriod =>
    intro h i d s hp hd
    exact congrArg Host.Outcome.next (if_pos (by simp [hp, hd]))
  case maskExpiry =>
    intro h i d b bin s hp
    exact congrArg Host.Outcome.next (if_pos hp)
  case stale =>
    intro h n s x hp enabled mode fresh late
    exact congrArg Host.Outcome.next (staleDue_raises hp enabled mode fresh late)
  case clear =>
    intro h s hp hw
    exact congrArg Host.Outcome.next (if_pos (by simp [hp, hw]))

end Sys2Proof.Machine
end

section
/-! PROOFS. The spark arrestor: its commands, its squelch windows and its other events (spec/06 R164 to R166, R171, R172, R176, R179,
R182 to R185, R187). -/

namespace Sys2Proof.Machine

/-! ### Commands -/

/-- SPA_CONFIG sets the configuration of its section's Arrestor (spec/06 R182). -/
theorem spaConfig_taken {p : Packet} {s : State} (group : groupRule p s = true) (defined : (secAt s p.hearth p.sect).state ≠ .cold)
    (fields : spaCfgOk p.payload = true) :
    spaConfig p s = .reply .ok [] (modSpa p.hearth p.sect (fun sp => { sp with cfg := spaCfgOf p.payload }) s) :=
  (check_passes group ..).trans <| (check_passes (bne_iff_ne.2 defined) ..).trans (check_passes fields ..)

/-- A section's Arrestor with its quench history ended (spec/06 R184). -/
def historyEnded (x : Spa) : Spa := { x with qSeq := 0, history := [] }

/-- SPA_HISTORY_CLEAR ends the quench history of its section (spec/06 R184). -/
theorem exec_spaHistoryClear {p : Packet} {s t : State} (ha : Accepted infoSpaHistoryClear true p s t)
    (group : groupRule p t = true) (defined : (secAt t p.hearth p.sect).state ≠ .cold) :
    exec (.spaHistoryClear p) s = .next (answered infoSpaHistoryClear p t [] (modSpa p.hearth p.sect historyEnded t)) :=
  congrArg Host.Outcome.next <| ha.reply <|
    (check_passes group ..).trans (check_passes (bne_iff_ne.2 defined) ..)

/-- Settles O16: the clear is `historyEnded`, which keeps the latch, the retry and every other field. -/
theorem historyClearKeepsLatchAndRetry : Obligations.HistoryClearKeepsLatchAndRetry :=
  ⟨rfl, rfl, rfl, fun _ _ _ ha group defined =>
    ⟨historyEnded, exec_spaHistoryClear ha group defined, fun _ => ⟨rfl, rfl, rfl, rfl, rfl⟩⟩⟩

/-! ### Squelch windows -/

/-- The window of UL branch `b` that began in tick `first` ends with the running tick (spec/06 R164). -/
structure SquelchEnds (h i b first : Nat) (d : SecDef) (s : State) : Prop where
  defn : (secAt s h i).defn = some d
  present : present s h = true
  transmits : transmits (secAt s h i).state = true
  branch : b < 2
  received : maskHas d.branchMask b = true
  start : (secAt s h i).spa.sqTick.getD b 0 = first
  long : first + squelchTicks d ≤ s.tbu.tick + 1

/-- The end of a squelch window waits for the next tick as an arrival, and the branch's next window begins with it (spec/02 R43;
spec/06 R164). -/
theorem windowDue_arrives {h i b first : Nat} {d : SecDef} {s : State} (w : SquelchEnds h i b first d s) :
    windowDue h i b first s
      = arrive (.squelch h i b) (modSpa h i (fun sp => { sp with sqTick := sp.sqTick.set b (s.tbu.tick + 1) }) s) := by
  simp only [windowDue, w.defn]
  refine if_pos ?_
  simp only [w.present, w.transmits, w.branch, w.received, w.start, w.long, beq_self_eq_true, decide_true, Bool.and_self]

/-- The state once the sum of a branch's window has been taken out. -/
def windowEmptied (h i b : Nat) (s : State) : State := modSpa h i (fun sp => { sp with sqSum := sp.sqSum.set b (0, 0) }) s

/-- N_w of the window that a branch of a section with definition `d` has summed (spec/06 R164). -/
def windowNoise (h i b : Nat) (d : SecDef) (s : State) : LogQ :=
  windowDensity (secAt s h i) d b (meanOf ((secAt s h i).spa.sqSum.getD b (0, 0)))

/-- The state once the noise floor has taken a counted window (spec/06 R165). -/
def windowFloored (h i b : Nat) (d : SecDef) (s : State) : State :=
  updateFloor h i (modSpa h i (fun sp => { sp with subMins := sp.subMins.modify b (minInto (windowNoise h i b d s)) }) (windowEmptied h i b s))

/-- The level from which N_w makes the uplink ACTIVE (spec/06 R166). -/
def activeFrom (sp : Spa) (b : Nat) : Int := sp.noiseUse.getD b logMax + 256 * (sp.cfg.actThresh : Int)

theorem takeWindow_undefined {h i : Nat} {s : State} (b : Nat) (defn : (secAt s h i).defn = none) :
    takeWindow h i b s = windowEmptied h i b s := by
  simp only [takeWindow, defn]
  rfl

/-- A window counts when its section transmits and it has 32 valid samples; the uplink is then ACTIVE when N_w lies high enough
(spec/06 R164 to R166). -/
theorem takeWindow_defined {h i : Nat} {d : SecDef} {s : State} (b : Nat) (defn : (secAt s h i).defn = some d) :
    takeWindow h i b s
      = if transmits (secAt s h i).state && decide (32 ≤ ((secAt s h i).spa.sqSum.getD b (0, 0)).2) then
          if activeFrom (secAt (windowFloored h i b d s) h i).spa b ≤ windowNoise h i b d s then
            setIdle h i false (modSpa h i (fun y => { y with activeTick := (windowEmptied h i b s).tbu.tick }) (windowFloored h i b d s))
          else windowFloored h i b d s
        else windowEmptied h i b s := by
  simp only [takeWindow, defn]
  rfl

theorem takeWindow_counted {h i b : Nat} {d : SecDef} {s : State} (defn : (secAt s h i).defn = some d)
    (sends : transmits (secAt s h i).state = true) (enough : 32 ≤ ((secAt s h i).spa.sqSum.getD b (0, 0)).2) :
    takeWindow h i b s
      = if activeFrom (secAt (windowFloored h i b d s) h i).spa b ≤ windowNoise h i b d s then
          setIdle h i false (modSpa h i (fun y => { y with activeTick := (windowEmptied h i b s).tbu.tick }) (windowFloored h i b d s))
        else windowFloored h i b d s :=
  (takeWindow_defined b defn).trans (if_pos (Bool.and_eq_true_iff.2 ⟨sends, decide_eq_true enough⟩))

/-! ### The noise floor, the duty limit and retries -/

/-- The uplink is IDLE once HANG ticks have passed since its last active window (spec/06 R166). -/
theorem uplinkIdle_after_hang {h i : Nat} {s : State} (hp : present s h = true) (sends : transmits (secAt s h i).state = true)
    (active : (secAt s h i).spa.ulIdle = false) (later : (secAt s h i).spa.activeTick < s.tbu.tick)
    (hang : (secAt s h i).spa.activeTick + (secAt s h i).spa.cfg.hang ≤ s.tbu.tick) : uplinkIdle h i s = setIdle h i true s :=
  if_pos (by simp [hp, sends, active, later, hang])

/-- A sub-period of 30,000 ticks opens a new minimum on each branch (spec/06 R165). -/
theorem endSubperiod_due {h i : Nat} {s : State} (hp : present s h = true) (sends : transmits (secAt s h i).state = true)
    (long : 30000 ≤ (secAt s h i).spa.subTick) :
    endSubperiod h i s = updateFloor h i (modSpa h i (fun sp => { sp with
      subTick := sp.subTick - 30000, subMins := sp.subMins.map fun m => (logMax :: m).take 16 }) s) :=
  if_pos (by simp [hp, sends, long])

/-- A duty count that reaches its limit closes its gate and waits for the next tick as an arrival (spec/02 R43; spec/06 R176). -/
theorem exec_dutyLimitReached {h i d clk : Nat} {e : SecDef} {s : State} (defn : (secAt s h i).defn = some e)
    (reached : dutyClock (secAt s h i).spa d (dutyLimit s h e d) = some clk) (hp : present s h = true) (hd : d < 2) (tdd : e.tdd = true)
    (isOpen : (secAt s h i).spa.dutyClosed.getD d true = false) (soon : clk ≤ s.tbu.clock + s.tbu.tickLen) :
    exec (.dutyLimitReached h i d) s = .next (arrive (.dutyGate h i d (dutyLimit s h e d))
      (updateGates (max clk s.tbu.clock) h i (modSpa h i (fun sp => { sp with
        dutyClosed := sp.dutyClosed.set d true, dutyAt := sp.dutyAt.set d clk }) s))) := by
  refine congrArg Host.Outcome.next ?_
  simp only [defn, reached]
  refine if_pos ?_
  simp only [hp, hd, tdd, isOpen, soon, decide_true, Bool.not_false, Bool.and_self]

/-- A section whose retry delay has ended is retried (spec/06 R179). -/
theorem retryDue_retries {h i : Nat} {s : State} (hp : present s h = true) (quenched : (secAt s h i).state = .quenched)
    (unlatched : (secAt s h i).spa.latched = false) (due : (secAt s h i).spa.retryAt.any (fun t => decide (t ≤ s.tbu.tick)) = true) :
    retryDue h i s = retry h i s :=
  if_pos (by simp [hp, quenched, unlatched, due])

/-! ### The rows -/

/-- Settles O38: each command passes its own checks and takes its effect, and each event takes its effect under its condition. -/
theorem arrestorRows : Obligations.ArrestorRows := by
  refine ⟨?config, ?query, ?historyClear, ?windowEnd, ?undefined, ?active, ?quiet, ?uncounted, ?idle, ?subperiod, ?duty, ?mismatch,
    ?retry, ?historyReset, ?reload, ?edge, ?clear⟩
  case config =>
    intro p s0 s ha group defined fields
    exact congrArg Host.Outcome.next (ha.reply (spaConfig_taken group defined fields))
  case query =>
    intro p s0 s ha defined
    exact congrArg Host.Outcome.next (ha.reply (sectionQuery_reads spaWords defined))
  case historyClear =>
    intro p s0 s ha group defined
    exact exec_spaHistoryClear ha group defined
  case windowEnd =>
    intro h i b first s x d defn present transmits branch received start long
    exact congrArg Host.Outcome.next (windowDue_arrives ⟨defn, present, transmits, branch, received, start, long⟩)
  case undefined =>
    intro h i b s x u defn
    exact takeWindow_undefined b defn
  case active =>
    intro h i b s x w u d defn sends enough nw t sp high
    exact (takeWindow_counted defn sends enough).trans (if_pos high)
  case quiet =>
    intro h i b s x w u d defn sends enough nw t sp low
    exact (takeWindow_counted defn sends enough).trans (if_neg (Int.not_le.2 low))
  case uncounted =>
    intro h i b s x w u d defn short
    exact (takeWindow_defined b defn).trans (if_neg short)
  case idle =>
    intro h i s x hp sends active later hang
    exact congrArg Host.Outcome.next (uplinkIdle_after_hang hp sends active later hang)
  case subperiod =>
    intro h i s x hp sends long
    exact congrArg Host.Outcome.next (endSubperiod_due hp sends long)
  case duty =>
    intro h i d s x e defn limit clk reached hp hd tdd isOpen soon
    exact exec_dutyLimitReached defn reached hp hd tdd isOpen soon
  case mismatch =>
    intro h x s g hp pin func hc disagrees
    exact congrArg Host.Outcome.next (if_pos (by simp only [hp, pin, func, hc, disagrees, g, decide_true, Bool.and_self]))
  case retry =>
    intro h i s x hp quenched unlatched due
    exact congrArg Host.Outcome.next (retryDue_retries hp quenched unlatched due)
  case historyReset =>
    intro h i s hp long
    exact congrArg Host.Outcome.next (if_pos (Bool.and_eq_true_iff.2 ⟨hp, decide_eq_true long⟩))
  case reload =>
    intro h s hp bad
    exact congrArg Host.Outcome.next (if_pos (Bool.and_eq_true_iff.2 ⟨hp, bad⟩))
  case edge =>
    intro h n clk s hp hn hc
    exact congrArg Host.Outcome.next (if_pos (by simp [hp, hn, hc]))
  case clear =>
    intro h s hp hw
    exact congrArg Host.Outcome.next (if_pos (Bool.and_eq_true_iff.2 ⟨hp, hw⟩))

end Sys2Proof.Machine
end

section
/-! PROOFS. The bellows: the commands of its loop slots and of the set-point pins, and its events (spec/07 R203, R205, R206, R208, R209,
R212, R214, R215, R218 to R226). -/

namespace Sys2Proof.Machine

/-! ### LOOP_CONFIG -/

/-- The configuration of a LOOP_CONFIG as its slot would hold it: a bound slot drives the gain of its section (spec/07 R217). -/
def slotCfgOf (p : Packet) (s : State) : LoopCfg :=
  { loopCfgOf p.payload with act := if (loopIn p s).bound.isSome then 1 else (loopCfgOf p.payload).act }

/-- What LOOP_CONFIG asks of its source, its slot, its fields, the actuator, the measurement channels and the budget (spec/07 R218). -/
structure LoopConfigOk (p : Packet) (s : State) : Prop where
  group : loopGroup p s = true
  isOpen : (loopIn p s).state = 0
  reserved : loopZeroBits p.payload = true
  ranges : loopCfgOk (loopIn p s).bound.isSome (loopIn p s).mode (loopCfgOf p.payload) = true
  actFree : actTaken s p.hearth (slotIn p) (loopCfgOf p.payload) = false
  channels : ((loopCfgOf p.payload).measSrc != 4 || decide (channelsBut s p.hearth (slotIn p) < 16)) = true
  budget : costMax (cfgsWith s p.hearth (slotIn p) (slotCfgOf p s)) ≤ costBudget

theorem loopConfig_taken {p : Packet} {s : State} (ok : LoopConfigOk p s) :
    loopConfig p s = .reply .ok [] (applyLoop p.hearth (slotIn p) (loopCfgOf p.payload) s) :=
  (check_passes ok.group ..).trans <| (check_passes (beq_iff_eq.2 ok.isOpen) ..).trans <|
    (check_passes (Bool.and_eq_true_iff.2 ⟨ok.reserved, ok.ranges⟩) ..).trans <|
    (check_passes (Bool.and_eq_true_iff.2 ⟨congrArg not ok.actFree, ok.channels⟩) ..).trans (check_passes (decide_eq_true ok.budget) ..)

/-! ### LOOP_CLOSE and LOOP_OPEN -/

/-- What LOOP_CLOSE asks of its fields and its slot: a measurement or a table where the stored mode needs one, and no relay test
(spec/07 R206, R220). -/
structure LoopCloseOk (p : Packet) (s : State) : Prop where
  reserved : zeroAt (wordAt p.payload 0) 6 26 = true
  measured : (!(modeNeeds (loopIn p s).mode && (loopIn p s).cfg.measSrc == 0)) = true
  tabled : (!((loopIn p s).mode == 3 && (loopIn p s).table.isEmpty)) = true
  untuned : (loopIn p s).state ≠ 2

/-- A LOOP_CLOSE that is accepted closes its slot, and leaves a CLOSED one as it is (spec/07 R206). -/
theorem loopClose_taken {p : Packet} {s : State} (ok : LoopCloseOk p s) :
    loopClose p s = if (loopIn p s).state = 1 then .reply .ok [] s else .reply .ok [] (closeSlot p.hearth (slotIn p) s) :=
  (check_passes ok.reserved ..).trans <| (check_passes (Bool.and_eq_true_iff.2 ⟨ok.measured, ok.tabled⟩) ..).trans <|
    check_passes (bne_iff_ne.2 ok.untuned) ..

/-- LOOP_OPEN leaves an OPEN slot as it is, aborts a relay test, and opens a CLOSED or LOST slot (spec/07 R206, R215). -/
theorem loopOpen_taken {p : Packet} {s : State} (reserved : zeroAt (wordAt p.payload 0) 6 26 = true) :
    loopOpen p s = if (loopIn p s).state = 0 then .reply .ok [] s
      else if (loopIn p s).state = 2 then .reply .ok [] (endTune p.hearth (slotIn p) 4 (loopIn p s).cfg s)
      else .reply .ok [] (openSlot p.hearth (slotIn p) s) := check_passes reserved ..

/-! ### LOOP_TUNE and LOOP_TABLE -/

/-- What LOOP_TUNE asks of its fields, its source, its slot and section, and of the relay's swing (spec/07 R223). -/
structure LoopTuneOk (p : Packet) (s : State) : Prop where
  low : zeroAt (wordAt p.payload 0) 6 2 = true
  high : zeroAt (wordAt p.payload 0) 9 23 = true
  group : loopGroup p s = true
  isOpen : (loopIn p s).state = 0
  sect : tuneSection s p.hearth (loopIn p s) = true
  measured : (loopIn p s).cfg.measSrc ≠ 0
  swingDown : (loopIn p s).cfg.outMin ≤ (loopIn p s).openOut - ((loopIn p s).cfg.relayAmp : Int)
  swingUp : (loopIn p s).openOut + ((loopIn p s).cfg.relayAmp : Int) ≤ (loopIn p s).cfg.outMax

/-- The relay test starts, and the reply waits for its end (spec/07 R214, R223). -/
theorem loopTune_starts {p : Packet} {s : State} (ok : LoopTuneOk p s) :
    loopTune p s = .hold (p.hearth * 64 + slotIn p) none (setLoop p.hearth (slotIn p) 2 (modLoop p.hearth (slotIn p)
      (fun l => { l with tune := some { apply := bitOf (wordAt p.payload 0) 8 }, tuneStatus := 1, upswitch := 0 }) s)) :=
  (check_passes (Bool.and_eq_true_iff.2 ⟨ok.low, ok.high⟩) ..).trans <| (check_passes ok.group ..).trans <|
    (check_passes (Bool.and_eq_true_iff.2 ⟨beq_iff_eq.2 ok.isOpen, ok.sect⟩) ..).trans <|
    check_passes (by simp [ok.measured, ok.swingDown, ok.swingUp]) ..

theorem loopTable_taken {p : Packet} {s : State} (group : loopGroup p s = true) (isOpen : (loopIn p s).state = 0)
    (points : loopTableOk p.payload (loopIn p s).cfg = true) :
    loopTable p s = .reply .ok [] (modLoop p.hearth (slotIn p) (fun l => { l with table := tablePoints p.payload }) s) :=
  (check_passes group ..).trans <| (check_passes (beq_iff_eq.2 isOpen) ..).trans (check_passes points ..)

/-! ### Commands -/

/-- Settles O39: in each of its forms a command passes its own checks and takes its effect. -/
theorem loopCommandsComplete : Obligations.LoopCommandsComplete := by
  refine ⟨?config, ?query, ?closed, ?closes, ?opened, ?aborts, ?opens, ?mode, ?setpoint, ?tune, ?table, ?pins⟩
  case config =>
    intro p s0 s ha h n x c full group isOpen reserved ranges actFree channels budget
    exact congrArg Host.Outcome.next
      (ha.reply (loopConfig_taken ⟨group, isOpen, reserved, ranges, actFree, channels, budget⟩))
  case query =>
    intro p s0 s ha reserved
    exact congrArg Host.Outcome.next (ha.reply (check_passes reserved ..))
  case closed =>
    intro p s0 s ha x reserved measured tabled untuned isClosed
    exact congrArg Host.Outcome.next
      (ha.reply ((loopClose_taken ⟨reserved, measured, tabled, untuned⟩).trans (if_pos isClosed)))
  case closes =>
    intro p s0 s ha x reserved measured tabled untuned unclosed
    exact congrArg Host.Outcome.next
      (ha.reply ((loopClose_taken ⟨reserved, measured, tabled, untuned⟩).trans (if_neg unclosed)))
  case opened =>
    intro p s0 s ha x reserved isOpen
    exact congrArg Host.Outcome.next (ha.reply ((loopOpen_taken reserved).trans (if_pos isOpen)))
  case aborts =>
    intro p s0 s ha n x reserved unopened tuning
    exact congrArg Host.Outcome.next
      (ha.reply ((loopOpen_taken reserved).trans ((if_neg unopened).trans (if_pos tuning))))
  case opens =>
    intro p s0 s ha n x reserved unopened untuned
    exact congrArg Host.Outcome.next
      (ha.reply ((loopOpen_taken reserved).trans ((if_neg unopened).trans (if_neg untuned))))
  case mode =>
    intro p s0 s ha group fields
    exact congrArg Host.Outcome.next (ha.reply ((check_passes group ..).trans (check_passes fields ..)))
  case setpoint =>
    intro p s0 s ha w group reserved
    exact congrArg Host.Outcome.next (ha.reply ((check_passes group ..).trans (check_passes reserved ..)))
  case tune =>
    intro p s0 s ha h n w x amp low high group isOpen sect measured swingDown swingUp room
    exact congrArg Host.Outcome.next
      (ha.hold room (loopTune_starts ⟨low, high, group, isOpen, sect, measured, swingDown, swingUp⟩))
  case table =>
    intro p s0 s ha x group isOpen points
    exact congrArg Host.Outcome.next (ha.reply (loopTable_taken group isOpen points))
  case pins =>
    intro p s0 s ha ws part fields
    exact congrArg Host.Outcome.next
      (ha.reply (check_passes (Bool.and_eq_true_iff.2 ⟨beq_iff_eq.2 part, fields⟩) ..))

/-! ### Events -/

/-- A change of what a set-point pin of a BRD-880 reads: the code of SETPT_A, or the level and edges of SETPT_P (spec/07 R204, R205). -/
theorem exec_setptValidityChange {pin : Nat} {x : SetptChange} {s : State} (part : s.ident.part = .brd880) (hp : pin < 2) :
    exec (.setptValidityChange pin x) s = .next (if pin = 0 then { s with setpt := { s.setpt with aCode := x.code % 4096 } }
      else { s with setpt := { s.setpt with pin := x.shows } }) :=
  congrArg Host.Outcome.next (if_neg (not_or.2 ⟨fun other => other part, Nat.not_le.2 hp⟩))

/-- Settles O40: on a present hearth each event of a slot takes its effect, a set-point pin of a BRD-880 shows its change, and the clear
takes its own. -/
theorem loopEvents : Obligations.LoopEvents := by
  refine ⟨?handover, ?lostHold, ?tuneEnd, ?externalRamp, ?analogPin, ?pulsePin, ?clear⟩
  case handover =>
    intro h n s hp
    exact congrArg Host.Outcome.next (if_pos hp)
  case lostHold =>
    intro h n s hp
    exact congrArg Host.Outcome.next (if_pos hp)
  case tuneEnd =>
    intro h n s hp
    exact congrArg Host.Outcome.next (if_pos hp)
  case externalRamp =>
    intro h n s hp
    exact congrArg Host.Outcome.next (if_pos hp)
  case analogPin =>
    intro pin x s part hp first
    exact (exec_setptValidityChange part hp).trans (congrArg Host.Outcome.next (if_pos first))
  case pulsePin =>
    intro pin x s part hp other
    exact (exec_setptValidityChange part hp).trans (congrArg Host.Outcome.next (if_neg other))
  case clear =>
    intro h s hp hw
    exact congrArg Host.Outcome.next (if_pos (Bool.and_eq_true_iff.2 ⟨hp, hw⟩))

end Sys2Proof.Machine
end

section
/-! PROOFS. Radio chains and synthesisers: what happens to synthesisers and ports, the commands, and what happens in the front end
(spec/08 R237, R238, R240, R246, R248, R249, R251, R258, R260 to R269, R274). -/

namespace Sys2Proof.Machine

/-! ### Synthesisers -/

/-- A synthesiser in a channel change that fails an attempt begins a further one, and the third failure in a row leads to FAULT (spec/08
R238). -/
theorem synFailed_counted {h n : Nat} {s : State} (change : tuning (synAt s h n) = true) :
    let t := modSyn h n (fun x => { x with fails := incSat 8 x.fails, tries := x.tries + 1 }) s
    synFailed h n s = if 3 ≤ (synAt t h n).tries then holdSource h (68 + n) (clearSource h (64 + n) (setSyn h n 4 t)) else setSyn h n 1 t :=
  if_pos change

/-- A LOCKED synthesiser loses lock within the running tick: the gates that need it close at the DSP clock, and the loss waits for the
next tick as an arrival (spec/02 R43; spec/08 R238). -/
theorem exec_synLockLost {h : Nat} {x : LockLoss} {s : State} (hp : present s h = true) (hn : x.n < 4) (hc : inTick s x.clk = true)
    (locked : (synAt s h x.n).state = 3) (fresh : (synAt s h x.n).lostAt.isNone = true) :
    exec (.synLockLost h x) s = .next (arrive (.synLost h x.n) (each (List.range 8) (updateGates x.clk h)
      (modSyn h x.n (fun y => { y with lostAt := some x.clk }) s))) :=
  congrArg Host.Outcome.next (if_pos (by simp only [hp, hn, hc, locked, fresh, beq_self_eq_true, decide_true, Bool.and_self]))

/-! ### Ports -/

/-- The change that an evaluation of a port chooses: none while a commit is staged, one into the range where an x lies outside, and
otherwise the one that the sum's peak asks for (spec/08 R251). -/
def portMove (s : State) (h n : Nat) : Int :=
  if (portAt s h n).change.isSome then 0 else if missAt s h n 0 ≠ 0 then rangeMove s h n else sumMove s h n

/-- The step that an evaluation asks for, within the port's limits (spec/08 R251). -/
def portTarget (s : State) (h n : Nat) : Nat :=
  (clampInt (portAt s h n).cfg.stepMin (portAt s h n).cfg.stepMax (((portAt s h n).step : Int) + portMove s h n)).toNat

/-- The state once an evaluation has taken a port's peak and begun the next period (spec/08 R251). -/
def peakTaken (h n : Nat) (s : State) : State :=
  modPort h n (fun y => { y with sumPk := y.pkNow.getD y.sumPk, pkNow := none, satSince := false }) s

/-- An AUTO port is evaluated in the running tick (spec/08 R251). -/
structure PortEvaluated (h n : Nat) (s : State) : Prop where
  present : present s h = true
  port : n < 4
  auto : (portAt s h n).cfg.auto = true
  tick : s.tbu.tick % 480 = 0

/-- An evaluation stages a step where the change that it chooses leads to another step. -/
theorem evaluatePort_evaluated {h n : Nat} {s : State} (e : PortEvaluated h n s) :
    evaluatePort h n s = if portMove s h n = 0 then peakTaken h n s
      else if portTarget s h n = (portAt s h n).step then peakTaken h n s
      else stageStep h n (portTarget s h n) 1 (peakTaken h n s) :=
  if_pos (by simp only [e.present, e.port, e.auto, e.tick, beq_self_eq_true, decide_true, Bool.and_self])

theorem evaluatePort_stays {h n : Nat} {s : State} (e : PortEvaluated h n s)
    (same : portMove s h n = 0 ∨ portTarget s h n = (portAt s h n).step) : evaluatePort h n s = peakTaken h n s := by
  rw [evaluatePort_evaluated e]
  rcases same with still | back
  · rw [if_pos still]
  · rw [if_pos back, ite_self]

theorem evaluatePort_stages {h n : Nat} {s : State} (e : PortEvaluated h n s) (move : portMove s h n ≠ 0)
    (other : portTarget s h n ≠ (portAt s h n).step) :
    evaluatePort h n s = stageStep h n (portTarget s h n) 1 (peakTaken h n s) := by
  rw [evaluatePort_evaluated e, if_neg move, if_neg other]

/-- A TRIM that has differed for 480 ticks is due (spec/08 R249). -/
theorem trimDelayDue_offers {h n : Nat} {s : State} (hp : present s h = true) (differs : (portAt s h n).trimWant ≠ (portAt s h n).trim)
    (long : (portAt s h n).trimSince.any (fun t => decide (t + 480 ≤ s.tbu.tick + 1)) = true) :
    trimDelayDue h n s = modPort h n (fun y => { y with trimDue := true }) s :=
  if_pos (by simp only [hp, bne_iff_ne.2 differs, long, Bool.and_self])

/-! ### What happens to synthesisers and ports -/

/-- Settles O41: under its condition each event of a synthesiser or a port takes its effect or waits for the next tick as an arrival, and
each arrival of a synthesiser takes its own when it is captured. -/
theorem synthesiserAndPortEvents : Obligations.SynthesiserAndPortEvents := by
  refine ⟨?locks, ?lockCaptured, ?fails, ?faults, ?triesAgain, ?loses, ?lossCaptured, ?waitEnds, ?supply, ?noMove, ?sameStep, ?stages,
    ?trim, ?reload⟩
  case locks =>
    intro h n ns s hp hn change
    exact congrArg Host.Outcome.next (if_pos (by simp only [hp, hn, change, decide_true, Bool.and_self]))
  case lockCaptured =>
    intro h n ns s change
    exact if_pos change
  case fails =>
    intro h n s hp hn change
    exact congrArg Host.Outcome.next (if_pos (by simp only [hp, hn, change, decide_true, Bool.and_self]))
  case faults =>
    intro h n s change t third
    exact (synFailed_counted change).trans (if_pos third)
  case triesAgain =>
    intro h n s change t further
    exact (synFailed_counted change).trans (if_neg (Nat.not_le.2 further))
  case loses =>
    intro h x s hp hn hc locked fresh
    exact exec_synLockLost hp hn hc locked fresh
  case lossCaptured =>
    intro h n s locked lost
    exact if_pos (Bool.and_eq_true_iff.2 ⟨beq_iff_eq.2 locked, lost⟩)
  case waitEnds =>
    intro h i s hp
    exact congrArg Host.Outcome.next (if_pos hp)
  case supply =>
    intro h n value s x hp hn pmbus
    exact congrArg Host.Outcome.next (if_pos (by simp only [hp, hn, pmbus, x, beq_self_eq_true, decide_true, Bool.and_self]))
  case noMove =>
    intro h n s x present port auto tick d t still
    exact congrArg Host.Outcome.next (evaluatePort_stays ⟨present, port, auto, tick⟩ (.inl still))
  case sameStep =>
    intro h n s x present port auto tick d t move target back
    exact congrArg Host.Outcome.next (evaluatePort_stays ⟨present, port, auto, tick⟩ (.inr back))
  case stages =>
    intro h n s x present port auto tick d t move target other
    exact congrArg Host.Outcome.next (evaluatePort_stages ⟨present, port, auto, tick⟩ move other)
  case trim =>
    intro h n s x hp differs long
    exact congrArg Host.Outcome.next (trimDelayDue_offers hp differs long)
  case reload =>
    intro h n s hp due
    exact congrArg Host.Outcome.next (if_pos (Bool.and_eq_true_iff.2 ⟨hp, due⟩))

/-! ### Commands -/

/-- A command that is refused in a condition passes its check out of it. -/
theorem check_passes_not {bad : Bool} (h : ¬ bad = true) (st : Status) (s : State) (next : Done) : check (!bad) st s next = next :=
  check_passes (congrArg not (Bool.eq_false_iff.2 h)) st s next

/-- RADIO_CONFIG changes no attenuation in use, and is applied to every hearth that it targets (spec/08 R262). -/
theorem radioConfig_taken {p : Packet} {s : State} (fields : radioOk p.payload = true)
    (idle : ¬ ((targets p s).any fun h => radioBusy p.payload h s) = true) :
    radioConfig p s = .reply .ok [] (each (targets p s) (applyRadio p.payload) s) :=
  (check_passes fields ..).trans (check_passes_not idle ..)

/-- The steps that a PWR_TABLE_WRITE payload carries (spec/08 R263). -/
def stepsOf (p : Packet) : List (Nat × Word × Word) :=
  stepPairs (p.payload.drop 1) (fld (wordAt p.payload 0) 8 8) (fld (wordAt p.payload 0) 16 9)

/-- What PWR_TABLE_WRITE asks of its fields, of the tables that it leaves, and of the sections on its port (spec/08 R246, R263). -/
structure TableWriteOk (p : Packet) (s : State) : Prop where
  low : zeroAt (wordAt p.payload 0) 2 6 = true
  high : zeroAt (wordAt p.payload 0) 25 7 = true
  carries : fld (wordAt p.payload 0) 16 9 ≠ 0
  within : fld (wordAt p.payload 0) 8 8 + fld (wordAt p.payload 0) 16 9 ≤ 256
  steps : (stepsOf p).all (fun e => stepOk e.2) = true
  rises : (targets p s).all (fun h => tableRises ((stepsOf p).foldl (fun m e => kset m e.1 e.2)
    (portAt s h (fld (wordAt p.payload 0) 0 2)).table)) = true
  idle : ¬ ((targets p s).any fun h => busyIdx s h (fld (wordAt p.payload 0) 0 2)) = true

theorem pwrTableWrite_taken {p : Packet} {s : State} (ok : TableWriteOk p s) :
    pwrTableWrite p s = .reply .ok [] (each (targets p s)
      (fun h t => refreshPort h (modPort h (fld (wordAt p.payload 0) 0 2) (putSteps (stepsOf p)) t)) s) := by
  have fields : (zeroAt (wordAt p.payload 0) 2 6 && zeroAt (wordAt p.payload 0) 25 7 && fld (wordAt p.payload 0) 16 9 != 0
      && decide (fld (wordAt p.payload 0) 8 8 + fld (wordAt p.payload 0) 16 9 ≤ 256) && (stepsOf p).all (fun e => stepOk e.2)
      && (targets p s).all (fun h => tableRises ((stepsOf p).foldl (fun m e => kset m e.1 e.2)
        (portAt s h (fld (wordAt p.payload 0) 0 2)).table))) = true := by
    simp only [ok.low, ok.high, bne_iff_ne.2 ok.carries, ok.within, ok.steps, ok.rises, decide_true, Bool.and_self]
  exact (check_passes fields ..).trans (check_passes_not ok.idle ..)

/-- FES_CONFIG sets the dividers and modes of the buses while no sequence runs and every mapped sequence keeps its time (spec/08 R258,
R265). -/
theorem fesConfig_taken {p : Packet} {s : State} (fields : fesOk p.payload = true) (idle : ¬ (targets p s).any (sequencesRun s) = true)
    (limits : ((targets p s).all fun h => limitsOk (hearthAt s h).fes (rffeOf p.payload) (spiOf p.payload)) = true) :
    fesConfig p s = .reply .ok [] (each (targets p s) (fun h => modFes h fun f => { f with
      rffeDiv := rffeOf p.payload, spiDiv := spiOf p.payload
      spiMode := [fld (wordAt p.payload 2) 12 2, fld (wordAt p.payload 2) 28 2] }) s) :=
  (check_passes fields ..).trans <| (check_passes_not idle ..).trans (check_passes limits ..)

/-- FES_GPIO_CONFIG sets its pin while no section of a hearth that it targets transmits (spec/08 R266). -/
theorem fesGpioConfig_taken {p : Packet} {s : State} (fields : ((targets p s).all fun h => gpioOk p.payload h s) = true)
    (idle : ¬ (targets p s).any (hearthTransmits s) = true) :
    fesGpioConfig p s = .reply .ok [] (each (targets p s) (fun h t => driveTdd h (t.tbu.clock + t.tbu.tickLen) (modFes h (fun f => { f with
      gpio := f.gpio.set (fld (wordAt p.payload 0) 0 4) (gpioOf p.payload)
      tddLine := kerase f.tddLine (fld (wordAt p.payload 0) 0 4) }) t)) s) :=
  (check_passes fields ..).trans (check_passes_not idle ..)

/-- FES_SEQ_WRITE writes its entries and its map entry while no sequence that it touches runs (spec/08 R267). -/
theorem fesSeqWrite_taken {p : Packet} {s : State} (fields : ((targets p s).all fun h => seqFieldsOk p.payload (hearthAt s h).fes) = true)
    (limits : ((targets p s).all fun h => limitsOk (seqApplied p.payload (hearthAt s h).fes) (hearthAt s h).fes.rffeDiv
      (hearthAt s h).fes.spiDiv) = true)
    (idle : ¬ ((targets p s).any fun h => (seqTouched p.payload (hearthAt s h).fes).any (eventRuns s h)) = true) :
    fesSeqWrite p s = .reply .ok [] (each (targets p s) (fun h => modFes h (seqApplied p.payload)) s) :=
  (check_passes fields ..).trans <| (check_passes limits ..).trans (check_passes_not idle ..)

/-- Settles O42: each command passes its own checks and takes its effect; FES_BUS_ACCESS waits for the end of its operation. -/
theorem radioCommandsComplete : Obligations.RadioCommandsComplete := by
  refine ⟨?radio, ?table, ?port, ?fes, ?gpio, ?seq, ?access⟩
  case radio =>
    intro p s0 s ha fields idle
    exact congrArg Host.Outcome.next (ha.reply (radioConfig_taken fields idle))
  case table =>
    intro p s0 s ha w c first count es ok low high carries within steps rises idle
    exact congrArg Host.Outcome.next (ha.reply (pwrTableWrite_taken ⟨low, high, carries, within, steps, rises, idle⟩))
  case port =>
    intro p s0 s ha fields
    exact congrArg Host.Outcome.next (ha.reply (check_passes fields ..))
  case fes =>
    intro p s0 s ha ws fields idle limits
    exact congrArg Host.Outcome.next (ha.reply (fesConfig_taken fields idle limits))
  case gpio =>
    intro p s0 s ha n fields idle
    exact congrArg Host.Outcome.next (ha.reply (fesGpioConfig_taken fields idle))
  case seq =>
    intro p s0 s ha ws fes fields limits idle
    exact congrArg Host.Outcome.next (ha.reply (fesSeqWrite_taken fields limits idle))
  case access =>
    intro p s0 s ha e fields room
    exact congrArg Host.Outcome.next (ha.hold room (check_passes fields ..))

/-! ### Bus operations -/

/-- Operation `e` runs on the front-end buses of a hearth, its time ends at `stop`, and a DSP clock `clk` lies in the running tick
(spec/08 R258, R261). -/
structure BusRuns (h : Nat) (e : SeqEntry) (stop clk : Nat) (s : State) : Prop where
  operation : (hearthAt s h).fes.bus = some e
  ends : (hearthAt s h).fes.busEnd = some stop
  present : present s h = true
  clock : inTick s clk = true

theorem acts_of_busRuns {h : Nat} {e : SeqEntry} {stop clk : Nat} {s : State} (r : BusRuns h e stop clk s) :
    ¬ (!present s h || !inTick s clk) = true := by
  simp only [r.present, r.clock, Bool.not_true, Bool.or_self, Bool.false_eq_true, not_false_eq_true]

/-- The data of a read count up to the edge at which its time ends (spec/02 R45; spec/08 R261). -/
theorem exec_busOperationDone_answer {h : Nat} {e : SeqEntry} {stop clk : Nat} {s : State} (r : BusRuns h e stop clk s)
    (read : opOf e = 7) (v : Nat) :
    exec (.busOperationDone h (some v) clk) s = .next (if clk ≤ stop then
      endBus .ok [BitVec.ofNat 32 (v % 2 ^ (8 * bytesIn e))] h (modFes h (freeBus e stop clk) s) else failRead h s) := by
  refine congrArg Host.Outcome.next ?_
  simp only [r.operation, r.ends]
  exact (if_neg (acts_of_busRuns r)).trans (if_pos read)

/-- A read whose data fail parity fails, and its bus is free (spec/08 R261). -/
theorem exec_busOperationDone_corrupt {h : Nat} {e : SeqEntry} {stop clk : Nat} {s : State} (r : BusRuns h e stop clk s)
    (read : opOf e = 7) :
    exec (.busOperationDone h none clk) s = .next (failRead h (modFes h (freeBus e stop clk) s)) := by
  refine congrArg Host.Outcome.next ?_
  simp only [r.operation, r.ends]
  exact (if_neg (acts_of_busRuns r)).trans (if_pos read)

/-- An operation other than a read is over once its clocks have passed (spec/08 R258, R268). -/
theorem exec_busOperationDone_write {h : Nat} {e : SeqEntry} {stop clk : Nat} {s : State} (r : BusRuns h e stop clk s)
    (write : opOf e ≠ 7) (ended : stop ≤ clk) (data : Option Nat) :
    exec (.busOperationDone h data clk) s = .next (endBus .ok [] h s) := by
  refine congrArg Host.Outcome.next ?_
  simp only [r.operation, r.ends]
  exact (if_neg (acts_of_busRuns r)).trans ((if_neg write).trans (if_pos ended))

/-! ### What happens in the front end -/

/-- The BND operations of a STEP sequence have ended by the close of the running tick (spec/08 R258). -/
theorem stepEndDue_ends {h n : Nat} {s : State} (hp : present s h = true) (bound : (hearthAt s h).fes.stepSeq.getD n 0 = 2)
    (ended : (hearthAt s h).fes.bndEnd.getD n 0 ≤ s.tbu.clock + s.tbu.tickLen) :
    stepEndDue h n s = modFes h (fun f => { f with stepSeq := f.stepSeq.set n 0 }) s :=
  if_pos (by simp only [hp, bound, ended, beq_self_eq_true, decide_true, Bool.and_self])

/-- The time of a read ends within the running tick (spec/02 R45; spec/08 R261). -/
theorem readTimeDue_fails {h : Nat} {s : State} (hp : present s h = true)
    (read : (hearthAt s h).fes.bus.any (fun e => opOf e == 7) = true)
    (ended : (hearthAt s h).fes.busEnd.any (fun c => decide (c < s.tbu.clock + s.tbu.tickLen)) = true) :
    readTimeDue h s = failRead h s :=
  if_pos (by simp only [hp, read, ended, Bool.and_self])

/-- Settles O43: under its condition each event of the front end takes its effect, and the clear its own. -/
theorem frontEndEvents : Obligations.FrontEndEvents := by
  refine ⟨?act, ?step, ?answer, ?late, ?corrupt, ?write, ?timeout, ?clear⟩
  case act =>
    intro h n s hp done
    exact congrArg Host.Outcome.next (if_pos (Bool.and_eq_true_iff.2 ⟨hp, done⟩))
  case step =>
    intro h n s f hp bound ended
    exact congrArg Host.Outcome.next (stepEndDue_ends hp bound ended)
  case answer =>
    intro h data clk s e stop operation ends present clock read v hv inTime
    subst hv
    exact (exec_busOperationDone_answer ⟨operation, ends, present, clock⟩ read v).trans (congrArg Host.Outcome.next (if_pos inTime))
  case late =>
    intro h data clk s e stop operation ends present clock read v hv late
    subst hv
    exact (exec_busOperationDone_answer ⟨operation, ends, present, clock⟩ read v).trans
      (congrArg Host.Outcome.next (if_neg (Nat.not_le.2 late)))
  case corrupt =>
    intro h data clk s e stop operation ends present clock read hd
    subst hd
    exact exec_busOperationDone_corrupt ⟨operation, ends, present, clock⟩ read
  case write =>
    intro h data clk s e stop operation ends present clock write ended
    exact exec_busOperationDone_write ⟨operation, ends, present, clock⟩ write ended data
  case timeout =>
    intro h s f hp read ended
    exact congrArg Host.Outcome.next (readTimeDue_fails hp read ended)
  case clear =>
    intro h s hp hw
    exact congrArg Host.Outcome.next (if_pos (Bool.and_eq_true_iff.2 ⟨hp, hw⟩))

end Sys2Proof.Machine
end

section
/-! PROOFS. Live calibration: its commands, the start, completion and abandonment of estimates, the withdrawal of deltas, the alternation
of the observation receivers and the clear of the counts (spec/09 R276, R279, R280, R282, R288, R290 to R295, R297). -/

namespace Sys2Proof.Machine

/-! ### Commands -/

/-- What LCAL_CONFIG asks of its item, of the period, and of the chains and windows that it selects for the item (spec/09 R276, R291). -/
structure LcalConfigOk (p : Packet) : Prop where
  item : fld (wordAt p.payload 0) 16 4 ≤ 8
  period : fld (wordAt p.payload 1) 0 13 ≤ 6000
  low0 : zeroAt (wordAt p.payload 0) 10 6 = true
  high0 : zeroAt (wordAt p.payload 0) 21 11 = true
  low1 : zeroAt (wordAt p.payload 1) 13 3 = true
  high1 : zeroAt (wordAt p.payload 1) 19 13 = true
  chains : (fld (wordAt p.payload 0) 0 10 &&& (1023 - itemChains (fld (wordAt p.payload 0) 16 4)) == 0) = true
  windows : (fld (wordAt p.payload 1) 16 3 &&& (7 - itemWindows (fld (wordAt p.payload 0) 16 4)) == 0) = true

/-- The period and the windows of an item in a hearth once LCAL_CONFIG has set them: a period of 0 and no windows keep what the item has,
and items 6 and 7 ignore theirs (spec/09 R276, R291). -/
def lcalFieldsSet (p : Packet) (h : Nat) (s : State) : State :=
  let item := fld (wordAt p.payload 0) 16 4
  let period := fld (wordAt p.payload 1) 0 13
  let win := fld (wordAt p.payload 1) 16 3
  modLcalH h (fun l => { l with
    period := if period = 0 then l.period else l.period.set item period
    windows := if win = 0 ∨ item = 6 ∨ item = 7 then l.windows else l.windows.set item win }) s

/-- LCAL_CONFIG sets an item in every hearth that it targets, and enables or disables it on the chains that it selects. -/
theorem lcalConfig_taken {p : Packet} {s : State} (ok : LcalConfigOk p) :
    lcalConfig p s = .reply .ok [] (each (targets p s) (fun h t => each (maskBits 10 (fld (wordAt p.payload 0) 0 10))
      (fun n => enableItem (bitOf (wordAt p.payload 0) 20) h n (fld (wordAt p.payload 0) 16 4)) (lcalFieldsSet p h t)) s) :=
  check_passes (by simp only [ok.item, ok.period, ok.low0, ok.high0, ok.low1, ok.high1, ok.chains, ok.windows, decide_true,
    Bool.and_self]) ..

/-- What LCAL_RUN asks of its chain and item: the item applies to the chain, the chain is not held, and no other LCAL_RUN waits on the
estimate (spec/09 R292, R294). -/
structure LcalRunOk (p : Packet) (s : State) : Prop where
  chain : fld (wordAt p.payload 0) 0 4 ≤ 9
  low : zeroAt (wordAt p.payload 0) 4 4 = true
  high : zeroAt (wordAt p.payload 0) 12 20 = true
  applies : maskHas (itemChains (fld (wordAt p.payload 0) 8 4)) (fld (wordAt p.payload 0) 0 4) = true
  unheld : ¬ maskHas (hearthAt s p.hearth).lcal.hold (fld (wordAt p.payload 0) 0 4) = true
  alone : (heldFor s 0x0802 (runKey p.hearth (fld (wordAt p.payload 0) 0 4) (fld (wordAt p.payload 0) 8 4))).isEmpty = true

/-- A running estimate of an item is marked as asked for by a command; without one, such an estimate starts (spec/09 R292). -/
def estimateForced (h n item : Nat) (s : State) : State :=
  if (kget (lcalAt s h n).est item).isSome then
    modLcal h n (fun c => { c with est := c.est.map fun e => if e.1 = item then (item, { e.2 with forced := true }) else e }) s
  else startEst true h n item s

/-- The reply to LCAL_RUN waits on the estimate. -/
theorem lcalRun_waits {p : Packet} {s : State} (ok : LcalRunOk p s) :
    lcalRun p s = .hold (runKey p.hearth (fld (wordAt p.payload 0) 0 4) (fld (wordAt p.payload 0) 8 4)) none
      (estimateForced p.hearth (fld (wordAt p.payload 0) 0 4) (fld (wordAt p.payload 0) 8 4) s) :=
  (check_passes (by simp only [ok.chain, ok.low, ok.high, ok.applies, decide_true, Bool.and_self]) ..).trans <|
    (check_passes_not ok.unheld ..).trans (check_passes ok.alone ..)

/-! ### Estimates -/

/-- The period of an item has elapsed since its last estimate of a chain began, if one did (spec/09 R276). -/
def itemElapsed (s : State) (h c item : Nat) : Bool :=
  match kget (lcalAt s h c).last item with
  | none => true
  | some t => decide (t + itemPeriod s h item ≤ s.tbu.tick)

/-- An estimate of an item of a chain is due: the item runs on the chain, its period has elapsed, the synthesiser that it needs is LOCKED,
and no estimate of it runs (spec/09 R276, R290). -/
structure EstimateDue (h c item : Nat) (s : State) : Prop where
  present : present s h = true
  kindled : (s.pkg == .ember || s.pkg == .alight) = true
  on : itemOn s h c item = true
  elapsed : itemElapsed s h c item = true
  locked : (item == 6 || item == 7 || lockedIdx s h (chainIdx s h c)) = true
  idle : (kget (lcalAt s h c).est item).isNone = true

/-- `execLcalEstimateStart` as one condition on the period of the item. -/
theorem exec_lcalEstimateStart (h c item : Nat) (s : State) :
    exec (.lcalEstimateStart h c item) s = .next (if present s h && (s.pkg == .ember || s.pkg == .alight) && itemOn s h c item
      && itemElapsed s h c item && (item == 6 || item == 7 || lockedIdx s h (chainIdx s h c)) && (kget (lcalAt s h c).est item).isNone
      then startEst false h c item s else s) := rfl

theorem exec_lcalEstimateStart_due {h c item : Nat} {s : State} (d : EstimateDue h c item s) :
    exec (.lcalEstimateStart h c item) s = .next (startEst false h c item s) := by
  rw [exec_lcalEstimateStart, if_pos]
  simp only [d.present, d.kindled, d.on, d.elapsed, d.locked, d.idle, Bool.and_self]

/-- Estimate `e` of an item of a chain has its samples, of a detector that is not stopped (spec/09 R276, R279, R297). -/
structure EstimateFull (h c item : Nat) (e : Est) (s : State) : Prop where
  running : kget (lcalAt s h c).est item = some e
  present : present s h = true
  chain : c < 10
  known : item < 9
  samples : itemSamples item ≤ e.got
  alive : ((item == 6 || item == 7) && (hearthAt s h).lcal.detStop) = false

/-- A full estimate completes if it is consistent, and otherwise takes its samples anew (spec/09 R279, R282). -/
theorem exec_lcalEstimateComplete_full {h c item : Nat} {e : Est} {s : State} (f : EstimateFull h c item e s) (r : LcalResult) :
    exec (.lcalEstimateComplete h c item r) s = .next (if r.good then completeEst h c item e.win r s
      else modLcal h c (fun x => { x with est := kset x.est item { e with win := 0, got := 0 } }) s) := by
  refine congrArg Host.Outcome.next ?_
  simp only [f.running]
  exact if_pos (by simp only [f.present, f.chain, f.known, f.samples, f.alive, decide_true, Bool.not_false, Bool.and_self])

/-- Estimate `e` of an item of a chain runs and has not completed within 2 × PERIOD (spec/09 R279). -/
structure EstimateOverdue (h c item : Nat) (e : Est) (s : State) : Prop where
  running : kget (lcalAt s h c).est item = some e
  present : present s h = true
  overdue : e.start + 2 * itemPeriod s h item ≤ s.tbu.tick

/-- The state once an estimate has been given up: the chain shows NO_WINDOW for the item, the event is logged, and an LCAL_RUN that waits
on the estimate itself replies TIMEOUT (spec/09 R279, R292, R298). -/
def estimateGivenUp (h c item : Nat) (s : State) : State :=
  let t := modLcal h c (fun x => { x with noWindow := x.noWindow ||| 2 ^ item }) (endEst h c item s)
  let t := emit h 0x0813 [c, item] t
  onlyIf (!maskHas (runsStaged (lcalAt t h c)) item) (endHeldFor 0x0802 (runKey h c item) .timeout []) t

/-- An overdue estimate is given up, and its item starts again while it runs on the chain. -/
theorem abandonDue_overdue {h c item : Nat} {e : Est} {s : State} (o : EstimateOverdue h c item e s) :
    abandonDue h c item s = if itemOn (estimateGivenUp h c item s) h c item then startEst false h c item (estimateGivenUp h c item s)
      else estimateGivenUp h c item s := by
  unfold abandonDue
  simp only [o.running]
  exact if_pos (by simp only [o.present, o.overdue, decide_true, Bool.and_self])

/-! ### Deltas and observation receivers -/

/-- An item starts again on a chain where it runs and has no estimate (spec/09 R288). -/
def itemRestarted (h c item : Nat) (s : State) : State :=
  if itemOn s h c item && (kget (lcalAt s h c).est item).isNone then startEst false h c item s else s

/-- A delta pending for 480 ticks is withdrawn, and its items start again; with it goes what was to follow it, which is the model's choice
(spec/09 R288; log entry 35, DEDUCED). -/
theorem withdrawDue_pending {h c : Nat} {d : Delta} {s : State} (pending : (lcalAt s h c).delta = some d) (hp : present s h = true)
    (long : d.tick + 480 ≤ s.tbu.tick) :
    withdrawDue h c s = each (maskBits 9 (d.items ||| ((lcalAt s h c).rest.map (·.items)).getD 0)) (itemRestarted h c)
      (withdrawDelta h c s) := by
  unfold withdrawDue
  simp only [pending]
  exact if_pos (by simp only [hp, long, decide_true, Bool.and_self])

/-- An ORX that nothing holds moves to the other port of its pair at the end of its turn (spec/09 R280). -/
theorem alternateDue_moves {h n : Nat} {s : State} (hp : present s h = true) (hn : n < 2) (free : orxInUse s h n = false)
    (turn : (hearthAt s h).rfc.orxTurn.getD n 0 + 480 ≤ s.tbu.tick + 1) :
    alternateDue h n s = moveOrx h n (1 - (hearthAt s h).rfc.orxTo.getD n 0) s :=
  if_pos (by simp only [hp, hn, free, turn, decide_true, Bool.not_false, Bool.and_self])

/-- Settles O44: each command passes its own checks and takes its effect, and each event takes its effect under its condition; log entry 35
is the choice that what was to follow a withdrawn delta goes with it. -/
theorem liveCalibrationRows : Obligations.LiveCalibrationRows := by
  refine ⟨?config, ?run, ?query, ?hold, ?start, ?complete, ?inconsistent, ?startsAgain, ?givenUp, ?withdraw, ?alternate, ?clear⟩
  case config =>
    intro p s0 s ha w0 w1 mask item period win hitem hperiod low0 high0 low1 high1 chains windows
    exact congrArg Host.Outcome.next (ha.reply (lcalConfig_taken ⟨hitem, hperiod, low0, high0, low1, high1, chains, windows⟩))
  case run =>
    intro p s0 s ha w n item h chain low high applies unheld alone room
    exact congrArg Host.Outcome.next (ha.hold room (lcalRun_waits ⟨chain, low, high, applies, unheld, alone⟩))
  case query =>
    intro p s0 s ha w chain reserved
    exact congrArg Host.Outcome.next
      (ha.reply (check_passes (Bool.and_eq_true_iff.2 ⟨decide_eq_true chain, reserved⟩) ..))
  case hold =>
    intro p s0 s ha w mask on low high
    exact congrArg Host.Outcome.next (ha.reply (check_passes (Bool.and_eq_true_iff.2 ⟨low, high⟩) ..))
  case start =>
    intro h c item s x due lock present kindled on elapsed locked idle
    exact exec_lcalEstimateStart_due ⟨present, kindled, on, elapsed, locked, idle⟩
  case complete =>
    intro h c item r s e running dead present chain known samples alive good
    exact (exec_lcalEstimateComplete_full ⟨running, present, chain, known, samples, alive⟩ r).trans
      (congrArg Host.Outcome.next (if_pos good))
  case inconsistent =>
    intro h c item r s e running dead present chain known samples alive bad
    exact (exec_lcalEstimateComplete_full ⟨running, present, chain, known, samples, alive⟩ r).trans
      (congrArg Host.Outcome.next (if_neg (Bool.eq_false_iff.1 bad)))
  case startsAgain =>
    intro h c item s e running present overdue t t' t'' on
    exact congrArg Host.Outcome.next ((abandonDue_overdue ⟨running, present, overdue⟩).trans (if_pos on))
  case givenUp =>
    intro h c item s e running present overdue t t' t'' off
    exact congrArg Host.Outcome.next ((abandonDue_overdue ⟨running, present, overdue⟩).trans (if_neg (Bool.eq_false_iff.1 off)))
  case withdraw =>
    intro h c s x d pending hp long
    exact congrArg Host.Outcome.next (withdrawDue_pending pending hp long)
  case alternate =>
    intro h n s r hp hn free turn
    exact congrArg Host.Outcome.next (alternateDue_moves hp hn free turn)
  case clear =>
    intro h s hp hw
    exact congrArg Host.Outcome.next (if_pos (Bool.and_eq_true_iff.2 ⟨hp, hw⟩))

end Sys2Proof.Machine
end

section
/-! PROOFS. The air monitor: its commands, a visit, a scan dwell and the clear of its counts (spec/10 R299 to R302, R306, R310, R312, R313,
R318 to R324, R326). -/

namespace Sys2Proof.Machine

/-! ### Commands -/

/-- What AIR_CONFIG asks of its fields, and of the channels that AIR does not hold, which leave it those that it enables (spec/10 R300,
R319). -/
structure AirConfigOk (p : Packet) (s : State) : Prop where
  low : zeroAt (wordAt p.payload 0) 2 2 = true
  mid : zeroAt (wordAt p.payload 0) 21 3 = true
  high : zeroAt (wordAt p.payload 0) 27 5 = true
  rest : wordAt p.payload 1 = 0
  least : 1 ≤ fld (wordAt p.payload 0) 4 4
  most : fld (wordAt p.payload 0) 4 4 ≤ 8
  period : 1 ≤ fld (wordAt p.payload 0) 8 8
  periodMost : fld (wordAt p.payload 0) 8 8 ≤ 100
  lost : 1 ≤ fld (wordAt p.payload 0) 16 5
  lostMost : fld (wordAt p.payload 0) 16 5 ≤ 16
  level : fld (wordAt p.payload 0) 24 3 ≤ 4
  free : (!bitOf (wordAt p.payload 0) 0
    || (targets p s).all fun h => decide (otherChannels s h + fld (wordAt p.payload 0) 4 4 ≤ 16)) = true

/-- Hearth `x` once AIR_CONFIG, handled in state `s`, has set its fields there: an AIR that is enabled holds its channels, one that is
disabled none, and FLUSH empties the cell table and the stranger records (spec/10 R300, R319). -/
def airFieldsSet (p : Packet) (s : State) (h : Nat) (x : Hearth) : Hearth :=
  let w := wordAt p.payload 0
  let keep := if bitOf w 0 then fld w 4 4 else 0
  { x with
    grt := { x.grt with meas := giveChannels { owner := 1 } (keep - channelsOf s h (· == 1)) (dropChannels 1 keep x.grt.meas) }
    air := { x.air with
      enabled := bitOf w 0, channels := fld w 4 4, trackPeriod := fld w 8 8, nLost := fld w 16 5, levelK := fld w 24 3
      cells := if bitOf w 1 then [] else x.air.cells, strangers := if bitOf w 1 then [] else x.air.strangers
      tableFull := x.air.tableFull && !bitOf w 1 } }

/-- AIR_CONFIG sets its fields in every hearth that it targets, and the hearth tracks its cells anew. -/
theorem airConfig_taken {p : Packet} {s : State} (ok : AirConfigOk p s) :
    airConfig p s = .reply .ok [] (each (targets p s) (fun h t => retrack h (modHearth h (airFieldsSet p s h) t)) s) :=
  (check_passes (by simp only [ok.low, ok.mid, ok.high, ok.rest, ok.least, ok.most, ok.period, ok.periodMost, ok.lost, ok.lostMost,
    ok.level, beq_self_eq_true, decide_true, Bool.and_self]) ..).trans (check_passes ok.free ..)

/-- What AIR_SCAN_RANGE asks of its fields: START and STOP lie in order in the tuning range, a range that is enabled names a RAT, and a STEP
is 0 or at least 1,000 (spec/10 R320). -/
structure AirScanRangeOk (p : Packet) : Prop where
  chain : zeroAt (wordAt p.payload 0) 6 2 = true
  rats : zeroAt (wordAt p.payload 0) 11 1 = true
  caseC : zeroAt (wordAt p.payload 0) 13 1 = true
  high : zeroAt (wordAt p.payload 0) 16 16 = true
  start : 41000000 ≤ (wordAt p.payload 1).toNat
  order : (wordAt p.payload 1).toNat ≤ (wordAt p.payload 2).toNat
  stop : (wordAt p.payload 2).toNat ≤ 712500000
  named : (!bitOf (wordAt p.payload 0) 4 || fld (wordAt p.payload 0) 8 3 != 0) = true
  step : ((wordAt p.payload 3).toNat == 0 || decide (1000 ≤ (wordAt p.payload 3).toNat)) = true

/-- The range that an AIR_SCAN_RANGE payload gives (spec/10 R320). -/
def scanRangeOf (p : Packet) : ScanRange :=
  let w := wordAt p.payload 0
  { enable := bitOf w 4, chain := fld w 5 1, rats := fld w 8 3, caseC := bitOf w 12, ssbPeriod := fld w 14 2
    start := (wordAt p.payload 1).toNat, stop := (wordAt p.payload 2).toNat, step := (wordAt p.payload 3).toNat }

/-- AIR_SCAN_RANGE writes its range in every hearth that it targets. -/
theorem airScanRange_taken {p : Packet} {s : State} (ok : AirScanRangeOk p) :
    airScanRange p s = .reply .ok [] (each (targets p s) (fun h => modAir h fun a => { a with
      ranges := a.ranges.set (fld (wordAt p.payload 0) 0 4) (scanRangeOf p) }) s) :=
  check_passes (by simp only [ok.chain, ok.rats, ok.caseC, ok.high, ok.start, ok.order, ok.stop, ok.named, ok.step, decide_true,
    Bool.and_self]) ..

/-- What AIR_SECTION_CONFIG asks of its section, which is defined and takes the command under the group source rule, and of its fields;
pattern watch is for TDD, and a PW_N of 0 is refused by the model's choice (spec/10 R321; log entry 29, DEDUCED). -/
structure AirSectionConfigOk (p : Packet) (s : State) : Prop where
  group : groupRule p s = true
  placed : (secAt s p.hearth p.sect).state ≠ .cold
  low : zeroAt (wordAt p.payload 0) 7 1 = true
  mid : zeroAt (wordAt p.payload 0) 10 2 = true
  high : zeroAt (wordAt p.payload 1) 16 16 = true
  frames : 1 ≤ fld (wordAt p.payload 0) 12 4
  margin : 768 ≤ sfld (wordAt p.payload 0) 16 16
  marginMost : sfld (wordAt p.payload 0) 16 16 ≤ 7680
  floor : sfld (wordAt p.payload 1) 0 16 ≤ 0
  tdd : ((((secAt s p.hearth p.sect).defn).getD {}).tdd || !bitOf (wordAt p.payload 0) 8) = true

/-- Tracking and pattern watch of a section as AIR_SECTION_CONFIG sets them; the 16 results are cleared (spec/10 R316, R321). -/
def airSecFieldsSet (p : Packet) (a : AirSec) : AirSec :=
  let w := wordAt p.payload 0
  { a with
    trackEn := bitOf w 0, rats := fld w 1 3, caseC := bitOf w 4, ssbPeriod := fld w 5 2, pwEn := bitOf w 8, pwUlRx := bitOf w 9
    pwN := fld w 12 4, pwMargin := sfld w 16 16, pwFloor := sfld (wordAt p.payload 1) 0 16, results := [] }

/-- AIR_SECTION_CONFIG sets the fields of its section, and the hearth tracks its cells anew. -/
theorem airSectionConfig_taken {p : Packet} {s : State} (ok : AirSectionConfigOk p s) :
    airSectionConfig p s = .reply .ok [] (retrack p.hearth (modAirSec p.hearth p.sect (airSecFieldsSet p) s)) :=
  (check_passes ok.group ..).trans <| (check_passes (bne_iff_ne.2 ok.placed) ..).trans <|
    check_passes (by simp only [ok.low, ok.mid, ok.high, ok.frames, ok.margin, ok.marginMost, ok.floor, ok.tdd, decide_true,
      Bool.and_self]) ..

/-- What AIR_CELL_READ asks of FIRST and COUNT: the entries lie in the cell table (spec/10 R322). -/
structure AirCellReadOk (p : Packet) : Prop where
  low : zeroAt (wordAt p.payload 0) 10 6 = true
  mid : zeroAt (wordAt p.payload 0) 23 1 = true
  high : zeroAt (wordAt p.payload 0) 25 7 = true
  least : 1 ≤ fld (wordAt p.payload 0) 16 7
  most : fld (wordAt p.payload 0) 16 7 ≤ 64
  within : fld (wordAt p.payload 0) 0 10 + fld (wordAt p.payload 0) 16 7 ≤ 1024

/-- The words of the used entries from FIRST on, at most COUNT of them, after their number (spec/10 R322). -/
def usedCellWords (p : Packet) (s : State) : List Word :=
  let used := ((hearthAt s p.hearth).air.cells.filter fun e => decide (fld (wordAt p.payload 0) 0 10 ≤ e.1)).take
    (fld (wordAt p.payload 0) 16 7)
  [BitVec.ofNat 32 used.length] ++ used.flatMap fun e => cellWords (some e.2)

/-- The words of the COUNT entries from FIRST on (spec/10 R322). -/
def everyCellWords (p : Packet) (s : State) : List Word :=
  (List.range (fld (wordAt p.payload 0) 16 7)).flatMap fun j =>
    cellWords (kget (hearthAt s p.hearth).air.cells (fld (wordAt p.payload 0) 0 10 + j))

/-- AIR_CELL_READ reads its entries, the FREE ones left out with ONLY_USED, and changes nothing. -/
theorem airCellRead_taken {p : Packet} {s : State} (ok : AirCellReadOk p) :
    airCellRead p s = if bitOf (wordAt p.payload 0) 24 then .reply .ok (usedCellWords p s) s else .reply .ok (everyCellWords p s) s :=
  check_passes (by simp only [ok.low, ok.mid, ok.high, ok.least, ok.most, ok.within, decide_true, Bool.and_self]) ..

/-! ### Visits and scan dwells -/

/-- What a visit of AIR found that counts (spec/10 R301, R310). -/
def visitFound (s : State) (h : Nat) (x : VisitIn) : VisitIn := onlyDetectable x fun _ => visitCase s h x

/-- State `t`, in which a visit of AIR has gone on in its round, once its results have entered: detections and misses in the cell table,
the frame source's cell at the TBU, and lines as strangers; `caseC` is CASE of the visit (spec/10 R306, R307, R312, R318). -/
def visitEntered (h : Nat) (caseC : Bool) (v : VisitIn) (t : State) : State :=
  let t := each v.found (enterCell h true caseC v) (missCells h true v (fun _ => true) t)
  let t := passCell h v (retrack h t)
  each (v.lines.filter (lineStands t h v.chain))
    (fun l => reportStranger h l.sect l.branch false l.freq l.bin (lineLevel t h l)) t

/-- A visit that AIR takes goes on in its round; its results enter unless its correlator has failed its check; that its channel
turns with the row of the visit is the model's choice (spec/10 R310, R326; log entry 144, DESIGN CHOICE). -/
theorem exec_airVisit_taken {h : Nat} {x : VisitIn} {s : State} (taken : visitTaken s h (visitFound s h x) = true) :
    exec (.airVisit h x) s = .next (
      if (hearthAt s h).air.visitBad then modAir h (fun a => { a with visitBad := false }) (startVisit h (visitFound s h x) s)
      else visitEntered h (visitCase s h (visitFound s h x)) (visitFound s h x) (startVisit h (visitFound s h x) s)) :=
  congrArg Host.Outcome.next (if_neg (by simp only [taken, Bool.not_true, Bool.false_eq_true, not_false_eq_true]
    : ¬ (!visitTaken s h (visitFound s h x)) = true))

/-- CASE that a scan dwell searches with for a RAT (spec/10 R301, R320). -/
def dwellCase (s : State) (h : Nat) (x : DwellIn) (rat : Nat) : Bool := ((scanOf s h x rat).map (·.1)).getD true

/-- What a scan dwell found that counts (spec/10 R301, R302). -/
def dwellFound (s : State) (h : Nat) (x : DwellIn) : DwellIn := onlyDetectable x (dwellCase s h x)

/-- RATs that a scan dwell has searched for (spec/10 R301, R302). -/
def dwellRats (s : State) (h : Nat) (x : DwellIn) : List Nat := [0, 1, 2].filter (scanVisits s h (dwellFound s h x))

/-- The state once a scan dwell has taken the last channel of AIR, for its lowest RAT (spec/10 R301, R310; log entry 144, DESIGN CHOICE). -/
def dwellTuned (h : Nat) (x : DwellIn) (s : State) : State :=
  tuneAir h ((hearthAt s h).air.channels - 1) (dwellFound s h x).chain (dwellFound s h x).freq ((dwellRats s h x).headD 0) s

/-- State `t` once the results of a scan dwell made in state `s` have entered: detections and misses of the RATs searched for in the cell
table, and the frame source's cell at the TBU (spec/10 R302, R306, R307, R312). -/
def dwellEntered (s : State) (h : Nat) (x : DwellIn) (t : State) : State :=
  let v := dwellFound s h x
  passCell h v (retrack h (each (v.found.filter fun r => scanVisits s h v r.rat)
    (fun r => enterCell h false (dwellCase s h x r.rat) v r) (missCells h false v (scanVisits s h v) t)))

/-- A scan dwell counts: AIR hears its frequency, tracking leaves channel frames free, and it has lasted long enough for a RAT of a range
that visits the frequency (spec/10 R299, R302, R310). -/
structure DwellCounts (h : Nat) (x : DwellIn) (s : State) : Prop where
  hears : airHears s h (dwellFound s h x) = true
  fed : ¬ (hearthAt s h).air.starved = true
  searched : (dwellRats s h x).isEmpty = false

/-- The results of a scan dwell that counts enter unless its correlator has failed its check (spec/10 R302, R326). -/
theorem exec_airScanDwell_counts {h : Nat} {x : DwellIn} {s : State} (d : DwellCounts h x s) :
    exec (.airScanDwell h x) s = .next (
      if (hearthAt s h).air.visitBad then modAir h (fun a => { a with visitBad := false }) (dwellTuned h x s)
      else dwellEntered s h x (dwellTuned h x s)) :=
  congrArg Host.Outcome.next (if_pos (by simp only [d.hears, Bool.eq_false_iff.2 d.fed, d.searched, Bool.not_false, Bool.and_self]
    : (airHears s h (dwellFound s h x) && !(hearthAt s h).air.starved && !(dwellRats s h x).isEmpty) = true))

/-- Settles O45: each command passes its own checks and takes its effect, a visit that AIR takes and a scan dwell that counts enter their
results or discard them, and the clear zeroes the counts. -/
theorem airMonitorRows : Obligations.AirMonitorRows := by
  refine ⟨?config, ?range, ?sectionConfig, ?usedCells, ?cells, ?strangers, ?discarded, ?entered, ?dwellDiscarded, ?dwellEntered, ?clear⟩
  case config =>
    intro p s0 s ha w on n period lost k low mid high rest least most long longMost lossy lossyMost level free
    exact congrArg Host.Outcome.next
      (ha.reply (airConfig_taken ⟨low, mid, high, rest, least, most, long, longMost, lossy, lossyMost, level, free⟩))
  case range =>
    intro p s0 s ha w start stop step r chain rats caseC high least order most named spaced
    exact congrArg Host.Outcome.next (ha.reply (airScanRange_taken ⟨chain, rats, caseC, high, least, order, most, named, spaced⟩))
  case sectionConfig =>
    intro p s0 s ha w w1 d n margin fl group placed low mid high frames least most floor tdd
    exact congrArg Host.Outcome.next
      (ha.reply (airSectionConfig_taken ⟨group, placed, low, mid, high, frames, least, most, floor, tdd⟩))
  case usedCells =>
    intro p s0 s ha w first n cs low mid high least most within onlyUsed
    exact congrArg Host.Outcome.next (ha.reply ((airCellRead_taken ⟨low, mid, high, least, most, within⟩).trans (if_pos onlyUsed)))
  case cells =>
    intro p s0 s ha w first n cs low mid high least most within every
    exact congrArg Host.Outcome.next
      (ha.reply ((airCellRead_taken ⟨low, mid, high, least, most, within⟩).trans (if_neg (Bool.eq_false_iff.1 every))))
  case strangers =>
    intro p s0 s ha w xs reserved
    exact congrArg Host.Outcome.next (ha.reply (check_passes reserved ..))
  case discarded =>
    intro h x s v taken t bad
    exact (exec_airVisit_taken taken).trans (congrArg Host.Outcome.next (if_pos bad))
  case entered =>
    intro h x s v taken t good
    exact (exec_airVisit_taken taken).trans (congrArg Host.Outcome.next (if_neg good))
  case dwellDiscarded =>
    intro h x s case v rats hears fed searched t bad
    exact (exec_airScanDwell_counts ⟨hears, fed, searched⟩).trans (congrArg Host.Outcome.next (if_pos bad))
  case dwellEntered =>
    intro h x s case v rats hears fed searched t good
    exact (exec_airScanDwell_counts ⟨hears, fed, searched⟩).trans (congrArg Host.Outcome.next (if_neg good))
  case clear =>
    intro h s hp hw
    exact congrArg Host.Outcome.next (if_pos (Bool.and_eq_true_iff.2 ⟨hp, hw⟩))

end Sys2Proof.Machine
end

section
/-! PROOFS. One-time programmable memory: what a step does to what is programmed and to what is being programmed (spec/11 R328, R332,
R334; spec/20 R585, R588, R589). Every command but those that reset the package, lose power or program leaves it alone. -/

namespace Sys2Proof.Machine

/-- A programming that runs stays one that was accepted for blank bits, and what has been programmed stays. -/
def KeepsFuses (s t : State) : Prop := FuseOk s → FuseOk t ∧ FusesGain s t

theorem Keeps.keepsFuses {s t : State} (k : Keeps s t) : KeepsFuses s t := k.fuse

theorem KeepsFuses.trans {s t u : State} (a : KeepsFuses s t) (b : KeepsFuses t u) : KeepsFuses s u := fun ok =>
  have ⟨okT, gainT⟩ := a ok
  have ⟨okU, gainU⟩ := b okT
  ⟨okU, gainT.trans gainU⟩

/-- The fuses, and what programs them, are as they were. -/
theorem KeepsFuses.of_eq {s t : State} (rollbackProg : t.sec.rollbackProg = s.sec.rollbackProg) (rollback : t.sec.rollback = s.sec.rollback)
    (keyProg : t.sec.keyProg = s.sec.keyProg) (oemKey : t.sec.oemKey = s.sec.oemKey) (hostKey : t.sec.hostKey = s.sec.hostKey)
    (prog : t.limits.prog = s.limits.prog) (rows : t.limits.rows = s.limits.rows) : KeepsFuses s t :=
  fun ok => fuse_of ok rollbackProg rollback keyProg oemKey hostKey prog rows

theorem FusesGain.of_eq {s t : State} (rollback : t.sec.rollback = s.sec.rollback) (oemKey : t.sec.oemKey = s.sec.oemKey)
    (hostKey : t.sec.hostKey = s.sec.hostKey) (rows : t.limits.rows = s.limits.rows) : FusesGain s t := by
  unfold FusesGain rowAt
  rw [rollback, oemKey, hostKey, rows]
  exact ⟨Nat.le_refl _, fun _ h => h, fun _ h => h, fun _ h => ⟨h, rfl⟩, fun _ h => h⟩

/-! ### What starts a programming -/

theorem execFirebrickWrite_keepsFuses {p : Packet} {s t : State} (h : execFirebrickWrite p s = .next t) : KeepsFuses s t := by
  cases h
  rcases firebrickWrite_cases p s with hk | ⟨u, g, hu, -, written, revoked, ht⟩
  · exact hk.keepsFuses
  refine hu.keepsFuses.trans (KeepsFuses.trans (fun ok => ?_) ht.keepsFuses)
  obtain ⟨rollback, oem, host, -⟩ := ok
  refine ⟨⟨rollback, oem, host, fun g' e _ => ?_⟩, .of_eq rfl rfl rfl rfl⟩
  cases e
  exact ⟨written, revoked⟩

theorem execFirebrickRevoke_keepsFuses {p : Packet} {s t : State} (h : execFirebrickRevoke p s = .next t) : KeepsFuses s t := by
  cases h
  rcases firebrickRevoke_cases p s with hk | ⟨u, g, hu, revokes, ht⟩
  · exact hk.keepsFuses
  refine hu.keepsFuses.trans (KeepsFuses.trans (fun ok => ?_) ht.keepsFuses)
  obtain ⟨rollback, oem, host, -⟩ := ok
  refine ⟨⟨rollback, oem, host, fun g' e writes => ?_⟩, .of_eq rfl rfl rfl rfl⟩
  cases e
  exact absurd (revokes.symm.trans writes) (by decide)

theorem execOemKeyWrite_keepsFuses {p : Packet} {s t : State} (h : execOemKeyWrite p s = .next t) : KeepsFuses s t := by
  cases h
  rcases oemKeyWrite_cases p s with hk | ⟨u, id, key, hu, oemEmpty, hostEmpty, ht⟩
  · exact hk.keepsFuses
  refine hu.keepsFuses.trans (KeepsFuses.trans (fun ok => ?_) ht.keepsFuses)
  obtain ⟨rollback, -, -, rows⟩ := ok
  refine ⟨⟨rollback, fun k e => ?_, fun k e => ?_, rows⟩, .of_eq rfl rfl rfl rfl⟩
  · cases e
    exact oemEmpty rfl
  · cases e
    exact hostEmpty rfl

theorem execImageActivate_keepsFuses {p : Packet} {s t : State} (h : execImageActivate p s = .next t) : KeepsFuses s t := by
  cases h
  rcases imageActivate_cases p s with hk | ⟨u, v, hu, rises, ht⟩
  · exact hk.keepsFuses
  refine hu.keepsFuses.trans (KeepsFuses.trans (fun ok => ?_) ht.keepsFuses)
  obtain ⟨-, oem, host, rows⟩ := ok
  refine ⟨⟨fun w e => ?_, oem, host, rows⟩, .of_eq rfl rfl rfl rfl⟩
  cases e
  exact Nat.le_of_lt rises

/-! ### What ends a programming -/

/-- A row that is being written was blank, so that only a revocation changes a row that holds something. -/
theorem execFirebrickProgramDone_keepsFuses {ok : Bool} {left : List Word} {s t : State} (h : execFirebrickProgramDone ok left s = .next t) :
    KeepsFuses s t := by
  rcases firebrickProgramDone_cases ok left s with ⟨-, e⟩ | ⟨g, f, due, dueBy, treated, u, prog, e, revokes, hk⟩
  all_goals cases e.symm.trans h
  · exact (Keeps.refl s).keepsFuses
  refine KeepsFuses.trans (fun fuses => ?_) hk.keepsFuses
  refine fuse_rows (k := g.row) (f := f) fuses rfl rfl rfl rfl rfl rfl rfl fun holds => ?_
  obtain ⟨-, -, -, blank⟩ := fuses
  cases hr : g.revoke with
  | true => exact revokes hr
  | false =>
    obtain ⟨written, revoked⟩ := blank g prog hr
    simp [written, revoked] at holds

/-- A key slot that is being programmed is empty, so that no key in it is lost. -/
theorem execKeyProgramDone_keepsFuses {ok : Bool} {s t : State} (h : execKeyProgramDone ok s = .next t) : KeepsFuses s t := by
  rcases keyProgramDone_cases ok s with ⟨-, e⟩ | ⟨id, key, u, prog, e, hk⟩
  all_goals cases e.symm.trans h
  · exact (Keeps.refl s).keepsFuses
  refine KeepsFuses.trans (fun fuses => ?_) hk.keepsFuses
  obtain ⟨rollback, oemEmpty, hostEmpty, rows⟩ := fuses
  refine ⟨⟨rollback, nofun, nofun, rows⟩, Nat.le_refl _, fun k held => ?_, fun k held => ?_, fun _ h => ⟨h, rfl⟩, fun _ h => h⟩
  · have other : id ≠ 0 := by
      rintro rfl
      exact absurd (held.symm.trans (oemEmpty key prog)) nofun
    simpa [other] using held
  · have other : id ≠ 1 := by
      rintro rfl
      exact absurd (held.symm.trans (hostEmpty key prog)) nofun
    simpa [other] using held

theorem execRollbackProgramDone_keepsFuses {ok : Bool} {s t : State} (h : execRollbackProgramDone ok s = .next t) : KeepsFuses s t := by
  rcases rollbackProgramDone_cases ok s with ⟨-, e⟩ | ⟨v, new, u, prog, e, rises, w, hw, hk⟩
  all_goals cases e.symm.trans h
  · exact (Keeps.refl s).keepsFuses
  refine fun fuses => (hw.keepsFuses.trans (KeepsFuses.trans (fun ok => ?_) hk.keepsFuses)) fuses
  have up : w.sec.rollback ≤ new := hw.rollback ▸ rises (fuses.1 v prog)
  obtain ⟨-, oem, host, rows⟩ := ok
  exact ⟨⟨nofun, oem, host, rows⟩, up, fun _ h => h, fun _ h => h, fun _ h => ⟨h, rfl⟩, fun _ h => h⟩

/-! ### Resets and the loss of power -/

theorem execResetNRise_keepsFuses {b : Nat} {r : Bool} {s t : State} (h : execResetNRise b r s = .next t) : KeepsFuses s t := by
  cases h
  split <;> exact .of_eq rfl rfl rfl rfl rfl rfl rfl

theorem execResetNLow_keepsFuses {s t : State} (h : execResetNLow s = .next t) : KeepsFuses s t := by
  cases h
  split <;> exact .of_eq rfl rfl rfl rfl rfl rfl rfl

/-- What is being programmed when power is lost is cut short, and nothing programs afterwards (spec/11 R334). -/
theorem execPowerLoss_keepsFuses {s t : State} (h : execPowerLoss s = .next t) : KeepsFuses s t := by
  cases h
  exact fun ok => cut_fuses ok _ rfl rfl rfl rfl rfl rfl rfl

theorem execKindlingComplete_keepsFuses (ms : Nat) {s t : State} (h : execKindlingComplete ms s = .next t) : KeepsFuses s t := by
  cases h
  split
  · have before : KeepsFuses s { modBoot (fun x => { x with result := 1, bootMs := bootTime s }) s with pkg := .ember } :=
      .of_eq rfl rfl rfl rfl rfl rfl rfl
    exact before.trans (enterEmber_keeps _).keepsFuses
  · exact (Keeps.refl s).keepsFuses

theorem setPkg_keepsFuses (p : PkgState) (s : State) : KeepsFuses s (setPkg p s) := by
  unfold setPkg
  split
  · exact (Keeps.refl s).keepsFuses
  · have before : KeepsFuses s { s with pkg := p } := .of_eq rfl rfl rfl rfl rfl rfl rfl
    exact before.trans (showPkg_keeps (.refl _)).keepsFuses

theorem warmState_keepsFuses (s : State) : KeepsFuses s (warmState s) := .of_eq rfl rfl rfl rfl rfl rfl rfl

/-- A warm reset ends what runs with acts that leave the fuses alone, and SEC keeps the fuses and what programs them. -/
theorem execWarmReset_keepsFuses {s t : State} (h : execWarmReset s = .next t) : KeepsFuses s t := by
  cases h
  split
  · have ended : KeepsFuses s (setPkg .kindling (writeDue s.tbu.tickLen (s.tbu.tick + 1) (nextTime s) s)) :=
      (writeDue_keeps (.refl s)).keepsFuses.trans (setPkg_keepsFuses _ _)
    refine ended.trans (KeepsFuses.trans (Keeps.keepsFuses ?_) ((warmState_keepsFuses _).trans (thermalDrain_keeps (.refl _)).keepsFuses))
    refine setHolds_keeps (.each (.each (dropStreams_keeps (.each (.refl _) ?_)) ?_) ?_)
    · exact fun _ _ k => setSec_keeps k
    · exact fun _ _ k => k.each fun _ _ k => warmSlot_keeps k
    · exact fun _ _ k => clearMarks_keeps k
  · exact .of_eq rfl rfl rfl rfl rfl rfl rfl

/-! ### Every command -/

theorem exec_keepsFuses {c : Instr} {s t : State} (h : exec c s = .next t) : KeepsFuses s t := by
  by_cases hc : resetsOrFuses c = false
  · have k := exec_keeps (s := s) hc
    rw [h] at k
    exact k.keepsFuses
  · unfold resetsOrFuses at hc
    split at hc
    · exact execResetNRise_keepsFuses h
    · rename_i ms
      exact execKindlingComplete_keepsFuses ms h
    · exact execFirebrickWrite_keepsFuses h
    · exact execFirebrickRevoke_keepsFuses h
    · exact execFirebrickProgramDone_keepsFuses h
    · exact execImageActivate_keepsFuses h
    · exact execRollbackProgramDone_keepsFuses h
    · exact execOemKeyWrite_keepsFuses h
    · exact execKeyProgramDone_keepsFuses h
    · exact execResetNLow_keepsFuses h
    · exact execPowerLoss_keepsFuses h
    · exact execWarmReset_keepsFuses h
    · exact absurd rfl hc

/-- Settles O5: an idle step changes nothing, and every command keeps what is programmed. -/
theorem fusesOnlyGain : Obligations.FusesOnlyGain := by
  intro s t ok h
  rcases step_next h with ⟨-, rfl⟩ | ⟨c, rest, -, he⟩
  · exact (Keeps.refl t).fuse ok
  · exact exec_keepsFuses (s := { s with pending := rest }) he ok

end Sys2Proof.Machine
end

section
/-! PROOFS. Capture and the checks of a packet, said once for every command row (spec/12 R352 to R354, R360, R364, R366 to R370). -/

namespace Sys2Proof.Machine

/-- Every command row captures its packet under its opcode's length rule, and its opcode's handling follows. -/
theorem exec_eq_runCommandWith {c : Instr} {ci : CmdInfo} {p : Packet} (hc : commandOf c = some (ci, p)) (s : State) :
    ∃ body, exec c s = .next (runCommandWith ci (lengthRule s c) body p s) := by
  cases c <;> cases hc
  all_goals exact ⟨_, rfl⟩

/-! ### The checks of a captured packet -/

/-- A packet has a length that its opcode takes: it fits what carries it, and its payload keeps the opcode's rules (spec/12 R370). -/
def lengthOk (ci : CmdInfo) (rule : Bool) (p : Packet) : Prop :=
  p.whole = true ∧ ci.lenLo ≤ p.payload.length ∧ p.payload.length ≤ ci.lenHi ∧ rule = true

section
variable {ci : CmdInfo} {rule : Bool} {p : Packet} {t : State}

theorem firstFailure_doused (doused : t.pkg = .doused) : firstFailure ci rule p t = some .doused := if_pos doused

variable (on : t.pkg ≠ .doused)
include on

theorem firstFailure_source (src : sourceOk ci p.src = false) : firstFailure ci rule p t = some .badOpcode := by
  simp [firstFailure, on, src]

variable (src : sourceOk ci p.src = true)
include src

theorem firstFailure_length (long : ¬ lengthOk ci rule p) : firstFailure ci rule p t = some .badLength := by
  have fails : (!p.whole || decide (p.payload.length < ci.lenLo) || decide (ci.lenHi < p.payload.length) || !rule) = true := by
    simpa [lengthOk, -not_and, Classical.not_and_iff_not_or_not, or_assoc] using long
  simp only [firstFailure, on, src, fails, if_true, if_false, Bool.not_true, Bool.false_eq_true]

variable (long : lengthOk ci rule p)
include long

/-- Past the checks of its source and its length a packet meets the check of its flags and header bits. -/
theorem firstFailure_past_length :
    firstFailure ci rule p t
      = if decide (8 ≤ p.flags) || p.rsv then some .badParam
        else if !permitted ci p.src t then some .notPermitted
        else if !stateOk ci t then some .state
        else if !targetOk ci p t then some .badParam
        else none := by
  obtain ⟨whole, least, most, kept⟩ := long
  simp only [firstFailure, on, src, whole, kept, Nat.not_lt.2 least, Nat.not_lt.2 most, if_false, Bool.not_true, decide_false, Bool.or_self,
    Bool.false_eq_true]

end

/-- Settles O20: each check is the first that the packet fails. -/
theorem packetChecksInOrder : Obligations.PacketChecksInOrder := by
  intro c ci p s t hc hcap ht answers longOk
  have refused {st : Status} (hf : firstFailure ci (lengthRule s c) p t = some st) : answers st := by
    obtain ⟨body, e⟩ := exec_eq_runCommandWith hc s
    refine e.trans (congrArg Host.Outcome.next ?_)
    rw [runCommandWith_taken hcap, ← ht]
    unfold handle
    rw [hf]
  refine ⟨fun doused => refused (firstFailure_doused doused), fun on src => refused (firstFailure_source on src),
    fun on src long => refused (firstFailure_length on src long), fun on src long bits => refused ?bits,
    fun on src long flags rsv role => refused ?role, fun on src long flags rsv role bad => refused ?state,
    fun on src long flags rsv role good bad => refused ?target⟩
  all_goals rw [firstFailure_past_length on src long]
  case bits => exact if_pos (by simpa using bits)
  case role => simp [Nat.not_le.2 flags, rsv, role]
  case state => simp [Nat.not_le.2 flags, rsv, role, bad]
  case target => simp [Nat.not_le.2 flags, rsv, role, good, bad]

/-! ### What keeps a packet from being captured -/

section
variable {ci : CmdInfo} {rule : Bool} {body : Packet → State → Done} {p : Packet} {s : State}

theorem captureQueue_waits (h : (queueAt s p.src).state ≠ 1 ∨ sqUsed (queueAt s p.src) = 0 ∨ fenced p p.src s = true
    ∨ captureRoom p.src s = false ∨ queuesSleep s = true) : captureQueue ci rule body p s = s := if_pos h

/-- A packet that stands whole in its ring waits for the completion slots of its reply (spec/12 R364). -/
theorem captureQueue_reserves (ring : (queueAt s p.src).sqHead + slotsOf p.payload.length ≤ (queueAt s p.src).sqM1 + 1)
    (given : slotsOf p.payload.length ≤ sqUsed (queueAt s p.src)) (fits : reservation ci.reply ≤ (queueAt s p.src).cqM1)
    (full : (queueAt s p.src).cqM1 < cqUsed (queueAt s p.src) + (queueAt s p.src).reserved + reservation ci.reply) :
    captureQueue ci rule body p s = s := by
  unfold captureQueue
  dsimp only
  rw [if_neg (Nat.not_lt.2 ring), if_neg (Nat.not_lt.2 given)]
  simp only [fits, decide_true, if_true, if_neg (Nat.not_le.2 full), ite_self]

theorem captureRoom_full (h : 64 ≤ s.cpx.capTotal ∨ 16 ≤ kgetD s.cpx.capBy p.src 0) : captureRoom p.src s = false := by
  rcases h with h | h
  · simp [captureRoom, Nat.not_lt.2 h]
  · simp [captureRoom, Nat.not_lt.2 h]

theorem fenced_of_waits (fence : maskHas p.flags 0 = true)
    (waits : (∃ d ∈ s.cpx.held, d.src = p.src) ∨ ∃ d ∈ s.cpx.due, d.cmd.src = p.src) : fenced p p.src s = true := by
  simpa [fenced, fence] using waits

theorem runCommandWith_queue (hq : p.src < 64) : runCommandWith ci rule body p s = captureQueue ci rule body p s := if_pos hq

theorem runCommandWith_noRoom (hq : ¬ p.src < 64) (full : captureRoom p.src s = false) : runCommandWith ci rule body p s = s :=
  (if_neg hq).trans (if_pos full)

/-- The script's packet out of its turn changes nothing (spec/12 R354). -/
theorem runCommandWith_outOfTurn (hp : p.src = 0x40) (turn : s.cpx.script.turn.any (spelledBy · ci.op p) = false) :
    runCommandWith ci rule body p s = s := by
  unfold runCommandWith
  simp [hp, turn]

/-- A leader's packet that the device discards changes nothing (spec/12 R353; spec/15 R446, R460). -/
theorem runCommandWith_discarded (hp : p.src = 0x41) (h : s.flu.acting = 0 ∨ s.flu.versionMismatch = true ∨ leaderFrame p s = false) :
    runCommandWith ci rule body p s = s := by
  unfold runCommandWith
  simp [hp, h]

/-- A leader's packet that is not later than the last accepted one counts as a duplicate (spec/12 R353). -/
theorem runCommandWith_duplicate (hp : p.src = 0x41) (room : captureRoom 0x41 s = true) (acts : s.flu.acting ≠ 0)
    (agrees : s.flu.versionMismatch = false) (takes : leaderFrame p s = true) (first : s.cpx.leaderAny = false)
    (late : serialGt p.seq s.cpx.leaderSeq = false) :
    runCommandWith ci rule body p s = modCpx (fun x => { x with leaderDup := incSat 16 x.leaderDup }) (tookFrame p s) := by
  unfold runCommandWith
  simp [hp, room, acts, agrees, takes, first, late]

theorem runCommandWith_unused (hp : 0x42 < p.src) : runCommandWith ci rule body p s = s := by
  unfold runCommandWith
  simp [show ¬ p.src < 64 by omega, show p.src ≠ 0x40 by omega, show p.src ≠ 0x41 by omega, show p.src ≠ 0x42 by omega]

/-- A packet that would wait while 256 commands are held is refused. -/
theorem Accepted.busy {t u : State} {key : Nat} {deadline : Option Nat} (ha : Accepted ci rule p s t) (full : 256 ≤ t.cpx.held.length)
    (hb : body p t = .hold key deadline u) : runCommandWith ci rule body p s = sendReply (heldOf ci p) .busy [] t := by
  obtain ⟨taken, rfl, passes⟩ := ha
  rw [runCommandWith_taken taken]
  unfold handle
  simp only [passes, hb, if_pos full]

end

/-- Settles O21: in each case the row of the packet's source stops before it handles the packet. -/
theorem packetsWaitOrAreDiscarded : Obligations.PacketsWaitOrAreDiscarded := by
  intro c ci p s hc
  obtain ⟨body, e⟩ := exec_eq_runCommandWith hc s
  rw [e]
  refine ⟨fun hq => ⟨fun h => ?idle, fun fence waits => ?fence, fun ring given fits full => ?slots⟩,
    fun hp turn => ?turn, fun hp h => ?discarded, fun hp room acts agrees takes first late => ?duplicate, fun hp => ?unused⟩
  case idle =>
    refine congrArg Host.Outcome.next ((runCommandWith_queue hq).trans (captureQueue_waits ?_))
    rcases h with h | h | h | h
    · exact .inl h
    · exact .inr (.inl h)
    · exact .inr (.inr (.inr (.inr h)))
    · exact .inr (.inr (.inr (.inl (captureRoom_full h))))
  case fence =>
    exact congrArg Host.Outcome.next ((runCommandWith_queue hq).trans (captureQueue_waits (.inr (.inr (.inl (fenced_of_waits fence waits))))))
  case slots => exact congrArg Host.Outcome.next ((runCommandWith_queue hq).trans (captureQueue_reserves ring given fits full))
  case turn => exact congrArg Host.Outcome.next (runCommandWith_outOfTurn hp turn)
  case discarded => exact congrArg Host.Outcome.next (runCommandWith_discarded hp h)
  case duplicate => exact congrArg Host.Outcome.next (runCommandWith_duplicate hp room acts agrees takes first late)
  case unused => exact congrArg Host.Outcome.next (runCommandWith_unused hp)

/-- Settles O22: the number of held commands decides between BUSY and the wait. -/
theorem atMost256CommandsAreHeld : Obligations.AtMost256CommandsAreHeld :=
  fun _ _ _ _ _ _ _ _ _ ha hb => ⟨fun full => ha.busy full hb, fun room => ha.hold room hb⟩

end Sys2Proof.Machine
end

section
/-! PROOFS. Queues: creating and deleting them, PAD, their doorbells, the register-made queue 0 and their counts (spec/12 R359 to R361,
R365, R370, R372, R373; spec/13 R400, R401). -/

namespace Sys2Proof.Machine

/-! ### An empty register group -/

theorem queueAt_modQueue_ne {q k : Nat} (h : q ≠ k) (f : Queue → Queue) (s : State) : queueAt (modQueue q f s) k = queueAt s k := by
  unfold queueAt modQueue modCpx
  simp [List.getD_eq_getElem?_getD, h]

theorem queueAt_modQueue_reset (q : Nat) (s : State) : queueAt (modQueue q (fun _ => {}) s) q = {} := by
  unfold queueAt modQueue modCpx
  cases e : s.cpx.queues[q]? <;> simp [List.getD_eq_getElem?_getD, e]

theorem queueAt_congr {s t : State} (e : t.cpx.queues = s.cpx.queues) (q : Nat) : queueAt t q = queueAt s q := by
  rw [queueAt, queueAt, e]

theorem queueAt_emit (h code : Nat) (data : List Nat) (s : State) (q : Nat) : queueAt (emit h code data s) q = queueAt s q :=
  queueAt_congr (by rw [emit_cpx]) q

theorem queueAt_queueReply_ne {q k : Nat} (h : q ≠ k) (r : Reply) (noIrq : Bool) (s : State) :
    queueAt (queueReply q r noIrq s) k = queueAt s k := by
  have sent (t u : State) (v : Option Nat) (e : queueAt u k = queueAt t k) :
      queueAt (match v with | some v => signalPf0 v u | none => u) k = queueAt t k := by
    cases v <;> exact e
  unfold queueReply
  exact sent s _ _ (queueAt_modQueue_ne h _ s)

/-- A change that leaves the registers of queue `k` at reset where they are. -/
def KeepsReset (k : Nat) (f : State → State) : Prop := ∀ s, queueAt s k = {} → queueAt (f s) k = {}

theorem KeepsReset.of_queues {k : Nat} {f : State → State} (hf : ∀ s, (f s).cpx.queues = s.cpx.queues) : KeepsReset k f :=
  fun s h => (queueAt_congr (hf s) k).trans h

theorem KeepsReset.comp {k : Nat} {f g : State → State} (hg : KeepsReset k g) (hf : KeepsReset k f) : KeepsReset k (fun s => g (f s)) :=
  fun s h => hg _ (hf s h)

theorem KeepsReset.ite {k : Nat} {c : Prop} [Decidable c] {f g : State → State} (hf : KeepsReset k f) (hg : KeepsReset k g) :
    KeepsReset k (fun s => if c then f s else g s) := by
  intro s h
  dsimp only
  split
  · exact hf s h
  · exact hg s h

theorem each_keepsReset {k : Nat} {α : Type} {f : α → State → State} (hf : ∀ x, KeepsReset k (f x)) (xs : List α) :
    KeepsReset k (each xs f) := by
  induction xs with
  | nil => exact fun _ h => h
  | cons x xs ih => exact fun s h => ih _ (hf x s h)

theorem replyFrame_keepsReset (k : Nat) (r : Reply) : KeepsReset k (replyFrame r) := .of_queues fun s => by
  unfold replyFrame
  split <;> rfl

/-- A queue whose registers are at reset takes no reply: it is not ACTIVE (spec/12 R365). -/
theorem writePlain_keepsReset (k : Nat) (c : Held) (st : Status) (words : List Word) (time : Nat) :
    KeepsReset k (writePlain c st words time) := by
  intro s hk
  unfold writePlain
  extract_lets r silent t u v
  split
  · split
    · exact hk
    · rename_i active
      have ne : c.src ≠ k := by
        rintro rfl
        rw [hk] at active
        exact active (by decide)
      split
      · exact (queueAt_modQueue_ne ne _ s).trans hk
      · exact (queueAt_queueReply_ne ne ..).trans ((queueAt_modQueue_ne ne _ s).trans hk)
  · have hu : queueAt u k = {} := by
      unfold u
      split <;> exact hk
    have hv : queueAt v k = {} := by
      unfold v
      split
      · exact replyFrame_keepsReset k r u hu
      · exact hu
    split <;> exact hv

theorem scriptReplied_keepsReset (k op : Nat) (st : Status) (opens time : Nat) : KeepsReset k (scriptReplied op st opens time) := by
  intro s hk
  unfold scriptReplied
  extract_lets x y t u
  clear_value y
  have ht : queueAt t k = {} := (queueAt_congr (s := s) rfl k).trans hk
  have hu : queueAt u k = {} := by
    unfold u
    split
    · exact ht
    · exact (queueAt_emit ..).trans ht
  split
  · exact hu
  · clear_value u
    refine each_keepsReset (fun c => ?_) _ u hu
    exact (writePlain_keepsReset k c .ok _ time).comp (.of_queues fun _ => rfl)

theorem writeReply_keepsReset (k opens : Nat) (c : Held) (st : Status) (words : List Word) (time : Nat) :
    KeepsReset k (writeReply opens c st words time) := by
  intro s hk
  have plain := writePlain_keepsReset k c st words time s hk
  unfold writeReply
  dsimp only
  split
  · exact scriptReplied_keepsReset k _ st opens time _ plain
  · exact plain

/-- A deleted queue's registers are at reset, and stay there when the QUEUE_DELETE replies (spec/13 R401). -/
theorem finishDelete_reset (opens time : Nat) (c : Held) (s : State) : queueAt (finishDelete opens time c s) c.key = {} := by
  have deleted : queueAt (deleteQueue c.key c.src s) c.key = {} := (queueAt_emit ..).trans (queueAt_modQueue_reset ..)
  unfold finishDelete
  dsimp only
  split
  · exact writeReply_keepsReset c.key opens c .ok [] time _ deleted
  · exact deleted

/-! ### PAD and opcodes that the index does not list -/

/-- A packet whose source may not send its opcode only answers BAD_OPCODE (spec/12 R369). -/
theorem runCommand_badOpcode {ci : CmdInfo} {body : Packet → State → Done} {p : Packet} {s : State} (hcap : captures ci p s = true)
    (on : (afterCapture ci p s).pkg ≠ .doused) (src : sourceOk ci p.src = false) :
    runCommand ci body p s = sendReply (heldOf ci p) .badOpcode [] (afterCapture ci p s) := by
  unfold runCommand
  rw [runCommandWith_taken hcap]
  unfold handle
  rw [firstFailure_source on src]

theorem sourceOk_pad {src : Nat} (h : 64 ≤ src) : sourceOk infoPad src = false := decide_eq_false (Nat.not_lt.2 h)

theorem execPad_queue {p : Packet} {s : State} (pad : p.code = none) (hq : p.src < 64) (active : (queueAt s p.src).state = 1)
    (given : sqUsed (queueAt s p.src) ≠ 0) (awake : queuesSleep s = false) :
    execPad p s = .next (modQueue p.src (fun y => { y with sqHead := 0, extWait := none, extTail := none }) s) := by
  unfold execPad
  simp [pad, hq, active, given, awake]

theorem execPad_other {p : Packet} {s : State} (pad : p.code = none) (hq : 64 ≤ p.src) :
    execPad p s = .next (runCommand infoPad (fun _ t => .reply .badOpcode [] t) p s) := by
  unfold execPad
  simp [pad, Nat.not_lt.2 hq]

theorem execPad_unlisted {p : Packet} {s : State} {op : Nat} (code : p.code = some op) (unknown : infoOf op = none) :
    execPad p s = .next (runCommand (unlisted op) (fun _ t => .reply .badOpcode [] t) p s) := by
  unfold execPad
  simp [code, unknown]

/-! ### Doorbells and the timer of a packet that waits for slots -/

/-- A doorbell of SQ_TAIL that names a slot of the ring of an ACTIVE queue (spec/12 R361, R370). -/
theorem execSqTailWrite_taken {q v clk : Nat} {s : State} (hq : q < 64) (hv : v < 2 ^ 16) (active : (queueAt s q).state = 1)
    (inRing : v ≤ (queueAt s q).sqM1) :
    execSqTailWrite q { tail := v, clk := clk } s = .next (
      if (queueAt s q).extWait.any (fun c => decide (c + 983040 < clk)) then
        modQueue q (fun y => { y with sqTail := v, extTail := some (y.extTail.getD y.sqTail) }) s
      else modQueue q (fun y => { y with sqTail := v, extWait := none }) s) := by
  unfold execSqTailWrite
  simp only [Nat.mod_eq_of_lt hv]
  rw [if_neg (by simp [active, Nat.not_le.2 hq]), if_neg (Nat.not_lt.2 inRing)]

/-- A doorbell of CQ_HEAD that frees slots which hold replies (spec/12 R361). -/
theorem execCqHeadWrite_taken {q v : Nat} {s : State} (hq : q < 64) (hv : v < 2 ^ 16) (active : (queueAt s q).state = 1)
    (inRing : v ≤ (queueAt s q).cqM1)
    (used : (v + ((queueAt s q).cqM1 + 1) - (queueAt s q).cqHead) % ((queueAt s q).cqM1 + 1) ≤ cqUsed (queueAt s q)) :
    execCqHeadWrite q v s = .next (modQueue q (fun y => { y with cqHead := v }) s) := by
  unfold execCqHeadWrite
  simp only [Nat.mod_eq_of_lt hv]
  rw [if_neg (by simp [active, Nat.not_le.2 hq]), if_neg (by omega)]

/-- The timer of a packet that waits for further slots has expired, and a slot for its refusal is free (spec/12 R370). -/
theorem execSqExtensionTimeout_expired {q c : Nat} {p : Packet} {s : State} (hq : q < 64) (active : (queueAt s q).state = 1)
    (waits : (queueAt s q).extWait = some c) (past : c + 983040 < s.tbu.clock + s.tbu.tickLen) (awake : queuesSleep s = false)
    (room : cqUsed (queueAt s q) + (queueAt s q).reserved + 1 ≤ (queueAt s q).cqM1) :
    execSqExtensionTimeout q p s = .next (refuseLength infoPad { p with src := q } (takeSlots q 1 (fun y => { y with
      sqHead := y.extTail.getD y.sqTail, sqSeen := y.extTail.getD y.sqTail, extWait := none, extTail := none }) s)) := by
  have expired : extExpired (queueAt s q) s = true := (Option.any_eq_true ..).2 ⟨c, waits, decide_eq_true past⟩
  unfold execSqExtensionTimeout
  dsimp only
  rw [if_neg (by simp [active, expired, awake, Nat.not_le.2 hq]), if_pos room]

theorem refuseLength_on {ci : CmdInfo} {p : Packet} {s : State} (on : s.pkg ≠ .doused) :
    refuseLength ci p s = sendReply { heldOf ci p with reserve := 1 } .badLength [] s := by
  unfold refuseLength
  rw [if_neg on]

/-- Settles O14: each command, doorbell, register write and timer takes its effect under its condition. -/
theorem queueCommandsComplete : Obligations.QueueCommandsComplete := by
  intro p s t
  refine ⟨?pad, ?padOther, ?unlisted, ?create, ?delete, ?sqTail, ?cqHead, ?enable, ?disable, ?captured, ?on, ?off, ?timeout, ?deleted, ?clear⟩
  case pad => exact fun pad hq active given awake => execPad_queue pad hq active given awake
  case padOther =>
    rintro pad hq hcap rfl on
    exact (execPad_other pad hq).trans (congrArg Host.Outcome.next (runCommand_badOpcode hcap on (sourceOk_pad hq)))
  case unlisted =>
    rintro op code unknown hcap rfl on
    exact (execPad_unlisted code unknown).trans (congrArg Host.Outcome.next (runCommand_badOpcode hcap on rfl))
  case create =>
    intro ha fields q free
    exact congrArg Host.Outcome.next (ha.reply ((check_passes fields ..).trans (check_passes (by simpa using free) ..)))
  case delete =>
    intro ha reserved q other foreign on room
    exact congrArg Host.Outcome.next
      (ha.hold room ((check_passes (by simp [reserved, q, other, foreign]) ..).trans (check_passes (by simpa using on) ..)))
  case sqTail =>
    intro q v clk hq hv active inRing
    refine ⟨fun early => ?_, fun ⟨c, waits, late⟩ => ?_⟩
    · have inTime : ¬ (queueAt s q).extWait.any (fun c => decide (c + 983040 < clk)) = true := by
        rw [Option.any_eq_true]
        exact fun ⟨c, waits, late⟩ => absurd (early c waits) (Nat.not_le.2 (of_decide_eq_true late))
      exact (execSqTailWrite_taken hq hv active inRing).trans (congrArg Host.Outcome.next (if_neg inTime))
    · have expired : (queueAt s q).extWait.any (fun c => decide (c + 983040 < clk)) = true :=
        (Option.any_eq_true ..).2 ⟨c, waits, decide_eq_true late⟩
      exact (execSqTailWrite_taken hq hv active inRing).trans (congrArg Host.Outcome.next (if_pos expired))
  case cqHead =>
    intro q v hq hv active x inRing used
    exact execCqHeadWrite_taken hq hv active inRing used
  case enable => exact fun sq cq => congrArg Host.Outcome.next (if_neg (by simp [sq, cq]))
  case disable => rfl
  case captured => exact fun _ => rfl
  case on => exact fun idle => if_neg (by simp [idle])
  case off => exact fun active => if_neg active
  case timeout =>
    intro q c hq active waits past awake room on u
    exact (execSqExtensionTimeout_expired hq active waits past awake room).trans (congrArg Host.Outcome.next (refuseLength_on on))
  case deleted => exact fun opens time c _ => finishDelete_reset opens time c s
  case clear => exact fun on => congrArg Host.Outcome.next (if_pos (bne_iff_ne.2 on))

end Sys2Proof.Machine
end

section
/-! PROOFS. The package-level commands: identity, status, wide values, holds and resets; host privilege; the script's commands (spec/13
R392 to R399, R402 to R405; spec/20 R590). -/

namespace Sys2Proof.Machine

/-! ### Wide values -/

/-- WIDE_READ of known values reads every one of them (spec/13 R395). -/
theorem wideRead_taken {p : Packet} {s : State}
    (known : ∀ w ∈ p.payload, zeroAt w 16 16 = true ∧ (wideValue s w.toNat s.tbu.tickLen).isSome = true) :
    wideRead p s = .reply .ok (p.payload.flatMap fun w => wordsOf 4 ((wideValue s w.toNat s.tbu.tickLen).getD 0)) s := by
  have named : (p.payload.map fun w => if zeroAt w 16 16 then wideValue s w.toNat s.tbu.tickLen else none)
      = p.payload.map fun w => wideValue s w.toNat s.tbu.tickLen :=
    List.map_congr_left fun w hw => if_pos (known w hw).1
  unfold wideRead wideReadAt
  rw [named, check_passes (by simpa using fun w hw => (known w hw).2), List.flatMap_map]

/-! ### Holds and resets -/

theorem packageHold_set {p : Packet} {s : State} (reserved : zeroAt (wordAt p.payload 0) 2 30 = true) (hold : bitOf (wordAt p.payload 0) 0 = true) :
    packageHold p s = if bitOf (wordAt p.payload 0) 1 && transmitting (setHolds (fun x => { x with host := true }) s) != 0
      then .hold 0 none (setHolds (fun x => { x with host := true }) s)
      else .reply .ok [] (setHolds (fun x => { x with host := true }) s) :=
  (check_passes (by simp [reserved, hold]) ..).trans (if_pos hold)

theorem packageHold_cleared {p : Packet} {s : State} (reserved : zeroAt (wordAt p.payload 0) 2 30 = true)
    (hold : bitOf (wordAt p.payload 0) 0 = false) (wait : bitOf (wordAt p.payload 0) 1 = false) :
    packageHold p s = .reply .ok [] (endHeldFor 0x0108 0 .aborted [] (setHolds (fun x => { x with host := false }) s)) :=
  (check_passes (by simp [reserved, wait]) ..).trans (if_neg (by simp [hold]))

theorem sysReset_keyed {p : Packet} {s : State} (reserved : zeroAt (wordAt p.payload 0) 1 15 = true)
    (key : fld (wordAt p.payload 0) 16 16 = 0xA55A) :
    sysReset p s = if !bitOf (wordAt p.payload 0) 0 then
        .reply .ok [] (modCpx (fun c => { c with resetTaken := true }) (resetCommanded p.src 0 p.tag (each (heldFor s 0x010A 0) dropHeld s)))
      else check (!s.holds.reset) .busy s (.hold 0 none (setHolds (fun x => { x with reset := true }) s)) :=
  check_passes (by simp [reserved, key]) ..

/-- Settles O10: in each of its forms a command passes its own checks and takes its effect. -/
theorem packageCommandsComplete : Obligations.PackageCommandsComplete := by
  intro p s t
  refine ⟨?identify, ?nop, ?status, ?wide, ?snapshot, fun ha reserved => ⟨?holds, ?waits, ?clears⟩,
    fun ha reserved key => ⟨?resets, ?orderly⟩⟩
  case identify => exact fun ha => congrArg Host.Outcome.next (ha.reply rfl)
  case nop => exact fun ha => congrArg Host.Outcome.next (ha.reply rfl)
  case status => exact fun ha => congrArg Host.Outcome.next (ha.reply rfl)
  case wide => exact fun ha known => congrArg Host.Outcome.next (ha.reply (wideRead_taken known))
  case snapshot => exact fun ha mode => congrArg Host.Outcome.next (ha.reply (check_passes mode ..))
  case holds =>
    intro hold drained
    refine congrArg Host.Outcome.next (ha.reply ((packageHold_set reserved hold).trans (if_neg ?_)))
    rcases drained with wait | none
    · simp [wait]
    · simp [none]
  case waits =>
    intro hold wait drains room
    exact congrArg Host.Outcome.next (ha.hold room ((packageHold_set reserved hold).trans (if_pos (by simp [wait, drains]))))
  case clears =>
    intro hold wait
    exact congrArg Host.Outcome.next (ha.reply (packageHold_cleared reserved hold wait))
  case resets =>
    intro now
    exact congrArg Host.Outcome.next (ha.reply ((sysReset_keyed reserved key).trans (if_pos (by simp [now]))))
  case orderly =>
    intro orderly free room
    exact congrArg Host.Outcome.next
      (ha.hold room ((sysReset_keyed reserved key).trans ((if_neg (by simp [orderly])).trans (check_passes (by simp [free]) ..))))

/-! ### Host privilege -/

theorem hostUnlock_lock {p : Packet} {s : State} (reserved : zeroAt (wordAt p.payload 0) 1 31 = true) (lock : bitOf (wordAt p.payload 0) 0 = true) :
    hostUnlock p s = .reply .ok [] (emit 0 0x0122 [p.src, 1, s.cpx.unlockFails]
      (modCpx (fun c => { c with unlocked := false, lockedBy := true }) s)) :=
  (check_passes reserved ..).trans (if_pos lock)

/-- Without a host-unlock key HOST_UNLOCK gives implicit privilege (spec/20 R590). -/
theorem hostUnlock_implicit {p : Packet} {s : State} (reserved : zeroAt (wordAt p.payload 0) 1 31 = true)
    (lock : bitOf (wordAt p.payload 0) 0 = false) (keyless : (hostKeyNow s).isNone = true) :
    hostUnlock p s = .reply .ok [] (emit 0 0x0122 [p.src, 0, s.cpx.unlockFails]
      (modCpx (fun c => { c with lockedBy := false, privFrom := privNext s }) s)) :=
  (check_passes reserved ..).trans ((if_neg (by simp [lock])).trans (if_pos keyless))

/-- While PF0 is privileged HOST_UNLOCK changes no unlock (spec/13 R399). -/
theorem hostUnlock_privileged {p : Packet} {s : State} (reserved : zeroAt (wordAt p.payload 0) 1 31 = true)
    (lock : bitOf (wordAt p.payload 0) 0 = false) (keyed : (hostKeyNow s).isSome = true) (priv : pf0Priv s = true) :
    hostUnlock p s = .reply .ok [] (emit 0 0x0122 [p.src, 0, s.cpx.unlockFails] s) :=
  (check_passes reserved ..).trans ((if_neg (by simp [lock])).trans ((if_neg (by simp [Option.isSome_iff_ne_none.1 keyed])).trans (if_pos priv)))

/-- The signature of HOST_UNLOCK is verified against the challenge, which it consumes. -/
def verifyStarted (p : Packet) (challenge : Nat × Nat) (s : State) : State :=
  modCpx (fun c => { c with challenge := none, verifying := some (challenge.1, p.payload.drop 1), verifySrc := p.src }) s

/-- With a key and without privilege, HOST_UNLOCK needs a challenge that is still good, and waits while its signature is verified. -/
theorem hostUnlock_challenged {p : Packet} {s : State} (reserved : zeroAt (wordAt p.payload 0) 1 31 = true)
    (lock : bitOf (wordAt p.payload 0) 0 = false) (keyed : (hostKeyNow s).isSome = true) (priv : pf0Priv s = false) :
    hostUnlock p s = match s.cpx.challenge with
      | none => .reply .state [] s
      | some c => if c.2 ≤ s.tbu.tick then .reply .state [] s
        else if s.cpx.verifying.isSome then .reply .busy [] s
        else .hold 0 none (verifyStarted p c s) :=
  (check_passes reserved ..).trans ((if_neg (by simp [lock])).trans
    ((if_neg (by simp [Option.isSome_iff_ne_none.1 keyed])).trans ((if_neg (by simp [priv])).trans
    (by cases s.cpx.challenge <;> rfl))))

/-- A challenge is given: its nonce is a free value (spec/13 R397; log entry 6, DESIGN CHOICE). -/
def challengeGiven (s : State) : State :=
  { s with
    free := s.free + 1
    cpx := { s.cpx with challenge := some ((Config.freeWord s.free).toNat, s.tbu.tick + 1 + unlockTicks) } }

theorem unlockChallenge_taken {p : Packet} {s : State} (keyed : (hostKeyNow s).isSome = true) (open_ : lockedOut s = false) :
    unlockChallenge p s = .reply .ok (wordsOf 8 (Config.freeWord s.free).toNat) (challengeGiven s) :=
  (check_passes keyed ..).trans (check_passes (by simp [open_]) ..)

/-- PF0 has no privilege once it is locked (spec/20 R590). -/
theorem pf0Priv_locked {s : State} (unlocked : s.cpx.unlocked = false) (locked : s.cpx.lockedBy = true) : pf0Priv s = false := by
  unfold pf0Priv implicitPriv
  simp [unlocked, locked]

/-- Settles O12: HOST_UNLOCK and UNLOCK_CHALLENGE by the key in force, the privilege of PF0 and the challenge. -/
theorem hostUnlockAnswers : Obligations.HostUnlockAnswers := by
  intro p s0 s
  have lockWord {w : Word} (h : w = 1) : zeroAt w 1 31 = true ∧ bitOf w 0 = true := by subst h; decide
  have openWord {w : Word} (h : w = 0) : zeroAt w 1 31 = true ∧ bitOf w 0 = false := by subst h; decide
  refine ⟨fun ha w => ?lock, fun ha w keyless => ?implicit, fun ha w keyed priv => ?privileged, fun ha w keyed priv room => ?challenged,
    fun ha keyless => ?keyless, fun ha keyed out => ?lockedOut, fun ha keyed out => ?challenge⟩
  case lock =>
    obtain ⟨reserved, lock⟩ := lockWord w
    exact ⟨_, congrArg Host.Outcome.next (ha.reply (hostUnlock_lock reserved lock)), by rw [emit_cpx]; rfl,
      pf0Priv_locked (by rw [emit_cpx]; rfl) (by rw [emit_cpx]; rfl)⟩
  case implicit =>
    obtain ⟨reserved, lock⟩ := openWord w
    exact ⟨_, congrArg Host.Outcome.next (ha.reply (hostUnlock_implicit reserved lock keyless)), by rw [emit_cpx]; rfl⟩
  case privileged =>
    obtain ⟨reserved, lock⟩ := openWord w
    exact ⟨_, congrArg Host.Outcome.next (ha.reply (hostUnlock_privileged reserved lock keyed priv)), emit_cpx .., emit_sec ..⟩
  case challenged =>
    obtain ⟨reserved, lock⟩ := openWord w
    have body := hostUnlock_challenged reserved lock keyed priv
    refine congrArg Host.Outcome.next ?_
    cases given : s.cpx.challenge with
    | none => exact ha.fail (st := .state) (by decide) (by rw [body, given])
    | some c =>
      simp only [given] at body
      simp only [Option.all_some, decide_eq_true_eq, Option.map_some]
      split
      · exact ha.fail (st := .state) (by decide) (body.trans (if_pos ‹_›))
      split
      · exact ha.fail (st := .busy) (by decide) (body.trans ((if_neg ‹_›).trans (if_pos ‹_›)))
      · exact ha.hold room (body.trans ((if_neg ‹_›).trans (if_neg ‹_›)))
  case keyless =>
    exact congrArg Host.Outcome.next (ha.fail (st := .state) (by decide) (check_fails (by simpa using keyless) ..))
  case lockedOut =>
    exact congrArg Host.Outcome.next (ha.fail (st := .busy) (by decide) ((check_passes keyed ..).trans (check_fails (by simp [out]) ..)))
  case challenge =>
    exact ⟨_, challengeGiven s, congrArg Host.Outcome.next (ha.reply (unlockChallenge_taken keyed out)), rfl, rfl⟩

/-! ### The script's commands -/

/-- SCRIPT_CONTROL asks for one of its operations, with FIRST in RUN alone (spec/13 R404). -/
structure ScriptControlOk (p : Packet) : Prop where
  reserved : zeroAt (wordAt p.payload 0) 4 12 = true
  op : fld (wordAt p.payload 0) 0 4 ≤ 2
  first : fld (wordAt p.payload 0) 0 4 = 2 ∨ fld (wordAt p.payload 0) 16 16 = 0

theorem ScriptControlOk.fields {p : Packet} (ok : ScriptControlOk p) :
    (zeroAt (wordAt p.payload 0) 4 12 && decide (fld (wordAt p.payload 0) 0 4 ≤ 2)
      && (fld (wordAt p.payload 0) 0 4 == 2 || fld (wordAt p.payload 0) 16 16 == 0)) = true := by
  simpa [ok.reserved, ok.op] using ok.first

theorem scriptControl_badParam {p : Packet} {s : State}
    (bad : 2 < fld (wordAt p.payload 0) 0 4 ∨ fld (wordAt p.payload 0) 0 4 ≠ 2 ∧ fld (wordAt p.payload 0) 16 16 ≠ 0) :
    scriptControl p s = .reply .badParam [] s := by
  refine check_fails ?_ ..
  rcases bad with op | ⟨op, first⟩
  · simp [Nat.not_le.2 op]
  · simp [op, first]

theorem scriptControl_query {p : Packet} {s : State} (ok : ScriptControlOk p) (op : fld (wordAt p.payload 0) 0 4 = 0) :
    scriptControl p s = .reply .ok (scriptWords s.cpx.script) s :=
  (check_passes ok.fields ..).trans (if_pos op)

/-- The script is to stop once its record's command has replied. -/
def scriptStopping (src : Nat) (s : State) : State :=
  modCpx (fun c => { c with script := { c.script with stopping := true, stopSrc := src } }) s

/-- A script that stops between records. -/
def scriptStopped (x : Script) : Script := { x with state := 3, turn := none, retryAt := none }

/-- The script stops between records, with its event (spec/13 R404, R406). -/
def scriptHalted (src : Nat) (s : State) : State :=
  emit 0 0x0125 ([3] ++ bytesOf 2 s.cpx.script.next ++ [src]) (modCpx (fun c => { c with script := scriptStopped c.script }) s)

theorem scriptHalted_script (src : Nat) (s : State) : (scriptHalted src s).cpx.script = scriptStopped s.cpx.script :=
  congrArg Cpx.script (emit_cpx ..)

theorem scriptControl_stop {p : Packet} {s : State} (ok : ScriptControlOk p) (op : fld (wordAt p.payload 0) 0 4 = 1) :
    scriptControl p s =
      if s.cpx.script.state ≠ 1 then .reply .ok (scriptWords s.cpx.script) s
      else if s.cpx.script.busy then .hold 1 none (scriptStopping p.src s)
      else .reply .ok (scriptWords (scriptStopped s.cpx.script)) (scriptHalted p.src s) :=
  (check_passes ok.fields ..).trans ((if_neg (by simp [op])).trans (if_pos op))

theorem scriptControl_run {p : Packet} {s : State} (ok : ScriptControlOk p) (op : fld (wordAt p.payload 0) 0 4 = 2) :
    scriptControl p s =
      check (s.cpx.script.state != 1) .busy s (
        check (scriptCount s != 0) .state s (
          check (decide (fld (wordAt p.payload 0) 16 16 < scriptCount s)) .badParam s (
            .reply .ok (scriptWords (scriptStart (fld (wordAt p.payload 0) 16 16) p.src s).cpx.script)
              (scriptStart (fld (wordAt p.payload 0) 16 16) p.src s)))) :=
  (check_passes ok.fields ..).trans ((if_neg (by simp [op])).trans (if_neg (by simp [op])))

/-- Settles O13: SCRIPT_CONTROL by its operation and by the script's state. -/
theorem scriptControlAnswers : Obligations.ScriptControlAnswers := by
  intro p s0 s ha reserved op first refuse
  refine ⟨fun bad => ?bad, fun o f => ?query, fun o f idle => ?stops, fun o f runs busy room => ?waits, fun o => ?run, ?started⟩
  case bad => exact congrArg Host.Outcome.next (ha.fail (by decide) (scriptControl_badParam bad))
  case query => exact congrArg Host.Outcome.next (ha.reply (scriptControl_query ⟨reserved, by omega, .inr f⟩ o))
  case stops =>
    have body := scriptControl_stop (s := s) ⟨reserved, by omega, .inr f⟩ o
    by_cases runs : s.cpx.script.state = 1
    · have halted := body.trans ((if_neg (by simp [runs])).trans (if_neg (by simp [idle runs])))
      refine ⟨scriptHalted p.src s, ?_⟩
      rw [scriptHalted_script, if_pos runs]
      exact ⟨congrArg Host.Outcome.next (ha.reply halted), rfl, rfl, rfl⟩
    · exact ⟨s, congrArg Host.Outcome.next (ha.reply (body.trans (if_pos runs))), by simp [runs], rfl, rfl⟩
  case waits =>
    have body := scriptControl_stop (s := s) ⟨reserved, by omega, .inr f⟩ o
    exact ⟨_, congrArg Host.Outcome.next (ha.hold room (body.trans ((if_neg (by simp [runs])).trans (if_pos busy)))), rfl⟩
  case run =>
    have body := scriptControl_run (s := s) ⟨reserved, by omega, .inl o⟩ o
    refine congrArg Host.Outcome.next ?_
    by_cases runs : s.cpx.script.state = 1
    · rw [if_pos runs]
      exact ha.fail (st := .busy) (by decide) (body.trans (check_fails (by simp [runs]) ..))
    rw [if_neg runs]
    by_cases none : scriptCount s = 0
    · rw [if_pos none]
      exact ha.fail (st := .state) (by decide) (body.trans ((check_passes (by simp [runs]) ..).trans (check_fails (by simp [none]) ..)))
    rw [if_neg none]
    replace body := body.trans ((check_passes (by simp [runs]) ..).trans (check_passes (by simp [none]) ..))
    by_cases past : scriptCount s ≤ first
    · rw [if_pos past]
      exact ha.fail (st := .badParam) (by decide) (body.trans (check_fails (by simpa using past) ..))
    · rw [if_neg past]
      exact ha.reply (body.trans (check_passes (by simpa using past) ..))
  case started =>
    intro t
    have script : t.cpx.script = _ := congrArg Cpx.script (emit_cpx ..)
    rw [script]
    exact ⟨rfl, rfl, rfl⟩

/-- Settles O11: in each of its forms a command passes its own checks and takes its effect. -/
theorem privilegeAndScriptCommandsComplete : Obligations.PrivilegeAndScriptCommandsComplete := by
  refine ⟨?lock, ?implicit, ?response, ?challenge, ?query, ?stopIdle, ?stopWaits, ?stopNow, ?run⟩
  case lock =>
    intro p s0 s ha reserved lock
    exact congrArg Host.Outcome.next (ha.reply (hostUnlock_lock reserved lock))
  case implicit =>
    intro p s0 s ha reserved lock keyless
    exact congrArg Host.Outcome.next (ha.reply (hostUnlock_implicit reserved lock (by simp [keyless])))
  case response =>
    intro p s0 s key nonce expiry ha reserved lock keyed priv given good free room
    have body := hostUnlock_challenged reserved lock (by simp [keyed]) priv
    simp only [given] at body
    exact congrArg Host.Outcome.next (ha.hold room (body.trans ((if_neg (Nat.not_le.2 good)).trans (if_neg (by simp [free])))))
  case challenge =>
    intro p s0 s key ha keyed out nonce
    exact congrArg Host.Outcome.next (ha.reply (unlockChallenge_taken (by simp [keyed]) out))
  case query =>
    intro p s0 s ha reserved op first
    exact congrArg Host.Outcome.next (ha.reply (scriptControl_query ⟨reserved, by omega, .inr first⟩ op))
  case stopIdle =>
    intro p s0 s ha reserved op first idle
    exact congrArg Host.Outcome.next (ha.reply ((scriptControl_stop ⟨reserved, by omega, .inr first⟩ op).trans (if_pos idle)))
  case stopWaits =>
    intro p s0 s ha reserved op first runs busy room
    exact congrArg Host.Outcome.next (ha.hold room
      ((scriptControl_stop ⟨reserved, by omega, .inr first⟩ op).trans ((if_neg (by simp [runs])).trans (if_pos busy))))
  case stopNow =>
    intro p s0 s ha reserved op first runs free y
    exact congrArg Host.Outcome.next (ha.reply
      ((scriptControl_stop ⟨reserved, by omega, .inr first⟩ op).trans ((if_neg (by simp [runs])).trans (if_neg (by simp [free])))))
  case run =>
    intro p s0 s ha reserved op idle some_ first below
    exact congrArg Host.Outcome.next (ha.reply ((scriptControl_run ⟨reserved, by omega, .inl op⟩ op).trans
      ((check_passes (by simp [idle]) ..).trans ((check_passes (by simp [some_]) ..).trans (check_passes (by simpa using below) ..)))))

end Sys2Proof.Machine
end

section
/-! PROOFS. The Firebrick and the calibration set: their commands, the end of their programming, and a row that comes into force (spec/11
R334, R335, R343 to R349). -/

namespace Sys2Proof.Machine

/-! ### Firebrick rows -/

/-- What FIREBRICK_WRITE asks of its row, the lowest that is blank, and of its content (spec/11 R332, R334, R344). -/
structure RowWriteOk (p : Packet) (s : State) : Prop where
  idle : rowsBusy s = false
  unwritten : (rowAt s (fld (wordAt p.payload 0) 0 6)).written = false
  reserved : zeroAt (wordAt p.payload 0) 6 26 = true
  lowest : lowestBlank s = some (fld (wordAt p.payload 0) 0 6)
  fields : rowFieldsOk ((p.payload.drop 1).take 5) = true

/-- The programming of a row starts; its command waits for the row to come into force (spec/11 R334). -/
def rowStarted (g : FbProg) (s : State) : State := { s with limits := { s.limits with prog := some g } }

theorem firebrickWrite_taken {p : Packet} {s : State} (ok : RowWriteOk p s) :
    firebrickWrite p s =
      check (rowSigned s (rowMessage s 1 (fld (wordAt p.payload 0) 0 6) ((p.payload.drop 1).take 5)) (p.payload.drop 6)) .authFailed s
        (.hold (fld (wordAt p.payload 0) 0 6) none (rowStarted
          { row := fld (wordAt p.payload 0) 0 6, words := (p.payload.drop 1).take 5 ++ [rowCrc ((p.payload.drop 1).take 5)] } s)) :=
  (check_passes (by simp [ok.idle]) ..).trans <| (if_neg (by simp [ok.unwritten])).trans <|
    check_passes (by simp only [ok.reserved, ok.lowest, ok.fields, beq_self_eq_true, Bool.and_self]) ..

/-- What FIREBRICK_REVOKE asks of its row, which holds something and whose loss widens no limit (spec/11 R333, R334, R344). -/
structure RowRevokeOk (p : Packet) (s : State) : Prop where
  idle : rowsBusy s = false
  unrevoked : (rowAt s (fld (wordAt p.payload 0) 0 6)).revoked = false
  reserved : zeroAt (wordAt p.payload 0) 6 26 = true
  holds : rowBlank (rowAt s (fld (wordAt p.payload 0) 0 6)) = false
  narrows : revokeWidens s (fld (wordAt p.payload 0) 0 6) = false

theorem firebrickRevoke_taken {p : Packet} {s : State} (ok : RowRevokeOk p s) :
    firebrickRevoke p s = check (rowSigned s (rowMessage s 2 (fld (wordAt p.payload 0) 0 6) []) (p.payload.drop 1)) .authFailed s
      (.hold (fld (wordAt p.payload 0) 0 6) none (rowStarted { row := fld (wordAt p.payload 0) 0 6, revoke := true } s)) :=
  (check_passes (by simp [ok.idle]) ..).trans <| (if_neg (by simp [ok.unrevoked])).trans <|
    (check_passes (by simp [ok.reserved, ok.holds]) ..).trans <|
      congrArg (check _ _ s) (check_passes (by simp [ok.narrows]) ..)

/-- A command that waits for a signed programming is held when its signature verifies, and otherwise answers AUTH_FAILED. -/
theorem Accepted.signed {ci : CmdInfo} {l : Bool} {body : Packet → State → Done} {p : Packet} {s t u : State} {key : Nat}
    {deadline : Option Nat} {verifies : Bool} (ha : Accepted ci l p s t) (room : t.cpx.held.length < 256)
    (hb : body p t = check verifies .authFailed t (.hold key deadline u)) :
    runCommandWith ci l body p s = if verifies then parked ci p t key deadline u else sendReply (heldOf ci p) .authFailed [] t := by
  cases verifies with
  | true => exact ha.hold room hb
  | false => exact ha.fail (st := .authFailed) (by decide) hb

/-- The end of a row's programming, by what was programmed (spec/11 R334). -/
theorem execFirebrickProgramDone_of {g : FbProg} {s : State} (programs : s.limits.prog = some g) (ok : Bool) (left : List Word) :
    execFirebrickProgramDone ok left s = .next (
      let t := { s with limits := { s.limits with prog := none } }
      if g.revoke then
        if ok then
          let u := modRow g.row (fun r => { r with revoked := true }) t
          { u with limits := { u.limits with due := dueRow s (g.row, true, false), dueBy := s.tbu.tick + 64 } }
        else
          raiseSource 0 481 { t with limits := { t.limits with
            treated := g.row :: t.limits.treated, due := dueRow s (g.row, true, true), dueBy := s.tbu.tick + 64 } }
      else if ok then
        let u := modRow g.row (fun r => { r with words := g.words, written := true }) t
        { u with limits := { u.limits with due := dueRow s (g.row, false, false), dueBy := s.tbu.tick + 64 } }
      else
        let kept := keptWords left g.words
        endRowCommand g.row .internal (raiseSource 0 481 (modRow g.row (fun r => { r with words := kept, revoked := kept.any (· != 0) }) t))) := by
  unfold execFirebrickProgramDone
  simp only [programs]

theorem execFirebrickRowInForce_of {row : Nat} {revoke failed : Bool} {s : State} (due : s.limits.due = some (row, revoke, failed)) :
    execFirebrickRowInForce row s = .next (rowInForce row revoke failed s) := by
  unfold execFirebrickRowInForce
  simp only [due, ne_eq, not_true_eq_false, if_false]

/-! ### The calibration set -/

/-- What CALSET_IMPORT asks of its item, and of the port whose table it gives (spec/11 R343, R348). -/
structure CalImportOk (p : Packet) (s : State) : Prop where
  idle : calBusy s = false
  served : stagesRun s = false
  reserved : zeroAt (wordAt p.payload 0) 17 15 = true
  known : itemKnown s (fld (wordAt p.payload 0) 0 16) = true
  words : itemOk (fld (wordAt p.payload 0) 0 16) (p.payload.drop 1) = true
  room : itemRoom s (fld (wordAt p.payload 0) 0 16) (p.payload.drop 1).length = true
  free : itemType (fld (wordAt p.payload 0) 0 16) = 4 →
    busyIdx s (itemHearth (fld (wordAt p.payload 0) 0 16)) (itemIndex (fld (wordAt p.payload 0) 0 16)) = false

theorem calsetImport_taken {p : Packet} {s : State} (ok : CalImportOk p s) :
    calsetImport p s = startWrite 0x0D06 (fld (wordAt p.payload 0) 0 16) (bitOf (wordAt p.payload 0) 16) (p.payload.drop 1) s :=
  (check_passes (by simp [ok.idle, ok.served]) ..).trans <|
    (check_passes (by simp only [ok.reserved, ok.known, ok.words, ok.room, Bool.and_self]) ..).trans <|
      check_passes (by simpa [Decidable.imp_iff_not_or] using ok.free) ..

/-- What CALSET_STORE asks of its item, which has words to store (spec/11 R343, R349). -/
structure CalStoreOk (p : Packet) (ws : List Word) (s : State) : Prop where
  idle : calBusy s = false
  served : stagesRun s = false
  reserved : zeroAt (wordAt p.payload 0) 17 15 = true
  known : itemKnown s (fld (wordAt p.payload 0) 0 16) = true
  words : storeWords s (fld (wordAt p.payload 0) 0 16) = some ws
  room : itemRoom s (fld (wordAt p.payload 0) 0 16) ws.length = true

theorem calsetStore_taken {p : Packet} {ws : List Word} {s : State} (ok : CalStoreOk p ws s) :
    calsetStore p s = startWrite 0x0D07 (fld (wordAt p.payload 0) 0 16) (bitOf (wordAt p.payload 0) 16) ws s := by
  unfold calsetStore
  dsimp only
  rw [check_passes (by simp [ok.idle, ok.served]), check_passes (by simp [ok.reserved, ok.known]), ok.words]
  exact check_passes ok.room ..

theorem calsetExport_taken {p : Packet} {n : Nat} {s : State} (idle : calBusy s = false) (reserved : zeroAt (wordAt p.payload 0) 16 16 = true)
    (listed : dirIndex s (calBase s) (fld (wordAt p.payload 0) 0 16) = some n) :
    calsetExport p s = .reply .ok (dirEntry s (calBase s) n ++ (storedItem s (calBase s) n).words) s := by
  unfold calsetExport
  dsimp only
  rw [check_passes (by simp [idle]), check_passes reserved, listed]

theorem execCalsetWriteDone_of {g : CalProg} {s : State} (programs : s.limits.calProg = some g) (ok : Bool) :
    execCalsetWriteDone ok s = .next (
      let t : State := { s with limits := { s.limits with calProg := none } }
      if ok then endHeldFor g.op 0 .ok [] (putItem g t) else endHeldFor g.op 0 .internal [] t) := by
  unfold execCalsetWriteDone
  simp only [programs]

/-- Settles O46: each command passes its own checks and takes its effect, and each programming ends by what was programmed and by whether
it has succeeded. -/
theorem limitsAndCalibrationRows : Obligations.LimitsAndCalibrationRows := by
  refine ⟨?write, ?revoke, ?read, ?revoked, ?revokeFailed, ?written, ?writeFailed, ?inForce, ?query, ?exports, ?imports, ?store, ?stored,
    ?storeFailed⟩
  case write =>
    intro p s0 s ha w row ws idle unwritten reserved lowest fields room
    exact congrArg Host.Outcome.next (ha.signed room (firebrickWrite_taken ⟨idle, unwritten, reserved, lowest, fields⟩))
  case revoke =>
    intro p s0 s ha w row idle unrevoked reserved holds narrows room
    exact congrArg Host.Outcome.next (ha.signed room (firebrickRevoke_taken ⟨idle, unrevoked, reserved, holds, narrows⟩))
  case read =>
    intro p s0 s ha
    exact congrArg Host.Outcome.next (ha.reply rfl)
  case revoked =>
    intro ok left s g programs t revokes good
    exact (execFirebrickProgramDone_of programs ok left).trans (congrArg Host.Outcome.next ((if_pos revokes).trans (if_pos good)))
  case revokeFailed =>
    intro ok left s g programs t revokes bad
    exact (execFirebrickProgramDone_of programs ok left).trans (congrArg Host.Outcome.next ((if_pos revokes).trans (if_neg (by simp [bad]))))
  case written =>
    intro ok left s g programs t writes good
    exact (execFirebrickProgramDone_of programs ok left).trans (congrArg Host.Outcome.next ((if_neg (by simp [writes])).trans (if_pos good)))
  case writeFailed =>
    intro ok left s g programs t writes bad
    exact (execFirebrickProgramDone_of programs ok left).trans
      (congrArg Host.Outcome.next ((if_neg (by simp [writes])).trans (if_neg (by simp [bad]))))
  case inForce =>
    rintro row s k revoke failed due rfl
    exact execFirebrickRowInForce_of due
  case query =>
    intro p s0 s ha idle
    exact congrArg Host.Outcome.next (ha.reply (check_passes (by simp [idle]) ..))
  case exports =>
    intro p s0 s ha w id idle reserved n listed
    exact congrArg Host.Outcome.next (ha.reply (calsetExport_taken idle reserved listed))
  case imports =>
    intro p s0 s ha w id ws idle served reserved known words fits free room
    exact congrArg Host.Outcome.next (ha.hold room (calsetImport_taken ⟨idle, served, reserved, known, words, fits, free⟩))
  case store =>
    intro p s0 s ws ha w id idle served reserved known words fits room
    exact congrArg Host.Outcome.next (ha.hold room (calsetStore_taken ⟨idle, served, reserved, known, words, fits⟩))
  case stored =>
    intro ok s g programs t good
    exact (execCalsetWriteDone_of programs ok).trans (congrArg Host.Outcome.next (if_pos good))
  case storeFailed =>
    intro ok s g programs t bad
    exact (execCalsetWriteDone_of programs ok).trans (congrArg Host.Outcome.next (if_neg (by simp [bad])))

end Sys2Proof.Machine
end

section
/-! PROOFS. The PCI Express link: its resets and power states, which leave every repeated section alone, and its other events (spec/14
R407, R417, R423, R433 to R435). -/

namespace Sys2Proof.Machine

/-! ### What leaves the sections alone -/

/-- What `SameSections` compares of a hearth. -/
def sectionView (x : Hearth) : List Section × List Loop × List Path := (x.sections.map unstreamed, x.loops, x.paths)

theorem SameSections.refl (s : State) : SameSections s s := ⟨rfl, rfl⟩

theorem SameSections.trans {s t u : State} (a : SameSections s t) (b : SameSections t u) : SameSections s u :=
  ⟨b.1.trans a.1, b.2.trans a.2⟩

theorem SameSections.of_hearths {s t : State} (pkg : t.pkg = s.pkg) (hearths : t.hearths = s.hearths) : SameSections s t :=
  ⟨pkg, by rw [hearths]⟩

/-- A change of one element that a view does not see. -/
theorem map_modify_unseen {α β : Type} {g : α → β} {f : α → α} (hf : ∀ x, g (f x) = g x) (xs : List α) (n : Nat) :
    (xs.modify n f).map g = xs.map g := by
  refine List.ext_getElem? fun k => ?_
  rw [List.getElem?_map, List.getElem?_map, List.getElem?_modify]
  cases xs[k]? with
  | none => rfl
  | some x =>
    by_cases e : n = k
    · simp [e, hf]
    · simp [e]

theorem modHearth_sameSections {f : Hearth → Hearth} (hf : ∀ x, sectionView (f x) = sectionView x) (h : Nat) (s : State) :
    SameSections s (modHearth h f s) :=
  ⟨rfl, map_modify_unseen (g := sectionView) hf s.hearths h⟩

theorem modSec_sameSections {f : Section → Section} (hf : ∀ y, unstreamed (f y) = unstreamed y) (h i : Nat) (s : State) :
    SameSections s (modSec h i f s) :=
  modHearth_sameSections (fun x => by simp only [sectionView, map_modify_unseen hf]) h s

theorem emit_sameSections (h code : Nat) (data : List Nat) (s : State) : SameSections s (emit h code data s) := by
  refine ⟨emit_pkg .., ?_⟩
  have quiet := congrArg (List.map sectionView) (emit_quietHearths h code data s)
  simpa [List.map_map, Function.comp_def, quietHearth, sectionView] using quiet

theorem each_sameSections {α : Type} {f : α → State → State} (hf : ∀ x s, SameSections s (f x s)) (xs : List α) (s : State) :
    SameSections s (each xs f s) := by
  induction xs generalizing s with
  | nil => exact .refl s
  | cons x xs ih => exact (hf x s).trans (ih (f x s))

theorem onlyIf_sameSections {f : State → State} (hf : ∀ s, SameSections s (f s)) (c : Bool) (s : State) : SameSections s (onlyIf c f s) := by
  unfold onlyIf
  split
  · exact hf s
  · exact .refl s

theorem modFcol_sameSections (h : Nat) (f : Fcol → Fcol) (s : State) : SameSections s (modFcol h f s) :=
  modHearth_sameSections (f := fun x => { x with fcol := f x.fcol }) (fun _ => rfl) h s

theorem modHif_sameSections (f : Hif → Hif) (s : State) : SameSections s (modHif f s) := ⟨rfl, rfl⟩

theorem modCpx_sameSections (f : Cpx → Cpx) (s : State) : SameSections s (modCpx f s) := ⟨rfl, rfl⟩

theorem freeDetail_sameSections (s : State) : SameSections s (freeDetail s).2 := ⟨rfl, rfl⟩

theorem raiseSource_sameSections (h n : Nat) (s : State) : SameSections s (raiseSource h n s) := by
  unfold raiseSource
  dsimp only
  split
  · exact .refl s
  split
  · exact .refl s
  split
  · split
    · exact modFcol_sameSections ..
    · exact (modFcol_sameSections ..).trans (emit_sameSections ..)
  · exact (freeDetail_sameSections s).trans (modFcol_sameSections ..)

/-! ### Streams -/

theorem modStream_sameSections (h i kind : Nat) (f : Stream → Stream) (s : State) : SameSections s (modStream h i kind f s) := by
  unfold modStream
  refine modSec_sameSections (fun y => ?_) h i s
  split <;> rfl

theorem streamEvent_sameSections (h i kind state cause : Nat) (s : State) : SameSections s (streamEvent h i kind state cause s) :=
  (emit_sameSections ..).trans (onlyIf_sameSections (fun _ => modHif_sameSections ..) _ _)

theorem stopStream_sameSections (cause h i kind : Nat) (s : State) : SameSections s (stopStream cause h i kind s) := by
  unfold stopStream
  dsimp only
  split
  · exact (modStream_sameSections ..).trans (streamEvent_sameSections ..)
  · exact .refl s

theorem dropStream_sameSections (cause h i kind : Nat) (s : State) : SameSections s (dropStream cause h i kind s) := by
  unfold dropStream
  dsimp only
  split
  · exact .refl s
  · exact (modStream_sameSections ..).trans (streamEvent_sameSections ..)

theorem dropStreams_sameSections (cause : Nat) (s : State) : SameSections s (dropStreams cause s) := by
  unfold dropStreams
  refine each_sameSections (fun g t => ?_) _ s
  exact (dropStream_sameSections cause g.1 g.2 0 t).trans (dropStream_sameSections cause g.1 g.2 1 _)

theorem fitStreams_sameSections (kind : Nat) (s : State) : SameSections s (fitStreams kind s) := by
  refine each_sameSections (fun g t => ?_) _ s
  split
  · exact stopStream_sameSections ..
  · exact .refl t

theorem deliverBlock_sameSections (h i : Nat) (ws : List Word) (s : State) : SameSections s (deliverBlock h i ws s) :=
  (modStream_sameSections ..).trans (onlyIf_sameSections (fun _ => modHif_sameSections ..) _ _)

theorem drainStaging_sameSections (h i fuel : Nat) (s : State) : SameSections s (drainStaging h i fuel s) := by
  induction fuel generalizing s with
  | zero => exact .refl s
  | succ fuel ih =>
    unfold drainStaging
    dsimp only
    split
    · exact .refl s
    split
    · exact ((deliverBlock_sameSections ..).trans (modStream_sameSections ..)).trans (ih _)
    · exact .refl s

theorem setLink_sameSections (gen width : Nat) (s : State) : SameSections s (setLink gen width s) := by
  unfold setLink
  split
  · exact .refl s
  · exact (modHif_sameSections ..).trans (emit_sameSections ..)

/-! ### The reset of PF0 while no command is held -/

/-- The sections are the same, and no command is held. -/
structure SameIdle (s t : State) : Prop where
  sections : SameSections s t
  idle : t.cpx.held = []

theorem each_sameIdle {α : Type} {f : α → State → State} (hf : ∀ x s, s.cpx.held = [] → SameIdle s (f x s)) (xs : List α) {s : State}
    (h : s.cpx.held = []) : SameIdle s (each xs f s) := by
  induction xs generalizing s with
  | nil => exact ⟨.refl s, h⟩
  | cons x xs ih =>
    have now := hf x s h
    have rest := ih now.idle
    exact ⟨now.sections.trans rest.sections, rest.idle⟩

/-- A queue that loses its commands, of which none was held, loses only those to come at the boundary. -/
theorem dropQueueHeld_idle (q : Nat) {s : State} (h : s.cpx.held = []) :
    dropQueueHeld q s = modCpx (fun c => { c with due := c.due.filter fun d => d.cmd.src != q }) s := by
  unfold dropQueueHeld
  rw [h]
  rfl

theorem resetQueue_sameIdle (q : Nat) (s : State) (h : s.cpx.held = []) : SameIdle s (modQueue q (fun _ => {}) (dropQueueHeld q s)) := by
  rw [dropQueueHeld_idle q h]
  exact ⟨(modCpx_sameSections ..).trans (modCpx_sameSections ..), h⟩

theorem abortCapture_sameIdle (k : Nat) (s : State) (h : s.cpx.held = []) :
    SameIdle s (stopCapture k (each (heldFor s 0x0B04 k) dropHeld s)) := by
  have unheld : heldFor s 0x0B04 k = [] := congrArg (List.filter _) h
  rw [unheld]
  exact ⟨modHearth_sameSections (f := fun x => { x with cap := { x.cap with state := 0, trigDue := none, deadline := none, buf := [] } })
    (fun _ => rfl) k s, h⟩

theorem abortCaptures_sameIdle (s : State) (h : s.cpx.held = []) : SameIdle s (abortCaptures s) := by
  unfold abortCaptures
  exact each_sameIdle (f := fun k t => stopCapture k (each (heldFor t 0x0B04 k) dropHeld t)) abortCapture_sameIdle (hearthsOf s) h

theorem resetQueues_sameIdle {s : State} (h : s.cpx.held = []) :
    SameIdle s (each (List.range 64) (fun q u => modQueue q (fun _ => {}) (dropQueueHeld q u)) s) :=
  each_sameIdle (f := fun q u => modQueue q (fun _ => {}) (dropQueueHeld q u)) resetQueue_sameIdle (List.range 64) h

theorem resetPf0_sameIdle {s : State} (h : s.cpx.held = []) : SameIdle s (resetPf0 s) := by
  have queues := resetQueues_sameIdle h
  unfold resetPf0
  extract_lets t
  have aborted := abortCaptures_sameIdle t queues.idle
  have kept : SameSections s t := queues.sections
  clear_value t
  exact ⟨((kept.trans aborted.sections).trans (modHif_sameSections ..)).trans (modCpx_sameSections ..), aborted.idle⟩

theorem raiseSource_held (h n : Nat) (s : State) : (raiseSource h n s).cpx.held = s.cpx.held := by
  unfold raiseSource
  dsimp only
  split
  · rfl
  split
  · rfl
  split
  · split
    · rfl
    · exact congrArg Cpx.held (emit_cpx ..)
  · rfl

theorem linkDown_sameSections (cause : Nat) {s : State} (h : s.cpx.held = []) :
    SameSections s (onlyIf (cause == 2) (raiseSource 0 0) s) ∧ (onlyIf (cause == 2) (raiseSource 0 0) s).cpx.held = [] := by
  refine ⟨onlyIf_sameSections (f := raiseSource 0 0) (raiseSource_sameSections 0 0) _ s, ?_⟩
  unfold onlyIf
  split
  · exact (raiseSource_held 0 0 s).trans h
  · exact h

theorem drainAll_sameSections (s : State) : SameSections s (each (allSections s) (fun g => drainStaging g.1 g.2 8) s) := by
  refine each_sameSections (fun g t => ?_) _ s
  exact drainStaging_sameSections g.1 g.2 8 t

/-- Settles O24: each of these events goes through operations of which none changes more of a section than its streams; with no command
held, those of PF0 that are dropped have no effect to take back. -/
theorem linkAndHostLeaveSections : Obligations.LinkAndHostLeaveSections := by
  intro c s t run
  refine ⟨?_, ?_⟩
  · rintro (⟨gen, width, rfl⟩ | rfl | ⟨pf, enter, rfl⟩ | rfl | ⟨n, rfl⟩)
    · obtain rfl := Host.Outcome.next.inj run
      split
      · exact (((modHif_sameSections ..).trans (setLink_sameSections ..)).trans (fitStreams_sameSections ..)).trans (fitStreams_sameSections ..)
      · exact .refl s
    · obtain rfl := Host.Outcome.next.inj run
      exact modHif_sameSections ..
    · obtain rfl := Host.Outcome.next.inj run
      extract_lets u
      split
      · exact modHif_sameSections ..
      · exact (modHif_sameSections ..).trans (drainAll_sameSections _)
    · obtain rfl := Host.Outcome.next.inj run
      exact (modHif_sameSections ..).trans (dropStreams_sameSections ..)
    · obtain rfl := Host.Outcome.next.inj run
      split
      · exact .refl s
      · exact modHif_sameSections ..
  · rintro (rfl | ⟨cause, rfl⟩) none
    · obtain rfl := Host.Outcome.next.inj run
      exact (resetPf0_sameIdle none).sections
    · obtain rfl := Host.Outcome.next.inj run
      obtain ⟨down, still⟩ := linkDown_sameSections cause none
      exact (((down.trans (resetPf0_sameIdle still).sections).trans (dropStreams_sameSections ..)).trans (modHif_sameSections ..)).trans
        (setLink_sameSections ..)

/-! ### The link's events -/

/-- Settles O49. That a read that times out is noted in AER as it is rests on log entry 147 (PRESUMED), which is the model's choice. -/
theorem linkEvents : Obligations.LinkEvents := by
  refine ⟨?linkReset, ?flrVf, ?flrPf0, ?flrPf1, ?enterD3, ?leaveD3, ?retrain, ?dmaCapture, ?dmaStream, ?perst, ?clear⟩
  case linkReset => exact fun _ _ => rfl
  case flrVf => exact fun n s n0 => congrArg Host.Outcome.next (if_neg n0)
  case flrPf0 => exact fun _ => rfl
  case flrPf1 => exact fun _ => rfl
  case enterD3 => exact fun pf enter s on => congrArg Host.Outcome.next (if_pos on)
  case leaveD3 => exact fun pf enter s off => congrArg Host.Outcome.next (if_neg (Bool.eq_false_iff.1 off))
  case retrain => exact fun gen width s low high lanes => congrArg Host.Outcome.next (if_pos ⟨low, high, lanes⟩)
  case dmaCapture => exact fun d s cap run => congrArg Host.Outcome.next ((if_pos cap).trans (if_neg run))
  case dmaStream => exact fun d s cap run => congrArg Host.Outcome.next ((if_neg (Bool.eq_false_iff.1 cap)).trans (if_pos run))
  case perst => exact fun _ => rfl
  case clear => exact fun s up => congrArg Host.Outcome.next (if_pos (bne_iff_ne.2 up))

end Sys2Proof.Machine
end

section
/-! PROOFS. Streams and capture: their commands, blocks, triggers, records, read-outs and time limits (spec/14 R420, R422, R424, R425,
R428 to R432, R436). -/

namespace Sys2Proof.Machine

/-! ### The stream commands -/

/-- What STREAM_CONFIG asks of its section, its stream and the link (spec/14 R424). -/
structure StreamConfigOk (p : Packet) (d : SecDef) (s : State) : Prop where
  defined : (secAt s p.hearth p.sect).defn = some d
  stopped : (streamAt s p.hearth p.sect (fld (wordAt p.payload 0) 0 1)).state ≤ 1
  fields : streamOk d p.payload = true
  budget : bandwidthSum s (fld (wordAt p.payload 0) 0 1) 1 - bandwidthAt s p.hearth p.sect (fld (wordAt p.payload 0) 0 1) 1
    + streamBandwidth d (streamFrom p.payload (streamAt s p.hearth p.sect (fld (wordAt p.payload 0) 0 1))) ≤ linkLimit s

theorem streamConfig_taken {p : Packet} {d : SecDef} {s : State} (ok : StreamConfigOk p d s) :
    streamConfig p s = .reply .ok [] (modStream p.hearth p.sect (fld (wordAt p.payload 0) 0 1)
      (fun _ => streamFrom p.payload (streamAt s p.hearth p.sect (fld (wordAt p.payload 0) 0 1))) s) := by
  obtain ⟨defined, stopped, fields, budget⟩ := ok
  unfold streamConfig
  simp only [defined]
  rw [check_passes (decide_eq_true stopped), check_passes fields, check_passes (decide_eq_true budget)]

/-- STREAM_CONTROL asks for one of its operations (spec/14 R425). -/
structure StreamControlOk (p : Packet) : Prop where
  op : fld (wordAt p.payload 0) 0 2 ≤ 1
  low : zeroAt (wordAt p.payload 0) 2 2 = true
  high : zeroAt (wordAt p.payload 0) 5 27 = true

theorem streamControl_taken {p : Packet} {s : State} (ok : StreamControlOk p) :
    streamControl p s =
      let kind := fld (wordAt p.payload 0) 4 1
      let x := streamAt s p.hearth p.sect kind
      if fld (wordAt p.payload 0) 0 2 = 0 then .reply .ok [] (stopStream 0 p.hearth p.sect kind s)
      else if x.state = 0 then .reply .state [] s
      else if 2 ≤ x.state then .reply .ok [] s
      else if x.startTime = 0 ∨ timeDiff x.startTime (nextTime s) ≤ 0 then
        .reply .ok [] (streamEvent p.hearth p.sect kind 2 0 (modStream p.hearth p.sect kind (startStream (s.tbu.clock + s.tbu.tickLen) 2) s))
      else .reply .ok [] (modStream p.hearth p.sect kind (startStream (s.tbu.clock + s.tbu.tickLen) 3) s) :=
  check_passes (by simp [ok.op, ok.low, ok.high]) ..

/-! ### Blocks -/

/-- The stream of an export whose block is taken: its entries leave it, and it ends with the last of them (spec/14 R424, R425). -/
def exportTaken (taken : Nat) (y : Stream) : Stream :=
  { y with
    seq := incWrap 32 y.seq, entries := y.entries.drop taken, ending := y.ending && decide (taken < y.entries.length) }

/-- Where a completed export block goes (spec/14 R421, R433). -/
theorem execStreamExportBlock_given {h i : Nat} {b : BlockIn} {s : State} (gives : (exportGives (streamAt s h i 0) s.tbu.clock).isEmpty = false) :
    execStreamExportBlock h i b s = .next (
      let x := streamAt s h i 0
      let es := exportGives x s.tbu.clock
      let ws := blockOf s h i x es
      let t := modStream h i 0 (exportTaken es.length) s
      if b.memErr then dropBlock h i (raiseSource 0 3 t)
      else if s.hif.d3pf0 || s.hif.d3pf1 then dropBlock h i t
      else if x.staged = [] ∧ ringRoom x (4 * ws.length) = true then deliverBlock h i ws t
      else if x.staged.length < 8 then modStream h i 0 (fun y => { y with staged := y.staged ++ [ws] }) t
      else dropBlock h i t) :=
  congrArg Host.Outcome.next (if_neg (Bool.eq_false_iff.1 gives))

/-- A block that reaches the host ring, staging or neither: its memory did not fail, and no function is in D3hot. -/
theorem execStreamExportBlock_sound {h i : Nat} {b : BlockIn} {s : State} (gives : (exportGives (streamAt s h i 0) s.tbu.clock).isEmpty = false)
    (sound : b.memErr = false) (pf0 : s.hif.d3pf0 = false) (pf1 : s.hif.d3pf1 = false) :
    execStreamExportBlock h i b s = .next (
      let x := streamAt s h i 0
      let es := exportGives x s.tbu.clock
      let ws := blockOf s h i x es
      let t := modStream h i 0 (exportTaken es.length) s
      if x.staged = [] ∧ ringRoom x (4 * ws.length) = true then deliverBlock h i ws t
      else if x.staged.length < 8 then modStream h i 0 (fun y => { y with staged := y.staged ++ [ws] }) t
      else dropBlock h i t) :=
  (execStreamExportBlock_given gives).trans
    (congrArg Host.Outcome.next ((if_neg (by simp [sound])).trans (if_neg (by simp [pf0, pf1]))))

/-- A running import whose ring holds data that the device may read (spec/14 R420, R422, R433). -/
structure ImportReads (x : Stream) (b : BlockIn) (s : State) : Prop where
  ready : b.ready = true
  data : x.devPtr ≠ x.hostPtr
  pf0 : s.hif.d3pf0 = false
  pf1 : s.hif.d3pf1 = false

theorem ImportReads.taken {x : Stream} {b : BlockIn} {s : State} (ok : ImportReads x b s) :
    ¬ (!b.ready || x.devPtr == x.hostPtr || s.hif.d3pf0 || s.hif.d3pf1) = true := by
  simp [ok.ready, ok.data, ok.pf0, ok.pf1]

/-- What a running import takes from its ring, by the block's header (spec/14 R419, R422). -/
theorem execStreamImportBlock_read {h i : Nat} {b : BlockIn} {s : State} (runs : (streamAt s h i 1).state = 2)
    (reads : ImportReads (streamAt s h i 1) b s) :
    execStreamImportBlock h i b s = .next (
      let x := streamAt s h i 1
      let w := wordAt b.words 0
      if bitOf w 12 then consumeTo h i 0 s
      else
        let count := blockCount b.words
        let ptr := (x.devPtr + blockBytes x count) % 2 ^ x.ringLog2
        if importMatches h i x w then
          let es := (List.range count).map fun n => if b.memErr then { v := [(0, 0), (0, 0)] } else importSample x b.words n
          let t := modStream h i 1 (fun y => { y with
            underrun := false, blocks := incWrap 16 y.blocks, seq := incWrap 32 y.seq, entries := y.entries ++ es }) (consumeTo h i ptr s)
          onlyIf b.memErr (raiseSource 0 3) t
        else modStream h i 1 (fun y => { y with bad := incSat 8 y.bad }) (consumeTo h i ptr s)) :=
  congrArg Host.Outcome.next ((if_neg (by simp [runs])).trans (if_neg reads.taken))

/-- The stream that the host points at exists, and the package serves it (spec/14 R436). -/
structure PointerOk (h i : Nat) (s : State) : Prop where
  hearth : present s h = true
  sect : i < 8
  served : s.pkg ≠ .doused

theorem execStrHostPtrWrite_served {h i kind ptr : Nat} {s : State} (ok : PointerOk h i s) :
    execStrHostPtrWrite h i kind ptr s = .next (
      let x := streamAt s h i kind
      let v := ptr / 64 * 64 % 2 ^ 30
      if x.state = 0 ∨ 2 ^ x.ringLog2 ≤ v then modStream h i kind (fun y => { y with bad := incSat 8 y.bad }) s
      else
        let t := modStream h i kind (fun y => { y with hostPtr := v }) s
        if kind = 0 then drainStaging h i 8 t else t) :=
  congrArg Host.Outcome.next (if_neg (by simp [ok.hearth, ok.sect, ok.served]))

/-- A pointer within the ring of a configured stream is the host's. -/
theorem not_pointerBad {x : Stream} {v : Nat} (configured : x.state ≠ 0) (within : v < 2 ^ x.ringLog2) :
    ¬ (x.state = 0 ∨ 2 ^ x.ringLog2 ≤ v) :=
  not_or_intro configured (Nat.not_le.2 within)

/-- Settles O50: a command passes its checks and takes the effect of its stream's state; a block goes where its stream's ring, its staging
and the link's power states let it. -/
theorem streamRows : Obligations.StreamRows := by
  refine ⟨?config, ?stop, ?runsAlready, ?startNow, ?startLater, ?failed, ?asleep, ?delivered, ?staged, ?dropped, ?underruns, ?fill, ?fed,
    ?mismatched, ?startTime, ?badPointer, ?exportPointer, ?importPointer⟩
  case config =>
    intro p s0 s ha kind old d defined stopped fields x budget
    exact congrArg Host.Outcome.next (ha.reply (streamConfig_taken ⟨defined, stopped, fields, budget⟩))
  case stop =>
    intro p s0 s ha w op kind known low high stops
    exact congrArg Host.Outcome.next (ha.reply ((streamControl_taken ⟨known, low, high⟩).trans (if_pos stops)))
  case runsAlready =>
    intro p s0 s ha w op kind x known low high starts configured runs
    exact congrArg Host.Outcome.next (ha.reply ((streamControl_taken ⟨known, low, high⟩).trans
      ((if_neg starts).trans ((if_neg configured).trans (if_pos runs)))))
  case startNow =>
    intro p s0 s ha w op kind x known low high starts configured idle now
    exact congrArg Host.Outcome.next (ha.reply ((streamControl_taken ⟨known, low, high⟩).trans
      ((if_neg starts).trans ((if_neg configured).trans ((if_neg (Nat.not_le.2 idle)).trans (if_pos now))))))
  case startLater =>
    intro p s0 s ha w op kind x known low high starts configured idle timed later
    exact congrArg Host.Outcome.next (ha.reply ((streamControl_taken ⟨known, low, high⟩).trans
      ((if_neg starts).trans ((if_neg configured).trans ((if_neg (Nat.not_le.2 idle)).trans (if_neg (not_or_intro timed (Int.not_le.2 later))))))))
  case failed =>
    intro h i b s x es gives t failed
    exact (execStreamExportBlock_given gives).trans (congrArg Host.Outcome.next (if_pos failed))
  case asleep =>
    intro h i b s x es gives t sound asleep
    exact (execStreamExportBlock_given gives).trans (congrArg Host.Outcome.next ((if_neg (Bool.eq_false_iff.1 sound)).trans (if_pos asleep)))
  case delivered =>
    intro h i b s x es gives ws t sound pf0 pf1 unstaged room
    exact (execStreamExportBlock_sound gives sound pf0 pf1).trans (congrArg Host.Outcome.next (if_pos ⟨unstaged, room⟩))
  case staged =>
    intro h i b s x es gives ws t sound pf0 pf1 full room
    exact (execStreamExportBlock_sound gives sound pf0 pf1).trans (congrArg Host.Outcome.next ((if_neg full).trans (if_pos room)))
  case dropped =>
    intro h i b s x es gives ws t sound pf0 pf1 full crowded
    exact (execStreamExportBlock_sound gives sound pf0 pf1).trans
      (congrArg Host.Outcome.next ((if_neg full).trans (if_neg (Nat.not_lt.2 crowded))))
  case underruns =>
    intro h i b s x runs missing
    exact congrArg Host.Outcome.next ((if_neg (not_not_intro runs)).trans (if_pos missing))
  case fill =>
    intro h i b s x w runs ready data pf0 pf1 fill
    exact (execStreamImportBlock_read runs ⟨ready, data, pf0, pf1⟩).trans (congrArg Host.Outcome.next (if_pos fill))
  case fed =>
    intro h i b s x w runs ready data pf0 pf1 samples count ptr matched
    exact (execStreamImportBlock_read runs ⟨ready, data, pf0, pf1⟩).trans
      (congrArg Host.Outcome.next ((if_neg (Bool.eq_false_iff.1 samples)).trans (if_pos matched)))
  case mismatched =>
    intro h i b s x w runs ready data pf0 pf1 samples count ptr other
    exact (execStreamImportBlock_read runs ⟨ready, data, pf0, pf1⟩).trans
      (congrArg Host.Outcome.next ((if_neg (Bool.eq_false_iff.1 samples)).trans (if_neg (Bool.eq_false_iff.1 other))))
  case startTime =>
    intro h i kind s x waits due
    exact congrArg Host.Outcome.next (if_pos ⟨waits, due⟩)
  case badPointer =>
    intro h i kind ptr s x v hearth sect served bad
    exact (execStrHostPtrWrite_served ⟨hearth, sect, served⟩).trans (congrArg Host.Outcome.next (if_pos bad))
  case exportPointer =>
    intro h i kind ptr s x v hearth sect served configured within t exports
    exact (execStrHostPtrWrite_served ⟨hearth, sect, served⟩).trans
      (congrArg Host.Outcome.next ((if_neg (not_pointerBad configured within)).trans (if_pos exports)))
  case importPointer =>
    intro h i kind ptr s x v hearth sect served configured within t imports
    exact (execStrHostPtrWrite_served ⟨hearth, sect, served⟩).trans
      (congrArg Host.Outcome.next ((if_neg (not_pointerBad configured within)).trans (if_neg imports)))

/-! ### Capture -/

/-- What CAPTURE_CONFIG asks of its engine and of the memory (spec/14 R430, spec/16 R497). -/
structure CaptureConfigOk (p : Packet) (s : State) : Prop where
  fields : captureOk p.payload = true
  idle : (hearthAt s p.hearth).cap.state = 0
  size : ((captureFrom p.payload).spectrum || decide ((captureFrom p.payload).srcs.length * ((captureFrom p.payload).length * 4096)
    ≤ captureMib (hearthAt s p.hearth).xmc * 2 ^ 20)) = true
  demand : demandFits s p.hearth (captureFrom p.payload).srcs.length = true

theorem captureConfig_taken {p : Packet} {s : State} (ok : CaptureConfigOk p s) :
    captureConfig p s = .reply .ok [] (modCap p.hearth (fun c => { c with cfg := some (captureFrom p.payload) }) s) :=
  (check_passes ok.fields ..).trans <| (check_passes (beq_iff_eq.2 ok.idle) ..).trans <| (check_passes ok.size ..).trans <| check_passes ok.demand ..

/-- CAPTURE_ARM asks for one of its operations and triggers (spec/14 R431). -/
structure CaptureArmOk (p : Packet) : Prop where
  op : fld (wordAt p.payload 0) 0 2 ≤ 1
  trig : fld (wordAt p.payload 0) 4 3 ≤ 4
  low : zeroAt (wordAt p.payload 0) 2 2 = true
  high : zeroAt (wordAt p.payload 0) 7 9 = true
  limit : zeroAt (wordAt p.payload 1) 16 16 = true

theorem CaptureArmOk.passes {p : Packet} (ok : CaptureArmOk p) :
    (decide (fld (wordAt p.payload 0) 0 2 ≤ 1) && decide (fld (wordAt p.payload 0) 4 3 ≤ 4) && zeroAt (wordAt p.payload 0) 2 2
      && zeroAt (wordAt p.payload 0) 7 9 && zeroAt (wordAt p.payload 1) 16 16) = true := by
  simp [ok.op, ok.trig, ok.low, ok.high, ok.limit]

theorem captureArm_abort {p : Packet} {s : State} (ok : CaptureArmOk p) (op : fld (wordAt p.payload 0) 0 2 = 1)
    (runs : (hearthAt s p.hearth).cap.state ≠ 0) :
    captureArm p s = .reply .ok [] (stopCapture p.hearth (endHeldFor 0x0B04 p.hearth .aborted [] s)) :=
  (check_passes ok.passes ..).trans <| (if_pos op).trans <| check_passes (bne_iff_ne.2 runs) ..

theorem captureArm_arm {p : Packet} {s : State} (ok : CaptureArmOk p) (op : fld (wordAt p.payload 0) 0 2 ≠ 1)
    (idle : (hearthAt s p.hearth).cap.state = 0) (configured : (hearthAt s p.hearth).cap.cfg.isSome = true) :
    captureArm p s =
      let clk := s.tbu.clock + s.tbu.tickLen
      let dl := if fld (wordAt p.payload 1) 0 16 = 0 then none else some (s.tbu.tick + fld (wordAt p.payload 1) 0 16 * 480)
      .hold p.hearth dl (modCap p.hearth (fun c => { c with
        state := 1, buf := [], bufClk := clk, trig := fld (wordAt p.payload 0) 4 3, event := fld (wordAt p.payload 0) 16 16
        armClock := clk, deadline := dl
        shortPre := false, dramErr := false, lost := [], trigDue := if fld (wordAt p.payload 0) 4 3 = 0 then some clk else none }) s) :=
  (check_passes ok.passes ..).trans <| (if_neg op).trans <| check_passes (by simp [idle, configured]) ..

/-- Settles O51. That OP = 1 ends a capture of any state but 0 rests on log entry 89 (DEDUCED), which is the model's choice. -/
theorem captureRows : Obligations.CaptureRows := by
  refine ⟨?config, ?abort, ?arm, ?query, ?trigger, ?recorded, ?readOut, ?timeout⟩
  case config =>
    intro p s0 s ha h x m fields idle size demand
    exact congrArg Host.Outcome.next (ha.reply (captureConfig_taken ⟨fields, idle, size, demand⟩))
  case abort =>
    intro p s0 s ha h w w1 op trig x known trigger low high limit aborts runs
    exact congrArg Host.Outcome.next (ha.reply (captureArm_abort ⟨known, trigger, low, high, limit⟩ aborts runs))
  case arm =>
    intro p s0 s ha h w w1 op trig x clk known trigger low high limit arms idle configured dl room
    exact congrArg Host.Outcome.next (ha.hold room (captureArm_arm ⟨known, trigger, low, high, limit⟩ arms idle configured))
  case query =>
    intro p s0 s ha x
    exact congrArg Host.Outcome.next (ha.reply rfl)
  case trigger =>
    intro h clk s c cfg now triggers
    exact congrArg Host.Outcome.next (if_pos (Bool.and_eq_true_iff.2 ⟨now, triggers⟩))
  case recorded =>
    intro h s c records full
    exact congrArg Host.Outcome.next (if_pos ⟨records, full⟩)
  case readOut =>
    intro h s c reads pf0 pf1
    exact congrArg Host.Outcome.next (if_neg (not_or_intro (not_not_intro reads) (not_or_intro pf0 pf1)))
  case timeout =>
    intro h s early
    exact congrArg Host.Outcome.next (if_neg early)

end Sys2Proof.Machine
end

section
/-! PROOFS. The commands of the flue links, the device group, PTP, splits and probes, and the clear of the flue's counts (spec/15 R479 to
R486). -/

namespace Sys2Proof.Machine

/-- What SPLIT_CONFIG asks of its section, its fields, the port's link and, once the split is applied, of the rates (spec/15 R472, R483). -/
structure SplitConfigOk (p : Packet) (s : State) : Prop where
  rule : groupRule p s = true
  ready : secNow (secAt s p.hearth p.sect) = .ready
  fields : splitOk p.payload p.hearth p.sect s = true
  linked : ((splitFrom p.payload).role == 0 || (s.flu.ports.getD (2 * p.hearth + (splitFrom p.payload).port) {}).link) = true
  fits : ((splitFrom p.payload).role == 0
    || splitFits p.hearth (splitFrom p.payload).port (applySplit p.hearth p.sect (splitFrom p.payload) s)
      && demandFits (applySplit p.hearth p.sect (splitFrom p.payload) s) p.hearth
        (liveSources (hearthAt (applySplit p.hearth p.sect (splitFrom p.payload) s) p.hearth).cap)) = true

theorem splitConfig_taken {p : Packet} {s : State} (ok : SplitConfigOk p s) :
    splitConfig p s = .reply .ok [] (applySplit p.hearth p.sect (splitFrom p.payload) s) :=
  (check_passes ok.rule ..).trans <| (check_passes (beq_iff_eq.2 ok.ready) ..).trans <| (check_passes ok.fields ..).trans <|
    (check_passes ok.linked ..).trans <| check_passes ok.fits ..

/-- What PROBE_SCHEDULE asks of its window (spec/15 R484). -/
structure ProbeScheduleOk (p : Packet) (s : State) : Prop where
  fields : windowOk p.payload = true
  room : s.flu.windows.length < 4
  apart : ¬ s.flu.windows.any (windowsOverlap (windowFrom p.payload)) = true
  ahead : openTime s < (windowFrom p.payload).start

theorem probeSchedule_taken {p : Packet} {s : State} (ok : ProbeScheduleOk p s) :
    probeSchedule p s = .reply .ok [] (modFlu (fun y => { y with windows := y.windows ++ [windowFrom p.payload] }) s) :=
  (check_passes ok.fields ..).trans <|
    (check_passes (by simp only [decide_eq_true ok.room, Bool.eq_false_iff.2 ok.apart, Bool.not_false, Bool.and_self]) ..).trans <|
      check_passes (decide_eq_true ok.ahead) ..

/-- PROBE_READ is for a leader, which answers from what it has (spec/15 R485). -/
structure ProbeReadOk (p : Packet) (s : State) : Prop where
  low : zeroAt (wordAt p.payload 0) 10 6 = true
  middle : zeroAt (wordAt p.payload 0) 22 2 = true
  high : zeroAt (wordAt p.payload 0) 25 7 = true
  leads : 2 ≤ s.flu.acting

theorem probeRead_taken {p : Packet} {s : State} (ok : ProbeReadOk p s) :
    probeRead p s = if s.flu.acting = 3 then .reply .ok (copyWords s).1 (copyWords s).2
      else .reply .ok (probeWords s (fld (wordAt p.payload 0) 0 10) (fld (wordAt p.payload 0) 16 6) (bitOf (wordAt p.payload 0) 24)) s :=
  check_passes (by simp only [ok.low, ok.middle, ok.high, decide_eq_true ok.leads, Bool.and_self]) ..

/-- Settles O52: each command passes its checks and takes its effect. That the standby leader's reply to PROBE_READ holds free values
rests on log entry 51 (DESIGN CHOICE), which is the model's choice. -/
theorem flueCommandsComplete : Obligations.FlueCommandsComplete := by
  refine ⟨?port, ?group, ?query, ?ptp, ?split, ?schedule, ?copied, ?read, ?clear⟩
  case port =>
    intro p s0 s ha ws w h port old mode gone fields free
    exact congrArg Host.Outcome.next (ha.reply ((check_passes fields ..).trans (check_passes free ..)))
  case group =>
    intro p s0 s ha w expect fields version free
    exact congrArg Host.Outcome.next
      (ha.reply ((check_passes fields ..).trans ((check_passes version ..).trans (check_passes_not (Bool.eq_false_iff.1 free) ..))))
  case query =>
    intro p s0 s ha
    exact congrArg Host.Outcome.next (ha.reply rfl)
  case ptp =>
    intro p s0 s ha w old domain mode moved fields free
    exact congrArg Host.Outcome.next (ha.reply ((check_passes fields ..).trans (check_passes free ..)))
  case split =>
    intro p s0 s ha h i x rule ready fields linked t fits
    exact congrArg Host.Outcome.next (ha.reply (splitConfig_taken ⟨rule, ready, fields, linked, fits⟩))
  case schedule =>
    intro p s0 s ha x fields room apart ahead
    exact congrArg Host.Outcome.next (ha.reply (probeSchedule_taken ⟨fields, room, apart, ahead⟩))
  case copied =>
    intro p s0 s ha w low middle high leads c standby
    exact congrArg Host.Outcome.next (ha.reply ((probeRead_taken ⟨low, middle, high, leads⟩).trans (if_pos standby)))
  case read =>
    intro p s0 s ha w low middle high leads acting
    exact congrArg Host.Outcome.next (ha.reply ((probeRead_taken ⟨low, middle, high, leads⟩).trans (if_neg acting)))
  case clear =>
    intro h s here allowed
    exact congrArg Host.Outcome.next (if_pos (Bool.and_eq_true_iff.2 ⟨here, allowed⟩))

end Sys2Proof.Machine
end

section
/-! PROOFS. The events of the device group, of PTP and sample transport, and of probes and surveys (spec/15 R445 to R478, R486). -/

namespace Sys2Proof.Machine

/-! ### The group -/

/-- A beacon of another device on a GROUP port (spec/15 R446, R450). -/
theorem takeBeacon_other {b : Beacon} {s : State} (port : groupPort s b.port = true) (other : b.src ≠ (noteTwin b s).flu.deviceIndex) :
    takeBeacon b s = if !frameNew (noteTwin b s) b.src 1 b.seq then noteTwin b s
      else
        let u := noteTwin b s
        let t := rivalBeacon b (acceptFrame b.port b.src 1 b.seq u)
        let t := if isLeader u b then leaderBeacon b t else t
        if 2 ≤ u.flu.acting then memberBeacon b t else t := by
  unfold takeBeacon
  exact (if_neg (by simp [port])).trans (if_neg other)

theorem takeBeacon_own {b : Beacon} {s : State} (port : groupPort s b.port = true) (own : b.src = (noteTwin b s).flu.deviceIndex) :
    takeBeacon b s = if ownMac (noteTwin b s) b.mac then noteTwin b s else takeDup (noteTwin b s) := by
  unfold takeBeacon
  exact (if_neg (by simp [port])).trans (if_pos own)

/-- A new frame of another device acts as its leader's beacon, and on a device that leads (spec/15 R448 to R452). -/
theorem takeBeacon_new {b : Beacon} {s : State} (port : groupPort s b.port = true) (other : b.src ≠ (noteTwin b s).flu.deviceIndex)
    (new : frameNew (noteTwin b s) b.src 1 b.seq = true) :
    takeBeacon b s = (
      let u := noteTwin b s
      let t := rivalBeacon b (acceptFrame b.port b.src 1 b.seq u)
      let t := if isLeader u b then leaderBeacon b t else t
      if 2 ≤ u.flu.acting then memberBeacon b t else t) :=
  (takeBeacon_other port other).trans (if_neg (by simp [new]))

/-- A round whose END packet has replied ends (spec/15 R457). -/
theorem roundEndDue_replied {e : Nat × Nat} {s : State} (ends : s.flu.roundEnd = some e) (replied : s.flu.roundReplied = true) :
    roundEndDue s = (
      let bad := s.flu.roundBad
      let own := s.flu.acting == 2
      let again := some (s.tbu.tick + ticksPerSecond)
      let cold := own && !bad && !s.flu.ownCold
      let t := agreeChanged false (modFlu (fun x => { x with
        appliedDigest := if bad then x.appliedDigest else e.2, roundBad := false, roundEnd := none, roundReplied := false
        rounds := if !own then x.rounds else if bad then kset x.rounds x.deviceIndex { failed := true, retryAt := again }
          else kerase x.rounds x.deviceIndex, ownCold := x.ownCold || cold }) s)
      onlyIf cold (sendCold t.flu.deviceIndex) t) := by
  unfold roundEndDue
  simp only [ends, replied]
  rfl

theorem roundDue_due {member : Nat} {s : State} (leads : s.flu.acting = 2)
    (due : ((kget s.flu.rounds member).any fun r => r.retryAt.any fun t => decide (t ≤ s.tbu.tick)) = true) :
    roundDue member s = if mayCommand s member then sendRound member (modFlu (fun x => { x with rounds := kerase x.rounds member }) s)
      else modFlu (fun x => { x with rounds := kerase x.rounds member }) s := by
  unfold roundDue
  exact if_pos ⟨leads, due⟩

/-- A member's reply is accepted, and one to its running round counts for it (spec/15 R446, R457). -/
theorem takeReply_new {member seq : Nat} {a : ReplyIn} {s : State} (leads : s.flu.acting = 2) (port : groupPort s a.port = true)
    (new : frameNew s member 3 seq = true) :
    takeReply member seq a s =
      match (kget s.flu.rounds member).filter (inRound · a.cmd) with
      | none => acceptFrame a.port member 3 seq s
      | some r =>
        let n := r.left - 1
        let fails := a.status != 0
        let r2 : PlanRound := { r with
          left := n, failed := r.failed || fails, retryAt := if fails then some (s.tbu.tick + ticksPerSecond) else r.retryAt }
        modFlu (fun x => { x with rounds := if n = 0 ∧ r2.failed = false then kerase x.rounds member else kset x.rounds member r2 })
          (acceptFrame a.port member 3 seq s) := by
  unfold takeReply
  exact (if_pos ⟨leads, port, new⟩).trans (by cases (kget s.flu.rounds member).filter (inRound · a.cmd) <;> rfl)

/-- Settles O53. That a reply counts by its CMD_SEQ, and that the acting leader's own sections take COLD_CEIL at the end of its round,
rest on log entries 149 and 55, which are the model's choices. -/
theorem groupEvents : Obligations.GroupEvents := by
  refine ⟨?beacon, ?own, ?old, ?leads, ?follows, ?roundEnd, ?resent, ?withheld, ?reply, ?outside, ?counted, ?discard, ?takeOver, ?digest, ?link⟩
  case beacon => exact fun b s port => congrArg Host.Outcome.next (if_pos port)
  case own => exact fun b s port own => takeBeacon_own port own
  case old => exact fun b s port other old => (takeBeacon_other port other).trans (if_pos (by simpa using old))
  case leads => exact fun b s port other new leads => (takeBeacon_new port other new).trans (if_pos leads)
  case follows => exact fun b s port other new follows => (takeBeacon_new port other new).trans (if_neg (Nat.not_le.2 follows))
  case roundEnd => exact fun s e ends replied => congrArg Host.Outcome.next (roundEndDue_replied ends replied)
  case resent => exact fun member s leads is may => congrArg Host.Outcome.next ((roundDue_due leads is).trans (if_pos may))
  case withheld =>
    exact fun member s leads is may => congrArg Host.Outcome.next ((roundDue_due leads is).trans (if_neg (Bool.eq_false_iff.1 may)))
  case reply => exact fun _ _ _ _ => rfl
  case outside =>
    intro member seq a s leads port new t none
    refine (takeReply_new leads port new).trans ?_
    rw [none]
  case counted =>
    intro member seq a s leads port new t r round
    refine (takeReply_new leads port new).trans ?_
    rw [round]
  case discard => exact fun port frame s known bad => congrArg Host.Outcome.next (if_pos ⟨known, bad⟩)
  case takeOver => exact fun s standby missed => congrArg Host.Outcome.next (if_pos ⟨standby, missed⟩)
  case digest =>
    intro s x follows disagrees waits since
    exact congrArg Host.Outcome.next (if_pos (by simp only [x, disagrees, waits, follows, decide_eq_true since, Bool.not_false, Bool.and_self]))
  case link =>
    intro h port up s p here known served changes
    exact congrArg Host.Outcome.next
      (if_pos (by simp only [here, decide_eq_true known, bne_iff_ne.2 served, bne_iff_ne.2 changes, Bool.and_self, p]))

/-! ### PTP and sample transport -/

/-- A split section that has been fed no sample for a while has lost its transport (spec/15 R471). -/
theorem transportLost_passes {h i : Nat} {s : State} (here : present s h = true) (split : (secAt s h i).split.role ≠ 0)
    (fed : (secAt s h i).split.lost = false) (warm : (secAt s h i).state ≠ .cold) (starved : 480 ≤ (secAt s h i).split.starved) :
    (present s h && (secAt s h i).split.role != 0 && !(secAt s h i).split.lost && (secAt s h i).state != .cold
      && decide (480 ≤ (secAt s h i).split.starved)) = true := by
  simp [here, split, fed, warm, starved]

theorem execTransportRestored_fed {h i : Nat} {s : State} (here : present s h = true) (split : (secAt s h i).split.role ≠ 0)
    (lost : (secAt s h i).split.lost = true) (fed : 4800 ≤ (secAt s h i).split.fed) :
    execTransportRestored h i s = .next (
      let t := modSplit h i (fun y => { y with lost := false, stoppedByLoss := false }) s
      let t := emit h 0x0A16 [globalOf h i, splitDir (secAt s h i).split, 0] t
      if (secAt s h i).state = .ready ∧ (secAt s h i).split.stoppedByLoss = true then
        runCommand infoSectionStart sectionStart (servicePacket h i) t
      else t) :=
  congrArg Host.Outcome.next (if_pos (by simp [here, split, lost, fed]))

/-- Settles O54. That the port's state, which the best master clock algorithm gives, comes with the message rests on log entry 124
(PRESUMED), and what a transport frame counts as late or missing on log entry 123 (DESIGN CHOICE): both are the model's choices. -/
theorem ptpAndTransportEvents : Obligations.PtpAndTransportEvents := by
  refine ⟨?sync, ?synced, ?message, ?messaged, ?late, ?holdover, ?send, ?receive, ?lost, ?restarted, ?restored⟩
  case sync => exact fun _ _ => rfl
  case synced =>
    intro x s port domain mode slave
    exact if_pos (by simp only [port, beq_iff_eq.2 domain, mode, slave, Bool.and_self])
  case message => exact fun _ _ => rfl
  case messaged =>
    intro m s port domain on
    exact if_pos (by simp only [port, beq_iff_eq.2 domain, bne_iff_ne.2 on, Bool.and_self])
  case late => exact fun s locked is => congrArg Host.Outcome.next (if_pos ⟨locked, is⟩)
  case holdover => exact fun s holds expired => congrArg Host.Outcome.next (if_pos ⟨holds, expired⟩)
  case send =>
    intro h i s x n here split full
    exact congrArg Host.Outcome.next (if_pos (by simp only [here, bne_iff_ne.2 split, decide_eq_true full, Bool.and_self, x, n]))
  case receive =>
    intro h i f s x w here split transports section_ dir
    exact congrArg Host.Outcome.next
      (if_pos (by simp only [here, bne_iff_ne.2 split, transports, beq_iff_eq.2 section_, beq_iff_eq.2 dir, Bool.and_self, x, w]))
  case lost => exact fun h i s here split fed warm starved => congrArg Host.Outcome.next (if_pos (transportLost_passes here split fed warm starved))
  case restarted =>
    exact fun h i s here split lost fed ready stopped =>
      (execTransportRestored_fed here split lost fed).trans (congrArg Host.Outcome.next (if_pos ⟨ready, stopped⟩))
  case restored =>
    exact fun h i s here split lost fed other =>
      (execTransportRestored_fed here split lost fed).trans (congrArg Host.Outcome.next (if_neg other))

/-! ### Probes and surveys -/

/-- A window whose START has come opens (spec/15 R473). -/
theorem windowStartDue_due {n : Nat} {w : ProbeWindow} {s : State} (listed : s.flu.windows[n]? = some w) (closed : w.running = false)
    (due : w.start < nextTime s) :
    windowStartDue n s = (
      let me := decide (w.first ≤ s.flu.deviceIndex ∧ s.flu.deviceIndex < w.first + w.count) && s.flu.acting != 0
      let t := modWindow n (openWindow s (if me then probingSections s else [])) s
      if s.flu.acting = 2 then modFlu (fun x => { x with report := [], reported := [], reportStart := w.start, reportDir := w.dir }) t else t) := by
  unfold windowStartDue
  simp only [listed]
  exact if_neg (not_or_intro (Bool.eq_false_iff.1 closed) (Nat.not_le.2 due))

/-- What a device reports of a window: what it heard, and what it sent (spec/15 R475, R476). -/
def windowItems (s : State) (w : ProbeWindow) : List ProbeItem :=
  heardEntries s w ++ w.sending.map fun g =>
    { sect := g, sent := true, level := if w.stayed.contains g then kgetD w.dbm g logMin else logMin }

/-- A window that has ended is reported by what the device acts as (spec/15 R476, R478). -/
theorem windowEndDue_ended {n start : Nat} {w : ProbeWindow} {s : State} (listed : s.flu.windows[n]? = some w) (runs : w.running = true)
    (named : w.start = start) (ended : w.start + milliTime w.duration ≤ openTime s) :
    windowEndDue n start s = (
      let t := modFlu (fun x => { x with windows := x.windows.eraseIdx n }) s
      if s.flu.acting = 2 then
        let own : List ProbeEntry := (windowItems s w).map fun e =>
          { device := s.flu.deviceIndex, section_ := e.sect, sent := e.sent, index := e.index, level := e.level }
        let t := modFlu (fun x => { x with
          report := x.report ++ own, reported := x.reported ++ [x.deviceIndex], surveyWin := if x.surveyRun then x.surveyWin + 1 else x.surveyWin }) t
        takeReports (scheduleNext t)
      else if s.flu.acting = 0 then t
      else sendFrame 5 s.flu.leader false (reportWords w.start (windowItems s w)) t) := by
  unfold windowEndDue
  simp only [listed]
  exact if_neg (not_or_intro (by simp [runs]) (not_or_intro (not_not_intro named) (Nat.not_lt.2 ended)))

theorem execProbeReportReceive_new {r : ProbeReport} {s : State} (port : groupPort s r.port = true) (leads : s.flu.acting = 2)
    (new : frameNew s r.src 5 r.seq = true) :
    execProbeReportReceive r s = .next (
      let t := acceptFrame r.port r.src 5 r.seq s
      if r.start = s.flu.reportStart then
        let es : List ProbeEntry := r.items.map fun e =>
          { device := r.src, section_ := e.sect, sent := e.sent, index := e.index, level := e.level }
        takeReports (modFlu (fun x => { x with report := x.report ++ es, reported := x.reported ++ [r.src] }) t)
      else t) :=
  congrArg Host.Outcome.next (if_pos (by simp only [port, beq_iff_eq.2 leads, new, Bool.and_self]))

theorem execCouplingExpiry_old {n : Nat} {c : Coupling} {s : State} (listed : s.flu.couplings[n]? = some c) (old : couplingOld s c = true) :
    execCouplingExpiry n s = .next (modFlu (fun x => { x with couplings := x.couplings.eraseIdx n }) s) := by
  unfold execCouplingExpiry
  simp only [listed, old, if_true]

/-- Settles O55. That a report counts while its window is the last one, and which windows a survey round has, rest on log entry 54
(DEDUCED), which is the model's choice. -/
theorem probeEvents : Obligations.ProbeEvents := by
  refine ⟨?opensLeading, ?opens, ?endsLeading, ?endsAlone, ?reports, ?paired, ?unpaired, ?expires, ?survey⟩
  case opensLeading =>
    intro n s w listed closed due me gs t leads
    exact congrArg Host.Outcome.next ((windowStartDue_due listed closed due).trans (if_pos leads))
  case opens =>
    intro n s w listed closed due me gs t follows
    exact congrArg Host.Outcome.next ((windowStartDue_due listed closed due).trans (if_neg follows))
  case endsLeading =>
    intro n start s w listed runs named ended sent items t leads
    exact congrArg Host.Outcome.next ((windowEndDue_ended listed runs named ended).trans (if_pos leads))
  case endsAlone =>
    intro n start s w listed runs named ended t follows alone
    exact congrArg Host.Outcome.next ((windowEndDue_ended listed runs named ended).trans ((if_neg follows).trans (if_pos alone)))
  case reports =>
    intro n start s w listed runs named ended sent items t follows member
    exact congrArg Host.Outcome.next ((windowEndDue_ended listed runs named ended).trans ((if_neg follows).trans (if_neg member)))
  case paired =>
    intro r s port leads new t last
    exact (execProbeReportReceive_new port leads new).trans (congrArg Host.Outcome.next (if_pos last))
  case unpaired =>
    intro r s port leads new t other
    exact (execProbeReportReceive_new port leads new).trans (congrArg Host.Outcome.next (if_neg other))
  case expires => exact fun n s c listed old => execCouplingExpiry_old listed old
  case survey => exact fun s leads period due => congrArg Host.Outcome.next (if_pos ⟨leads, period, due⟩)

end Sys2Proof.Machine
end

section
/-! PROOFS. Memory, the draught fabric and the errors that a block detects (spec/16 R493, R500 to R507; spec/01 R30). -/

namespace Sys2Proof.Machine

theorem execPageCrcMismatch_read {h region page : Nat} {s : State} (here : present s h = true) (kept : (region == 0 || region == 4) = true) :
    execPageCrcMismatch h region page s = .next (
      let t := raiseSource h 36 (emit h 0x0133 ([h, region] ++ bytesOf 4 page) s)
      if region = 4 then { t with flu := { t.flu with couplings := [] } } else t) :=
  congrArg Host.Outcome.next (if_pos (Bool.and_eq_true_iff.2 ⟨here, kept⟩))

/-- Sources that hearth 0 alone has. -/
def packageSource (source : Nat) : Bool :=
  decide (source ≤ 3) || source == 8 || source == 9 || decide (480 ≤ source ∧ source ≤ 495) || decide (504 ≤ source)

/-- A source that a block of the hearth can raise, and that no row of its own raises (spec/17 R508). -/
structure SourceOk (h source : Nat) (s : State) : Prop where
  hearth : present s h = true
  known : source < 512
  used : assigned source = true
  shared : ownRow source = false
  placed : ¬ (packageSource source && h != 0) = true

theorem SourceOk.taken {h source : Nat} {s : State} (ok : SourceOk h source s) :
    ¬ (!present s h || decide (512 ≤ source) || !assigned source || ownRow source || (packageSource source && h != 0)) = true := by
  simp [ok.hearth, ok.known, ok.used, ok.shared, Bool.eq_false_iff.2 ok.placed]

/-- A detected error takes the device's action; a broken sensor, and the slot that it loses, are raised with it. -/
theorem execErrorDetected_taken {h source data : Nat} {s : State} (ok : SourceOk h source s) :
    execErrorDetected h source data s = .next (
      let t := deviceAction h source data s
      if 448 ≤ source ∧ source ≤ 463 ∨ 320 ≤ source ∧ source ≤ 383 ∧ (loopAt s h (source - 320)).state = 1 then t
      else raiseSource h source t) :=
  congrArg Host.Outcome.next (if_neg ok.taken)

/-- Settles O56. That a write between a scrub's read and its write-back has no effect of its own rests on log entry 84, which is the model's
choice. -/
theorem memoryAndErrorRows : Obligations.MemoryAndErrorRows := by
  refine ⟨?corrected, ?uncorrectable, ?scrub, ?table, ?page, ?retry, ?fail, ?counts, ?marks, ?acted, ?raised⟩
  case corrected => exact fun h sub rank line s ok => congrArg Host.Outcome.next (if_pos ok)
  case uncorrectable =>
    exact fun h region r s ok at_ bad => congrArg Host.Outcome.next (if_pos (by simp only [ok, at_, bad, beq_self_eq_true, Bool.and_self]))
  case scrub => exact fun h sub rank line _ s ok => congrArg Host.Outcome.next (if_pos ok)
  case table =>
    exact fun h region page s here kept group => (execPageCrcMismatch_read here kept).trans (congrArg Host.Outcome.next (if_pos group))
  case page =>
    exact fun h region page s here kept other => (execPageCrcMismatch_read here kept).trans (congrArg Host.Outcome.next (if_neg other))
  case retry => exact fun h link again s here known => congrArg Host.Outcome.next (if_pos (by simp [here, known]))
  case fail => exact fun h link s here run => congrArg Host.Outcome.next (if_pos (Bool.and_eq_true_iff.2 ⟨here, decide_eq_true run⟩))
  case counts => exact fun h s up here => congrArg Host.Outcome.next (if_pos (by simp [here, up]))
  case marks => exact fun m h s priv up here => congrArg Host.Outcome.next (if_pos (by simp [priv, up, here]))
  case acted =>
    intro h source data s package here known assigned shared placed t broken
    exact (execErrorDetected_taken ⟨here, known, assigned, shared, placed⟩).trans (congrArg Host.Outcome.next (if_pos broken))
  case raised =>
    intro h source data s package here known assigned shared placed t sensor slot
    exact (execErrorDetected_taken ⟨here, known, assigned, shared, placed⟩).trans
      (congrArg Host.Outcome.next (if_neg (not_or_intro sensor slot)))

end Sys2Proof.Machine
end

section
/-! PROOFS. The fault collector: its commands, captures, rail faults, sequences, block resets, injection and clears (spec/17 R510 to R515,
R521, R524 to R526, R531). -/

namespace Sys2Proof.Machine

/-- What FCOL_SOURCE_CONFIG asks of its range and its values (spec/17 R514, R524). -/
structure SourceConfigOk (a b : Word) (values : Bool) : Prop where
  reserved : zeroAt a 9 7 = true ∧ zeroAt a 25 7 = true
  unused : zeroAt b 2 2 = true ∧ zeroAt b 9 7 = true ∧ zeroAt b 17 15 = true
  range : fld a 0 9 ≤ fld a 16 9
  values : values = true

theorem SourceConfigOk.passes {a b : Word} {values : Bool} (ok : SourceConfigOk a b values) :
    (zeroAt a 9 7 && zeroAt a 25 7 && zeroAt b 2 2 && zeroAt b 9 7 && zeroAt b 17 15 && decide (fld a 0 9 ≤ fld a 16 9) && values) = true := by
  obtain ⟨⟨low, high⟩, ⟨first, second, third⟩, range, values⟩ := ok
  simp only [low, high, first, second, third, decide_eq_true range, values, Bool.and_self]

/-- What FCOL_INJECT asks of its fields and of the collector (spec/17 R521). -/
structure InjectOk (p : Packet) (f : Fcol) : Prop where
  mode : fld (wordAt p.payload 0) 12 2 ≠ 3
  low : zeroAt (wordAt p.payload 0) 9 3 = true
  high : zeroAt (wordAt p.payload 0) 14 18 = true
  idle : f.injPending = false
  healthy : (kget f.rails (fld (wordAt p.payload 0) 0 9)).isNone = true

theorem fcolInject_taken {p : Packet} {s : State} (ok : InjectOk p (hearthAt s p.hearth).fcol) :
    fcolInject p s = .reply .ok [] (modFcol p.hearth (fun x => { x with
      injSource := fld (wordAt p.payload 0) 0 9, injMode := fld (wordAt p.payload 0) 12 2, injPending := true
      injFrom := s.tbu.clock + s.tbu.tickLen, injCaptured := false, injCoincident := false }) s) :=
  (check_passes (by simp only [bne_iff_ne.2 ok.mode, ok.low, ok.high, Bool.and_self]) ..).trans <|
    check_passes (by simp only [ok.idle, ok.healthy, Bool.not_false, Bool.and_self]) ..

/-- A capture waits while a sequence runs (spec/17 R510, R515). -/
theorem execFcolCapture_taken {h clk : Nat} {s : State} (here : present s h = true) (now : inTick s clk = true) :
    execFcolCapture h clk s = .next (
      let t := takeLostFatal h clk s
      if (hearthAt t h).fcol.seqActive then t else startSequence h clk ((catchesOf (hearthAt t h).fcol).map (·.2)) t) :=
  congrArg Host.Outcome.next (if_pos (Bool.and_eq_true_iff.2 ⟨here, now⟩))

/-- A source whose rails become equal (spec/17 R511). -/
structure RailOk (h source clk : Nat) (s : State) : Prop where
  hearth : present s h = true
  known : source < 512
  now : inTick s clk = true
  apart : (kget (hearthAt s h).fcol.rails source).isNone = true

theorem execRailFault_taken {h source clk data : Nat} {s : State} (ok : RailOk h source clk s) :
    execRailFault h source clk data s = .next (
      let t := modFcol h (fun x => { x with
        rails := kset x.rails source (data % 2 ^ 32), seen := x.seen.erase source
        err := if x.hold.contains source then x.err else kerase x.err source }) s
      if (hearthAt t h).fcol.seqActive then t else startSequence h clk ((catchesOf (hearthAt t h).fcol).map (·.2)) t) :=
  congrArg Host.Outcome.next (if_pos (by simp only [ok.hearth, decide_eq_true ok.known, ok.now, ok.apart, Bool.and_self]))

/-- A sequence that has run ends with a reset of the chip, or with the next sequence (spec/17 R512, R515). -/
theorem execFcolSequenceEnd_ended {h : Nat} {s : State} (here : present s h = true) (runs : (hearthAt s h).fcol.seqActive = true)
    (ended : (hearthAt s h).fcol.seqEnd < s.tbu.clock + s.tbu.tickLen) :
    execFcolSequenceEnd h s = .next (
      let clk := (hearthAt s h).fcol.seqEnd
      let t := takeLostFatal h clk s
      let chip := (hearthAt t h).fcol.chipDue && t.pkg != .doused && t.pkg != .kindling
      let t := modFcol h (fun x => { x with seqActive := false, chipDue := false }) t
      if chip then { t with warmDue := true }
      else startSequence h clk ((catchesOf (hearthAt t h).fcol).map (·.2)) t) :=
  congrArg Host.Outcome.next (if_pos (by simp only [here, runs, decide_eq_true ended, Bool.and_self]))

/-- Settles O57: a command passes its checks and takes its effect; a capture, a rail fault and the end of a sequence go by whether one
runs and whether it resets the chip. -/
theorem faultCollectorRows : Obligations.FaultCollectorRows := by
  refine ⟨?config, ?inject, ?query, ?capturing, ?captured, ?railLater, ?rail, ?railEnd, ?chip, ?next, ?release, ?apply, ?pulse, ?pend, ?alert,
    ?lost, ?first, ?counts⟩
  case config =>
    intro p s0 s ha a b dflt ns cls react a9 a25 b2 b9 b17 range values
    exact congrArg Host.Outcome.next (ha.reply (check_passes (SourceConfigOk.passes ⟨⟨a9, a25⟩, ⟨b2, b9, b17⟩, range, values⟩) ..))
  case inject =>
    intro p s0 s ha w f mode low high idle healthy
    exact congrArg Host.Outcome.next (ha.reply (fcolInject_taken ⟨mode, low, high, idle, healthy⟩))
  case query => exact fun p s0 s ha => congrArg Host.Outcome.next (ha.reply rfl)
  case capturing => exact fun h clk s here now runs => (execFcolCapture_taken here now).trans (congrArg Host.Outcome.next (if_pos runs))
  case captured =>
    exact fun h clk s here now idle => (execFcolCapture_taken here now).trans (congrArg Host.Outcome.next (if_neg (Bool.eq_false_iff.1 idle)))
  case railLater =>
    exact fun h source clk data s here known now apart runs =>
      (execRailFault_taken ⟨here, known, now, apart⟩).trans (congrArg Host.Outcome.next (if_pos runs))
  case rail =>
    exact fun h source clk data s here known now apart idle =>
      (execRailFault_taken ⟨here, known, now, apart⟩).trans (congrArg Host.Outcome.next (if_neg (Bool.eq_false_iff.1 idle)))
  case railEnd => exact fun h source error s here equal => congrArg Host.Outcome.next (if_pos (Bool.and_eq_true_iff.2 ⟨here, equal⟩))
  case chip =>
    exact fun h s here runs ended chip => (execFcolSequenceEnd_ended here runs ended).trans (congrArg Host.Outcome.next (if_pos chip))
  case next =>
    exact fun h s here runs ended chip =>
      (execFcolSequenceEnd_ended here runs ended).trans (congrArg Host.Outcome.next (if_neg (Bool.eq_false_iff.1 chip)))
  case release => exact fun h s here => congrArg Host.Outcome.next (if_pos here)
  case apply =>
    intro h clk data s f here pending idle now due
    exact congrArg Host.Outcome.next
      (if_pos (by simp only [here, idle, now, beq_iff_eq.2 due, show f.injPending = true from pending, Bool.not_false, Bool.and_self, f]))
  case pulse => exact fun s ended => congrArg Host.Outcome.next (if_pos ended)
  case pend => exact fun h k mask s here known allowed => congrArg Host.Outcome.next (if_pos (by simp [here, known, allowed]))
  case alert => exact fun h s here allowed => congrArg Host.Outcome.next (if_pos (Bool.and_eq_true_iff.2 ⟨here, allowed⟩))
  case lost => exact fun h s here allowed => congrArg Host.Outcome.next (if_pos (Bool.and_eq_true_iff.2 ⟨here, allowed⟩))
  case first => exact fun m h s here allowed priv => congrArg Host.Outcome.next (if_pos (by simp [here, allowed, priv]))
  case counts => exact fun h s here allowed => congrArg Host.Outcome.next (if_pos (Bool.and_eq_true_iff.2 ⟨here, allowed⟩))

end Sys2Proof.Machine
end

section
/-! PROOFS. The Ash Log: its commands, admission, embers and clears (spec/16 R491; spec/18 R538, R542 to R549). -/

namespace Sys2Proof.Machine

/-! ### The LOG queue -/

theorem raiseSys_hearths (mask : Nat) (s : State) : (raiseSys mask s).hearths = s.hearths := by
  obtain ⟨x, y, parts⟩ := raiseSys_parts mask s
  rw [parts]

/-- A trigger that an event arms leaves every LOG queue alone. -/
theorem eventTrigger_logQ (code h : Nat) (s : State) : (hearthAt (eventTrigger code s) h).dfb.logQ = (hearthAt s h).dfb.logQ := by
  simp only [hearthAt, eventTrigger, List.getD_eq_getElem?_getD, List.getElem?_map]
  cases s.hearths[h]? with
  | none => rfl
  | some x =>
    simp only [Option.map_some, Option.getD_some]
    split <;> rfl

/-- An event that finds room is the newest entry of its hearth's LOG queue (spec/16 R491). -/
theorem emit_logQ {h code : Nat} {data : List Nat} {s : State} (here : h < s.hearths.length) (room : (hearthAt s h).dfb.logQ.length < 1024) :
    (hearthAt (emit h code data s) h).dfb.logQ =
      (hearthAt s h).dfb.logQ ++ [{ time := openTime s, code := code, hearth := h, source := 511, data := data }] := by
  have queue : (hearthAt (eventTrigger code (raiseSys (sysCauses code) s)) h).dfb.logQ = (hearthAt s h).dfb.logQ :=
    (eventTrigger_logQ ..).trans (by simp only [hearthAt, raiseSys_hearths])
  have present : h < (eventTrigger code (raiseSys (sysCauses code) s)).hearths.length := by
    simpa [eventTrigger, raiseSys_hearths] using here
  unfold emit emitFrom queueEntry
  dsimp only
  rw [if_neg (by rw [queue]; omega), hearthAt_modHearth_self present]
  simp only [queue]

/-! ### The bytes of payload words -/

theorem wordBytes_cons (w : Word) (ws : List Word) :
    wordBytes (w :: ws) = (List.range 4).map (fun k => BitVec.ofNat 8 (w.toNat >>> (8 * k))) ++ wordBytes ws := rfl

/-- Byte `k` of the words, low byte first; past the words there is none. -/
theorem wordBytes_getD (ws : List Word) (k : Nat) :
    ((wordBytes ws).map BitVec.toNat).getD k 0 = if k / 4 < ws.length then (wordAt ws (k / 4)).toNat / 2 ^ (8 * (k % 4)) % 256 else 0 := by
  induction ws generalizing k with
  | nil => rfl
  | cons w ws ih =>
    rw [wordBytes_cons, List.map_append, List.map_map]
    by_cases first : k < 4
    · rw [List.getD_eq_getElem?_getD, List.getElem?_append_left (by simpa using first)]
      have byte : k / 4 = 0 ∧ k % 4 = k := by omega
      simp [byte, first, wordAt, Nat.shiftRight_eq_div_pow]
    · rw [List.getD_eq_getElem?_getD, List.getElem?_append_right (by simpa using first), ← List.getD_eq_getElem?_getD]
      have next : k / 4 = (k - 4) / 4 + 1 ∧ (k - 4) % 4 = k % 4 := by omega
      simpa [next, wordAt] using ih (k - 4)

/-- Settles O19: with room in hearth 0's LOG queue the event that ALOG_MARK writes is its newest entry; that the entry stands in this
queue rests on log entry 11 (DEDUCED), which is the model's choice. -/
theorem markEventCarriesItsWords : Obligations.MarkEventCarriesItsWords := by
  intro p s t ha here room
  exact ⟨_, _, congrArg Host.Outcome.next (ha.reply rfl), emit_logQ here room, rfl, fun k _ => wordBytes_getD p.payload k⟩

/-! ### The log's commands -/

/-- EMBERS_READ asks for entries of a loaded set (spec/18 R546). -/
structure EmbersReadOk (p : Packet) (s : State) : Prop where
  fields : logReadOk (wordAt p.payload 0) = true
  index : fld (wordAt p.payload 0) 0 14 < 1024
  valid : s.alog.emberValid = true
  within : fld (wordAt p.payload 0) 0 14 < s.alog.loadedSet.entries.length

theorem embersRead_taken {p : Packet} {s : State} (ok : EmbersReadOk p s) :
    embersRead p s =
      let es := (s.alog.loadedSet.entries.drop (fld (wordAt p.payload 0) 0 14)).take (fld (wordAt p.payload 0) 16 8)
      .reply .ok ([BitVec.ofNat 32 (s.alog.loadedSet.firstSeq + fld (wordAt p.payload 0) 0 14)]
        ++ es.flatMap fun e => entryWords { e with ember := true }) s :=
  (check_passes (Bool.and_eq_true_iff.2 ⟨ok.fields, decide_eq_true ok.index⟩) ..).trans <|
    (check_passes ok.valid ..).trans <| check_passes (decide_eq_true ok.within) ..

/-- What ALOG_RATE_CONFIG asks of its values (spec/18 R547). -/
structure RateOk (code burst refill : Nat) (w0 w1 : Word) (s : State) : Prop where
  known : (bucketOf s code).isSome = true
  low : zeroAt w0 25 7 = true
  high : zeroAt w1 16 16 = true
  burst : burst ≠ 0
  refill : refill ≠ 0

theorem RateOk.passes {code burst refill : Nat} {w0 w1 : Word} {s : State} (ok : RateOk code burst refill w0 w1 s) :
    ((bucketOf s code).isSome && zeroAt w0 25 7 && zeroAt w1 16 16 && burst != 0 && refill != 0) = true := by
  simp only [ok.known, ok.low, ok.high, bne_iff_ne.2 ok.burst, bne_iff_ne.2 ok.refill, Bool.and_self]

theorem alogRateConfig_of {p : Packet} {d : Nat × Nat} {s : State} (listed : codeDefaults (fld (wordAt p.payload 0) 0 16) = some d) :
    alogRateConfig p s =
      let w0 := wordAt p.payload 0
      let w1 := wordAt p.payload 1
      let code := fld w0 0 16
      let burst := if bitOf w0 24 then d.1 else fld w0 16 8
      let refill := if bitOf w0 24 then d.2 else fld w1 0 16
      check ((bucketOf s code).isSome && zeroAt w0 25 7 && zeroAt w1 16 16 && burst != 0 && refill != 0) .badParam s
        (.reply .ok [] (emit 0 0x0C44 (bytesOf 2 code ++ [burst] ++ bytesOf 2 refill)
          (modAlog (fun a => { a with rateNext := a.rateNext ++ [(code, burst, refill)] }) s))) := by
  unfold alogRateConfig
  simp only [listed]

/-! ### Admission and embers -/

theorem execLogEntryArrival_of {h : Nat} {e : LogEntry} {rest : List LogEntry} {s : State} (waits : (hearthAt s h).dfb.logQ = e :: rest) :
    execLogEntryArrival h s =
      .next (acceptEvent e (acceptOverflow h (modHearth h (fun x => { x with dfb := { x.dfb with logQ := rest } }) s))) := by
  unfold execLogEntryArrival
  simp only [waits]

theorem execBucketRefill_of {code : Nat} {b : Bucket} {s : State} (listed : kget s.alog.buckets code = some b) (gains : refillBucket b ≠ b) :
    execBucketRefill code s = .next (setBucket code (refillBucket b) s) := by
  unfold execBucketRefill
  simp only [listed, gains, if_false]

theorem execEmberWriteDone_writing {ok : Bool} {s : State} (writes : s.alog.emberWriting = true) :
    execEmberWriteDone ok s = .next (if (emberWritten ok s).thmPkg.stop = 2 then powerDownRf (emberWritten ok s) else emberWritten ok s) :=
  congrArg Host.Outcome.next (if_neg (by simp [writes]))

/-- Settles O58: a command passes its checks and takes its effect; each event finds what it waits for. -/
theorem ashLogRows : Obligations.AshLogRows := by
  refine ⟨?read, ?embers, ?rate, ?mark, ?arrival, ?drop, ?refill, ?warning, ?now, ?stopped, ?written, ?erased, ?eraseFailed, ?counts⟩
  case read =>
    intro p s0 s ha w index n newest fields holds
    exact congrArg Host.Outcome.next (ha.reply (check_passes (Bool.and_eq_true_iff.2 ⟨fields, holds⟩) ..))
  case embers =>
    intro p s0 s ha w index set fields below valid within
    exact congrArg Host.Outcome.next (ha.reply (embersRead_taken ⟨fields, below, valid, within⟩))
  case rate =>
    intro p s0 s ha w0 w1 code dflt d listed burst refill known low high some_ refills
    have ok := RateOk.passes ⟨known, low, high, some_, refills⟩
    exact congrArg Host.Outcome.next (ha.reply ((alogRateConfig_of listed).trans (check_passes ok ..)))
  case mark => exact fun p s0 s ha => congrArg Host.Outcome.next (ha.reply rfl)
  case arrival => exact fun h s e rest waits => execLogEntryArrival_of waits
  case drop => exact fun h e s full => congrArg Host.Outcome.next (if_pos full)
  case refill => exact fun code s b listed gains => execBucketRefill_of listed gains
  case warning =>
    exact fun s uses low =>
      congrArg Host.Outcome.next (if_pos (by simp only [uses, Bool.eq_false_iff.2 low, Bool.not_false, Bool.and_self]))
  case now => exact fun m s priv up => congrArg Host.Outcome.next (if_pos (by simp [priv, up]))
  case stopped => exact fun ok s writes stop => (execEmberWriteDone_writing writes).trans (congrArg Host.Outcome.next (if_pos stop))
  case written => exact fun ok s writes other => (execEmberWriteDone_writing writes).trans (congrArg Host.Outcome.next (if_neg other))
  case erased => exact fun ok s erases good => congrArg Host.Outcome.next ((if_neg (by simp [erases])).trans (if_pos good))
  case eraseFailed => exact fun ok s erases bad => congrArg Host.Outcome.next ((if_neg (by simp [erases])).trans (if_neg (Bool.eq_false_iff.1 bad)))
  case counts => exact fun s up => congrArg Host.Outcome.next (if_pos (bne_iff_ne.2 up))

end Sys2Proof.Machine
end

section
/-! PROOFS. Thermal management: its commands, conversions, shedding, trips and RESUME_OK (spec/19 R553, R559, R561 to R565). -/

namespace Sys2Proof.Machine

theorem shedDue_shed {h p : Nat} {s : State} (here : present s h = true)
    (full : (hearthAt s h).thm.cfg.shedTime * 480 ≤ (hearthAt s h).thm.fullRun) (lowest : lowestUnshed s h = some p) :
    shedDue h s = shedLevel true h p s := by
  unfold shedDue
  dsimp only
  rw [if_neg (by simp [here]), if_pos full, lowest]

theorem shedDue_restored {h : Nat} {s : State} (here : present s h = true)
    (short : (hearthAt s h).thm.fullRun < (hearthAt s h).thm.cfg.shedTime * 480) (sheds : (hearthAt s h).thm.shed.isEmpty = false)
    (cool : (hearthAt s h).thm.cfg.shedTime * 480 ≤ (hearthAt s h).thm.coolRun) :
    shedDue h s = shedLevel false h ((hearthAt s h).thm.shed.foldl max 0) s := by
  unfold shedDue
  dsimp only
  rw [if_neg (by simp [here]), if_neg (Nat.not_le.2 short),
    if_pos (by simp only [sheds, decide_eq_true cool, Bool.not_false, Bool.and_self])]

/-- RESUME_OK comes after its time, and releases the hold where the record says so (spec/19 R561). -/
theorem resumeDue_due {s : State} (low : s.thmPkg.resumeOk = false) (long : 480000 ≤ s.thmPkg.resumeTicks) (up : s.pkg ≠ .doused) :
    resumeDue s = (
      let t := modThmPkg (fun x => { x with resumeOk := true }) s
      if bitOf (recordWord s 6) 1 && s.holds.thermal then thermalRelease 0 t else t) :=
  if_pos (by simp only [low, decide_eq_true long, bne_iff_ne.2 up, Bool.not_false, Bool.and_self])

/-- Settles O59: a command passes its checks and takes its effect; each event finds what it waits for. -/
theorem thermalRows : Obligations.ThermalRows := by
  refine ⟨?config, ?resume, ?query, ?conversion, ?shed, ?restored, ?trip, ?released, ?resumable, ?counts⟩
  case config => exact fun p s0 s ha fields => congrArg Host.Outcome.next (ha.reply (check_passes fields ..))
  case resume =>
    exact fun p s0 s ha held may => congrArg Host.Outcome.next (ha.reply (check_passes (Bool.and_eq_true_iff.2 ⟨held, may⟩) ..))
  case query => exact fun p s0 s ha => congrArg Host.Outcome.next (ha.reply rfl)
  case conversion =>
    exact fun h temps s here turn up =>
      congrArg Host.Outcome.next (if_pos (by simp only [here, beq_iff_eq.2 turn, bne_iff_ne.2 up, Bool.and_self]))
  case shed => exact fun h s here full p lowest => congrArg Host.Outcome.next (shedDue_shed here full lowest)
  case restored => exact fun h s here short sheds cool => congrArg Host.Outcome.next (shedDue_restored here short sheds cool)
  case trip =>
    exact fun h zone s here known up =>
      congrArg Host.Outcome.next (if_pos (by simp only [here, decide_eq_true known, bne_iff_ne.2 up, Bool.and_self]))
  case released =>
    exact fun s low long up sets held =>
      congrArg Host.Outcome.next ((resumeDue_due low long up).trans (if_pos (Bool.and_eq_true_iff.2 ⟨sets, held⟩)))
  case resumable => exact fun s low long up other => congrArg Host.Outcome.next ((resumeDue_due low long up).trans (if_neg other))
  case counts => exact fun h s here allowed => congrArg Host.Outcome.next (if_pos (Bool.and_eq_true_iff.2 ⟨here, allowed⟩))

end Sys2Proof.Machine
end

section
/-! PROOFS. Boot stages and resets, and what happens to the script and to the unlock (spec/01 R32; spec/13 R397, R399; spec/20 R569 to R572,
R581). -/

namespace Sys2Proof.Machine

/-! ### Boot and resets -/

/-- The end of a boot stage is not ignored while a package kindles (spec/20 R572). -/
theorem stageCounts {s : State} (boots : kindles s = true) : ¬ (!kindles s) = true := by rw [boots]; decide

/-- Kindling ends its last stage in EMBER, and runs a script that is good (spec/20 R571, R581). -/
theorem execKindlingComplete_last (ms : Nat) {s : State} (boots : kindles s = true) (last : s.sec.stage = 6) :
    execKindlingComplete ms s = .next (
      let t := bootDone { modBoot (fun x => { x with result := 1, bootMs := bootTime s }) s with pkg := .ember }
      if t.sec.scriptOk then scriptStart 0 0x40 t else t) :=
  congrArg Host.Outcome.next (if_pos (Bool.and_eq_true_iff.2 ⟨boots, beq_iff_eq.2 last⟩))

/-- Settles O30. That stage 1 loads the embers where no earlier reset has rests on log entry 151, and what a warm reset and a low RESET_N
hold and keep on log entries 83 and 60: all are the model's choices. -/
theorem bootAndResetEvents : Obligations.BootAndResetEvents := by
  refine ⟨?rise, ?k0, ?k1, ?k2, ?k3, ?k4, ?k5, ?scripted, ?complete, ?low, ?power, ?warm, ?notWarm⟩
  case rise => exact fun src ref s low => congrArg Host.Outcome.next (if_pos low)
  case k0 =>
    intro b s boots stage idle
    refine congrArg Host.Outcome.next ((if_neg (stageCounts boots)).trans ?_)
    rw [stage, idle]
    rfl
  case k1 =>
    intro b s boots stage idle embers
    refine congrArg Host.Outcome.next ((if_neg (stageCounts boots)).trans ?_)
    rw [stage, idle, Bool.false_or]
    exact if_neg embers
  case k2 => exact fun b s boots stage => congrArg Host.Outcome.next ((if_neg (stageCounts boots)).trans (by rw [stage]; rfl))
  case k3 => exact fun b s boots stage => congrArg Host.Outcome.next ((if_neg (stageCounts boots)).trans (by rw [stage]; rfl))
  case k4 => exact fun b s boots stage => congrArg Host.Outcome.next ((if_neg (stageCounts boots)).trans (by rw [stage]; rfl))
  case k5 => exact fun b s boots stage => congrArg Host.Outcome.next ((if_neg (stageCounts boots)).trans (by rw [stage]; rfl))
  case scripted => exact fun ms s boots last runs => (execKindlingComplete_last ms boots last).trans (congrArg Host.Outcome.next (if_pos runs))
  case complete =>
    exact fun ms s boots last none =>
      (execKindlingComplete_last ms boots last).trans (congrArg Host.Outcome.next (if_neg (Bool.eq_false_iff.1 none)))
  case low => exact fun s up => congrArg Host.Outcome.next (if_neg up)
  case power => exact fun _ => rfl
  case warm =>
    exact fun s due up booted =>
      congrArg Host.Outcome.next (if_pos (by simp only [due, bne_iff_ne.2 up, bne_iff_ne.2 booted, Bool.and_self]))
  case notWarm => exact fun s other => congrArg Host.Outcome.next (if_neg other)

/-! ### The script and the unlock -/

/-- The end of a signature check, with its event and replies where a HOST_UNLOCK still waits for it (spec/13 R399). -/
theorem execUnlockVerifyDone_of {nonce : Nat} {sig : List Word} {s : State} (verifies : s.cpx.verifying = some (nonce, sig)) :
    execUnlockVerifyDone s = .next (
      if Config.ecdsaVerify ((hostKeyNow s).getD 0) (unlockMessage s nonce) sig then
        endUnlock .ok 0
          (modCpx (fun c => { c with verifying := none, unlockFails := 0, lockoutEnd := none, unlocked := true, privFrom := privNext s }) s)
      else endUnlock .authFailed 2 (modCpx (fun c => { c with
        verifying := none, unlockFails := incSat 8 s.cpx.unlockFails
        lockoutEnd := if incSat 8 s.cpx.unlockFails = 8 then some (s.tbu.tick + 1 + unlockTicks) else c.lockoutEnd }) s)) := by
  unfold execUnlockVerifyDone
  simp only [verifies]

/-- A script that waits past the limit of its record has its packet answered TIMEOUT (spec/20 R581). -/
theorem scriptWaitDue_due {s : State} (idle : scriptIdle s = true) (first : s.cpx.script.retryAt.isNone = true)
    (limit : fld (scriptHeader s s.cpx.script.next) 24 8 ≠ 0) (waits : scriptWait s s.cpx.script.next = false)
    (due : scriptDue s + fld (scriptHeader s s.cpx.script.next) 24 8 * ticksPerSecond ≤ s.tbu.tick) :
    scriptWaitDue s = scriptReplied (fld (wordAt (scriptPacket s s.cpx.script.next) 0) 0 16) .timeout (s.tbu.tick + 1) (nextTime s) s :=
  if_pos (by simp only [idle, first, bne_iff_ne.2 limit, waits, decide_eq_true due, Bool.not_false, Bool.and_self])

/-- Settles O48: each event finds what it waits for; a signature check ends by its outcome. -/
theorem scriptAndUnlockEvents : Obligations.ScriptAndUnlockEvents := by
  refine ⟨?record, ?timeout, ?retry, ?verified, ?expiry, ?lockout⟩
  case record =>
    exact fun s idle first due waits =>
      congrArg Host.Outcome.next (if_pos (by simp only [idle, first, decide_eq_true due, waits, Bool.and_self]))
  case timeout =>
    exact fun s idle first limit waits due => congrArg Host.Outcome.next (scriptWaitDue_due idle first limit waits due)
  case retry => exact fun s idle due => congrArg Host.Outcome.next (if_pos (Bool.and_eq_true_iff.2 ⟨idle, due⟩))
  case verified => exact fun nonce sig s verifies => execUnlockVerifyDone_of verifies
  case expiry => exact fun s due => congrArg Host.Outcome.next (if_pos due)
  case lockout => exact fun s due => congrArg Host.Outcome.next (if_pos due)

end Sys2Proof.Machine
end

section
/-! PROOFS. Images, keys and attestation: the flash that IMAGE_WRITE writes, the security commands and the ends of their programming
(spec/20 R574, R585 to R592). -/

namespace Sys2Proof.Machine

/-! ### Sparse tables -/

/-- The entry under a key after another, or the same, key is set. -/
theorem kget_kset {α : Type} (m : KMap α) (k j : Nat) (v : α) : kget (kset m k v) j = if j = k then some v else kget m j := by
  induction m with
  | nil =>
    by_cases same : j = k
    · simp [kset, kget, same]
    · simp [kset, kget, same, Ne.symm same]
  | cons e m ih =>
    unfold kset
    split
    · by_cases same : j = k
      · simp [kget, same]
      · simp [kget, same, Ne.symm same]
    split
    · rename_i here
      by_cases same : j = k
      · simp [kget, same]
      · simp [kget, same, Ne.symm same, ← here]
    · rename_i past
      by_cases first : e.1 = j
      · subst first
        simp [kget, Ne.symm past]
      · simpa [kget, first] using ih

/-- Entries that stay, by their keys. -/
theorem kget_filter_keys {α : Type} (m : KMap α) (keep : Nat → Bool) (j : Nat) :
    kget (m.filter fun e => keep e.1) j = if keep j then kget m j else none := by
  induction m with
  | nil => simp [kget]
  | cons e m ih =>
    rw [List.filter_cons]
    by_cases first : e.1 = j
    · subst first
      split
      · simp [kget]
      · rename_i dropped
        rw [ih]
        simp [dropped]
    · have rest : kget (e :: m) j = kget m j := by simp [kget, first]
      split
      · simpa [kget, first] using ih
      · rw [ih, rest]

theorem kget_kerase {α : Type} (m : KMap α) (k j : Nat) : kget (kerase m k) j = if j = k then none else kget m j := by
  refine (kget_filter_keys m (· != k) j).trans ?_
  by_cases same : j = k
  · simp [same]
  · simp [same]

/-! ### The boot flash -/

/-- One word written to a memory that reads all ones where nothing is listed. -/
def putWord (m : KMap Word) (k : Nat) (w : Word) : KMap Word := if w = 0xFFFFFFFF then kerase m k else kset m k w

theorem putWord_getD (m : KMap Word) (k j : Nat) (w : Word) :
    kgetD (putWord m k w) j 0xFFFFFFFF = if j = k then w else kgetD m j 0xFFFFFFFF := by
  unfold putWord kgetD
  split
  · rename_i erased
    rw [kget_kerase]
    split
    · exact erased.symm
    · rfl
  · rw [kget_kset]
    split <;> rfl

/-- The words of a program, from word `n` of them on. -/
theorem putWords_from_getD (ws : List Word) (base n j : Nat) (m : KMap Word) :
    kgetD ((ws.zipIdx n).foldl (fun m e => putWord m (base + e.2) e.1) m) j 0xFFFFFFFF =
      if base + n ≤ j ∧ j < base + n + ws.length then wordAt ws (j - base - n) else kgetD m j 0xFFFFFFFF := by
  induction ws generalizing m n with
  | nil => rw [if_neg (by simp)]; rfl
  | cons w ws ih =>
    rw [List.zipIdx_cons, List.foldl_cons, ih, putWord_getD, List.length_cons]
    by_cases here : j = base + n
    · rw [if_neg (by omega), if_pos here, if_pos (by omega), show j - base - n = 0 by omega]
      rfl
    · by_cases later : base + (n + 1) ≤ j ∧ j < base + (n + 1) + ws.length
      · rw [if_pos later, if_pos (by omega), show j - base - n = (j - base - (n + 1)) + 1 by omega]
        rfl
      · rw [if_neg later, if_neg here, if_neg (by omega)]

/-- What a memory reads after words are written: these words, and elsewhere what it read. -/
theorem putWords_getD (m : KMap Word) (base j : Nat) (ws : List Word) :
    kgetD (putWords m base ws) j 0xFFFFFFFF = if base ≤ j ∧ j < base + ws.length then wordAt ws (j - base) else kgetD m j 0xFFFFFFFF :=
  putWords_from_getD ws base 0 j m

/-- A flash word after words are programmed from a byte offset on (spec/20 R574). -/
theorem flashWord_putFlash (offset a : Nat) (ws : List Word) (s : State) :
    flashWord (putFlash offset ws s) a =
      if offset / 4 ≤ a / 4 ∧ a / 4 < offset / 4 + ws.length then wordAt ws (a / 4 - offset / 4) else flashWord s a :=
  putWords_getD ..

/-- A flash word after a flash target is erased: in its area it reads all ones (spec/20 R586). -/
theorem flashWord_eraseTarget {target : Nat} (flash : target ≠ 2) (a : Nat) (s : State) :
    flashWord (eraseTarget target s) a =
      if 4 * (a / 4) < (targetArea s target).1 ∨ (targetArea s target).1 + (targetArea s target).2 ≤ 4 * (a / 4) then flashWord s a
      else 0xFFFFFFFF := by
  unfold eraseTarget
  rw [if_neg flash]
  refine (congrArg (Option.getD · 0xFFFFFFFF) (kget_filter_keys s.sec.flash
    (fun k => decide (4 * k < (targetArea s target).1) || decide ((targetArea s target).1 + (targetArea s target).2 ≤ 4 * k)) (a / 4))).trans ?_
  simp only [Bool.or_eq_true, decide_eq_true_eq]
  split <;> rfl

/-! ### IMAGE_WRITE -/

/-- Bytes that IMAGE_WRITE may write of a target (spec/20 R586). -/
def targetRoom (target : Nat) : Nat := if target = 3 then 0x10000 else 0x1000000

/-- What IMAGE_WRITE asks: no write under way, a target that has a place, and an offset that continues the transfer or starts one
(spec/20 R586). -/
structure ImageWriteOk (p : Packet) (s : State) : Prop where
  served : stagesRun s = false
  idle : (heldFor s 0x0D0A 0).isEmpty = true
  low : zeroAt (wordAt p.payload 0) 2 6 = true
  high : zeroAt (wordAt p.payload 0) 10 22 = true
  placed : (decide (2 ≤ fld (wordAt p.payload 0) 0 2) || s.sec.record.isSome) = true
  continues : if bitOf (wordAt p.payload 0) 8 then (wordAt p.payload 1).toNat == 0
    else s.sec.xfer.any fun x => x.target == fld (wordAt p.payload 0) 0 2 && x.offset == (wordAt p.payload 1).toNat
  fits : (wordAt p.payload 1).toNat + 4 * (p.payload.drop 2).length ≤ targetRoom (fld (wordAt p.payload 0) 0 2)

/-- The words of an IMAGE_WRITE in its target, which its first write erases. -/
def imageWritten (p : Packet) (s : State) : State :=
  let target := fld (wordAt p.payload 0) 0 2
  let offset := (wordAt p.payload 1).toNat
  let data := p.payload.drop 2
  let t := onlyIf (bitOf (wordAt p.payload 0) 8) (eraseTarget target) s
  let t := modBoot (fun x => { x with xfer := some { target := target, copy := spareCopy s, offset := offset + 4 * data.length } }) t
  writeTarget target offset data t

theorem imageWrite_taken {p : Packet} {s : State} (ok : ImageWriteOk p s) :
    imageWrite p s =
      if fld (wordAt p.payload 0) 0 2 = 2 then
        .reply .ok [] (onlyIf (bitOf (wordAt p.payload 0) 9) (modBoot fun x => { x with xfer := none }) (imageWritten p s))
      else .hold 0 none (imageWritten p s) := by
  have continues := (apply_ite (· = true) ..).mpr ok.continues
  exact (check_passes (by rw [ok.served, ok.idle]; decide) ..).trans
    (check_passes (Bool.and_eq_true_iff.2 ⟨by simp only [ok.low, ok.high, ok.placed, continues, Bool.and_self], decide_eq_true ok.fits⟩) ..)

/-- A flash word after an IMAGE_WRITE of a flash target: the words that it carries, and elsewhere what the erase has left. -/
theorem flashWord_imageWritten {p : Packet} {s : State} (flash : fld (wordAt p.payload 0) 0 2 ≠ 2) (a : Nat) :
    flashWord (imageWritten p s) a =
      let at_ := ((targetArea s (fld (wordAt p.payload 0) 0 2)).1 + (wordAt p.payload 1).toNat) / 4
      if at_ ≤ a / 4 ∧ a / 4 < at_ + (p.payload.drop 2).length then wordAt (p.payload.drop 2) (a / 4 - at_)
      else flashWord (onlyIf (bitOf (wordAt p.payload 0) 8) (eraseTarget (fld (wordAt p.payload 0) 0 2)) s) a := by
  have area (f : Bool) : targetArea (onlyIf f (eraseTarget (fld (wordAt p.payload 0) 0 2)) s) (fld (wordAt p.payload 0) 0 2)
      = targetArea s (fld (wordAt p.payload 0) 0 2) := by
    cases f with
    | false => rfl
    | true =>
      show targetArea (eraseTarget _ s) _ = _
      unfold eraseTarget
      rw [if_neg flash]
      rfl
  unfold imageWritten writeTarget
  dsimp only
  rw [if_neg flash, flashWord_putFlash, ← area (bitOf (wordAt p.payload 0) 8)]
  rfl

theorem targetArea_size (s : State) (target : Nat) : (targetArea s target).2 = targetRoom target := by
  unfold targetArea targetRoom
  split <;> rfl

/-- A word of flash outside a target is not erased with it, and one inside is when the target is. -/
theorem flashWord_started {target a : Nat} {s : State} (flash : target ≠ 2) (aligned : a % 4 = 0) (first : Bool) :
    flashWord (onlyIf first (eraseTarget target) s) a =
      if first = true ∧ (targetArea s target).1 ≤ a ∧ a < (targetArea s target).1 + (targetArea s target).2 then 0xFFFFFFFF
      else flashWord s a := by
  cases first with
  | false => rfl
  | true =>
    refine (flashWord_eraseTarget flash a s).trans ?_
    generalize targetArea s target = area
    by_cases inside : area.1 ≤ a ∧ a < area.1 + area.2
    · rw [if_neg (by omega), if_pos ⟨rfl, inside⟩]
    · rw [if_pos (by omega), if_neg (fun both => inside both.2)]

/-- Settles O26: the program lists the words that the command carries, within its target, over what the erase of a first write has left. -/
theorem imageWriteStaysInItsTarget : Obligations.ImageWriteStaysInItsTarget := by
  intro p s t ha room served idle w target offset data base size low high flash placed aligned whole fits starts continues
  have ok : ImageWriteOk p t := by
    refine ⟨served, by rw [idle]; rfl, low, high, ?_, ?_, (targetArea_size t target) ▸ fits⟩
    · simpa using placed
    · by_cases first : bitOf w 8 = true
      · exact (if_pos first).mpr (beq_iff_eq.2 (starts first))
      · obtain ⟨x, given, same, next⟩ := continues (Bool.eq_false_iff.2 first)
        refine (if_neg first).mpr ?_
        rw [given, Option.any_some, Bool.and_eq_true]
        exact ⟨beq_iff_eq.2 same, beq_iff_eq.2 next⟩
  refine ⟨imageWritten p t, congrArg Host.Outcome.next (ha.hold room ((imageWrite_taken ok).trans (if_neg flash))), ?outside, ?written, ?rest⟩
  case outside =>
    intro a word out
    refine ((flashWord_imageWritten flash a).trans
      (if_neg (?_ : ¬ ((base + offset) / 4 ≤ a / 4 ∧ a / 4 < (base + offset) / 4 + data.length)))).trans
      ((flashWord_started flash word _).trans (if_neg (?_ : ¬ (bitOf w 8 = true ∧ base ≤ a ∧ a < base + size))))
    · omega
    · omega
  case written =>
    intro k below
    refine ((flashWord_imageWritten flash (base + offset + 4 * k)).trans
      (if_pos (?_ : (base + offset) / 4 ≤ (base + offset + 4 * k) / 4 ∧ (base + offset + 4 * k) / 4 < (base + offset) / 4 + data.length))).trans
      (congrArg (wordAt data) (?_ : (base + offset + 4 * k) / 4 - (base + offset) / 4 = k))
    · omega
    · omega
  case rest =>
    intro a word above inside unwritten
    refine ((flashWord_imageWritten flash a).trans
      (if_neg (?_ : ¬ ((base + offset) / 4 ≤ a / 4 ∧ a / 4 < (base + offset) / 4 + data.length)))).trans
      ((flashWord_started flash word _).trans ?_)
    · omega
    · exact ite_congr (propext (and_iff_left ⟨above, inside⟩)) (fun _ => rfl) (fun _ => rfl)

/-! ### The security commands -/

theorem certRead_taken {p : Packet} {s : State} (known : fld (wordAt p.payload 0) 0 2 ≤ 1) (reserved : zeroAt (wordAt p.payload 0) 2 30 = true) :
    certRead p s =
      let der := (if fld (wordAt p.payload 0) 0 2 = 0 then Config.deviceCert else Config.nareriCert).take 2044
      .reply .ok (BitVec.ofNat 32 der.length :: packBytes der) s :=
  check_passes (Bool.and_eq_true_iff.2 ⟨decide_eq_true known, reserved⟩) ..

theorem execImageWriteDone_of {c : Held} {s : State} (waits : (heldFor s 0x0D0A 0).head? = some c) (ok : Bool) :
    execImageWriteDone ok s = .next (
      let last := bitOf (wordAt c.words 0) 9
      let t := onlyIf last (modBoot fun x => { x with xfer := none }) s
      if last && !ok then endHeld c .internal [] (spoilChunk c t) else endHeld c .ok [] t) := by
  unfold execImageWriteDone
  simp only [waits]

/-- IMAGE_ACTIVATE is served, with no reserved bit set and, to select a slot, a slot (spec/20 R577, R587). -/
structure ActivateOk (p : Packet) (s : State) : Prop where
  served : stagesRun s = false
  low : zeroAt (wordAt p.payload 0) 2 2 = true
  high : zeroAt (wordAt p.payload 0) 6 26 = true
  slot : fld (wordAt p.payload 0) 0 2 = 1 → fld (wordAt p.payload 0) 4 2 < 2

theorem ActivateOk.fields {p : Packet} {s : State} (ok : ActivateOk p s) :
    ¬ (!(zeroAt (wordAt p.payload 0) 2 2 && zeroAt (wordAt p.payload 0) 6 26)
      || (fld (wordAt p.payload 0) 0 2 == 1 && decide (2 ≤ fld (wordAt p.payload 0) 4 2))) = true := by
  simpa [ok.low, ok.high] using ok.slot

/-- An operation is no other. -/
theorem op_ne {op a b : Nat} (is : op = a) (other : a ≠ b) : op ≠ b := is ▸ other

/-- An operation that selects no slot may name any target. -/
theorem ActivateOk.of_op {p : Packet} {s : State} {n : Nat} (served : stagesRun s = false) (low : zeroAt (wordAt p.payload 0) 2 2 = true)
    (high : zeroAt (wordAt p.payload 0) 6 26 = true) (is : fld (wordAt p.payload 0) 0 2 = n) (other : n ≠ 1) : ActivateOk p s :=
  ⟨served, low, high, fun one => absurd one (op_ne is other)⟩

/-- What IMAGE_ACTIVATE does with a target that verifies (spec/20 R587). -/
def activateVerified (p : Packet) (s : State) : Done :=
  let w := wordAt p.payload 0
  if fld w 0 2 = 0 then .reply .ok [] (activated w .ok s)
  else if fld w 0 2 = 1 then .reply .ok [] (activated w .ok (selectSlot (fld w 4 2) s))
  else activateBoot w p (fld w 4 2) s

theorem imageActivate_target {p : Packet} {s : State} (ok : ActivateOk p s) (op : fld (wordAt p.payload 0) 0 2 ≠ 3)
    (placed : fld (wordAt p.payload 0) 4 2 < 2 → s.sec.record.isSome = true) :
    imageActivate p s = if targetVerifies s (fld (wordAt p.payload 0) 4 2) then activateVerified p s
      else .reply .authFailed [] (activated (wordAt p.payload 0) .authFailed s) := by
  have here : (decide (fld (wordAt p.payload 0) 4 2 < 2) && s.sec.record.isNone) = false := by
    by_cases slot : fld (wordAt p.payload 0) 4 2 < 2
    · rw [Option.isNone_eq_false_iff.2 (placed slot), Bool.and_false]
    · rw [decide_eq_false slot, Bool.false_and]
  unfold imageActivate
  dsimp only
  rw [if_neg (Bool.eq_false_iff.1 ok.served), if_neg ok.fields, if_neg op, here, Bool.false_or]
  cases targetVerifies s (fld (wordAt p.payload 0) 4 2) <;> rfl

theorem imageActivate_rollback {p : Packet} {s : State} (ok : ActivateOk p s) (op : fld (wordAt p.payload 0) 0 2 = 3)
    (idle : s.sec.rollbackProg = none) :
    imageActivate p s = if s.sec.fwSvn ≤ s.sec.rollback then .reply .ok [] (activated (wordAt p.payload 0) .ok s)
      else .hold 3 none (modBoot (fun x => { x with rollbackProg := some s.sec.fwSvn }) s) :=
  (if_neg (Bool.eq_false_iff.1 ok.served)).trans ((if_neg ok.fields).trans ((if_pos op).trans (if_neg (by simp [idle]))))

/-- A command that verifies what it acts on does what the rest of its handling does, or answers AUTH_FAILED with what that leaves. -/
theorem Accepted.verified {ci : CmdInfo} {l : Bool} {body : Packet → State → Done} {p : Packet} {s t bad out : State} {verifies : Bool}
    {done : Done} (ha : Accepted ci l p s t) (hb : body p t = if verifies then done else .reply .authFailed [] bad)
    (good : body p t = done → runCommandWith ci l body p s = out) :
    runCommandWith ci l body p s = if verifies then out else sendReply (heldOf ci p) .authFailed [] bad := by
  cases verifies with
  | true => exact good hb
  | false => exact ha.fail (st := .authFailed) (by decide) hb

/-- BOOT boots the target of its choice, from a slot through the boot selector (spec/20 R587). -/
def bootChosen (target : Nat) (s : State) : State :=
  modBoot (fun x => { x with bootNext := if target = 3 then none else some target }) (if target < 2 then selectSlot target s else s)

theorem activateVerified_boot {p : Packet} {s : State} (op : fld (wordAt p.payload 0) 0 2 = 2) :
    activateVerified p s =
      if s.pkg = .kindling then .reply .ok [] (activated (wordAt p.payload 0) .ok (restartBoot (bootChosen (fld (wordAt p.payload 0) 4 2) s)))
      else if s.holds.reset then .reply .busy [] (activated (wordAt p.payload 0) .busy s)
      else .hold 1 none (setHolds (fun x => { x with reset := true }) (bootChosen (fld (wordAt p.payload 0) 4 2) s)) :=
  (if_neg (by omega)).trans (if_neg (by omega))

/-- What OEM_KEY_WRITE asks of its key, which has not been provisioned (spec/20 R589). -/
structure KeyWriteOk (p : Packet) (s : State) : Prop where
  served : stagesRun s = false
  idle : s.sec.keyProg = none
  known : fld (wordAt p.payload 0) 0 2 ≤ 1
  blank : (if fld (wordAt p.payload 0) 0 2 = 0 then s.sec.oemKey else s.sec.hostKey) = none
  reserved : zeroAt (wordAt p.payload 0) 2 30 = true
  form : (keyBytes p.payload).head? = some 4
  padding : zeroAt (wordAt p.payload 25) 8 24 = true

/-- The key that signs a key (spec/20 R589). -/
def keySigner (id : Nat) (s : State) : Option Nat := if id = 0 then some Config.nareriProvisioningKey else oemKeyNow s

theorem oemKeyWrite_taken {p : Packet} {s : State} (ok : KeyWriteOk p s) :
    oemKeyWrite p s =
      let id := fld (wordAt p.payload 0) 0 2
      let bs := keyBytes p.payload
      check (Config.pointOnCurve (bytesValue bs)) .badParam s
        (check ((keySigner id s).any fun k => Config.ecdsaVerify k (uidBytes s ++ asBytes [4, id] ++ bs) (p.payload.drop 26)) .authFailed s
          (.hold 0 none (modBoot (fun x => { x with keyProg := some (id, bytesValue bs) }) s))) := by
  refine (check_passes (by simp [ok.served, ok.idle]) ..).trans ((if_neg (by rw [ok.blank]; simp)).trans ?_)
  simp only [decide_eq_true ok.known, ok.reserved, beq_iff_eq.2 ok.form, ok.padding, Bool.true_and]
  rfl

theorem execRollbackProgramDone_of {v : Nat} {s : State} (programs : s.sec.rollbackProg = some v) (ok : Bool) :
    execRollbackProgramDone ok s = .next (
      let old := s.sec.rollback
      let f := takeFree s
      let new := if ok then v else old + f.1.toNat % (v - old)
      let t := modBoot (fun x => { x with rollback := new, rollbackProg := none }) (if ok then s else f.2)
      let t := onlyIf (!ok) (raiseSource 0 488) t
      let t := onlyIf (new != old) (emit 0 0x0D19 [old, new]) t
      let st : Status := if ok then .ok else .internal
      let t := each (heldFor t 0x0D0B 3) (fun c u => activated (wordAt c.words 0) st u) t
      endHeldFor 0x0D0B 3 st [] t) := by
  unfold execRollbackProgramDone
  simp only [programs]

theorem execKeyProgramDone_of {id key : Nat} {s : State} (programs : s.sec.keyProg = some (id, key)) (ok : Bool) :
    execKeyProgramDone ok s = .next (
      let t := modBoot (fun x => { x with
        keyProg := none
        oemKey := if ok && id == 0 then some key else x.oemKey
        hostKey := if ok && id == 1 then some key else x.hostKey
        oemFrom := if ok && id == 0 then s.tbu.tick + 1 else x.oemFrom, hostFrom := if ok && id == 1 then s.tbu.tick + 1 else x.hostFrom }) s
      let t := onlyIf ok (emit 0 0x0D18 [id]) t
      endHeldFor 0x0D0C 0 (if ok then .ok else .internal) [] t) := by
  unfold execKeyProgramDone
  simp only [programs]

theorem execAttestSignDone_of {c : Held} {ws : List Word} {s : State} (waits : (s.cpx.held.find? fun c => c.op == 0x0D08) = some c)
    (filled : kget s.sec.reports c.key = some ws) :
    execAttestSignDone s = .next (endHeld c .ok (ws ++ Config.ecdsaSign (asBytes [8] ++ wordBytes ws))
      (modBoot (fun x => { x with reports := kerase x.reports c.key }) s)) := by
  unfold execAttestSignDone
  simp only [waits, filled]

/-- Settles O60. That a failed rollback program leaves a free number of fuses blown rests on log entry 6, what BOOT restarts on log entry
61, and the reply of a key that does not verify on log entry 64: all are the model's choices. -/
theorem securityRows : Obligations.SecurityRows := by
  refine ⟨?attest, ?cert, ?staged, ?flashed, ?spoiled, ?programmed, ?verify, ?select, ?current, ?rollback, ?restart, ?boot, ?rolled, ?key, ?keyed,
    ?signed⟩
  case attest => exact fun p s0 s ha room => congrArg Host.Outcome.next (ha.hold room rfl)
  case cert => exact fun p s0 s ha known reserved => congrArg Host.Outcome.next (ha.reply (certRead_taken known reserved))
  case staged =>
    intro p s0 s ha w target offset data first room served idle low high placed continues fits t u v staging
    exact congrArg Host.Outcome.next
      (ha.reply ((imageWrite_taken ⟨served, idle, low, high, placed, continues, fits⟩).trans (if_pos staging)))
  case flashed =>
    intro p s0 s ha w target offset data first room served idle low high placed continues fits t u v flash free
    exact congrArg Host.Outcome.next
      (ha.hold free ((imageWrite_taken ⟨served, idle, low, high, placed, continues, fits⟩).trans (if_neg flash)))
  case spoiled =>
    intro ok s c waits last t is bad
    exact (execImageWriteDone_of waits ok).trans
      (congrArg Host.Outcome.next (if_pos (Bool.and_eq_true_iff.2 ⟨is, by rw [bad]; rfl⟩)))
  case programmed =>
    intro ok s c waits last t good
    exact (execImageWriteDone_of waits ok).trans (congrArg Host.Outcome.next (if_neg good))
  case verify =>
    intro p s0 s ha w op target bad served low high placed is
    exact congrArg Host.Outcome.next (ha.verified (imageActivate_target (.of_op served low high is (by decide)) (op_ne is (by decide)) placed)
      (fun body => ha.reply (body.trans (if_pos is))))
  case select =>
    intro p s0 s ha w op target bad served low high placed is slot
    exact congrArg Host.Outcome.next (ha.verified (imageActivate_target ⟨served, low, high, fun _ => slot⟩ (op_ne is (by decide)) placed)
      (fun body => ha.reply (body.trans ((if_neg (op_ne is (by decide))).trans (if_pos is)))))
  case current =>
    intro p s0 s ha w op served low high is idle reached
    exact congrArg Host.Outcome.next (ha.reply ((imageActivate_rollback (.of_op served low high is (by decide)) is idle).trans (if_pos reached)))
  case rollback =>
    intro p s0 s ha w op served low high is idle behind room
    exact congrArg Host.Outcome.next
      (ha.hold room ((imageActivate_rollback (.of_op served low high is (by decide)) is idle).trans (if_neg (Nat.not_le.2 behind))))
  case restart =>
    intro p s0 s ha w op target bad served low high placed t is kindling
    exact congrArg Host.Outcome.next (ha.verified (imageActivate_target (.of_op served low high is (by decide)) (op_ne is (by decide)) placed)
      (fun body => ha.reply (body.trans ((activateVerified_boot is).trans (if_pos kindling)))))
  case boot =>
    intro p s0 s ha w op target bad served low high placed t u is up free room
    exact congrArg Host.Outcome.next (ha.verified (imageActivate_target (.of_op served low high is (by decide)) (op_ne is (by decide)) placed)
      (fun body => ha.hold room (body.trans ((activateVerified_boot is).trans ((if_neg up).trans (if_neg (Bool.eq_false_iff.1 free)))))))
  case rolled => exact fun ok s v programs => execRollbackProgramDone_of programs ok
  case key =>
    intro p s0 s ha w id bs signer msg served idle known blank reserved form padding room
    have body := oemKeyWrite_taken ⟨served, idle, known, blank, reserved, form, padding⟩
    refine congrArg Host.Outcome.next ?_
    by_cases off : Config.pointOnCurve (bytesValue bs) = false
    · exact (ha.fail (st := .badParam) (by decide) (body.trans (check_fails off ..))).trans (if_pos off).symm
    · exact (ha.signed room (body.trans (check_passes (Bool.not_eq_false _ ▸ off) ..))).trans (if_neg off).symm
  case keyed => exact fun ok s id key programs => execKeyProgramDone_of programs ok
  case signed => exact fun s c waits ws filled => execAttestSignDone_of waits filled

end Sys2Proof.Machine
end

section
/-! PROOFS. The SYS registers: the wide-value mailbox, the snapshot, the heartbeat, the package interrupts and register writes, and the step
that runs a queue's front command (spec/21 R601, R603, R607, R608, R613, R614). -/

namespace Sys2Proof.Machine

/-- Settles O1: `step` is a match on the queue. -/
theorem stepRunsFrontCommand : Obligations.StepRunsFrontCommand := ⟨fun _ _ _ => rfl, fun _ => rfl⟩

theorem heartbeatDue_steps {s : State} (runs : s.sys.hbCount ≠ 0) (phase : 480 ≤ s.sys.hbPhase) :
    heartbeatDue s = (
      let t := modSys (fun x => { x with hbCount := x.hbCount - 1, hbPhase := x.hbPhase - 480 }) s
      if s.sys.hbCount = 1 then emit 0 0x0128 (bytesOf 2 s.sys.hbLast) t else t) :=
  if_neg (not_or_intro runs (Nat.not_lt.2 phase))

/-- A register write that reaches the device: an aligned one while it is powered and out of reset (spec/21 R601). -/
structure WriteReaches (a : Nat) (s : State) : Prop where
  aligned : a % 4 = 0
  powered : s.sec.powered = true
  released : s.sec.resetLow = false

theorem WriteReaches.taken {a : Nat} {s : State} (ok : WriteReaches a s) :
    ¬ (a % 4 ≠ 0 ∨ s.sec.powered = false ∨ s.sec.resetLow = true) := by
  simp [ok.aligned, ok.powered, ok.released]

theorem execRegisterWrite_config {a : Nat} {s : State} (ok : WriteReaches a s) (f : Nat) (v : Word) :
    execRegisterWrite (64 + f) a v s = .next (writeConfig f a v s) := by
  unfold execRegisterWrite
  rw [if_neg ok.taken, if_pos (Nat.le_add_right 64 f), Nat.add_sub_cancel_left]

/-- A write of BAR0 that keeps every reserved field writes what may always be written, and PF0's own registers where it serves them
(spec/21 R602, R603). -/
theorem execRegisterWrite_kept {m a : Nat} {v : Word} {s : State} (ok : WriteReaches a s) (bar : m < 64) (kept : breaksReserved m a v s = false) :
    execRegisterWrite m a v s =
      .next (if m ≤ 2 ∧ s.pkg ≠ .doused then writePf0 m a v (writeAlways m a v s) else writeAlways m a v s) := by
  unfold execRegisterWrite
  rw [if_neg ok.taken, if_neg (Nat.not_le.2 bar), if_neg (Bool.eq_false_iff.1 kept)]

/-- The snapshot register is no lock register. -/
theorem ne_snapshot_of_rwoLocked {a : Nat} {s : State} (locked : rwoLocked s a = true) : a ≠ 0x60 := by
  rintro rfl
  simp [rwoLocked] at locked

/-- Settles O47. That a configuration write of function f is that of master 64 + f rests on log entry 147 (PRESUMED), which is the model's
choice. -/
theorem sysRegisterRows : Obligations.SysRegisterRows := by
  refine ⟨?wide, ?wideRead, ?snapshot, ?copy, ?heartbeat, ?expired, ?beat, ?enable, ?clear, ?config, ?nowhere, ?pf0, ?always, ?late, ?locked,
    ?applies, ?applied, ?pending⟩
  case wide => exact fun m id s mode allowed => congrArg Host.Outcome.next (if_neg (by simp [mode, allowed]))
  case wideRead => exact fun m s mode => congrArg Host.Outcome.next (if_neg (Bool.eq_false_iff.1 mode))
  case snapshot => exact fun go s goes mode allowed => congrArg Host.Outcome.next (if_pos (by simp [goes, mode, allowed]))
  case copy => exact fun s due => congrArg Host.Outcome.next (if_pos due)
  case heartbeat => exact fun m count s priv allowed => congrArg Host.Outcome.next (if_pos (Bool.and_eq_true_iff.2 ⟨priv, allowed⟩))
  case expired => exact fun s runs phase last => congrArg Host.Outcome.next ((heartbeatDue_steps runs phase).trans (if_pos last))
  case beat => exact fun s runs phase more => congrArg Host.Outcome.next ((heartbeatDue_steps runs phase).trans (if_neg more))
  case enable => exact fun m en s priv allowed => congrArg Host.Outcome.next (if_pos (Bool.and_eq_true_iff.2 ⟨priv, allowed⟩))
  case clear => exact fun mask s allowed => congrArg Host.Outcome.next (if_pos allowed)
  case config => exact fun f a v s aligned powered released => execRegisterWrite_config ⟨aligned, powered, released⟩ f v
  case nowhere => exact fun m a v s lost => if_pos lost
  case pf0 =>
    intro m a v s aligned powered released bar kept pf0 up
    exact (execRegisterWrite_kept ⟨aligned, powered, released⟩ bar kept).trans (congrArg Host.Outcome.next (if_pos ⟨pf0, up⟩))
  case always =>
    intro m a v s aligned powered released bar kept other
    refine (execRegisterWrite_kept ⟨aligned, powered, released⟩ bar kept).trans (congrArg Host.Outcome.next (if_neg ?_))
    rintro ⟨pf0, up⟩
    exact other.elim (fun past => Nat.not_lt.2 pf0 past) up
  case late => exact fun m a v s other open_ => (if_neg other).trans (if_neg (Bool.eq_false_iff.1 open_))
  case locked => exact fun m a v s locked => (if_neg (ne_snapshot_of_rwoLocked locked)).trans (if_pos locked)
  case applies => exact fun _ => rfl
  case applied => exact fun m a v s served => if_neg (fun dark => served.elim (fun up => up dark.1) dark.2)
  case pending =>
    intro m v s up
    show onlyIf (s.pkg != .doused) (modSys fun x => { x with snapPending := true }) s = _
    exact if_pos (bne_iff_ne.2 up)

end Sys2Proof.Machine
end
